-- ==== Sys2Proof/Word.lean ====
section
/-! DEFINITION. The word types of the model and the two shapes its stores take: bytes at addresses, and values at keys. -/
namespace Sys2Proof

/-- A byte of a register, a record, a tensor or a message. -/
abbrev Byte := BitVec 8

/-- A string of bytes, lowest address first. -/
abbrev Bytes := List (BitVec 8)

/-- Addressed bytes in canonical form: addresses strictly rising, no byte listed that equals 0.
An address that is not listed reads 0. -/
abbrev Mem := List (Nat × BitVec 8)

/-- Values at keys, keys strictly rising. A key that is not listed holds the owner's default. -/
abbrev Assoc (α : Type) := List (Nat × α)

end Sys2Proof
end

