-- ==== Sys2Proof/Types.lean ====
section
/-! DEFINITION. The records and names that commands carry and that State holds: what crosses the module's edge
(markers, packets, control flits, measurements) and the small named sets of the spec. -/
namespace Sys2Proof

/-- Stores that host software makes to its own memory before the write that the command stands for (log 4). -/
abbrev HostStores := List (Nat × BitVec 8)

/-- The three parts of a tide (02 R43): the working window, the slack up to the latch guard, and the latch guard. -/
inductive Phase where
  | work | slack | guard
  deriving DecidableEq, Repr

/-- The state of the module's step (13 Table 13-12, STEP_QUERY). -/
inductive StepState where
  | none | scheduled | running
  deriving DecidableEq, Repr

/-- Where an item stands between its consumption and its outcome record (03 R87, R96, R102 to R107). -/
inductive ItemStage where
  | consumed | admitted | held | ended | recorded
  deriving DecidableEq, Repr

/-- A position of the torus (11 R381), or the extents of a partition. -/
structure Pos where
  x : Nat := 0
  y : Nat := 0
  z : Nat := 0
  deriving DecidableEq, Repr

/-- A vote contribution (02 Table 2-4). Bit 5 of `cause` is LATE, which only a decision carries. -/
structure Contribution where
  step : BitVec 16 := 0
  idle : Bool := true
  ready : Bool := false
  no : Bool := false
  cause : BitVec 6 := 0
  deriving DecidableEq, Repr

/-- The VERDICT bits of a GATHER marker (09 R305). -/
structure VerdictC where
  isSealed : Bool := false
  ovf : Bool := false
  nv : Bool := false
  deriving DecidableEq, Repr

/-- A tide marker (11 Table 11-4); the kind is the command's row. -/
structure Marker where
  dist : Nat := 0
  partId : BitVec 16 := 0
  src : Pos := {}
  role : BitVec 2 := 0
  tide : Nat := 0
  vote : Contribution := {}
  verdict : VerdictC := {}
  decVerdict : Nat := 0
  decision : BitVec 32 := 0
  rate : Nat := 0
  slack : Nat := 0
  announce : Bool := false
  freezeTide : Nat := 0
  deriving DecidableEq, Repr

/-- The header of a packet of the collective lane (12 Table 12-9). -/
structure CollHeader where
  gid : BitVec 32 := 0
  launch : BitVec 32 := 0
  digest : BitVec 64 := 0
  chunk : Nat := 0
  rank : Nat := 0
  level : Nat := 0
  phase : Nat := 0
  packet : Nat := 0
  packets : Nat := 1
  flags : BitVec 4 := 0
  cause : Nat := 0
  check : BitVec 64 := 0
  tides : BitVec 64 := 0
  deriving DecidableEq, Repr

/-- The payload of PAIR and PAIR_REPLY (13 Table 13-1). -/
structure PairPayload where
  pos : Pos := {}
  feedId : BitVec 4 := 0
  ownBudget : Nat := 0
  partnerBudget : Nat := 0
  feedOverride : Bool := false
  deriving DecidableEq, Repr

/-- The payload of FILL_READ (13 Table 13-1). -/
structure FillRead where
  obj : Nat := 0
  part : Nat := 0
  buf : Nat := 0
  off : Nat := 0
  len : Nat := 0
  deriving DecidableEq, Repr

/-- The ferry header (13 Table 13-2). -/
structure FerryHeader where
  step : Nat := 0
  obj : Nat := 0
  part : Nat := 0
  fseq : Nat := 0
  off : Nat := 0
  check : BitVec 64 := 0
  deriving DecidableEq, Repr

/-- A packet header (11 Table 11-3) with the virtual lane (0 request to 4 management) its channel names (Table 11-6). -/
structure PacketHeader where
  dst : Pos := {}
  src : Pos := {}
  detour : Bool := false
  cls : Nat := 0
  partId : BitVec 16 := 0
  length : Nat := 1
  use : Nat := 0
  vl : Nat := 0
  deriving DecidableEq, Repr

/-- A data flit as received (11 Tables 11-1 and 11-2); `fecBad` says that it overlaps an uncorrectable FEC codeword. -/
structure Flit where
  seq : BitVec 12 := 0
  ack : BitVec 12 := 0
  ch : Nat := 0
  sop : Bool := false
  eop : Bool := false
  crdCh : Nat := 0
  crd : Nat := 0
  valid : Nat := 304
  payload : Bytes := []
  crc : BitVec 32 := 0
  fecBad : Bool := false
  deriving DecidableEq, Repr

/-- The payload of an IDENT control flit (11 Table 11-5). -/
structure IdentPayload where
  serial : BitVec 64 := 0
  pos : Option Pos := none
  strait : Nat := 0
  link : Nat := 0
  numv : BitVec 8 := 0
  wrap : BitVec 3 := 0
  partId : BitVec 16 := 0
  dim : Pos := {}
  deriving DecidableEq, Repr

/-- The signatures and failures that a test of a unit ended with (14 Table 14-12, TEST_QUERY). -/
structure TestResult where
  logicAct : BitVec 64 := 0
  logicExp : BitVec 64 := 0
  memAct : BitVec 64 := 0
  memExp : BitVec 64 := 0
  failCount : Nat := 0
  firstFail : Nat := 0
  deriving DecidableEq, Repr

/-- A sector of stored data, named by what it holds (log 13): `kind` 0 tensor, 1 factor set, 2 warm-start set;
`buf` 0 or 1 an epoch buffer, 2 or 3 the low plane of it. -/
structure SectorKey where
  kind : Nat := 0
  obj : Nat := 0
  buf : Nat := 0
  row : Nat := 0
  sector : Nat := 0
  deriving DecidableEq, Repr

/-- A RAS record (13 Table 13-7). -/
structure RasRec where
  seq : Nat := 0
  tide : Nat := 0
  sev : Nat := 15
  flags : BitVec 8 := 0
  cls : BitVec 16 := 0
  unitKind : Nat := 0
  cluster : BitVec 8 := 0xFF
  status : BitVec 8 := 0xFF
  logical : BitVec 32 := 0xFFFFFFFF
  physical : BitVec 32 := 0
  step : Nat := 0
  code : BitVec 32 := 0
  object : BitVec 64 := 0
  detail : BitVec 128 := 0
  deriving DecidableEq, Repr

/-- A ferry packet sent and not yet acknowledged (13 R437, R440). -/
structure FerryOut where
  use : Nat := 1
  hdr : FerryHeader := {}
  bytes : Bytes := []
  deriving DecidableEq, Repr

/-- What the module puts on its links (log 8). -/
inductive Sent where
  /-- A marker of kind 1 EDGE, 2 GATHER, 3 DECISION or 4 FREEZE. -/
  | marker (kind st ln : Nat) (mk : Marker)
  /-- A control flit of 11 Table 11-5 other than IDENT and the delay flits. -/
  | control (kind st ln link : Nat) (seq : BitVec 12) (position lane : Nat)
  | ident (st ln : Nat) (id : IdentPayload)
  | delay (kind st ln : Nat) (stamp : BitVec 64)
  /-- A data flit sent again. -/
  | flit (st ln : Nat) (f : Flit)
  /-- A slot given back to the far end. -/
  | credit (st ln ch n : Nat)
  /-- A packet forwarded or sent out of a strait. -/
  | packet (st : Nat) (h : PacketHeader) (bytes : Bytes)
  | coll (dst : Pos) (use : Nat) (h : CollHeader) (bytes : Bytes)
  | pair (dst : Pos) (p : PairPayload)
  | pairReply (dst : Pos) (p : PairPayload) (verdict : Nat)
  | fillRead (dst : Pos) (r : FillRead)
  | fillData (dst : Pos) (h : FerryHeader) (bytes : Bytes)
  | adoptReq (dst : Pos) (serial : BitVec 64) (feedId : BitVec 4) (pos : Pos)
  | adoptReply (dst : Pos) (code : Nat)
  | decisionReq (dst : Pos) (step : Nat)
  | decisionReply (dst : Pos) (word : BitVec 32)
  /-- A packet of the ferry lane with its USE. -/
  | ferry (dst : Pos) (use : Nat) (h : FerryHeader) (bytes : Bytes)
  | ferryAck (dst : Pos) (step fseq : Nat)
  | straitState (st : Option Nat) (mseq : Nat) (pos : Pos) (lost : BitVec 6) (active : BitVec 24) (tide : Nat)
  | deviceFailed (st : Option Nat) (mseq : Nat) (pos : Pos) (cls : BitVec 16) (tide : Nat)
  | adopted (st : Option Nat) (mseq : Nat) (pos : Pos) (serial : BitVec 64) (tide : Nat)
  deriving DecidableEq, Repr

/-- What a bring-up step found when it ended (14 Table 14-4): the measurements of the hardware that no register holds.
Each step reads the fields that its row names and ignores the others. -/
structure StepReport where
  /-- Step 3: index of an uncorrectable fuse word. -/
  fuseBad : Option Nat := none
  /-- Step 3: a fuse word was corrected. -/
  fuseCorrected : Bool := false
  /-- Step 4: the shared-logic signatures of each domain. -/
  sigs : List (Nat × BitVec 64 × BitVec 64 × BitVec 64 × BitVec 64) := []
  /-- Step 4: physical cores (cluster, P) that failed. -/
  coreFail : List (Nat × Nat) := []
  /-- Step 4: control cores that failed. -/
  ccFail : List Nat := []
  /-- Step 4: reduction units (link die, unit) that failed. -/
  ruFail : List (Nat × Nat) := []
  /-- Step 4: accumulator banks (cluster, P, bank) that failed. -/
  bankFail : List (Nat × Nat × Nat) := []
  /-- Step 5: the repair log could not be read or failed its checksum. -/
  logBad : Bool := false
  /-- Step 6: stacks that failed training or the write-read check. -/
  stacksBad : List Nat := []
  /-- Step 8: control cores that failed to load. -/
  ccLoadFail : List Nat := []
  /-- Step 8: cores that failed to load. -/
  coreLoadFail : List (Nat × Nat) := []
  /-- Milliseconds the step ran. -/
  elapsed : Nat := 0
  deriving DecidableEq, Repr

/-- What a failed read of host memory was for (15 Table 15-5). -/
inductive ReadFor where
  /-- The next descriptor of the channel in a slot. -/
  | descriptor (slot : Nat)
  /-- A HOST_TO_TENSOR transfer of the item (slot, SEQ). -/
  | transfer (slot seq : Nat)
  /-- The host part of a command body; `at` is the offset of the address field. -/
  | request (m off : Nat)
  deriving DecidableEq, Repr

/-- Where an in-program assembly leaves its targets (log 20): addresses of problem 0's matrix and right-hand side, their
strides, the number of problems, the matrix entries, the right-hand side entries, and the block size and pattern of a
block-sparse matrix (block 0: dense). -/
structure AsmPlace where
  mat : Nat := 0
  rhs : Nat := 0
  strideA : Nat := 0
  strideV : Nat := 0
  problems : Nat := 1
  n : Nat := 1
  m : Nat := 1
  block : Nat := 0
  rowptr : List Nat := []
  colidx : List Nat := []
  deriving DecidableEq, Repr, Inhabited

/-- What firmware measured and chose by the start of a slack (log 17): its plan for the next tide (02 R46), the
measurements of the working window (17 R550, R560). -/
structure SlackInputs where
  /-- Segments placed in the next tide: logical core, item order, instance, segment. -/
  placements : List (Nat × Nat × Nat × Nat) := []
  /-- Mean module input power over the working window, W (P_in), and its peak. -/
  pin : Nat := 0
  pinPeak : Nat := 0
  vin : Nat := 0
  iin : Nat := 0
  /-- Input-referred power of each cluster, W (P_c). -/
  pclu : List Nat := []
  temps : List Nat := []
  hbmTemps : List Nat := []
  inlet : Nat := 0
  outlet : Nat := 0
  /-- Work planned for the next tide of transfers and updates: item order, bytes or elements (02 R48, 09 R287). -/
  shares : List (Nat × Nat) := []
  /-- Nanoseconds of a core fill that remain at the edge, by logical core (14 R481). -/
  fillLeft : List (Nat × Nat) := []
  /-- The plan of the next tide is complete (14 R485). -/
  planDone : Bool := true
  deriving DecidableEq, Repr

end Sys2Proof
end

