-- ==== Sys2Proof/Syntax.lean ====
section
/-! DEFINITION. Instr: the commands of the module, one constructor per row of the command table, with the row's operands.
A command is a mailbox or security command executed by firmware, a register write or read, an event on a pin, a packet or
flit that arrives, a timer that expires, or one instruction executed by a logical core. -/
namespace Sys2Proof

/-- The commands of the module, in the order of the command table. -/
inductive Instr where
  /-- CHANNEL_CREATE (R82): Mailbox command that creates a channel of a given kind with its submission and outcome rings and its doorbell slot. -/
  | channelCreate (m : Nat)
  /-- CHANNEL_DESTROY (R89): Mailbox command that drains a channel, ends its outstanding items with ABORTED_DESTROY or their own status, and frees the slot. -/
  | channelDestroy (m : Nat)
  /-- CHANNEL_QUERY (R91): Mailbox command that returns a channel's kind, state, slot and ring indices. -/
  | channelQuery (m : Nat)
  /-- TENSOR_CREATE (R108): Mailbox command that checks format, role, protection, rank and extents, and allocates a zeroed tensor. -/
  | tensorCreate (m : Nat)
  /-- TENSOR_DESTROY (R109): Mailbox command that destroys a tensor unless an item, a mapping or an open step uses it. -/
  | tensorDestroy (m : Nat)
  /-- TENSOR_QUERY (R110): Mailbox command that returns a tensor's description, flags, LOST state and bytes. -/
  | tensorQuery (m : Nat)
  /-- TENSOR_SET_RETAIN (R112): Mailbox command that sets or clears the RETAIN mark of a tensor. -/
  | tensorSetRetain (m : Nat)
  /-- TENSOR_MAP (R111): Mailbox command that places a tensor range in the BAR2 window. -/
  | tensorMap (m : Nat)
  /-- TENSOR_UNMAP (R111): Mailbox command that removes a BAR2 mapping. -/
  | tensorUnmap (m : Nat)
  /-- PROGRAM_CREATE (R113): Mailbox command that reads and checks a gvc image and creates a program. -/
  | programCreate (m : Nat)
  /-- PROGRAM_DESTROY (R114): Mailbox command that destroys a program unless an admitted item names it. -/
  | programDestroy (m : Nat)
  /-- PROGRAM_QUERY (R114): Mailbox command that returns a program's description and image length. -/
  | programQuery (m : Nat)
  /-- HINT_SET (R115): Mailbox command that sets a cluster placement hint on a program or a channel. -/
  | hintSet (m : Nat)
  /-- HINT_CLEAR (R116): Mailbox command that removes an object's placement hint. -/
  | hintClear (m : Nat)
  /-- HINT_QUERY (R116): Mailbox command that returns an object's placement hint. -/
  | hintQuery (m : Nat)
  /-- PLAN_CREATE (R254): Mailbox command that checks a solver plan, its assembly descriptor and its pattern, and creates the plan. -/
  | planCreate (m : Nat)
  /-- PLAN_DESTROY (R283): Mailbox command that destroys a solver plan unless an item or a factor set names it. -/
  | planDestroy (m : Nat)
  /-- PLAN_QUERY (R283): Mailbox command that returns a plan's sizes, signature and descriptor. -/
  | planQuery (m : Nat)
  /-- FACTOR_SET_CREATE (R283): Mailbox command that allocates a factor set for a plan. -/
  | factorSetCreate (m : Nat)
  /-- FACTOR_SET_DESTROY (R283): Mailbox command that destroys a factor set unless an admitted item names it. -/
  | factorSetDestroy (m : Nat)
  /-- WARM_SET_CREATE (R272): Mailbox command that allocates an epoch-paired warm-start set. -/
  | warmSetCreate (m : Nat)
  /-- WARM_SET_DESTROY (R283): Mailbox command that destroys a warm-start set unless it is in use or a step is open. -/
  | warmSetDestroy (m : Nat)
  /-- WARM_SET_CLEAR (R283): Mailbox command that empties every slot of a warm-start set in both epochs. -/
  | warmSetClear (m : Nat)
  /-- GROUP_CREATE (R401): Mailbox command that creates a collective group in BOX or LIST form. -/
  | groupCreate (m : Nat)
  /-- GROUP_DESTROY (R403): Mailbox command that destroys a group unless a step is open or an item names it. -/
  | groupDestroy (m : Nat)
  /-- GROUP_QUERY (R403): Mailbox command that returns a group's identity, rank, diameter, digest and last launch. -/
  | groupQuery (m : Nat)
  /-- PAIR_SET (R433): Mailbox command that names the partner and the budgets, allocates the lagoon and starts the pairing exchange. -/
  | pairSet (m : Nat)
  /-- PAIR_QUERY (R433): Mailbox command that returns the pairing state, feeds, exposure and lagoon size. -/
  | pairQuery (m : Nat)
  /-- PAIR_CLEAR (R466): Mailbox command that clears the pairing and frees the lagoon. -/
  | pairClear (m : Nat)
  /-- STEP_OPEN (R441): Mailbox command that schedules a step to open at a named START_TIDE. -/
  | stepOpen (m : Nat)
  /-- STEP_QUERY (R466): Mailbox command that returns the state, vote and last decision of the module's step. -/
  | stepQuery (m : Nat)
  /-- STEP_ABORT (R441): Mailbox command that makes the module cast NO for the open or scheduled step. -/
  | stepAbort (m : Nat)
  /-- STATE_LOAD (R565): Mailbox command that writes host data into the committed epoch of a secured tensor, regenerates any working copy and ferries the data. -/
  | stateLoad (m : Nat)
  /-- SPARE_ARM (R449): Mailbox command that makes the module a hot spare that sends position 0xFF. -/
  | spareArm (m : Nat)
  /-- SPARE_ADOPT (R450): Mailbox command that gives a spare a lost module's position and starts the adoption. -/
  | spareAdopt (m : Nat)
  /-- ADOPT_QUERY (R466): Mailbox command that returns the adoption state and fill progress. -/
  | adoptQuery (m : Nat)
  /-- LEDGER_READ (R456): Mailbox command that returns outcome records built from the lost module's channel ledger. -/
  | ledgerRead (m : Nat)
  /-- LOSS_SCALE_SET (R309): Mailbox command that sets the loss-scale record and writes 2^EXP into its tensor. -/
  | lossScaleSet (m : Nat)
  /-- LOSS_SCALE_QUERY (R317): Mailbox command that returns the loss-scale record. -/
  | lossScaleQuery (m : Nat)
  /-- FLAGS_QUERY (R317): Mailbox command that returns the device and cluster flag summaries. -/
  | flagsQuery (m : Nat)
  /-- FLAGS_CLEAR (R319): Mailbox command that clears the device and cluster flag summaries between slacks. -/
  | flagsClear (m : Nat)
  /-- MASTER_CONFIG (R318): Mailbox command that changes a parameter's master mode, creating or discarding a low plane or a working copy. -/
  | masterConfig (m : Nat)
  /-- MASTER_QUERY (R317): Mailbox command that returns a parameter's master mode and working copy. -/
  | masterQuery (m : Nat)
  /-- SCALE_CONFIG (R316): Mailbox command that sets the scale record of an FP8 tensor and empties its window. -/
  | scaleConfig (m : Nat)
  /-- SCALE_QUERY (R317): Mailbox command that returns an FP8 tensor's scale record. -/
  | scaleQuery (m : Nat)
  /-- MEM_QUERY (R346): Mailbox command that returns free regions and per-stack state, free and retired granules. -/
  | memQuery (m : Nat)
  /-- MEM_LOCATE (R346): Mailbox command that returns the sector address, parity stack and width of a tensor byte. -/
  | memLocate (m : Nat)
  /-- SCRUB_START (R339): Mailbox command that starts a scrub of a tensor range or of all memory. -/
  | scrubStart (m : Nat)
  /-- SCRUB_QUERY (R341): Mailbox command that returns a scrub's state, counts and addresses. -/
  | scrubQuery (m : Nat)
  /-- SCRUB_CANCEL (R346): Mailbox command that cancels a running scrub. -/
  | scrubCancel (m : Nat)
  /-- PAGE_RETIRE (R342): Mailbox command that retires one granule, moving any region units off it. -/
  | pageRetire (m : Nat)
  /-- BANK_RETIRE (R343): Mailbox command that retires every granule of one bank of a stack. -/
  | bankRetire (m : Nat)
  /-- RETIRE_QUERY (R346): Mailbox command that returns the progress of a retirement ticket. -/
  | retireQuery (m : Nat)
  /-- UNIT_QUERY (R489): Diagnostics command that returns the physical binding and state of a logical unit. -/
  | unitQuery (m : Nat)
  /-- CORE_FLAGS (R489): Diagnostics command that returns the OR of a logical core's segment flags. -/
  | coreFlags (m : Nat)
  /-- UNIT_TEST (R486): Diagnostics command that moves a unit's logical number to a holm and tests the unit in service. -/
  | unitTest (m : Nat)
  /-- UNIT_RETIRE (R486): Diagnostics command that moves a unit's logical number to a holm and retires the unit. -/
  | unitRetire (m : Nat)
  /-- TEST_QUERY (R489): Diagnostics command that returns a test ticket's state and signatures. -/
  | testQuery (m : Nat)
  /-- LANE_MOVE (R373): Diagnostics command that moves a torus receive position to a holm lane. -/
  | laneMove (m : Nat)
  /-- MD_TEST (R488): Diagnostics command that takes a memory-side die's controllers and update unit out of service one at a time for test. -/
  | mdTest (m : Nat)
  /-- STACK_TEST (R487): Diagnostics command that re-stripes regions off a stack and runs memory BIST on it. -/
  | stackTest (m : Nat)
  /-- STACK_RETURN (R487): Diagnostics command that re-stripes regions back onto a stack that passed its test. -/
  | stackReturn (m : Nat)
  /-- REPAIR_LOG_READ (R477): Diagnostics command that returns entries of the repair log. -/
  | repairLogRead (m : Nat)
  /-- REPAIR_LOG_CLEAR (R477): Diagnostics command that clears the repair log in the manufacturing state. -/
  | repairLogClear (m : Nat)
  /-- GET_IDENTITY (R533): Security command that returns the identity certificate. -/
  | getIdentity
  /-- GET_ATTEST_CERT (R533): Security command that returns the attestation certificate once it is signed. -/
  | getAttestCert
  /-- ATTEST (R534): Security command that signs an attestation report over a nonce. -/
  | attest
  /-- CONFIG_LOG (R532): Security command that returns configuration event records. -/
  | configLog
  /-- SVN_COMMIT (R527): Security command that raises the anti-rollback floor to the running image's SVN. -/
  | svnCommit
  /-- REVOKE_SLOT (R528): Security command that blows a key slot's revocation bit. -/
  | revokeSlot
  /-- LIFECYCLE_SET (R529): Security command that moves the lifecycle state one step forward. -/
  | lifecycleSet
  /-- MBX_DOORBELL (R70): Write of a tag to a mailbox doorbell that starts the command in its request area. -/
  | mbxDoorbell (m : Nat) (tag : BitVec 32) (host : HostStores)
  /-- SEC_CMD (R535): Write of an opcode to SEC_CMD that starts a security command, or is ignored with CMD_LOST while BUSY. -/
  | secCmd (op : BitVec 8)
  /-- SUB_TAIL (R86): Write of a channel's submission producer index, ignored with BAD_INDEX when it is invalid or the channel drains. -/
  | subTail (slot : Nat) (v : BitVec 32) (host : HostStores)
  /-- OUT_HEAD (R86): Write of a channel's outcome consumer index, which returns outcome slots to firmware. -/
  | outHead (slot : Nat) (v : BitVec 32)
  /-- TID_RATE_REQ_GO (R65): Write of GO to TID_RATE_REQ on the acting master that checks and announces a new tide setting. -/
  | tidRateReqGo (v : BitVec 32)
  /-- TID_REPLAN_GO (R66): Write of GO to TID_REPLAN_CTL that checks a new master and backup for a named tide. -/
  | tidReplanGo
  /-- TID_CTL_RUN_START (R34): Write of TID_CTL.RUN = 1 that starts the tide generator. -/
  | tidCtlRunStart (v : BitVec 32)
  /-- TID_CTL_RUN_STOP (R383): Write of TID_CTL.RUN = 0 that stops the tide generator while no channel exists. -/
  | tidCtlRunStop (v : BitVec 32)
  /-- LNK_CTL_RUN_START (R377): Write of LNK_CTL.RUN = 1 that starts training on every link. -/
  | lnkCtlRunStart (v : BitVec 32)
  /-- LNK_CTL_RUN_STOP (R383): Write of LNK_CTL.RUN = 0 that takes every link DOWN while the tide generator is stopped. -/
  | lnkCtlRunStop (v : BitVec 32)
  /-- LNK_PLAN_LOAD (R381): Write of LNK_PLAN_CTL.LOAD that checks and loads the plan and starts discovery and bring-up step 10. -/
  | lnkPlanLoad
  /-- ACCEPT_DEGRADED (R386): Write of ACCEPT_DEGRADED that treats every mismatched strait as lost. -/
  | acceptDegraded
  /-- LNK_LINK_RETRY (R377): Write of a link's RETRY bit that returns a FAILED link to DOWN. -/
  | lnkLinkRetry (st ln : Nat)
  /-- PWR_CTL_ON (R467): Write of PWR_CTL ON bits that ramps power domains in group order, or is ignored with ORDER_ERR. -/
  | pwrCtlOn (v : BitVec 32)
  /-- BRG_GO_FUSE_LOAD (R470): GO 3 that loads the fuses, the serial number and the unit maps. -/
  | brgGoFuseLoad
  /-- BRG_GO_BIST (R476): GO 4 that runs logic and memory BIST in every tested domain. -/
  | brgGoBist
  /-- BRG_GO_RECONCILE (R474): GO 5 that reads the repair log, reconciles units and binds logical cores. -/
  | brgGoReconcile
  /-- BRG_GO_HBM_TRAINING (R470): GO 6 that trains the HBM PHYs and checks every pseudo-channel. -/
  | brgGoHbmTraining
  /-- BRG_GO_IMAGE_VERIFY (R525): GO 7 that makes the ROM check and verify the firmware image in FWL_. -/
  | brgGoImageVerify
  /-- BRG_GO_CONTROL_CORES (R470): GO 8 that starts the control cores and broadcasts firmware to every good core. -/
  | brgGoControlCores
  /-- BRG_GO_LINK_TRAINING (R472): GO 9 that sets LNK_CTL.RUN and trains and qualifies every link. -/
  | brgGoLinkTraining
  /-- BRG_GO_PLAN (R470): GO 10 that loads the plan, runs discovery and waits for tide lock. -/
  | brgGoPlan
  /-- BRG_GO_SPARE (R472): GO 10 with SPARE set that passes step 10 without a plan and readies the device as a spare. -/
  | brgGoSpare
  /-- BRINGUP_STEP_DONE (R471): A bring-up step finishes its work and ends PASSED, PASSED_DEGRADED or FAILED. -/
  | bringupStepDone (n : Nat) (rep : StepReport)
  /-- BRINGUP_STEP_TIMEOUT (R471): A started bring-up step or a domain ramp exceeds its timeout and the step ends FAILED. -/
  | bringupStepTimeout (n : Nat) (mask : BitVec 32)
  /-- FWL_WRITE (R473): Host write into the firmware window, accepted until step 7 passes. -/
  | fwlWrite (off : Nat) (bytes : List (BitVec 8))
  /-- FRZ_FREEZE_WRITE (R491): Write of FRZ_CTL.FREEZE that stops the clocks, with FREEZE markers when PROPAGATE is set. -/
  | frzFreezeWrite (v : BitVec 32)
  /-- FRZ_RELEASE (R494): Write of FRZ_CTL.RELEASE that releases a freeze and resumes at the parent's EDGE marker or at once on the master. -/
  | frzRelease (v : BitVec 32)
  /-- RAS_POP (R465): Write of RAS_POP that removes the oldest record from a RAS queue. -/
  | rasPop (pf : Nat)
  /-- STORM_CLEAR (R464): W1C write of STORM, accepted only while the queue holds 128 records or fewer. -/
  | stormClear (pf : Nat)
  /-- RST_CLEAR (R517): Write of RST_CLEAR that releases every reset-ledger entry when the ledger is complete. -/
  | rstClear
  /-- MSIX_UNMASK (R508): Unmasking of an MSI-X vector with its pending bit set, which sends one message. -/
  | msixUnmask (pf vec : Nat)
  /-- TID_COUNT_LO_READ (R68): Read of TID_COUNT_LO that captures the high word for the following TID_COUNT_HI read. -/
  | tidCountLoRead
  /-- RC_REGISTER_READ (R347): Read of a read-clear register that returns a count and clears it. -/
  | rcRegisterRead (pf off : Nat)
  /-- REGISTER_WRITE (R64): Write to a register without its own row, acting under its access kind with RWS writes rejected while the block runs. -/
  | registerWrite (pf off : Nat) (bytes : List (BitVec 8))
  /-- BAR2_READ (R502): Host read through the BAR2 window, served from the epoch in force or failed with Unsupported Request or poison. -/
  | bar2Read (off len : Nat)
  /-- BAR2_WRITE (R502): Host write through the BAR2 window, written, merged or discarded as Table 15-4 gives. -/
  | bar2Write (off : Nat) (bytes : List (BitVec 8))
  /-- CONFIG_REQUEST (R498): PCIe configuration request, ending in Unsupported Request for functions other than 0 and 1. -/
  | configRequest (fn : Nat) (write : Bool) (off : Nat) (v : BitVec 32)
  /-- HOST_READ_ERROR (R504): A device read of host memory ends in error and the descriptor, transfer or command reacts as Table 15-5 gives. -/
  | hostReadError (addr : BitVec 64) (what : ReadFor)
  /-- BUS_MASTER_ENABLE_CHANGE (R505): PF0 Bus Master Enable changes, holding or releasing PF0 requests, records and messages. -/
  | busMasterEnableChange (v : Bool)
  /-- D3HOT_ENTRY (R510): A function enters D3hot and answers configuration requests only. -/
  | d3hotEntry (pf : Nat)
  /-- D0_ENTRY (R506): A function returns to D0 without reset, and PF0 sends one LTR message when bus mastering is enabled. -/
  | d0Entry (pf : Nat)
  /-- FLR_PF0 (R512): Function-level reset of PF0 arrives and firmware stops accepting PF0 doorbells. -/
  | flrPf0
  /-- FLR_PF0_APPLY (R511): In the first slack after an FLR of PF0, firmware frees channels, mappings and unretained tensors and writes the reset ledger. -/
  | flrPf0Apply
  /-- FLR_PF1 (R518): Function-level reset of PF1 that resets PF1 configuration, vectors and freeze selectors. -/
  | flrPf1
  /-- HOST_LINK_DOWN (R520): The host link goes down or a hot reset arrives, acting as an FLR of both functions in the next slack. -/
  | hostLinkDown
  /-- PERST_ASSERT (R519): PERST# asserted: clocks stop, domains other than PD14 are removed and all device state is lost. -/
  | perstAssert
  /-- PERST_DEASSERT (R470): PERST# deasserted: bring-up step 1 begins and FEED_ID and ADDR_SEL are sampled. -/
  | perstDeassert (feedId : BitVec 4) (addrSel : BitVec 2)
  /-- FREEZE_N_FALL (R491): Falling edge on FREEZE_N with PIN_ENABLE set that freezes the module and may propagate. -/
  | freezeNFall
  /-- FREEZE_TIDE_REACHED (R492): The edge that begins FREEZE_TIDE is reached and the module freezes before any segment starts. -/
  | freezeTideReached
  /-- FRZ_ACCESS (R495): JTAG instruction that reads frozen state through FRZ_SEL and FRZ_OFFSET. -/
  | frzAccess (sel off : BitVec 32)
  /-- FRZ_FREEZE (R495): JTAG instruction that freezes the module as a FREEZE write without propagation. -/
  | frzFreeze
  /-- IDCODE (R495): JTAG instruction that selects the IDCODE register. -/
  | idcode
  /-- SAMPLE (R495): JTAG instruction that samples the boundary. -/
  | sample
  /-- BYPASS (R495): JTAG instruction, or any unassigned code, that selects the bypass register. -/
  | bypass (code : BitVec 8)
  /-- TIDE_EDGE (R43): Tide edge: RWL values take effect, planned clocks apply, TIDE_COUNT advances and segments start. -/
  | tideEdge
  /-- SLACK_START (R43): Slack begins: segments stop and overrun, engines ramp down and the slack bookkeeping runs. -/
  | slackStart (inp : SlackInputs)
  /-- LATCH_GUARD (R62): The latch guard begins 200 ns before the edge and freezes staged RWL values. -/
  | latchGuard
  /-- STEP_START_TIDE (R441): A scheduled step opens at its START_TIDE and its step summary is cleared. -/
  | stepStartTide
  /-- RATE_CHANGE_APPLY (R65): An announced tide setting applies at the edge that starts tide a + 2. -/
  | rateChangeApply
  /-- REPLAN_APPLY (R66): A replan's new master, backup and marker tree apply at the named tide. -/
  | replanApply
  /-- EDGE_MARKER (R37): An EDGE marker arrives, disciplining the local edge, adopting the count and being relayed. -/
  | edgeMarker (st ln : Nat) (mk : Marker)
  /-- GATHER_MARKER (R56): A child's GATHER marker carrying vote and verdict contributions arrives and is combined. -/
  | gatherMarker (st ln : Nat) (mk : Marker)
  /-- DECISION_MARKER (R58): A DECISION marker carrying the vote decision and the overflow verdict arrives and is applied and relayed. -/
  | decisionMarker (st ln : Nat) (mk : Marker)
  /-- FREEZE_MARKER (R492): A FREEZE marker with an unseen FREEZE_TIDE arrives and is relayed. -/
  | freezeMarker (st ln : Nat) (mk : Marker)
  /-- VOTE_FORWARD_DEADLINE (R57): A module's forwarding deadline passes and it sends its combined contribution, counting absent children as MISSING. -/
  | voteForwardDeadline
  /-- MASTER_DECISION (R56): At its send time the master decides YES, NO, IDLE or PENDING and broadcasts it. -/
  | masterDecision
  /-- DECISION_CLOSE_TIME (R60): The close time passes without a decision, and the module keeps the old epoch and re-enters. -/
  | decisionCloseTime
  /-- MARKER_MISS_LIMIT (R41): MISS_LIMIT tides pass without a marker, and the module enters holdover. -/
  | markerMissLimit
  /-- TIDE_REF_EDGE (R39): A TIDE_REF pulse arrives and the master disciplines its long-term frequency. -/
  | tideRefEdge
  /-- TIDE_REF_LOST (R558): No TIDE_REF edge arrives for 3 s, and the master holds its frequency. -/
  | tideRefLost
  /-- SEGMENT_START (R186): A segment starts on a core from the defined state, clearing core and accumulator memory. -/
  | segmentStart (l : Nat)
  /-- SEGMENT_BOUND_REACHED (R214): A segment's cycle count reaches its declared bound without SEGEND, and it stops with OVERRUN. -/
  | segmentBoundReached (l : Nat)
  /-- ENGINE_RAMP_DOWN (R182): After 256 cycles without operands, the engine disables its row groups. -/
  | engineRampDown (l : Nat)
  /-- SCALAR_INTEGER_OP (R198): Instruction ADD to MAX computing an integer result without flags. -/
  | scalarIntegerOp (l : Nat) (w : BitVec 64)
  /-- DIV (R199): Instruction DIV, DIVU, REM or REMU with defined division by zero and overflow. -/
  | div (l : Nat) (w : BitVec 64)
  /-- SCALAR_FLOAT_OP (R198): Instruction FADD to FLE computing in FP64 with flags. -/
  | scalarFloatOp (l : Nat) (w : BitVec 64)
  /-- LI (R198): Instruction that loads a sign-extended 47-bit immediate. -/
  | li (l : Nat) (w : BitVec 64)
  /-- LIH (R198): Instruction that sets the high 16 bits of a register. -/
  | lih (l : Nat) (w : BitVec 64)
  /-- CONDITIONAL_BRANCH (R200): Instruction B to BGEU that compares two registers and branches relative. -/
  | conditionalBranch (l : Nat) (w : BitVec 64)
  /-- CALL (R200): Instruction that writes the return address and jumps relative. -/
  | call (l : Nat) (w : BitVec 64)
  /-- JR (R200): Instruction that jumps to a register address. -/
  | jr (l : Nat) (w : BitVec 64)
  /-- CALLR (R200): Instruction that writes the return address and jumps to a register address. -/
  | callr (l : Nat) (w : BitVec 64)
  /-- CORE_MEMORY_LOAD (R201): Instruction LD8U to LD64 that loads from core memory. -/
  | coreMemoryLoad (l : Nat) (w : BitVec 64)
  /-- CORE_MEMORY_STORE (R201): Instruction ST8 to ST64 that stores to core memory. -/
  | coreMemoryStore (l : Nat) (w : BitVec 64)
  /-- WSET (R193): Instruction that checks a window descriptor and installs it. -/
  | wset (l : Nat) (w : BitVec 64)
  /-- WGET (R202): Instruction that writes a window's descriptor to core memory. -/
  | wget (l : Nat) (w : BitVec 64)
  /-- WCLR (R202): Instruction that empties a window. -/
  | wclr (l : Nat) (w : BitVec 64)
  /-- DMAIN (R202): Instruction that starts a converting DMA from a window into core memory. -/
  | dmain (l : Nat) (w : BitVec 64)
  /-- DMAOUT (R202): Instruction that starts a converting DMA from core memory into a window. -/
  | dmaout (l : Nat) (w : BitVec 64)
  /-- DMA_COMPLETE (R196): An outstanding DMA completes in issue order, possibly carrying a deferred memory fault. -/
  | dmaComplete (l : Nat)
  /-- LDW (R203): Instruction that converts one window element into a scalar register. -/
  | ldw (l : Nat) (w : BitVec 64)
  /-- STW (R203): Instruction that converts a scalar register into one window element. -/
  | stw (l : Nat) (w : BitVec 64)
  /-- VLDW (R203): Instruction that loads active vector elements from a window with conversion. -/
  | vldw (l : Nat) (w : BitVec 64)
  /-- VSTW (R203): Instruction that stores active vector elements into a window with conversion. -/
  | vstw (l : Nat) (w : BitVec 64)
  /-- VLDC (R203): Instruction that loads vector elements from core memory. -/
  | vldc (l : Nat) (w : BitVec 64)
  /-- VSTC (R203): Instruction that stores vector elements to core memory. -/
  | vstc (l : Nat) (w : BitVec 64)
  /-- CVT (R204): Instruction that converts a scalar or vector register between formats, with SR or FP8 scaling when selected. -/
  | cvt (l : Nat) (w : BitVec 64)
  /-- MATRIX_INSTRUCTION (R168): Matrix instruction that opens, continues or ends an accumulation group on a logical tile. -/
  | matrixInstruction (l : Nat) (w : BitVec 64)
  /-- MATRIX_END_COMPLETE (R177): An END's output stage finishes, releasing the tile, raising flags and posting ready notices. -/
  | matrixEndComplete (l : Nat)
  /-- ROWRD (R155): Instruction that copies one accumulator row into vector registers. -/
  | rowrd (l : Nat) (w : BitVec 64)
  /-- ROWWR (R155): Instruction that copies vector registers into one accumulator row. -/
  | rowwr (l : Nat) (w : BitVec 64)
  /-- EWT (R180): Instruction that combines two open tiles element-wise. -/
  | ewt (l : Nat) (w : BitVec 64)
  /-- EWV (R180): Instruction that combines a tile with a vector element-wise. -/
  | ewv (l : Nat) (w : BitVec 64)
  /-- EWS (R180): Instruction that scales a tile by a scalar. -/
  | ews (l : Nat) (w : BitVec 64)
  /-- ASM (R251): Instruction that starts the assembly stage on an assembly descriptor. -/
  | asm (l : Nat) (w : BitVec 64)
  /-- SLVS (R255): Instruction that starts the solver unit on a plan and an operand block. -/
  | slvs (l : Nat) (w : BitVec 64)
  /-- SOLVER_COMPLETE (R277): An in-program solve or assembly finishes and writes solutions and status words. -/
  | solverComplete (l : Nat)
  /-- SLVW (R280): Instruction that waits for the solver and writes the summary, taking any solver fault. -/
  | slvw (l : Nat) (w : BitVec 64)
  /-- SLVQ (R280): Instruction that returns one problem's status word. -/
  | slvq (l : Nat) (w : BitVec 64)
  /-- FRD (R208): Instruction that reads CSR_FLAGS. -/
  | frd (l : Nat) (w : BitVec 64)
  /-- FCLR (R208): Instruction that clears bits of CSR_FLAGS. -/
  | fclr (l : Nat) (w : BitVec 64)
  /-- CSRR (R208): Instruction that reads a CSR. -/
  | csrr (l : Nat) (w : BitVec 64)
  /-- CSRW (R208): Instruction that writes a CSR or faults with CSR_PRIV. -/
  | csrw (l : Nat) (w : BitVec 64)
  /-- NOP (R209): Instruction that does nothing. -/
  | nop (l : Nat) (w : BitVec 64)
  /-- FENCE (R209): Instruction that holds later instructions until earlier tensor writes are visible. -/
  | fence (l : Nat) (w : BitVec 64)
  /-- WAITD (R209): Instruction that waits until few enough DMAs are outstanding. -/
  | waitd (l : Nat) (w : BitVec 64)
  /-- WAITE (R209): Instruction that waits for every engine and output-stage operation. -/
  | waite (l : Nat) (w : BitVec 64)
  /-- WAITA (R209): Instruction that waits for DMAs, the engine and the solver unit. -/
  | waita (l : Nat) (w : BitVec 64)
  /-- SEGEND (R209): Instruction that drains the segment's writes and ends the segment, naming the next one. -/
  | segend (l : Nat) (w : BitVec 64)
  /-- VGRANT (R220): Instruction that grants a vector length from a register request. -/
  | vgrant (l : Nat) (w : BitVec 64)
  /-- VGRANTI (R220): Instruction that grants a vector length from an immediate request. -/
  | vgranti (l : Nat) (w : BitVec 64)
  /-- VGRANTRD (R220): Instruction that copies CSR_VL into a register. -/
  | vgrantrd (l : Nat) (w : BitVec 64)
  /-- PREDICATE_LOGIC (R223): Instruction PAND, POR, PANDN, PXOR or PNOT acting on whole predicates. -/
  | predicateLogic (l : Nat) (w : BitVec 64)
  /-- PWHILE (R223): Instruction that builds a loop-tail predicate. -/
  | pwhile (l : Nat) (w : BitVec 64)
  /-- PCOUNT (R223): Instruction that counts true predicate bits below VL. -/
  | pcount (l : Nat) (w : BitVec 64)
  /-- PFIRST (R223): Instruction that finds the lowest true predicate bit below VL. -/
  | pfirst (l : Nat) (w : BitVec 64)
  /-- VECTOR_FLOAT_OP (R226): Instruction VFADD to VFNEG, including fused VFMA, on active elements. -/
  | vectorFloatOp (l : Nat) (w : BitVec 64)
  /-- VECTOR_APPROXIMATION (R236): Instruction VRCPA, VRSQA, VEXPA or VLOGA computing truncated approximations. -/
  | vectorApproximation (l : Nat) (w : BitVec 64)
  /-- VECTOR_INTEGER_OP (R227): Instruction VADD to VMAXU on integer elements. -/
  | vectorIntegerOp (l : Nat) (w : BitVec 64)
  /-- VECTOR_COMPARE (R223): Vector compare that writes a predicate for active elements. -/
  | vectorCompare (l : Nat) (w : BitVec 64)
  /-- VREDSUM (R228): Instruction VREDSUM, VREDMAX, VREDMIN or VREDAMAX reducing over the fixed tree. -/
  | vredsum (l : Nat) (w : BitVec 64)
  /-- VREDSUMP (R229): Instruction that sums over the fixed tree in compensated pairs. -/
  | vredsump (l : Nat) (w : BitVec 64)
  /-- VSLIDEUP (R231): Instruction that slides elements up. -/
  | vslideup (l : Nat) (w : BitVec 64)
  /-- VSLIDEDN (R231): Instruction that slides elements down. -/
  | vslidedn (l : Nat) (w : BitVec 64)
  /-- VPERM (R231): Instruction that permutes elements by an index vector. -/
  | vperm (l : Nat) (w : BitVec 64)
  /-- VCOMPRESS (R231): Instruction that packs active elements to the low positions. -/
  | vcompress (l : Nat) (w : BitVec 64)
  /-- VMERGE (R231): Instruction that selects elements from two sources by predicate. -/
  | vmerge (l : Nat) (w : BitVec 64)
  /-- VBCAST (R231): Instruction that broadcasts a converted scalar. -/
  | vbcast (l : Nat) (w : BitVec 64)
  /-- VEXTS (R231): Instruction that extracts one element into a scalar register. -/
  | vexts (l : Nat) (w : BitVec 64)
  /-- VINSS (R231): Instruction that inserts a scalar into one element. -/
  | vinss (l : Nat) (w : BitVec 64)
  /-- VMOV (R231): Instruction that copies active elements. -/
  | vmov (l : Nat) (w : BitVec 64)
  /-- VGATHER (R232): Instruction that gathers window elements by index vector. -/
  | vgather (l : Nat) (w : BitVec 64)
  /-- VSCATTER (R233): Instruction that scatters elements to window indices with conversion. -/
  | vscatter (l : Nat) (w : BitVec 64)
  /-- VLDFF (R234): First-fault contiguous window load that shortens VL at a later faulting element. -/
  | vldff (l : Nat) (w : BitVec 64)
  /-- VGATHERFF (R234): First-fault gather that shortens VL at a later faulting element. -/
  | vgatherff (l : Nat) (w : BitVec 64)
  /-- VCVTP (R235): Instruction that converts one slice of a wider register. -/
  | vcvtp (l : Nat) (w : BitVec 64)
  /-- RUN (R97): Compute item that runs a program's instances over tides until every instance ends. -/
  | run (slot seq : Nat)
  /-- HOST_TO_TENSOR (R98): Transfer item that copies host memory into a tensor range. -/
  | hostToTensor (slot seq : Nat)
  /-- TENSOR_TO_HOST (R98): Transfer item that copies a tensor range to host memory. -/
  | tensorToHost (slot seq : Nat)
  /-- TENSOR_TO_TENSOR (R98): Transfer item that copies between two tensors. -/
  | tensorToTensor (slot seq : Nat)
  /-- SOLVE (R245): Solver item that assembles, solves and optionally retains factors and warm starts per problem. -/
  | solve (slot seq p iters : Nat)
  /-- ADJOINT (R269): Solver item that solves the transposed system with retained factors and runs the assembly transpose. -/
  | adjoint (slot seq p iters : Nat)
  /-- TANGENT (R270): Solver item that solves for a tangent with retained factors. -/
  | tangent (slot seq p iters : Nat)
  /-- ASSEMBLE (R284): Solver item that assembles matrices and right-hand sides without solving. -/
  | assemble (slot seq p : Nat)
  /-- ALL_REDUCE (R416): Collective item that reduces over all ranks into every member. -/
  | allReduce (slot seq : Nat)
  /-- REDUCE_SCATTER (R404): Collective item that reduces and leaves segment r at rank r. -/
  | reduceScatter (slot seq : Nat)
  /-- ALL_GATHER (R404): Collective item that gathers every rank's segment to every member. -/
  | allGather (slot seq : Nat)
  /-- BROADCAST (R404): Collective item that copies the root's elements to every member. -/
  | broadcast (slot seq : Nat)
  /-- ALL_TO_ALL (R404): Collective item that exchanges segments between all ranks. -/
  | allToAll (slot seq : Nat)
  /-- SEND (R404): Collective item that sends elements to one peer rank. -/
  | send (slot seq : Nat)
  /-- RECV (R404): Collective item that receives elements from one peer rank. -/
  | recv (slot seq : Nat)
  /-- UPDATE (R298): Update item that applies the update rule to every parameter element after the verdict and feeds the ferry. -/
  | update (slot seq n : Nat)
  /-- SEAL (R302): Update item that marks the end of a step's gradient work on the module. -/
  | seal (slot seq : Nat)
  /-- ITEM_BUDGET_EXPIRY (R96): An item's BUDGET runs out and it ends FAILED_DEADLINE with cause BUDGET. -/
  | itemBudgetExpiry (slot seq : Nat)
  /-- COLLECTIVE_GRACE_EXPIRY (R424): A collective not ended by the slack of t + 1 ends FAILED_DEADLINE with GRACE_EXPIRED. -/
  | collectiveGraceExpiry (slot seq : Nat)
  /-- JOIN_LIMIT_EXPIRY (R411): JOIN_LIMIT tides pass without START or all JOINs, and the launch is aborted. -/
  | joinLimitExpiry (slot seq : Nat)
  /-- CHUNK_START (R414): A link die starts a chunk once its slot and ready notices allow it. -/
  | chunkStart (slot seq chunk : Nat)
  /-- JOIN (R409): Collective packet announcing a member's admission to rank 0, which sends START once all have joined. -/
  | join (src : Pos) (h : CollHeader)
  /-- START (R410): Collective packet carrying the start and final tides of a launch. -/
  | start (src : Pos) (h : CollHeader)
  /-- DATA (R420): Collective data packet combined or written on arrival, with the chunk CRC checked at its last packet. -/
  | data (src : Pos) (h : CollHeader) (bytes : List (BitVec 8))
  /-- ACK (R422): Collective packet acknowledging a checked chunk to its producer. -/
  | ack (src : Pos) (h : CollHeader)
  /-- COMPLETE (R422): Collective packet telling rank 0 that a member is complete. -/
  | complete (src : Pos) (h : CollHeader)
  /-- GROUP_DONE (R422): Collective packet that carries END_TIDE and ends the launch on each member. -/
  | groupDone (src : Pos) (h : CollHeader)
  /-- ABORT (R425): Collective packet that ends a launch on every member with its cause and rank. -/
  | abort (src : Pos) (h : CollHeader)
  /-- LEAVE (R425): Collective packet telling rank 0 that a member's item ended locally. -/
  | leave (src : Pos) (h : CollHeader)
  /-- LOST (R427): Collective packet naming a lost chunk and tree node to its destination. -/
  | lost (src : Pos) (h : CollHeader)
  /-- REISSUE (R427): Collective packet that makes ranks under a node resend their leaves. -/
  | reissue (src : Pos) (h : CollHeader)
  /-- PREPASS (R417): Collective packet carrying ASSOC block exponents and marks. -/
  | prepass (src : Pos) (h : CollHeader) (bytes : List (BitVec 8))
  /-- FAIL (R421): Collective packet reporting a failed chunk check to rank 0. -/
  | fail (src : Pos) (h : CollHeader)
  /-- PAIR (R433): Request packet carrying a module's pairing position, feed and budgets. -/
  | pair (src : Pos) (p : PairPayload)
  /-- PAIR_REPLY (R434): Response packet with the partner's pairing verdict. -/
  | pairReply (src : Pos) (p : PairPayload) (verdict : Nat)
  /-- FILL_READ (R450): Request packet that reads part of a lagoon object for a spare's fill. -/
  | fillRead (src : Pos) (r : FillRead)
  /-- FILL_DATA (R450): Response packet carrying lagoon data to a filling spare. -/
  | fillData (src : Pos) (h : FerryHeader) (bytes : List (BitVec 8))
  /-- ADOPT_REQ (R451): Request packet from a spare asking the partner to accept its adoption. -/
  | adoptReq (src : Pos) (serial : BitVec 64) (feedId : BitVec 4) (pos : Pos)
  /-- ADOPT_REPLY (R451): Response packet accepting or refusing a spare's adoption. -/
  | adoptReply (src : Pos) (code : Nat)
  /-- DECISION_REQ (R457): Request packet asking the acting master for a step's decision. -/
  | decisionReq (src : Pos) (step : Nat)
  /-- DECISION_REPLY (R457): Response packet carrying a step's decision to a re-entering module. -/
  | decisionReply (src : Pos) (word : BitVec 32)
  /-- FERRY_DATA (R437): Ferry packet whose data the partner writes into its lagoon before acknowledging. -/
  | ferryData (src : Pos) (h : FerryHeader) (bytes : List (BitVec 8))
  /-- FERRY_ACK (R437): Ferry packet acknowledging a ferry write. -/
  | ferryAck (src : Pos) (step fseq : Nat)
  /-- RECORD (R436): Ferry packet carrying a record or object-table change. -/
  | record (src : Pos) (h : FerryHeader) (bytes : List (BitVec 8))
  /-- LEDGER (R455): Ferry packet carrying channel ledger entries. -/
  | ledger (src : Pos) (h : FerryHeader) (bytes : List (BitVec 8))
  /-- RESEED (R435): Ferry packet writing committed state into the partner's committed buffer. -/
  | reseed (src : Pos) (h : FerryHeader) (bytes : List (BitVec 8))
  /-- FERRY_RESEND_TIMER (R440): A ferry packet unacknowledged for 10 µs is resent. -/
  | ferryResendTimer (fseq : Nat)
  /-- STRAIT_STATE (R394): Management packet reporting a module's lost straits, from which detours and position loss follow. -/
  | straitState (arr : Nat) (mseq : Nat) (pos : Pos) (lost : BitVec 6) (active : BitVec 24) (tide : Nat)
  /-- DEVICE_FAILED (R447): Management packet announcing that a module's position is lost. -/
  | deviceFailed (arr : Nat) (mseq : Nat) (pos : Pos) (cls : BitVec 16) (tide : Nat)
  /-- ADOPTED (R450): Management packet announcing that a spare has adopted a position. -/
  | adopted (arr : Nat) (mseq : Nat) (pos : Pos) (serial : BitVec 64) (tide : Nat)
  /-- SPARE_FILL_COMPLETE (R450): A spare finishes fill and reseed and announces ADOPTED. -/
  | spareFillComplete
  /-- PACKET_FORWARD (R389): A packet arriving at a module is routed onward or delivered, or dropped by isolation. -/
  | packetForward (st : Nat) (h : PacketHeader) (bytes : List (BitVec 8))
  /-- PACKET_EOP_TIMEOUT (R359): A packet's EOP does not arrive within 10 µs of its SOP and it is discarded. -/
  | packetEopTimeout (st ln ch : Nat)
  /-- DATA_FLIT (R368): A data flit arrives and is accepted in order or discarded with a NAK. -/
  | dataFlit (st ln : Nat) (f : Flit)
  /-- NAK (R369): Control flit that makes the transmitter replay from the named SEQ. -/
  | nak (st ln : Nat) (seq : BitVec 12)
  /-- REPLAY_TIMEOUT (R369): ACK does not advance for 1 µs and the transmitter resends from the oldest flit. -/
  | replayTimeout (st ln : Nat)
  /-- REPLAY_LIMIT (R370): Eight replays resend the same SEQ and the link enters RETRAIN. -/
  | replayLimit (st ln : Nat)
  /-- SPARE_REQ (R374): Control flit asking the transmitter to move a position to a new lane. -/
  | spareReq (st ln pos lane : Nat) (seq : BitVec 12)
  /-- SPARE_ACK (R374): Control flit that makes the receiver switch its lane map. -/
  | spareAck (st ln pos lane : Nat) (seq : BitVec 12)
  /-- LANE_FAULT (R373): A lane's error rate passes its threshold or it loses lock, and the receiver starts a lane move. -/
  | laneFault (st ln lane : Nat)
  /-- IDENT (R384): Control flit carrying a neighbour's identity, compared with the plan. -/
  | ident (st ln : Nat) (id : IdentPayload)
  /-- IDENT_PERIOD (R384): The IDENT interval of 65,536 tides passes and IDENT is sent again. -/
  | identPeriod
  /-- DELAY_PROBE (R377): Control flit answered with a DELAY_REPLY. -/
  | delayProbe (st ln : Nat) (stamp : BitVec 64)
  /-- DELAY_REPLY (R377): Control flit from which the one-way link delay is measured. -/
  | delayReply (st ln : Nat) (roundTrip turnaround : Nat)
  /-- FAILOVER (R371): Control flit that makes the transmitter resend a lost link's flits on surviving links. -/
  | failover (st ln lostLn : Nat) (seq : BitVec 12)
  /-- CONTROL_REPEAT_TIMER (R363): 200 ns pass without an answer and SPARE_REQ, FAILOVER or DELAY_PROBE is repeated. -/
  | controlRepeatTimer (st ln : Nat)
  /-- LINK_SIGNAL_DETECTED (R377): A DETECT link sees signal on 16 lanes and enters EQUALISE. -/
  | linkSignalDetected (st ln : Nat) (lanes : BitVec 18)
  /-- LINK_NO_SIGNAL_TIMER (R377): A DETECT link sees no signal for 100 ms and shows NO_SIGNAL. -/
  | linkNoSignalTimer (st ln : Nat)
  /-- EQUALISE_DONE (R377): Equalisation trains 16 lanes and the link enters ALIGN. -/
  | equaliseDone (st ln : Nat) (lanes : BitVec 18)
  /-- ALIGN_DONE (R377): FEC lock and deskew complete and the link enters DELAY. -/
  | alignDone (st ln : Nat)
  /-- LINK_STATE_TIMEOUT (R377): EQUALISE, ALIGN, DELAY or RETRAIN exceeds its limit and the link goes FAILED. -/
  | linkStateTimeout (st ln : Nat)
  /-- QUALIFY_WINDOW_END (R378): The qualification window ends, lanes are classed and mapped and the link enters IDENT or FAILED. -/
  | qualifyWindowEnd (st ln bits : Nat) (errs : List Nat)
  /-- RETRAIN_DONE (R377): A retraining link returns to ACTIVE. -/
  | retrainDone (st ln : Nat)
  /-- LINK_LOSS_OF_SIGNAL (R377): An ACTIVE link loses signal for 1 ms or more and goes DOWN. -/
  | linkLossOfSignal (st ln : Nat)
  /-- DISCOVERY_DEADLINE (R385): Every link is settled or 10 s pass after QUALIFY, and each strait is judged. -/
  | discoveryDeadline
  /-- CAUSEWAY_LANE_THRESHOLD (R17): A causeway lane's error count passes its threshold and its traffic moves to the spare lane. -/
  | causewayLaneThreshold (cw lane : Nat)
  /-- CAUSEWAY_LANE_FAIL (R18): A causeway lane fails with no spare left and the causeway runs at half width. -/
  | causewayLaneFail (cw lane : Nat)
  /-- ACC_BANK_THRESHOLD (R156): A bank corrects more than 64 errors in 10,000 tides and its bank holm is brought into service. -/
  | accBankThreshold (l bank : Nat) (uncorrectable : Bool)
  /-- CORE_LOST (R478): Firmware declares a physical core lost, retires it and starts a holm fill or time-sharing. -/
  | coreLost (cl p cause : Nat)
  /-- CORE_FILL_COMPLETE (R481): A core holm's fill completes and the interrupted and planned segments are placed. -/
  | coreFillComplete (cl : Nat) (ok : Bool) (remaining : Nat)
  /-- CONTROL_CORE_LOST (R485): A control core is lost and a control-core holm takes over its work. -/
  | controlCoreLost (ccp : Nat)
  /-- REDUCTION_UNIT_FAILURE (R429): A reduction unit fails, a holm replaces it and its chunks are re-issued. -/
  | reductionUnitFailure (ld ru : Nat)
  /-- HOLM_BIST_PERIOD (R484): Every 2^20 tides idle holms are tested and failing ones retired. -/
  | holmBistPeriod (badCores : List (Nat × Nat)) (badCc : List Nat)
  /-- UNIT_TEST_COMPLETE (R486): An in-service unit test finishes and the unit becomes a holm or is retired. -/
  | unitTestComplete (ticket : Nat) (r : TestResult)
  /-- STACK_LOST (R335): A stack is lost and its regions are rebuilt, marked LOST or re-striped. -/
  | stackLost (k : Nat)
  /-- RESTRIPE_COMPLETE (R337): Every region off a lost stack is re-striped and the stack becomes RESTRIPED. -/
  | restripeComplete (k : Nat)
  /-- RESALT_START (R326): A region stays hot for RUN tides and its re-salt begins or is queued. -/
  | resaltStart (region : Nat)
  /-- RESALT_COMPLETE (R326): A re-salt migration finishes and the old granules are freed. -/
  | resaltComplete (region : Nat)
  /-- SCRUB_COMPLETE (R339): A scrub finishes its range and its summary becomes final. -/
  | scrubComplete (sid : Nat)
  /-- RETIREMENT_COMPLETE (R342): A page or bank retirement finishes moving units and marks granules retired. -/
  | retirementComplete (ticket : Nat)
  /-- POWER_DOMAIN_FAULT (R469): A power domain leaves regulation in service and firmware acts as Table 14-2 gives. -/
  | powerDomainFault (k : Nat)
  /-- VIN_LOW (R545): VIN falls below 48 V and VIN_LOW is set. -/
  | vinLow (mv : Nat)
  /-- VIN_HIGH (R545): VIN rises above 58 V and VIN_HIGH is set. -/
  | vinHigh (mv : Nat)
  /-- INPUT_PROTECTION (R545): VIN stays above 61 V for 10 µs and input protection opens. -/
  | inputProtection (mv : Nat)
  /-- INPUT_LOCKOUT (R545): VIN falls below the lockout threshold and the front-end converter is locked out. -/
  | inputLockout (mv : Nat)
  /-- CONVERTER_STOP (R546): The front-end converter stops, clocks stop and domains are removed from hold-up energy. -/
  | converterStop (cause : Nat) (written : Bool)
  /-- THERMAL_TRIP (R552): A compute die reaches 105 °C and the emergency throttle halves its clock. -/
  | thermalTrip (d : Nat) (temp : Nat)
  /-- THERMAL_TRIP_CLEAR (R552): A tripped compute die falls to 100 °C and its capped clock returns at an edge. -/
  | thermalTripClear (d : Nat) (temp : Nat)
  /-- THERMAL_SHUTDOWN (R553): A die or stack stays at 115 °C for 100 µs and the module shuts down. -/
  | thermalShutdown (unit : Nat) (temp : Nat)
  /-- HOT_WARNING (R553): A die without a throttle or a stack reaches 100 °C and HOT is raised. -/
  | hotWarning (unit : Nat) (temp : Nat)
  /-- ELECTRICAL_THROTTLE (R551): Input power exceeds its limits and every compute die's clock is halved. -/
  | electricalThrottle (avg : Nat)
  /-- ELECTRICAL_THROTTLE_CLEAR (R551): The 1 ms input average falls to 4,950 W or less and clocks are restored at an edge. -/
  | electricalThrottleClear (avg : Nat)
  /-- COOLANT_WARM (R549): The coolant inlet exceeds 40 °C and the effective cap is lowered. -/
  | coolantWarm (inlet : Nat)
  /-- ATTEST_CERT_READY (R533): The security engine finishes signing the attestation certificate after step 11. -/
  | attestCertReady
  /-- SMB_READ_VIN (R561): SMBus command 0x01 that returns TEL_VIN. -/
  | smbReadVin
  /-- SMB_READ_IIN (R561): SMBus command 0x02 that returns TEL_IIN. -/
  | smbReadIin
  /-- SMB_READ_PIN (R561): SMBus command 0x03 that returns TEL_PIN. -/
  | smbReadPin
  /-- SMB_READ_TEMP (R561): SMBus command 0x04 that returns the highest die or stack temperature. -/
  | smbReadTemp
  /-- SMB_READ_INLET (R561): SMBus command 0x05 that returns the coolant inlet temperature. -/
  | smbReadInlet
  /-- SMB_READ_OUTLET (R561): SMBus command 0x06 that returns the coolant outlet temperature. -/
  | smbReadOutlet
  /-- SMB_READ_STATUS (R561): SMBus command 0x07 that returns TEL_STATUS and releases SMB_ALERT#. -/
  | smbReadStatus
  /-- SMB_READ_LAST_OFF (R561): SMBus command 0x08 that returns TEL_LAST_OFF. -/
  | smbReadLastOff
  /-- SMB_READ_SERIAL (R561): SMBus block read 0x09 that returns ID_SERIAL. -/
  | smbReadSerial
  /-- SMB_READ_CAP_EFF (R561): SMBus command 0x0A that returns TEL_CAP_EFF. -/
  | smbReadCapEff
  /-- SMB_ALERT_RESPONSE (R561): SMBus Alert Response Address read answered by the module. -/
  | smbAlertResponse
  /-- SMB_UNASSIGNED_COMMAND (R561): SMBus command with an unassigned code, answered with 0xFF data. -/
  | smbUnassignedCommand (code : BitVec 8)
  /-- SOFT_START (R547): VIN rises through 46 V, the front-end converter leaves lockout and soft start raises PD14 with SMBus answering. -/
  | softStart (mv : Nat)
  /-- POWER_DOMAIN_GOOD (R467): A ramping power domain reaches regulation, its GOOD bit sets and the device starts the next requested domain's ramp. -/
  | powerDomainGood (k : Nat)
  /-- HOST_LINK_UP (R520): The host link retrains after a loss or hot reset and the device leaves the state in which it was held. -/
  | hostLinkUp
  /-- COOLANT_WARM_END (R549): The coolant inlet falls back to 40 °C or below, COOLANT_WARM clears and the effective cap returns to TEL_CAP. -/
  | coolantWarmEnd (inlet : Nat)
  /-- VIN_IN_RANGE (R545): VIN returns to the 48 V to 58 V range, VIN_LOW or VIN_HIGH clears and the excursion ends. -/
  | vinInRange (mv : Nat)
  deriving DecidableEq, Repr

end Sys2Proof
end

