-- ==== Sys2Proof/Decode.lean ====
section
/-! DEFINITION. The command table gives its rows no bits: commands reach the module as register writes, packets and events,
and no word spells one. -/
namespace Sys2Proof

/-- The command that a word spells by the table's bits: none, since no row has bits. -/
def decodeTableWord (_nbits _w : Nat) : Option Instr := none

end Sys2Proof
end

