-- ==== Sys2Proof/Config.lean ====
section
/-! DEFINITION. What the spec leaves open: constants without a body, so that nothing can be proved of their values.
Those that name a free value take the free-value counter of State (log 3); the others take what the spec says they
depend on. -/
namespace Sys2Proof.Config

/-- The keyed rotation of a row over its region's stacks (10 R323; log 11). -/
opaque rowRotation (salt : BitVec 64) (row : Nat) : Nat
/-- The key by which a salt orders the slots of a granule on a stack: the slot of a row is its rank (10 R323; log 11). -/
opaque slotKey (salt : BitVec 64) (stack row : Nat) : Nat
/-- The row of the lagoon at which firmware puts an object's part in a buffer (10 R345 names no place; log 11). -/
opaque lagoonAt (obj part : Nat) : Nat
/-- The salt drawn by the security engine's random generator (10 R323; log 11). -/
opaque salt (n : Nat) : BitVec 64
/-- What the sector decoder makes of an error in more than 6 stored bytes: nothing (uncorrectable), or a wrong
correction that leaves these 64 bytes XORed into the data (10 R331 promises detection up to 6 bytes only; log 12). -/
opaque rsBeyondSix (err : Bytes) : Option Bytes
/-- CSR_CYCLE at a read: the spec bounds the costs and does not fix them (06 R190, R217; log 19). -/
opaque cycleCount (n : Nat) : BitVec 32
/-- The code that a first-fault load records for suppressed uncorrectable data: 07 R234 asks for the fault code and
06 R196 gives that fault none (log 21). -/
opaque vffMemoryCode : BitVec 16
/-- Elements of an output stage's tile that stand written when the slack stops it: the row it is writing is completed,
and which row that is depends on time (05 R172; log 22). -/
opaque outputDone (n : Nat) : Nat

/-- Which Householder reflection a QR factorisation forms: 08 R257 names the reflections and states neither the sign that
r_kk takes from the column above a 0 pivot place nor the scaling of the vector (log 20). True: r_kk has the sign opposite to
a_kk's. -/
opaque qrOpposite (fmt : Nat) (akk norm : BitVec 64) : Bool
/-- How that reflection is scaled: 0 by 2 ÷ vᵀv, 1 by the vector's first element, else by the vector's length (log 20). -/
opaque qrScaling (fmt : Nat) : Nat
/-- How a Givens rotation is formed: 0 from the root of the sum of squares, else from the quotient of the smaller by the
larger element (08 R263, R265 name it and state no formula; log 20). -/
opaque givensForm : Nat
/-- WORK_BYTES of a plan: 08 Table 8-13 reports it and states no formula (log 20). -/
opaque workBytes (desc : Bytes) : Nat
/-- Byte `i` of WORK after an SLVS on a plan and its inputs: 08 gives the workspace no layout (log 20). -/
opaque workByte (desc : Bytes) (inputs : List (BitVec 64)) (i : Nat) : BitVec 8
/-- What a later SLVS makes of a workspace that the program changed (08 R256; log 20): factors, further data, pivots. -/
opaque factorsFrom (work : Bytes) (problem : Nat) : List (BitVec 64) × List (BitVec 64) × List Nat
/-- SLVQ of a problem beyond those of the last solve, whose status words are given (log 20). -/
opaque slvqBeyond (status : List (BitVec 64)) (problem : BitVec 64) : BitVec 64
/-- Where an in-program ASM puts its targets: 08 Table 8-3 names no address (log 20). -/
opaque asmPlace (desc records : Bytes) : AsmPlace

/-- Firmware's choice number `n`, where the spec leaves it to firmware (granules, slots, offsets): used modulo the number
of alternatives (log 10). -/
opaque choice (n : Nat) : Nat

/-- The byte offset in the DETAIL of a refusal whose reason concerns no field of the request (03 Table 3-4 asks for one;
log 24). -/
opaque noField (op reason : Nat) : Nat

/-- Device memory that one problem of a factor set takes: 08 Table 8-8 lists what is kept and no sizes (log 20). -/
opaque factorBytes (desc : Bytes) : Nat

/-- STATE of a problem that an ASSEMBLE built, NOT_RUN or SOLVED, by its plan and index (08 R284 says that it solves nothing;
log 20). -/
opaque assembleState (desc : Bytes) (problem : Nat) : Bool

/-- A packet leaves before the notice cutoff of the tide (12 R409, R422): the cutoff is a time and the model has no
clock within a tide (log 30). -/
opaque beforeCutoff (n : Nat) : Bool

/-- The boot ROM, whose digest is M0 (16 Table 16-5): the spec does not list it (log 35). -/
opaque bootRom : Bytes
/-- SLH-DSA (16 R522; log 35): the identity key pair of a seed, the attestation key pair of a draw, and verification. The
spec names the standard; the model takes the functions without their definition. -/
opaque identityPublic (seed : BitVec 384) : Bytes
opaque identitySign (seed : BitVec 384) (msg : Bytes) : Bytes
opaque attestPublic (draw : Nat) : Bytes
opaque attestSign (draw : Nat) (msg : Bytes) : Bytes
opaque slhVerify (pub msg sig : Bytes) : Bool

/-- Bytes in a space of a die's frozen state, 0 for an unassigned selection (14 Table 14-16: the spec lists neither the
chains nor the arrays; log 36). -/
opaque frozenLen (sel : BitVec 32) : Nat
/-- A byte of a space at freeze number `n` (log 36). -/
opaque frozenByte (n : Nat) (sel : BitVec 32) (off : Nat) : BitVec 8
/-- The boundary register that SAMPLE takes (14 Table 14-15; log 36). -/
opaque boundary (n : Nat) : Bytes

/-- What a configuration word whose contents the manual does not give reads, where `w` was written to it (15 R509; log 25). -/
opaque cfgWord (fn off : Nat) (w : BitVec 32) : BitVec 32

end Sys2Proof.Config
end

