-- ==== Sys2Proof/Machine/State.lean ====
section
/-! DEFINITION. State: every register, table, record, queue and mode that the spec gives the module, as plain data, with
the state after reset. Each field's docstring names the rule of the spec that gives it. -/
namespace Sys2Proof.Machine

/-- An RWL register: the active value, the value staged for the next edge, and a value staged during the latch guard (02 R62). -/
structure RwlReg where
  /-- 32; 02_tide R62. -/
  active : BitVec 32 := 0
  /-- 32; 02_tide R62. -/
  staged : BitVec 32 := 0
  /-- 32, optional; 02_tide R62. -/
  late : Option (BitVec 32) := none
  deriving DecidableEq, Repr

/-- A tide setting announced under R65. -/
structure Announced where
  /-- 6 bits; 02_tide R65. -/
  rate : Nat := 0
  /-- 5 bits; 02_tide R65. -/
  slack : Nat := 0
  /-- 64-bit tide; 02_tide R65. -/
  tide : Nat := 0
  deriving DecidableEq, Repr

/-- The tide generator and the TID_ registers (02 R34-R68). -/
structure TideBlock where
  /-- 64 bits; 02_tide R34. -/
  count : Nat := 0
  /-- 32; 02_tide R68. -/
  countHi : BitVec 32 := 0
  /-- 3 values; 02_tide R43. -/
  phase : Phase := .work
  /-- 6 bits; 02_tide R35, Table 2-7. -/
  rate : Nat := 20
  /-- 5 bits; 02_tide R35, Table 2-7. -/
  slack : Nat := 4
  /-- 8 bits; 02_tide R37, Table 2-8. -/
  depth : Nat := 0
  /-- 8 bits; 02_tide R57, Table 2-8. -/
  dist : Nat := 0
  /-- 1; 02_tide Table 2-8. -/
  ratePending : Bool := false
  /-- 1; 02_tide R60, Table 2-8. -/
  decisionLost : Bool := false
  /-- 2 bits (TID_STATUS.THROTTLED is age > 0); 02_tide R53. -/
  throttleAge : Nat := 0
  /-- 1; 02_tide R41. -/
  holdover : Bool := false
  /-- 1; 02_tide Table 2-8. -/
  locked : Bool := false
  /-- 2 (TID_STATUS.ROLE); 02_tide Table 2-8. -/
  roleNow : BitVec 2 := 0
  /-- 1 (TID_CTL.RUN, TID_STATUS.RUNNING); 02_tide Tables 2-8, 2-11. -/
  run : Bool := false
  /-- 32; 02_tide Table 2-9. -/
  lastDecision : BitVec 32 := 0
  /-- 1; 02_tide R64, Table 2-11. -/
  writeRejected : Bool := false
  /-- 1; 02_tide R39, Table 2-11. -/
  refSel : Bool := false
  /-- 2 (TID_CTL.ROLE); 02_tide Table 2-11. -/
  roleCtl : BitVec 2 := 0
  /-- 3 x 6; 02_tide Table 2-12. -/
  master : Pos := {}
  /-- 3 x 6; 02_tide Table 2-12. -/
  backup : Pos := {}
  /-- 3 x 6: the acting master; 02_tide R42. -/
  acting : Pos := {}
  /-- 64; 02_tide Table 2-13. -/
  start : BitVec 64 := 0
  /-- 6 bits; 02_tide Table 2-14. -/
  reqRate : Nat := 20
  /-- 5 bits; 02_tide Table 2-14. -/
  reqSlack : Nat := 4
  /-- 24; 02_tide Table 2-14. -/
  applyTide : BitVec 24 := 0
  /-- 3 bits; 02_tide Table 2-14. -/
  rateState : Nat := 0
  /-- optional; 02_tide R65. -/
  announced : Option Announced := none
  /-- 32 (WAIT_LIMIT); 02_tide Table 2-15. -/
  voteCfg : RwlReg := { active := 8, staged := 8 }
  /-- 4 bits; 02_tide Table 2-16. -/
  missLimit : Nat := 4
  /-- 16 bits, saturating; 02_tide Table 2-16. -/
  throttles : Nat := 0
  /-- 16 bits, saturating; 02_tide Table 2-16. -/
  overruns : Nat := 0
  /-- count of tides without a marker; 02_tide R41. -/
  missed : Nat := 0
  /-- 1; 02_tide R41. -/
  markerSeen : Bool := false
  /-- 1: an EDGE marker of this tide was taken from the parent; 11_links R362. -/
  edgeTaken : Bool := false
  /-- optional 64; 02_tide R40. -/
  adoptCount : Option Nat := none
  /-- strait of the tree parent; 02_tide R37. -/
  parent : Option Nat := none
  /-- straits of the tree children; 02_tide R37. -/
  children : List Nat := []
  /-- 1: plan or live links changed; 02_tide R37. -/
  treeStale : Bool := false
  /-- 3 x 6; 02_tide Table 2-17. -/
  replanMaster : Pos := {}
  /-- 3 x 6; 02_tide Table 2-17. -/
  replanBackup : Pos := {}
  /-- 64; 02_tide Table 2-17. -/
  replanTide : BitVec 64 := 0
  /-- 3 bits; 02_tide Table 2-17. -/
  replanState : Nat := 0
  /-- the accepted replan; 02_tide R66. -/
  replanNew : Option (Pos × Pos × Nat) := none
  /-- 1: frequency held after TIDE_REF loss; 17 R558. -/
  refHeld : Bool := false
  /-- 1: locked to TIDE_REF; 02_tide R39. -/
  refLocked : Bool := false
  /-- the admission step that ends at the latch guard: records that the slack still has room for, and the plan; 02_tide Table 2-2. -/
  late : Option (Nat × SlackInputs) := none
  /-- a decision that did not come: 0 none, 1 not known whether markers still come, 2 out of step; 02_tide R60. -/
  lost : Nat := 0
  deriving DecidableEq, Repr

/-- A child's GATHER contribution of the running wave (02 R56, 09 R305). -/
structure ChildVote where
  /-- strait 0-5; 02_tide R56. -/
  strait : Nat := 0
  /-- 24; 02_tide Table 2-4. -/
  vote : Contribution := {}
  /-- 3; 09 Table 9-3. -/
  verdict : VerdictC := {}
  deriving DecidableEq, Repr

/-- The vote and verdict wave (02 R55-R60, 09 R305). -/
structure VoteBlock where
  /-- 24; 02_tide Table 2-4. -/
  own : Contribution := {}
  /-- 3; 09 Table 9-3. -/
  ownVerdict : VerdictC := {}
  /-- per child; 02_tide R56. -/
  kids : List ChildVote := []
  /-- 1; 02_tide R57. -/
  forwarded : Bool := false
  /-- 1: decision received in this tide; 02_tide R60. -/
  received : Bool := false
  /-- count; 02_tide R56. -/
  pendingWaves : Nat := 0
  /-- last 16 (step, decision); 13 R457. -/
  history : List (Nat × BitVec 32) := []
  /-- 2 bits: PENDING, CLEAN, OVERFLOW; 09 Table 9-3. -/
  masterVerdict : Nat := 0
  /-- 1; 09 Table 9-3. -/
  masterOf : Bool := false
  /-- 1; 09 Table 9-3. -/
  masterNv : Bool := false
  deriving DecidableEq, Repr

/-- The module's step (13 R441-R446, 09 R302-R308). -/
structure StepBlock where
  /-- 3 values; 13 R441, Table 13-12. -/
  state : StepState := .none
  /-- 32; 13 R441. -/
  num : Nat := 0
  /-- 64; 13 R441. -/
  startTide : Nat := 0
  /-- 1: STEP_ABORT waits for the slack; 13 R441. -/
  abortReq : Bool := false
  /-- 1: READY cast; 02_tide Table 2-4. -/
  ready : Bool := false
  /-- 1: NO cast; 13 R444. -/
  no : Bool := false
  /-- 6; 13 R444. -/
  cause : BitVec 6 := 0
  /-- 1: a contained failure awaits the slack; 02_tide R50. -/
  contained : Bool := false
  /-- 1: a chunk check failed; 13 Table 13-3. -/
  checkFail : Bool := false
  /-- 1: the ferry failed; 13 R439. -/
  ferryFail : Bool := false
  /-- the consumed SEAL, by its order of consumption; 09 R303. -/
  sealReq : Option Nat := none
  /-- 1; 09 R303. -/
  isSealed : Bool := false
  /-- 1; 09 R302. -/
  sealEnded : Bool := false
  /-- 4: step summary flags; 04 R143-R144. -/
  summary : BitVec 4 := 0
  /-- 2 bits; 09 R306. -/
  verdict : Nat := 0
  /-- 1; 09 R307. -/
  verdictOf : Bool := false
  /-- 1; 09 R307. -/
  verdictNv : Bool := false
  /-- the decision that arrived in this tide; 02_tide R58. -/
  decision : Option (BitVec 32) := none
  /-- 1: YES arrived, epochs flip at the next edge; 01 R30, 09 R293. -/
  flip : Bool := false
  /-- indices of written secured tensors; 09 R293. -/
  written : List Nat := []
  /-- indices of written warm-start sets; 08 R272. -/
  writtenWarm : List Nat := []
  /-- 1: first item of the step admitted; 09 R310, R314. -/
  captured : Bool := false
  /-- exponent E of the step; 09 R310. -/
  lossExp : Int := 0
  /-- scale exponents captured for the step; 09 R314. -/
  scaleExps : Assoc Int := []
  /-- 32; 13 R442, Table 13-12. -/
  lastCommitted : Nat := 0
  /-- 32; 13 R445, Table 13-12. -/
  lastDecision : BitVec 32 := 0
  /-- ferry sequence number at the step's opening: record changes below it belong to its ferry; 13 R437. -/
  openFseq : Nat := 0
  /-- tide before which no item of a later step is admitted; 09 R294. -/
  flipTide : Nat := 0
  /-- ready notices: tensor, first element, count; 12 R414. -/
  readyMaps : List (Nat × Nat × Nat) := []
  /-- pending amax values and OF marks that the ferry has carried; 13 R436. -/
  sentAmax : Assoc (BitVec 64 × Bool) := []
  deriving DecidableEq, Repr

/-- One Ophal mailbox (03 R69-R77). -/
structure Mailbox where
  /-- 2 bits IDLE, BUSY, DONE; 03 Table 3-1. -/
  state : Nat := 0
  /-- 1 DOORBELL_LOST; 03 Table 3-1. -/
  lost : Bool := false
  /-- 32; 03 Table 3-1. -/
  tag : BitVec 32 := 0
  /-- 1; 03 Table 3-1. -/
  enable : Bool := false
  /-- 11; 03 Table 3-1. -/
  vector : BitVec 11 := 0
  /-- 16 KiB request area; 03 R69. -/
  req : Mem := []
  /-- 16 KiB response area; 03 R69, R75. -/
  rsp : Mem := []
  /-- the request bytes firmware read; 03 R70-R71. -/
  cmd : Mem := []
  /-- order of accepted doorbells; 03 R74. -/
  order : Nat := 0
  deriving DecidableEq, Repr

/-- One MSI-X table entry (15 R507-R508). -/
structure MsixEntry where
  /-- 64; 15 R507. -/
  addr : BitVec 64 := 0
  /-- 32; 15 R507. -/
  data : BitVec 32 := 0
  /-- 1; 15 R508. -/
  mask : Bool := true
  deriving DecidableEq, Repr

/-- One PCI Express function (15 R497-R510). -/
structure PcieFn where
  /-- 1 Memory Space Enable; 15 Table 15-4. -/
  memEnable : Bool := false
  /-- 1 Bus Master Enable; 15 R505. -/
  busMaster : Bool := false
  /-- 1: in D3hot; 15 R510. -/
  d3 : Bool := false
  /-- 1: MSI-X function mask; 15 R508. -/
  fnMask : Bool := false
  /-- other configuration bytes written; 15 R509. -/
  cfg : Mem := []
  /-- MSI-X table, entries differing from the default; 15 R507. -/
  table : Assoc MsixEntry := []
  /-- pending bits set; 15 R508. -/
  pba : List Nat := []
  /-- vectors of messages held, in order; 15 R505. -/
  held : List Nat := []
  /-- 1: Unsupported Request recorded; 15 Table 15-4. -/
  aerUr : Bool := false
  /-- 1: advisory non-fatal recorded; 15 Table 15-4. -/
  aerAdvisory : Bool := false
  deriving DecidableEq, Repr

/-- A placement hint (03 R115). -/
structure Hint where
  /-- 6; 03 R115. -/
  clusters : BitVec 6 := 0
  /-- 1 PREFER, 2 AVOID; 03 R115. -/
  mode : Nat := 0
  deriving DecidableEq, Repr

/-- One channel (03 R82-R91). -/
structure Chan where
  /-- 24; 00 R10. -/
  gen : Nat := 0
  /-- 32: index of the handle; 00 R10. -/
  index : Nat := 0
  /-- 1-5; 03 Table 3-8. -/
  kind : Nat := 0
  /-- 6-16; 03 Table 3-9. -/
  subLog2 : Nat := 0
  /-- up to 17; 03 Table 3-9. -/
  outLog2 : Nat := 0
  /-- PF0 vector or none; 03 Table 3-9. -/
  vector : Option Nat := none
  /-- 64; 03 Table 3-9. -/
  subBase : BitVec 64 := 0
  /-- 64; 03 Table 3-9. -/
  outBase : BitVec 64 := 0
  /-- 32; 03 R83, R85. -/
  subTail : BitVec 32 := 0
  /-- 32; 03 R83, R85. -/
  outHead : BitVec 32 := 0
  /-- 32; 03 R83, R85. -/
  subHead : BitVec 32 := 0
  /-- 32; 03 R83, R85. -/
  outTail : BitVec 32 := 0
  /-- 32: SUB_TAIL at the start of the tide; 02_tide R45. -/
  tailAtEdge : BitVec 32 := 0
  /-- 1; 03 R85, R89. -/
  draining : Bool := false
  /-- 1: a destroy of it was accepted, and SUB_TAIL stands; 03 R89. -/
  closing : Bool := false
  /-- 1; 03 R86. -/
  badIndex : Bool := false
  /-- 64; 03 R91. -/
  lastSeq : BitVec 64 := 0
  /-- the item consumed last; 03 R95. -/
  lastOrder : Option Nat := none
  /-- optional; 03 R115. -/
  hint : Option Hint := none
  /-- mailbox of the running destroy; 03 R89. -/
  destroyBy : Option Nat := none
  /-- last SUB_TAIL of the destroy; 03 R89. -/
  drainTail : BitVec 32 := 0
  /-- records written by the destroy; 03 Table 3-12. -/
  records : Nat := 0
  /-- of these ABORTED_DESTROY; 03 Table 3-12. -/
  aborted : Nat := 0
  /-- 1: a record was written in this slack; 03 R88. -/
  wrote : Bool := false
  deriving DecidableEq, Repr

/-- Handle indices of one kind (03 R80). -/
structure IdxReg where
  /-- next index never used; 03 R80. -/
  next : Nat := 1
  /-- freed indices with their last generation, oldest first; 03 R80. -/
  freed : List (Nat × Nat) := []
  deriving DecidableEq, Repr

/-- Where an object's rows lie (10 R320-R323). -/
structure Placement where
  /-- region of the first row; 10 R321. -/
  region : Nat := 0
  /-- first row within it; 10 R321. -/
  row : Nat := 0
  /-- rows taken; 10 R321. -/
  rows : Nat := 0
  /-- further (region, first row, rows); 10 R321. -/
  more : List (Nat × Nat × Nat) := []
  deriving DecidableEq, Repr

/-- A scale record (09 R313). -/
structure ScaleRec where
  /-- CURRENT, RUNNING, FIXED; 09 Table 9-5. -/
  mode : Nat := 2
  /-- 0-3; 09 Table 9-5. -/
  headroom : Nat := 1
  /-- 1-64; 09 Table 9-5. -/
  window : Nat := 16
  /-- -126 to 127; 09 Table 9-5. -/
  exp : Int := 0
  /-- FP64 amaxes held, oldest first (FILL is their number); 09 R314. -/
  amaxes : List (BitVec 64) := []
  /-- 1: a previous value exists; 04 R147. -/
  hasExp : Bool := false
  /-- pending amax of the step; 09 R314. -/
  pending : Option (BitVec 64) := none
  /-- 1: pending OF mark; 09 R314. -/
  pendingOf : Bool := false
  /-- staged EXP of a CURRENT record; 09 R315. -/
  staged : Option Int := none
  deriving DecidableEq, Repr

/-- One tensor (03 R108-R112, 09 R289-R293, 10 R321). -/
structure Tensor where
  /-- 24; 00 R10. -/
  gen : Nat := 0
  /-- Table 3-20 code; 03 Table 3-20. -/
  fmt : Nat := 1
  /-- Table 3-21 code; 03 Table 3-21. -/
  role : Nat := 0
  /-- 1; 03 R108. -/
  parity : Bool := false
  /-- 1-8; 03 Table 3-19. -/
  rank : Nat := 1
  /-- extents; 03 Table 3-19. -/
  dims : List Nat := []
  /-- 1; 03 R112. -/
  retain : Bool := false
  /-- 1; 03 R110. -/
  lost : Bool := false
  /-- bytes of epoch buffer 0; 03 R108. -/
  ep0 : Mem := []
  /-- bytes of epoch buffer 1 (secured roles); 03 R108, 09 R293. -/
  ep1 : Mem := []
  /-- epoch selector: true when buffer 1 is committed; 09 R293. -/
  sel : Bool := false
  /-- low plane, buffer 0; 09 R290. -/
  low0 : Mem := []
  /-- low plane, buffer 1; 09 R290. -/
  low1 : Mem := []
  /-- master mode PLAIN, SPLIT, COPY; 09 R289. -/
  master : Nat := 0
  /-- working format; 09 Table 9-6. -/
  workFmt : Nat := 0
  /-- index of the working copy; 09 R291. -/
  working : Option Nat := none
  /-- index of the master when this is a working copy; 09 R291. -/
  workingOf : Option Nat := none
  /-- FP8 tensors only; 09 R313. -/
  scale : Option ScaleRec := none
  /-- rows of epoch buffer 0; 10 R321. -/
  place0 : Placement := {}
  /-- rows of epoch buffer 1; 10 R321. -/
  place1 : Option Placement := none
  /-- rows of the low planes; 10 R321. -/
  placeLow : List Placement := []
  deriving DecidableEq, Repr

/-- One BAR2 mapping (03 R111). -/
structure Mapping where
  /-- BAR2 offset; 03 R111. -/
  off : Nat := 0
  /-- bytes; 03 R111. -/
  len : Nat := 0
  /-- tensor index; 03 R111. -/
  tensor : Nat := 0
  /-- byte offset in the tensor; 03 R111. -/
  tOff : Nat := 0
  deriving DecidableEq, Repr

/-- One segment of a program (06 R215). -/
structure Segment where
  /-- instruction words; 06 Table 6-12. -/
  code : List (BitVec 64) := []
  /-- declared bound in cycles; 06 Table 6-12. -/
  bound : Nat := 0
  deriving DecidableEq, Repr

/-- One program (03 R113). -/
structure Program where
  /-- 24; 00 R10. -/
  gen : Nat := 0
  /-- 1 to 65,535; 06 Table 6-11. -/
  segs : List Segment := []
  /-- entry segment; 06 Table 6-11. -/
  entry : Nat := 0
  /-- bytes; 06 Table 6-11. -/
  coreMem : Nat := 0
  /-- 8; 06 Table 6-11. -/
  numv : Nat := 1
  /-- constant section; 06 Table 6-11. -/
  const : List (BitVec 8) := []
  /-- 32; 03 R114. -/
  imageLen : Nat := 0
  /-- optional; 03 R115. -/
  hint : Option Hint := none
  deriving DecidableEq, Repr

/-- One solver plan (08 R254, R283). -/
structure Plan where
  /-- 24; 00 R10. -/
  gen : Nat := 0
  /-- 64 bytes; 08 Table 8-6. -/
  desc : List (BitVec 8) := []
  /-- assembly descriptor and its records; 08 Table 8-13. -/
  asm : List (BitVec 8) := []
  /-- pattern; 08 Table 8-2. -/
  rowptr : List Nat := []
  /-- pattern; 08 Table 8-2. -/
  colidx : List Nat := []
  /-- 64; 08 R273. -/
  signature : BitVec 64 := 0
  /-- per problem; 08 Table 8-13. -/
  workBytes : Nat := 0
  deriving DecidableEq, Repr

/-- Retained data of one problem (08 Table 8-8). -/
structure FactorData where
  /-- factors or the assembled A; 08 Table 8-8. -/
  mats : List (BitVec 64) := []
  /-- FP64 A of refinement, reflector scales, block-Jacobi factors; 08 Table 8-8. -/
  aux : List (BitVec 64) := []
  /-- pivot permutation; 08 Table 8-8. -/
  perm : List Nat := []
  /-- regularised pivots; 08 Table 8-8. -/
  regs : List (Nat × BitVec 64) := []
  /-- forward x, FP64; 08 Table 8-8. -/
  x : List (BitVec 64) := []
  deriving DecidableEq, Repr

/-- One factor set (08 R268, R271). -/
structure FactorSet where
  /-- 24; 00 R10. -/
  gen : Nat := 0
  /-- plan handle; 08 Table 8-13. -/
  plan : BitVec 64 := 0
  /-- 32; 08 Table 8-13. -/
  problems : Nat := 0
  /-- by problem; 08 Table 8-8. -/
  data : Assoc FactorData := []
  /-- STEP of the item that last wrote it; 08 R271. -/
  step : Option Nat := none
  /-- 1; 10 R338. -/
  lost : Bool := false
  /-- rows; 10 R321. -/
  place : Placement := {}
  deriving DecidableEq, Repr

/-- A filled warm-start slot (08 R272). -/
structure WarmSlot where
  /-- 64; 08 R272. -/
  sig : BitVec 64 := 0
  /-- FP64 vector; 08 R272. -/
  x : List (BitVec 64) := []
  deriving DecidableEq, Repr

/-- One warm-start set (08 R272). -/
structure WarmSet where
  /-- 24; 00 R10. -/
  gen : Nat := 0
  /-- length; 08 Table 8-13. -/
  n : Nat := 0
  /-- count; 08 Table 8-13. -/
  slots : Nat := 0
  /-- epoch 0; 08 R272. -/
  ep0 : Assoc WarmSlot := []
  /-- epoch 1; 08 R272. -/
  ep1 : Assoc WarmSlot := []
  /-- committed epoch; 08 R272. -/
  sel : Bool := false
  /-- 1; 10 R338. -/
  lost : Bool := false
  /-- rows; 10 R321. -/
  place : Placement := {}
  deriving DecidableEq, Repr

/-- One collective group (12 R400-R403). -/
structure Group where
  /-- 24; 00 R10. -/
  gen : Nat := 0
  /-- 32; 12 Table 12-1. -/
  gid : BitVec 32 := 0
  /-- positions in rank order; 12 R401. -/
  members : List Pos := []
  /-- this module's rank; 12 R403. -/
  rank : Nat := 0
  /-- diameter; 12 R400. -/
  dg : Nat := 0
  /-- 64; 12 R400. -/
  digest : BitVec 64 := 0
  /-- 32; 12 R403. -/
  lastLaunch : BitVec 32 := 0
  /-- 8; 12 R403. -/
  lastStatus : BitVec 8 := 0
  /-- 32; 12 R403. -/
  lastRank : Nat := 0
  deriving DecidableEq, Repr

/-- One instance of a RUN item (06 R185). -/
structure Inst where
  /-- next segment, 0xFFFF when complete; 06 R185. -/
  next : Nat := 0
  /-- s24 to s31; 06 R186. -/
  carry : List (BitVec 64) := []
  /-- core and tide of its placed segment; 02_tide R46. -/
  placed : Option (Nat × Nat) := none
  /-- earliest tide of the next segment; 06 R185. -/
  fresh : Nat := 0
  deriving DecidableEq, Repr

/-- What one problem comes to: its state, notes, regularised pivots, iterations, solution and flags (08 Table 8-9, R261). -/
structure SlvOut where
  /-- STATE; 08 Table 8-9. -/
  state : Nat := 0
  /-- NOTES; 08 Table 8-9. -/
  notes : Nat := 0
  /-- regularised pivots: row and value; 08 R260. -/
  regs : List (Nat × Nat) := []
  /-- ITERATIONS; 08 Table 8-9. -/
  iters : Nat := 0
  /-- solution; 08 Table 8-2. -/
  x : List Nat := []
  /-- flags raised; 08 R261. -/
  flags : BitVec 4 := 0
  /-- ‖r‖₂ of the last residual, FP64; 08 Table 8-14. -/
  resid : Nat := 0
  /-- what RETAIN keeps; 08 Table 8-8. -/
  fd : FactorData := {}
  deriving DecidableEq, Repr

/-- One problem of a solver item (08 R245, R278). -/
structure Prob where
  /-- held core; 08 R245. -/
  core : Option Nat := none
  /-- what the core holds of it: its outcome, fixed by the inputs as they stood when it began, and its work units; 08 R245, R277. -/
  run : Option (SlvOut × Nat) := none
  /-- logical core whose loss stopped it, until another takes it over; 08 R276. -/
  lost : Option Nat := none
  /-- work units completed; 08 R246. -/
  iters : Nat := 0
  /-- 1: an emergency throttle acted on the cluster that holds it; 08 R275. -/
  throttled : Bool := false
  /-- final status word; 08 R278. -/
  word : Option (BitVec 64) := none
  /-- warm-start slot and what its new epoch receives; 08 R274. -/
  warm : Option (Nat × WarmSlot) := none
  deriving DecidableEq, Repr

/-- A partial or leaf of a chunk held for combination (12 R416). -/
structure Partial where
  /-- chunk; 12 R412. -/
  chunk : Nat := 0
  /-- lowest rank of the node; 12 Table 12-9. -/
  lo : Nat := 0
  /-- log2 of the span; 12 Table 12-9. -/
  level : Nat := 0
  /-- leaf, partial, result, ring step, pre-pass; 12 Table 12-9. -/
  phase : Nat := 0
  /-- element values in the combine format; 12 R407. -/
  vals : List (BitVec 128) := []
  /-- flags raised; 12 R408. -/
  flags : BitVec 4 := 0
  /-- packets received; 12 Table 12-9. -/
  got : List Nat := []
  /-- bytes received; 12 R420. -/
  bytes : Mem := []
  /-- 64: CHECK of the last packet; 12 R420. -/
  check : BitVec 64 := 0
  /-- 16: PACKETS of the header; 12 Table 12-9. -/
  packets : Nat := 0
  /-- 1: the values stand; 12 R412. -/
  full : Bool := false
  deriving DecidableEq, Repr

/-- A collective launch (12 R404-R427). -/
structure Launch where
  /-- 8; 12 Table 12-3. -/
  mode : Nat := 0
  /-- 8; 12 Table 12-3. -/
  redop : Nat := 0
  /-- 8; 12 Table 12-3. -/
  lflags : BitVec 8 := 0
  /-- 8; 12 Table 12-3. -/
  split : Nat := 0
  /-- 32; 12 Table 12-3. -/
  num : BitVec 32 := 0
  /-- handle; 12 Table 12-3. -/
  src : BitVec 64 := 0
  /-- handle; 12 Table 12-3. -/
  dst : BitVec 64 := 0
  /-- 64; 12 Table 12-3. -/
  srcOff : Nat := 0
  /-- 64; 12 Table 12-3. -/
  dstOff : Nat := 0
  /-- 32; 12 Table 12-3. -/
  count : Nat := 0
  /-- 32; 12 Table 12-3. -/
  peer : Nat := 0
  /-- 16; 12 Table 12-3. -/
  expect : Nat := 0
  /-- 16; 12 Table 12-3. -/
  joinLimit : Nat := 64
  /-- group index; 12 R404. -/
  group : Nat := 0
  /-- ranks whose JOIN rank 0 holds; 12 R409. -/
  joins : List Nat := []
  /-- start and final tide; 12 R410. -/
  plan : Option (Nat × Nat) := none
  /-- 1: the item's work is set up; 12 R412. -/
  running : Bool := false
  /-- chunks whose leaf was started; 12 R414. -/
  started : List Nat := []
  /-- contents of chunk slots; 12 R412. -/
  parts : List Partial := []
  /-- destination chunks written and checked; 12 R422. -/
  written : List Nat := []
  /-- sent (chunk, destination rank) not acknowledged; 12 R422. -/
  unacked : List (Nat × Nat) := []
  /-- 1; 12 R422. -/
  completeSent : Bool := false
  /-- ranks whose COMPLETE rank 0 holds; 12 R422. -/
  completes : List Nat := []
  /-- 1: GROUP_DONE or ABORT sent; 12 R423. -/
  verdictSent : Bool := false
  /-- END_TIDE of GROUP_DONE; 12 R422. -/
  endTide : Option Nat := none
  /-- cause, rank, arrival tide; 12 R425. -/
  abort : Option (Nat × Nat × Nat) := none
  /-- flags of the results; 12 R408. -/
  flags : BitVec 4 := 0
  /-- ASSOC exponents by block; 12 R417. -/
  blockExp : Assoc Int := []
  /-- ASSOC marks by element: NaN 1, +inf 2, -inf 4, signaling NaN 8; 12 R417. -/
  marks : Assoc Nat := []
  /-- 1: LEAVE sent; 12 R425. -/
  left : Bool := false
  deriving DecidableEq, Repr

/-- One consumed descriptor (03 R92-R107). -/
structure Item where
  /-- channel handle; 03 R92. -/
  chan : BitVec 64 := 0
  /-- 12; 03 R92. -/
  slot : Nat := 0
  /-- channel kind; 03 Table 3-8. -/
  kind : Nat := 0
  /-- 64 bytes; 03 Table 3-13. -/
  desc : List (BitVec 8) := []
  /-- 64; 03 Table 3-13. -/
  seq : BitVec 64 := 0
  /-- 8; 03 Table 3-13. -/
  op : Nat := 0
  /-- 1; 03 Table 3-13. -/
  commitBound : Bool := false
  /-- 1; 03 Table 3-13. -/
  ordered : Bool := false
  /-- 16; 03 Table 3-13. -/
  budget : Nat := 0
  /-- 32; 03 Table 3-13. -/
  step : Nat := 0
  /-- 64; 03 Table 3-13. -/
  object : BitVec 64 := 0
  /-- 64; 03 Table 3-13. -/
  arg0 : BitVec 64 := 0
  /-- 64; 03 Table 3-13. -/
  arg1 : BitVec 64 := 0
  /-- 64; 03 Table 3-13. -/
  arg2 : BitVec 64 := 0
  /-- 64; 03 Table 3-13. -/
  arg3 : BitVec 64 := 0
  /-- consumption number; 03 R95. -/
  order : Nat := 0
  /-- order of the preceding item; 03 R95. -/
  prev : Option Nat := none
  /-- order of the named dependency, if it was found; 03 R95. -/
  dep : Option (Option Nat) := none
  /-- tide; 03 R87. -/
  consumedTide : Nat := 0
  /-- 5 values; 03 R102-R107. -/
  stage : ItemStage := .consumed
  /-- admission tide a; 03 R96. -/
  admTide : Nat := 0
  /-- Table 3-16; 03 Table 3-16. -/
  status : BitVec 8 := 0
  /-- 32; 03 Table 3-16. -/
  detail : BitVec 32 := 0
  /-- 8; 03 Table 3-15. -/
  cluster : BitVec 8 := 0xFF
  /-- 64; 03 Table 3-15. -/
  endTide : Nat := 0
  /-- flags of its segments; 04 R143. -/
  flags : BitVec 4 := 0
  /-- STEP_BOUND: the record is held or was held; 03 R107. -/
  held : Bool := false
  /-- 1: ledger entry acknowledged; 13 R455. -/
  ledgerAck : Bool := false
  /-- FSEQ of the ledger packet; 13 R455. -/
  ledgerFseq : Option Nat := none
  /-- instance of the reported failure; 06 R213. -/
  failInst : Nat := 0
  /-- RUN instances; 06 R185. -/
  insts : Assoc Inst := []
  /-- solver problems; 08 R245. -/
  probs : Assoc Prob := []
  /-- loss-scale exponent in force at admission; 09 R310. -/
  lossExp : Int := 0
  /-- exponents captured at admission (step-free items); 09 R314. -/
  scaleExps : Assoc Int := []
  /-- collective launch; 12 R404. -/
  launch : Option Launch := none
  /-- update descriptor copied at admission; 09 R296. -/
  upd : List (BitVec 8) := []
  /-- elements or bytes done; 09 R287. -/
  progress : Nat := 0
  /-- progress that the plan of this tide asks of a transfer or an update; 02_tide R48. -/
  goal : Option Nat := none
  /-- 1: the item's work is over and it awaits the slack; 03 R106. -/
  work : Bool := false
  /-- exact amax of the first pass; 09 R315. -/
  amax : BitVec 64 := 0
  /-- amax and OF mark by tensor recorded by a step-free item; 09 R314. -/
  scaleAmax : Assoc (Option (BitVec 64) × Bool) := []
  /-- FLR (low 8 bits of FLRS; plus 256 where its channel was draining) that owes this held item a ledger entry; 15 R513. -/
  resetFlr : Option Nat := none
  deriving DecidableEq, Repr

/-- A tensor window (06 R193). -/
structure Window where
  /-- 64 bytes of Table 6-2; 06 R202. -/
  desc : List (BitVec 8) := []
  /-- tensor index, or 0 for the constant section; 06 R193. -/
  tensor : Nat := 0
  /-- 1: the constant section of w1; 06 Table 6-1. -/
  isConst : Bool := false
  /-- format of Table 3-20; 06 R193. -/
  fmt : Nat := 0
  /-- signed 64; 06 Table 6-2. -/
  base : Int := 0
  /-- four extents; 06 Table 6-2. -/
  ext : List Nat := []
  /-- STR1 to STR3; 06 Table 6-2. -/
  str : List Int := []
  /-- READ; 06 Table 6-2. -/
  rd : Bool := false
  /-- WRITE; 06 Table 6-2. -/
  wr : Bool := false
  deriving DecidableEq, Repr

/-- An open accumulator tile (05 R168). -/
structure AccTile where
  /-- g0-g7; 05 R168. -/
  group : Nat := 0
  /-- base slot; 05 R168. -/
  base : Nat := 0
  /-- Table 5-1; 05 R168. -/
  mode : Nat := 0
  /-- logical rows; 05 R168. -/
  m : Nat := 0
  /-- logical columns; 05 R168. -/
  n : Nat := 0
  /-- problems; 05 R168. -/
  p : Nat := 1
  /-- of the last matrix instruction; 05 R180. -/
  mValid : Nat := 0
  /-- of the last matrix instruction; 05 R180. -/
  nValid : Nat := 0
  /-- 1: its END is in the output stage; 05 R177. -/
  ending : Bool := false
  deriving DecidableEq, Repr

/-- An END in the output stage (05 R173-R178). -/
structure OutJob where
  /-- the tile; 05 R177. -/
  tile : AccTile := {}
  /-- output-stage descriptor; 05 Table 5-7. -/
  desc : List (BitVec 8) := []
  /-- flags of the accumulation; 05 R177. -/
  flags : BitVec 4 := 0
  /-- destination window as it stood at the END; 05 R176. -/
  win : Option Window := none
  /-- word index; 06 R211. -/
  pc : Nat := 0
  /-- destination address or element, and the bits to store, in row order; 05 R173. -/
  outs : List (Nat × Nat) := []
  /-- amax of the sources; 04 R146. -/
  amax : BitVec 64 := 0
  /-- 1: the conversion raised OF; 09 R314. -/
  ovf : Bool := false
  deriving DecidableEq, Repr

/-- An outstanding DMA (06 R202). -/
structure Dma where
  /-- DMAIN; 06 R202. -/
  isIn : Bool := false
  /-- core address; 06 R202. -/
  core : Nat := 0
  /-- bytes; 06 R202. -/
  len : Nat := 0
  /-- tensor index of a deferred memory fault; 06 R196. -/
  poison : Option Nat := none
  /-- flags to raise at completion; 04 R141. -/
  flags : BitVec 4 := 0
  /-- issue number within the segment; 06 R196. -/
  seq : Nat := 0
  /-- 1: complete, kept because it owes a fault; 06 R196. -/
  done : Bool := false
  deriving DecidableEq, Repr

/-- A running ASM or SLVS: what it will leave, computed at its issue (06 R188, R207, log 15). -/
structure Job where
  /-- fault found; 06 R207. -/
  fault : Option Nat := none
  /-- 64; 06 Table 6-9. -/
  faultAddr : Nat := 0
  /-- tensor index of uncorrectable data met; 10 Table 10-2. -/
  poison : Option Nat := none
  /-- core-memory bytes to write; 08 Table 8-7. -/
  stores : List (Nat × List (BitVec 8)) := []
  /-- core-memory ranges that it reads or writes; 06 R188. -/
  ranges : List (Nat × Nat) := []
  /-- flags of its operations; 08 R251. -/
  flags : BitVec 4 := 0
  /-- status words; 08 R280. -/
  status : List (BitVec 64) := []
  /-- factors left in WORK; 08 R255. -/
  factors : Assoc FactorData := []
  /-- plan bytes and COUNT of an OP 0; 08 R256. -/
  prev : Option (List (BitVec 8) × Nat) := none
  /-- address and length of WORK and the inputs of the OP 0 that filled it; 08 R256. -/
  work : Nat × Nat × List (BitVec 64) := (0, 0, [])
  /-- ACC_BASE; 08 R247. -/
  acc : Nat := 0
  deriving DecidableEq, Repr

/-- One logical core that holds state (06 R186). -/
structure Core where
  /-- order number of the running item; 06 R185. -/
  item : Nat := 0
  /-- 1: a segment runs; 06 R185. -/
  run : Bool := false
  /-- CSR_INSTANCE, 32; 06 Table 6-9. -/
  inst : Nat := 0
  /-- CSR_INSTANCES, 32; 06 Table 6-9. -/
  insts : Nat := 0
  /-- CSR_SEGMENT, 16; 06 Table 6-9. -/
  seg : Nat := 0
  /-- CSR_STEP, 32; 06 Table 6-9. -/
  step : Nat := 0
  /-- program index; 06 R185. -/
  prog : Nat := 0
  /-- CSR_BOUND, 32; 06 Table 6-9. -/
  bound : Nat := 0
  /-- CSR_CYCLE, 32; 06 Table 6-9. -/
  cycle : Nat := 0
  /-- 13; 06 R197. -/
  pc : Nat := 0
  /-- s1-s31, 64 each; 06 Table 6-1. -/
  s : Assoc (BitVec 64) := []
  /-- v0-v31, 2,048 each; 06 Table 6-1. -/
  v : Assoc (BitVec 2048) := []
  /-- p1-p15, 256 each; 06 Table 6-1. -/
  p : Assoc (BitVec 256) := []
  /-- w0-w15, absent when empty; 06 Table 6-1. -/
  w : Assoc Window := []
  /-- 2 MiB core memory; 06 R191, Table 6-1. -/
  mem : Mem := []
  /-- 256 KiB accumulator memory; 05 R153-R154. -/
  acc : Mem := []
  /-- open tiles; 05 R168. -/
  tiles : List AccTile := []
  /-- CSR_FLAGS; 04 R142. -/
  flags : BitVec 4 := 0
  /-- SEG_FLAGS; 04 R142. -/
  segFlags : BitVec 4 := 0
  /-- ENDs in the output stage; 05 R177. -/
  outJobs : List OutJob := []
  /-- up to 8 outstanding DMAs and completed ones that owe a fault; 06 R202, R196. -/
  dmas : List Dma := []
  /-- DMAs issued in the segment; 06 R196. -/
  dmaSeq : Nat := 0
  /-- item order and SEG_FLAGS of segments that ended in this tide; 04 R143. -/
  ended : List (Nat × BitVec 4) := []
  /-- CSR_VL, 16; 07 Table 7-4. -/
  vl : Nat := 0
  /-- CSR_VFMT, 4; 07 Table 7-4. -/
  vfmt : Nat := 0
  /-- CSR_VFF; 07 Table 7-4. -/
  vff : BitVec 32 := 0
  /-- enabled row groups, 0-8; 05 R181. -/
  rowGroups : Nat := 0
  /-- cycles without operands; 05 R182. -/
  idle : Nat := 0
  /-- running SLVS; 06 R207. -/
  slvJob : Option Job := none
  /-- running ASM; 06 R207. -/
  asmJob : Option Job := none
  /-- solver or assembly fault to be taken; 06 R207. -/
  slvFault : Option Nat := none
  /-- 64; 06 Table 6-9. -/
  slvFaultAddr : BitVec 64 := 0
  /-- CSR_SLV_SUMMARY; 08 Table 8-10. -/
  slvSummary : BitVec 64 := 0
  /-- status words of the last SLVS; 08 R280. -/
  slvStatus : List (BitVec 64) := []
  /-- plan bytes and COUNT of the last OP 0 SLVS; 08 R256. -/
  slvPrev : Option (List (BitVec 8) × Nat) := none
  /-- factors left in WORK; 08 R255. -/
  slvFactors : Assoc FactorData := []
  /-- address and length of WORK and the inputs of the last OP 0; 08 R256. -/
  slvWork : Nat × Nat × List (BitVec 64) := (0, 0, [])
  /-- tensor index of uncorrectable data met by the unit; 10 Table 10-2. -/
  slvPoison : Option Nat := none
  /-- CSR_FAULT; 06 Table 6-9. -/
  fault : BitVec 16 := 0
  /-- CSR_FAULT_PC, 13; 06 Table 6-9. -/
  faultPc : Nat := 0
  /-- CSR_FAULT_ADDR; 06 Table 6-9. -/
  faultAddr : BitVec 64 := 0
  /-- 1: no further segment runs in this tide, after an uncorrectable word; 05 R157. -/
  pastFall : Bool := false
  /-- segments planned for this tide: item order, instance, segment; 02_tide R46. -/
  plan : List (Nat × Nat × Nat) := []
  /-- solver item order and problem of each problem that holds the core; 08 R245. -/
  heldBy : List (Nat × Nat) := []
  /-- segments to be placed again on the core before any new admission: item order, instance, segment; 05 R157, 14 R481. -/
  redo : List (Nat × Nat × Nat) := []
  /-- OR of SEG_FLAGS since FLAGS_CLEAR; 14 R489. -/
  flagsSince : BitVec 4 := 0
  /-- segments since FLAGS_CLEAR; 14 R489. -/
  segCount : Nat := 0
  deriving DecidableEq, Repr

/-- The loss-scale record (09 R309). -/
structure LossScale where
  /-- 0-24; 09 Table 9-4. -/
  exp : Int := 16
  /-- 0-24; 09 Table 9-4. -/
  lo : Int := 0
  /-- 0-24; 09 Table 9-4. -/
  hi : Int := 24
  /-- up to 1,000,000; 09 Table 9-4. -/
  interval : Nat := 2000
  /-- 32; 09 Table 9-4. -/
  clean : Nat := 0
  /-- 32; 09 Table 9-4. -/
  skipped : Nat := 0
  /-- handle; 09 Table 9-4. -/
  tensor : BitVec 64 := 0
  /-- 32; 09 Table 9-6. -/
  lastStep : Nat := 0
  deriving DecidableEq, Repr

/-- A cluster's flag summary (04 R143). -/
structure ClusterSum where
  /-- 4; 04 R143. -/
  flags : BitVec 4 := 0
  /-- 16; 04 R143. -/
  nvCore : BitVec 16 := 0xFFFF
  deriving DecidableEq, Repr

/-- One region of device memory (10 R320). -/
structure Region where
  /-- up to 24; 10 R320. -/
  width : Nat := 24
  /-- stacks it lies on; 10 R320. -/
  onStacks : List Nat := []
  /-- granule on each of them; 10 R320. -/
  granules : List Nat := []
  /-- 1; 10 R320. -/
  parity : Bool := true
  /-- 64; 10 R323. -/
  salt : BitVec 64 := 0
  /-- rows taken from its start; 10 R321. -/
  rows : Nat := 0
  /-- 1: part of the lagoon; 10 R345. -/
  lagoon : Bool := false
  /-- consecutive hot tides; 10 R326. -/
  hotRun : Nat := 0
  /-- tide in which its last re-salt ended; 10 R327. -/
  lastResalt : Option Nat := none
  /-- tide before which it is not re-salted; 10 R327. -/
  holdUntil : Nat := 0
  /-- new stacks, granules and salt of a running re-salt; 10 R326. -/
  moving : Option (List Nat × List Nat × BitVec 64) := none
  /-- rows that the re-salt has switched, or that a re-striping has copied; 10 R326, R336. -/
  moved : Nat := 0
  /-- unit accesses of the tide by pseudo-channel (32 × stack + channel); 10 R325. -/
  hits : Assoc Nat := []
  /-- 1: re-striping halted; 10 R337. -/
  unplaced : Bool := false
  deriving DecidableEq, Repr

/-- One HBM stack (10 R320, R335). -/
structure Stack where
  /-- 1; 10 R335. -/
  lost : Bool := false
  /-- ECC_STACK_STATE field; 10 Table 10-5. -/
  state : BitVec 2 := 0
  /-- 32, saturating; 10 Table 10-6. -/
  corrected : Nat := 0
  /-- 32, saturating; 10 Table 10-6. -/
  rebuilt : Nat := 0
  /-- 32, saturating; 10 Table 10-6. -/
  uncorr : Nat := 0
  /-- retired granules; 10 R342. -/
  retired : List Nat := []
  /-- 1: under STACK_TEST or MD_TEST; 14 R487-R488. -/
  testing : Bool := false
  /-- 1: STACK_TEST passed; 14 R487. -/
  passed : Bool := false
  deriving DecidableEq, Repr

/-- Error pattern of a stored sector (10 R331, R334). -/
structure SectorErr where
  /-- which sector; 10 R332. -/
  key : SectorKey := {}
  /-- 72 bytes XORed into the codeword; 10 R331, R348. -/
  err : List (BitVec 8) := []
  /-- 1: poisoned; 10 R334. -/
  poison : Bool := false
  deriving DecidableEq, Repr

/-- A scrub (10 R339-R341). -/
structure Scrub where
  /-- 32; 10 Table 10-3. -/
  sid : Nat := 0
  /-- running, done, cancelled; 10 Table 10-3. -/
  state : Nat := 0
  /-- tensor index, none for all memory; 10 R339. -/
  tensor : Option Nat := none
  /-- first byte; 10 R339. -/
  off : Nat := 0
  /-- bytes; 10 R339. -/
  len : Nat := 0
  /-- 64; 10 R341. -/
  scanned : Nat := 0
  /-- 64; 10 R341. -/
  corrected : Nat := 0
  /-- 64; 10 R341. -/
  rebuilt : Nat := 0
  /-- 64; 10 R341. -/
  uncorr : Nat := 0
  /-- 64; 10 R341. -/
  mismatch : Nat := 0
  /-- up to 16; 10 R341. -/
  addrs : List (BitVec 64) := []
  deriving DecidableEq, Repr

/-- A retirement ticket (10 R342-R343). -/
structure Retire where
  /-- 32; 10 Table 10-3. -/
  ticket : Nat := 0
  /-- 0-23; 10 R342. -/
  stack : Nat := 0
  /-- granules still to retire; 10 R342. -/
  todo : List Nat := []
  /-- granules done; 10 Table 10-3. -/
  done : Nat := 0
  /-- granules in all; 10 Table 10-3. -/
  total : Nat := 0
  /-- 1: a bank retirement; 10 R343. -/
  bank : Bool := false
  deriving DecidableEq, Repr

/-- Device memory management and the ECC_ block (10). -/
structure MemBlock where
  /-- by region number; 10 R320. -/
  regions : Assoc Region := []
  /-- region numbers issued; 10 R320. -/
  nextRegion : Nat := 0
  /-- 24; 10 R320. -/
  hbm : List Stack := List.replicate 24 {}
  /-- sectors with errors; 10 R331. -/
  errs : List SectorErr := []
  /-- rows whose parity does not match; 10 R339. -/
  parityBad : List SectorKey := []
  /-- ECC_CTL; 10 Table 10-4. -/
  ctl : RwlReg := { active := 1, staged := 1 }
  /-- ECC_SCRUB_RATE; 10 Table 10-4. -/
  scrubRate : RwlReg := { active := 1, staged := 1 }
  /-- ECC_HOT_CFG; 10 Table 10-4. -/
  hotCfg : RwlReg := { active := 0x10001003, staged := 0x10001003 }
  /-- 1; 10 Table 10-7. -/
  flipAny : Bool := false
  /-- 3; 10 Table 10-7. -/
  flipMd : BitVec 3 := 0
  /-- 1; 10 Table 10-7. -/
  flipArm : Bool := false
  /-- 64; 10 Table 10-7. -/
  flipAddr : BitVec 64 := 0
  /-- low word of ECC_FLIP_ADDR, waiting for the high word; 15 R501. -/
  flipLow : BitVec 32 := 0
  /-- 64; 10 Table 10-7. -/
  flipSector : BitVec 64 := 0
  /-- 1; 10 Table 10-7. -/
  flipApplied : Bool := false
  /-- 72 bytes; 10 Table 10-7. -/
  flipMask : Mem := []
  /-- 4; 10 Table 10-7. -/
  logHead : Nat := 0
  /-- 16 x 64; 10 Table 10-7. -/
  log : List (BitVec 64) := List.replicate 16 0
  /-- readable scrubs; 10 R346. -/
  scrubs : List Scrub := []
  /-- readable tickets; 10 R346. -/
  retires : List Retire := []
  /-- SCRUB_IDs issued; 10 Table 10-3. -/
  nextScrub : Nat := 1
  /-- tickets issued; 10 Table 10-3. -/
  nextTicket : Nat := 1
  /-- regions re-salting, at most two; 10 R326. -/
  resalts : List Nat := []
  /-- regions waiting, in order of detection; 10 R326. -/
  resaltQueue : List Nat := []
  /-- regions being re-striped, at most four; 10 R336. -/
  restripes : List Nat := []
  /-- regions moving back under STACK_RETURN; 14 R487. -/
  returning : List Nat := []
  /-- sectors corrected in this tide; 10 R333. -/
  corrSeen : List SectorKey := []
  deriving DecidableEq, Repr

/-- A test or retire ticket (14 R486-R489). -/
structure Ticket where
  /-- 32; 14 Table 14-12. -/
  id : Nat := 0
  /-- running, passed, failed; 14 Table 14-12. -/
  state : Nat := 0
  /-- unit kind; 14 Table 14-12. -/
  kind : Nat := 0
  /-- 32; 14 Table 14-12. -/
  phys : BitVec 32 := 0
  /-- 1: UNIT_RETIRE; 14 R486. -/
  retire : Bool := false
  /-- MD_TEST die; 14 R488. -/
  md : Option Nat := none
  /-- STACK_TEST stack; 14 R487. -/
  stack : Option Nat := none
  /-- signatures and failures; 14 Table 14-12. -/
  res : TestResult := {}
  deriving DecidableEq, Repr

/-- A fill of a core holm (14 R480). -/
structure Fill where
  /-- logical core; 14 R480. -/
  l : Nat := 0
  /-- physical core; 14 R480. -/
  p : Nat := 0
  /-- physical cluster; 14 R480. -/
  cl : Nat := 0
  /-- segments to place: item order, instance, segment; 14 R481. -/
  replay : List (Nat × Nat × Nat) := []
  deriving DecidableEq, Repr

/-- Physical units, holms and logical numbers (01 R19-R22, 14 R478-R486). -/
structure Units where
  /-- logical core to (cluster, P); 01 R20. -/
  bind : Assoc (Nat × Nat) := []
  /-- good idle physical cores; 01 R20. -/
  holms : List (Nat × Nat) := []
  /-- physical cores out of use; 14 R478. -/
  retired : List (Nat × Nat) := []
  /-- time-shared logical cores; 14 R482. -/
  shared : List Nat := []
  /-- fills, running and waiting, by declaration; 14 R480. -/
  fills : List Fill := []
  /-- physical control core of each CC number, 16 where none is left for it; 01 Table 1-3. -/
  ccIn : List Nat := []
  /-- control-core holms; 01 Table 1-3. -/
  ccHolms : List Nat := []
  /-- control cores out of use; 14 R485. -/
  ccRetired : List Nat := []
  /-- cluster, P, logical bank, physical bank where they differ; 05 R156. -/
  banks : List (Nat × Nat × Nat × Nat) := []
  /-- banks (cluster, P, logical bank) whose holm enters service in the next slack, with the logical core; 05 R156. -/
  bankDue : List (Nat × Nat × Nat × Nat) := []
  /-- (cluster, P) whose bank holm is used; 05 R156. -/
  banksUsed : List (Nat × Nat) := []
  /-- (link die, physical unit) failed; 12 R429. -/
  ruDown : List (Nat × Nat) := []
  /-- link die, logical unit, physical unit where they differ; 01 Table 1-3. -/
  ruMap : List (Nat × Nat × Nat) := []
  /-- (causeway, lane) moved to its spare; 01 R17. -/
  cwSpare : List (Nat × Nat) := []
  /-- (causeway, lane) failed with no spare: the causeway runs at half width; 01 R18. -/
  cwHalf : List (Nat × Nat) := []
  /-- (causeway, lane) that the next slack moves, and whether it failed; 01 R17, R18. -/
  cwDue : List (Nat × Nat × Bool) := []
  /-- readable tickets; 14 R489. -/
  tickets : List Ticket := []
  /-- tickets issued; 14 R489. -/
  nextTicket : Nat := 1
  /-- (kind, physical) under test; 14 R489. -/
  testing : List (Nat × BitVec 32) := []
  deriving DecidableEq, Repr

/-- One repair-log entry (14 R477). -/
structure LogEntry where
  /-- 8; 14 Table 14-7. -/
  kind : Nat := 0
  /-- 8; 14 Table 14-7. -/
  cause : Nat := 0
  /-- 32; 14 Table 14-7. -/
  phys : BitVec 32 := 0
  /-- 64; 14 Table 14-7. -/
  tide : Nat := 0
  /-- 32; 14 Table 14-7. -/
  start : Nat := 0
  /-- 32; 14 Table 14-7. -/
  code : BitVec 32 := 0
  /-- 64; 14 Table 14-7. -/
  sector : BitVec 64 := 0
  deriving DecidableEq, Repr

/-- Flash on the module: what survives PERST# beside the fuses (15 R519, 17 R546). -/
structure Flash where
  /-- repair log, up to 8,192 entries; 14 R477. -/
  log : List LogEntry := []
  /-- 16 TEL_LAST_OFF; 17 Table 17-12. -/
  lastOff : BitVec 16 := 0xFF0F
  /-- identity certificate; 16 R533. -/
  idCert : List (BitVec 8) := []
  /-- power-on count; 16 Table 16-8. -/
  startCount : BitVec 32 := 0
  deriving DecidableEq, Repr

/-- Power domains (14 R467-R469). -/
structure PowerBlock where
  /-- 20; 14 Table 14-3. -/
  on : BitVec 20 := 0x04000
  /-- 20; 14 Table 14-3. -/
  good : BitVec 20 := 0x04000
  /-- 20; 14 Table 14-3. -/
  fault : BitVec 20 := 0
  /-- 1; 14 Table 14-3. -/
  orderErr : Bool := false
  /-- domain ramping; 14 Table 14-3. -/
  ramping : Option Nat := none
  deriving DecidableEq, Repr

/-- One bring-up step register pair (14 Table 14-5). -/
structure BringStep where
  /-- 3 bits; 14 Table 14-5. -/
  state : Nat := 0
  /-- 8; 14 Table 14-5. -/
  cause : BitVec 8 := 0
  /-- 16, saturating; 14 Table 14-5. -/
  elapsed : Nat := 0
  /-- 32; 14 Table 14-5. -/
  detail : BitVec 32 := 0
  deriving DecidableEq, Repr

/-- The BRG_, FUS_ and BST_ blocks (14 R470-R477). -/
structure Bringup where
  /-- steps 1-11; 14 Table 14-5. -/
  steps : List BringStep := { state := 2 } :: List.replicate 10 {}
  /-- 4; 14 Table 14-5. -/
  current : Nat := 0
  /-- 4; 14 Table 14-5. -/
  lastPassed : Nat := 1
  /-- 1; 14 Table 14-5. -/
  ready : Bool := false
  /-- 1; 14 Table 14-5. -/
  orderErr : Bool := false
  /-- 1; 14 Table 14-5. -/
  sparePath : Bool := false
  /-- 25; 14 Table 14-5. -/
  fwLen : BitVec 25 := 0
  /-- 16 MiB firmware window; 14 R473. -/
  fwl : Mem := []
  /-- 1; 14 R473. -/
  fwlLocked : Bool := false
  /-- step 7 runs; 14 R471. -/
  tries : Nat := 0
  /-- 1: the device has been ready; 11 R378. -/
  firstReady : Bool := false
  /-- 1; 14 Table 14-8. -/
  fusLoaded : Bool := false
  /-- 1; 14 Table 14-8. -/
  fusCorrected : Bool := false
  /-- 1; 14 Table 14-8. -/
  fusFailed : Bool := false
  /-- 2 bits each; 14 Table 14-9. -/
  bstState : List Nat := List.replicate 20 0
  /-- 1 each; 14 Table 14-9. -/
  bstLogicOk : List Bool := List.replicate 20 false
  /-- 1 each; 14 Table 14-9. -/
  bstMemOk : List Bool := List.replicate 20 false
  /-- 16 each; 14 Table 14-9. -/
  bstFailed : List Nat := List.replicate 20 0
  /-- four 64-bit signatures per domain; 14 Table 14-9. -/
  bstSigs : Assoc (BitVec 64 × BitVec 64 × BitVec 64 × BitVec 64) := []
  /-- failed physical cores; 14 Table 14-9. -/
  bstCore : List (Nat × Nat) := []
  /-- failed control cores; 14 Table 14-9. -/
  bstCc : List Nat := []
  /-- accumulator banks (cluster, P, bank) that failed; 14 R476, R475. -/
  bstBank : List (Nat × Nat × Nat) := []
  /-- failed reduction units; 14 Table 14-9. -/
  bstRu : List (Nat × Nat) := []
  /-- records of steps 1 to 7 written at step 8; 14 R471. -/
  waitRecs : List RasRec := []
  deriving DecidableEq, Repr

/-- One torus link (11 R377, Table 11-12). -/
structure Link where
  /-- 4 bits, Table 11-7; 11 Table 11-12. -/
  state : Nat := 0
  /-- 4; 11 Table 11-12. -/
  cause : Nat := 0
  /-- 12, units of 0.1 ns; 11 Table 11-12. -/
  delay : Nat := 0
  /-- 2 bits each; 11 Table 11-12. -/
  cls : List Nat := List.replicate 18 3
  /-- lane of each position, receive; 11 Table 11-12. -/
  rxMap : List Nat := List.range 16
  /-- lane of each position, transmit; 11 R350. -/
  txMap : List Nat := List.range 16
  /-- lanes with signal or trained; 11 Table 11-7. -/
  lanesSeen : BitVec 18 := 0
  /-- 32, saturating; 11 Table 11-12. -/
  crcErr : Nat := 0
  /-- 32, saturating; 11 Table 11-12. -/
  replays : Nat := 0
  /-- 32, saturating; 11 Table 11-12. -/
  fecUncorr : Nat := 0
  /-- 64; 11 Table 11-12. -/
  bits : Nat := 0
  /-- 64 each; 11 Table 11-12. -/
  laneErr : List Nat := List.replicate 18 0
  /-- SEQ of the next data flit; 11 R367. -/
  txSeq : BitVec 12 := 0
  /-- next expected SEQ; 11 R368. -/
  rxSeq : BitVec 12 := 0
  /-- unacknowledged flits, up to 819; 11 R367. -/
  replayBuf : List Flit := []
  /-- first payload of the packet of a channel whose later flits are not acknowledged; 11 R372. -/
  heads : Assoc (List (BitVec 8)) := []
  /-- replays in a row of one SEQ; 11 R370. -/
  sameReplays : Nat := 0
  /-- 1: discarding until the expected SEQ; 11 R368. -/
  nakDue : Bool := false
  /-- channel and slots held at the far end; 11 R366. -/
  rxSlots : List (Nat × Nat) := []
  /-- packets under assembly by channel; 11 R359. -/
  partials : List (Nat × List (BitVec 8)) := []
  /-- lane moves waiting, (position, lane) first running; 11 R376. -/
  moves : List (Nat × Nat) := []
  /-- control KIND awaiting its answer; 11 R363. -/
  asking : Option Nat := none
  /-- 1: the last IDENT matched, ACTIVE at the next edge; 11 R387. -/
  identGood : Bool := false
  /-- the IDENT received last in this training; 11 R384. -/
  ident : Option IdentPayload := none
  /-- flits that wait for a slot at the far end or in the replay buffer; 11 R366, R367. -/
  txq : List Flit := []
  deriving DecidableEq, Repr

/-- One strait (11 Table 11-11). -/
structure Strait where
  /-- 1: no link ACTIVE; 11 R394. -/
  lost : Bool := true
  /-- 1; 11 Table 11-11. -/
  detour : Bool := false
  /-- 1; 11 Table 11-11. -/
  neighValid : Bool := false
  /-- 3 x 6; 11 Table 11-11. -/
  neigh : Pos := {}
  /-- 64; 11 Table 11-11. -/
  serial : BitVec 64 := 0
  /-- 3; 11 Table 11-11. -/
  wrap : BitVec 3 := 0
  /-- 8; 11 Table 11-11. -/
  numv : BitVec 8 := 0
  /-- 16; 11 Table 11-11. -/
  partId : BitVec 16 := 0
  /-- packets waiting for detours; 11 R394. -/
  waiting : List (PacketHeader × List (BitVec 8)) := []
  /-- 1: its loss or restoration awaits the slack; 11 R394. -/
  changed : Bool := false
  /-- 1: mismatch accepted as lost; 11 R386. -/
  accepted : Bool := false
  deriving DecidableEq, Repr

/-- Another module's strait-state record (11 R394). -/
structure StraitRec where
  /-- 3 x 6; 11 R394. -/
  pos : Pos := {}
  /-- 6; 14 Table 14-13. -/
  lost : BitVec 6 := 0
  /-- 24; 14 Table 14-13. -/
  active : BitVec 24 := 0
  /-- 64; 14 Table 14-13. -/
  tide : Nat := 0
  deriving DecidableEq, Repr

/-- The LNK_ block and routing (11). -/
structure LinkBlock where
  /-- 1; 11 Table 11-9. -/
  run : Bool := false
  /-- 1; 11 Table 11-9. -/
  writeRejected : Bool := false
  /-- 1; 11 Table 11-9. -/
  strictSerial : Bool := false
  /-- 3 x 6; 11 Table 11-9. -/
  pos : Pos := {}
  /-- 3; 11 Table 11-9. -/
  wrap : BitVec 3 := 0
  /-- 3 x 7; 11 Table 11-9. -/
  dim : Pos := { x := 1, y := 1, z := 1 }
  /-- 16; 11 Table 11-9. -/
  partId : BitVec 16 := 0
  /-- 1: a plan is in force; 11 R381. -/
  planLoaded : Bool := false
  /-- 1: IDENT carries the position; 14 R472. -/
  assigned : Bool := false
  /-- 6; 11 Table 11-10. -/
  extra : BitVec 6 := 0
  /-- 6; 11 Table 11-10. -/
  wrong : BitVec 6 := 0
  /-- 6; 11 Table 11-10. -/
  missing : BitVec 6 := 0
  /-- 4; 11 Table 11-10. -/
  refuse : Nat := 0
  /-- 3; 11 Table 11-10. -/
  planState : Nat := 0
  /-- 8; 11 Table 11-10. -/
  qualWindow : Nat := 10
  /-- 10 each; 11 Table 11-10. -/
  vlLimit : List Nat := [0x80, 0x80, 0x200, 0x200, 0x20]
  /-- 32, saturating; 11 Table 11-10. -/
  drop : Nat := 0
  /-- 1; 11 Table 11-10. -/
  dropValid : Bool := false
  /-- 3 x 6; 11 Table 11-10. -/
  dropSrc : Pos := {}
  /-- 1: a drop was logged in this tide; 11 R397. -/
  dropLogged : Bool := false
  /-- 6; 11 R349. -/
  straits : List Strait := List.replicate 6 {}
  /-- 24, link l of strait s at 4s + l; 11 R349. -/
  links : List Link := List.replicate 24 {}
  /-- strait-state records held; 11 R394. -/
  recs : List StraitRec := []
  /-- lost strait and sidestep, in force at the next edge; 11 R395. -/
  detourTo : List (Nat × Nat) := []
  /-- lost strait and sidestep in force (6: none qualifies); 11 R395. -/
  detourNow : List (Nat × Nat) := []
  /-- positions declared lost; 13 R447. -/
  lostPos : List Pos := []
  /-- positions adopted, cleared at the next edge; 13 R450. -/
  adopted : List (Pos × BitVec 64) := []
  /-- DEVICE_FAILED announcements held; 13 R447. -/
  announced : List Pos := []
  /-- own management SEQ; 14 R490. -/
  mgmtSeq : Nat := 1
  /-- highest management SEQ seen by source; 14 R490. -/
  mgmtSeen : List (Pos × Nat) := []
  /-- FREEZE_TIDEs seen; 14 R492. -/
  freezeSeen : List Nat := []
  deriving DecidableEq, Repr

/-- Pairing, lagoon and ferry (13 R431-R440). -/
structure PairBlock where
  /-- Table 13-12 PAIR_QUERY; 13 Table 13-12. -/
  state : Nat := 0
  /-- 3 x 6; 13 Table 13-12. -/
  partner : Pos := {}
  /-- 1; 13 R434. -/
  feedOverride : Bool := false
  /-- 1; 13 R434. -/
  partnerOverride : Bool := false
  /-- 4; 13 Table 13-12. -/
  partnerFeed : BitVec 4 := 0
  /-- 64; 16 Table 16-9. -/
  partnerSerial : BitVec 64 := 0
  /-- bytes, at most 192 GiB; 13 R432. -/
  ownBudget : Nat := 206158430208
  /-- bytes; 13 R433. -/
  partnerBudget : Nat := 0
  /-- 1; 13 R435. -/
  exposed : Bool := false
  /-- 1; 13 R435. -/
  partnerExposed : Bool := false
  /-- 64; 10 R345. -/
  lagoonBytes : Nat := 0
  /-- regions of the lagoon; 10 R345. -/
  lagoonRegions : List Nat := []
  /-- own ferry sequence number; 13 Table 13-2. -/
  fseq : Nat := 1
  /-- ferry packets without ACK; 13 R437, R440. -/
  unacked : List FerryOut := []
  /-- handles whose object table entry changed in this tide; 13 R436. -/
  changes : List (BitVec 64) := []
  deriving DecidableEq, Repr

/-- One object of the partner's state in the lagoon (13 R438). -/
structure LagoonObj where
  /-- index field of its handle; 13 Table 13-2. -/
  obj : Nat := 0
  /-- tensor, low plane, warm slot, scale record; 13 Table 13-2. -/
  part : Nat := 0
  /-- buffer 0; 13 R438. -/
  buf0 : Mem := []
  /-- buffer 1; 13 R438. -/
  buf1 : Mem := []
  /-- committed buffer; 13 R438. -/
  sel : Bool := false
  /-- step of its mark; 13 R438. -/
  mark : Option Nat := none
  deriving DecidableEq, Repr

/-- The lagoon's contents (13 R438). -/
structure Lagoon where
  /-- objects; 13 R438. -/
  objs : List LagoonObj := []
  /-- record and object-table changes held; 13 R436. -/
  records : List (Nat × List (BitVec 8)) := []
  /-- ledger entries of the partner; 13 R455. -/
  ledger : List (List (BitVec 8)) := []
  /-- YES decision to be applied at the edge; 13 R438. -/
  flipStep : Option Nat := none
  deriving DecidableEq, Repr

/-- Hot-spare adoption and re-entry (13 R449-R459). -/
structure Spare where
  /-- 1; 13 R449. -/
  armed : Bool := false
  /-- Table 13-12 ADOPT_QUERY; 13 Table 13-12. -/
  state : Nat := 0
  /-- ADOPT_REPLY code; 13 Table 13-12. -/
  cause : Nat := 0
  /-- bytes; 13 Table 13-12. -/
  filled : Nat := 0
  /-- bytes; 13 Table 13-12. -/
  total : Nat := 0
  /-- reads outstanding; 13 R450. -/
  fillLeft : List FillRead := []
  /-- 1: re-entering its own position; 13 R457. -/
  reentry : Bool := false
  /-- 1: ADOPT_REQ sent; 13 R450. -/
  reqSent : Bool := false
  /-- object-table records received in the fill; 13 R450, R452. -/
  table : List (List (BitVec 8)) := []
  /-- objects filled; 13 R450. -/
  objs : List LagoonObj := []
  /-- ledger taken over; 13 R456. -/
  ledger : List (List (BitVec 8)) := []
  /-- positions this module has accepted a spare for; 13 R451. -/
  adoptedBy : List (Pos × BitVec 64) := []
  deriving DecidableEq, Repr

/-- A RAS queue (13 R464-R465). -/
structure RasQueue where
  /-- records, oldest first; 13 R464. -/
  recs : List RasRec := []
  /-- 1; 13 Table 13-11. -/
  storm : Bool := false
  /-- 32, saturating; 13 Table 13-11. -/
  lost : Nat := 0
  /-- 32, saturating; 13 Table 13-11. -/
  coalesced : Nat := 0
  /-- 1; 13 Table 13-11. -/
  enable : Bool := false
  /-- 4; 13 Table 13-11. -/
  minSev : Nat := 1
  /-- 11; 13 Table 13-11. -/
  vector : BitVec 11 := 0
  deriving DecidableEq, Repr

/-- RAS records (13 R461-R465). -/
structure RasBlock where
  /-- next record sequence number; 13 R461. -/
  seq : Nat := 1
  /-- units (kind, physical) in handling; 13 R463. -/
  handling : List (Nat × BitVec 32) := []
  /-- 256 records; 13 R464. -/
  pf1 : RasQueue := {}
  /-- 64 records; 13 R465. -/
  pf0 : RasQueue := {}
  /-- records that wait for the slack; 11 R375, 13 R461. -/
  due : List RasRec := []
  /-- slots, or 4096 + mailbox, with a HOST_ACCESS_ERROR in this tide; 15 R504. -/
  hostErr : List Nat := []
  deriving DecidableEq, Repr

/-- The reset ledger (15 R511-R517). -/
structure RstBlock where
  /-- 64-byte entries; 15 R516. -/
  entries : List (List (BitVec 8)) := []
  /-- 16, saturating; 15 Table 15-9. -/
  flrs : Nat := 0
  /-- 1; 15 Table 15-9. -/
  complete : Bool := false
  /-- 1; 15 Table 15-9. -/
  inProgress : Bool := false
  /-- 32; 15 Table 15-9. -/
  index : BitVec 32 := 0
  /-- 1; 15 Table 15-9. -/
  enable : Bool := false
  /-- 6; 15 Table 15-9. -/
  vector : BitVec 6 := 0
  /-- 1: an FLR of PF0 waits for its slack; 15 R512. -/
  pending : Bool := false
  /-- 1: it arrived in the slack or the latch guard; 15 R512. -/
  skipSlack : Bool := false
  /-- 1: its effects are done and PF0 waits for the end of the slack; 15 R512. -/
  applied : Bool := false
  /-- 1: host link down; 15 R520. -/
  hostDown : Bool := false
  /-- 1: an FLR of PF1 waits with it; 15 R520. -/
  pf1Pending : Bool := false
  deriving DecidableEq, Repr

/-- The security engine and the SEC_ block (16). -/
structure SecBlock where
  /-- 2; 16 Table 16-11. -/
  state : Nat := 0
  /-- 1; 16 Table 16-11. -/
  cmdLost : Bool := false
  /-- 8: command in progress; 16 R535. -/
  opcode : BitVec 8 := 0
  /-- 8; 16 Table 16-11. -/
  imageReason : Nat := 0
  /-- 2; 16 Table 16-11. -/
  imageSlot : Nat := 0
  /-- 7; 16 Table 16-11. -/
  imageSvn : Nat := 0
  /-- 1; 16 Table 16-11. -/
  attestReady : Bool := false
  /-- 1; 16 Table 16-11. -/
  identityOk : Bool := false
  /-- 1; 16 Table 16-11. -/
  enable : Bool := false
  /-- 6; 16 Table 16-11. -/
  vector : BitVec 6 := 0
  /-- 4 KiB; 16 Table 16-11. -/
  req : Mem := []
  /-- 32 KiB; 16 Table 16-11. -/
  rsp : Mem := []
  /-- M0-M3, 32 bytes each, [] reads 0; 16 R531. -/
  m : List (List (BitVec 8)) := []
  /-- the last 1,024 event records; 16 R532. -/
  events : List (List (BitVec 8)) := []
  /-- 32; 16 Table 16-11. -/
  nEvents : Nat := 0
  /-- events of this tide to be chained in the slack; 16 R531. -/
  queued : List (Nat × List (BitVec 8)) := []
  /-- draw number of the attestation key pair; 16 R523. -/
  attestKey : Option Nat := none
  /-- attestation certificate; 16 R533. -/
  attestCert : List (BitVec 8) := []
  /-- OPHAL_MAJOR of the image; 16 Table 16-2. -/
  major : BitVec 16 := 0
  /-- OPHAL_MINOR of the image; 16 Table 16-2. -/
  minor : BitVec 16 := 0
  /-- 1: a verified payload is handed over; 16 R526. -/
  payload : Bool := false
  deriving DecidableEq, Repr

/-- Fuses: no fuse can be unblown (16 R524, 14 R474, 15 R499). -/
structure Fuses where
  /-- 0-64, counter fuses blown; 16 R524. -/
  floor : Nat := 0
  /-- 3; 16 R524. -/
  revoked : BitVec 3 := 0
  /-- 1; 16 R529. -/
  deployed : Bool := false
  /-- 1; 16 R529. -/
  returned : Bool := false
  /-- 1; 16 R530. -/
  seedErased : Bool := false
  /-- 64; 01 Table 1-14. -/
  serial : BitVec 64 := 0
  /-- 16; 15 R499. -/
  subVendor : BitVec 16 := 0
  /-- 16; 15 R499. -/
  subId : BitVec 16 := 0
  /-- three slots of 32 bytes, [] is zero; 16 R524. -/
  keyHash : List (List (BitVec 8)) := []
  /-- 384; 16 R523. -/
  seed : BitVec 384 := 0
  /-- fuse-bad physical cores; 14 Table 14-8. -/
  coreBad : List (Nat × Nat) := []
  /-- 16; 14 Table 14-8. -/
  ccBad : BitVec 16 := 0
  /-- 36; 14 Table 14-8. -/
  ruBad0 : BitVec 36 := 0
  /-- 36; 14 Table 14-8. -/
  ruBad1 : BitVec 36 := 0
  /-- fuse-bad accumulator banks (cluster, P, bank); 14 Table 14-8. -/
  bankBad : List (Nat × Nat × Nat) := []
  /-- fuse-bad causeway lanes; 14 Table 14-8. -/
  cwBad : List (Nat × Nat) := []
  deriving DecidableEq, Repr

/-- The TEL_ block, capping and throttles (17). -/
structure Telemetry where
  /-- 4; 17 R556. -/
  feedId : BitVec 4 := 0
  /-- 2; 17 R556. -/
  addrSel : BitVec 2 := 0
  /-- 1; 17 R553. -/
  hot : Bool := false
  /-- 1; 17 R558. -/
  refLost : Bool := false
  /-- 1; 17 R549. -/
  warm : Bool := false
  /-- 1; 17 R545. -/
  vinHigh : Bool := false
  /-- 1; 17 R545. -/
  vinLow : Bool := false
  /-- 1; 17 R550. -/
  capping : Bool := false
  /-- compute dies with a thermal trip; 17 R552. -/
  trips : List Nat := []
  /-- 1: electrical throttle in force; 17 R551. -/
  elec : Bool := false
  /-- clusters a throttle acted on in this tide; 02_tide R53. -/
  struck : List Nat := []
  /-- TEL_CAP; 17 Table 17-12. -/
  cap : RwlReg := { active := 0x1356, staged := 0x1356 }
  /-- 16, mV; 17 Table 17-12. -/
  vin : Nat := 0
  /-- 16; 17 Table 17-12. -/
  iin : Nat := 0
  /-- 16, W; 17 Table 17-12. -/
  pin : Nat := 0
  /-- 16, W; 17 Table 17-12. -/
  pinPeak : Nat := 0
  /-- 16, W; 17 Table 17-12. -/
  pclu : Nat := 0
  /-- MHz, clock planned for this tide; 17 Table 17-12. -/
  planned : List Nat := List.replicate 6 1750
  /-- MHz, clock planned for the next tide; 02_tide R51. -/
  next : List Nat := List.replicate 6 1750
  /-- MHz, capped clock; 17 R552. -/
  capped : List Nat := List.replicate 6 1750
  /-- clusters running at half clock now; 02_tide R53. -/
  halved : List Nat := []
  /-- consecutive tides that allow a raise; 17 R550. -/
  raiseRun : Nat := 0
  /-- 16 each; 17 Table 17-12. -/
  temps : List Nat := List.replicate 15 0xFFFF
  /-- 16 each; 17 Table 17-12. -/
  tempPeaks : List Nat := List.replicate 15 0
  /-- 16 each; 17 Table 17-12. -/
  hbmTemps : List Nat := List.replicate 24 0xFFFF
  /-- 16; 17 Table 17-12. -/
  outlet : Nat := 0xFFFF
  /-- 16; 17 Table 17-12. -/
  inlet : Nat := 0xFFFF
  /-- 16, saturating; 17 Table 17-12. -/
  elecTrips : Nat := 0
  /-- 16, saturating; 17 Table 17-12. -/
  thermTrips : Nat := 0
  /-- 1: SMB_ALERT# asserted; 17 R561. -/
  alert : Bool := false
  /-- clusters to which no further item is admitted; 02_tide R52. -/
  capHeld : List Nat := []
  /-- 1: the front-end converter runs; 17 R545. -/
  powered : Bool := true
  /-- 1: PERST# is asserted; 15 R519. -/
  perst : Bool := false
  deriving DecidableEq, Repr

/-- Freeze and readout (14 R491-R495). -/
structure Freeze where
  /-- 1; 14 Table 14-16. -/
  jtagEn : Bool := false
  /-- 1; 14 Table 14-16. -/
  pinEnable : Bool := true
  /-- 1; 14 Table 14-16. -/
  pinPropagate : Bool := false
  /-- 1; 14 Table 14-16. -/
  propagate : Bool := false
  /-- 1; 14 Table 14-16. -/
  late : Bool := false
  /-- 2; 14 Table 14-16. -/
  source : Nat := 0
  /-- 1; 14 Table 14-16. -/
  frozen : Bool := false
  /-- 64; 14 Table 14-16. -/
  tide : BitVec 64 := 0
  /-- 32; 14 Table 14-16. -/
  sel : BitVec 32 := 0
  /-- 32; 14 Table 14-16. -/
  off : BitVec 32 := 0
  /-- FREEZE_TIDE at which the module freezes; 14 R492. -/
  due : Option Nat := none
  /-- SOURCE that will be shown; 14 R492. -/
  dueSource : Nat := 0
  /-- 1: the freeze reached the partition; 14 R493. -/
  partition : Bool := false
  /-- 1: released, held until the parent's EDGE; 14 R494. -/
  holdEdge : Bool := false
  deriving DecidableEq, Repr

/-- What the device has answered and sent (the model's own observations, log 8). -/
structure Out where
  /-- data of the last register read; MODEL log 8. -/
  rd : BitVec 64 := 0
  /-- data of the last BAR2 read, SMBus or JTAG transaction; MODEL log 8. -/
  rdBytes : List (BitVec 8) := []
  /-- completion: 0 none, 1 success, 2 Unsupported Request, 3 poisoned; 15 Table 15-4, MODEL log 8. -/
  cpl : Nat := 0
  /-- packets, markers and flits put on the wire; MODEL log 8. -/
  sent : List Sent := []
  /-- MSI-X messages sent: function and vector; MODEL log 8. -/
  msgs : List (Nat × Nat) := []
  /-- LTR messages sent; 15 R506, MODEL log 8. -/
  ltr : Nat := 0
  /-- 8: JTAG instruction; 14 R495. -/
  ir : BitVec 8 := 0xFF
  deriving DecidableEq, Repr

/-- What the update units did in this tide (09 R287). -/
structure UpdUnits where
  /-- elements; 09 R287. -/
  elems : Nat := 0
  /-- bytes of new-epoch writes of ferried tensors; 09 R287. -/
  ferry : Nat := 0
  /-- bytes read and written in device memory; 09 R287. -/
  mem : Nat := 0
  /-- 1: the verdict of the open step was pending at the edge; 09 R306. -/
  late : Bool := false
  deriving DecidableEq, Repr

/-- The device but for its fuses (every block). -/
structure Dev where
  /-- 64 ID_SERIAL; 01 Table 1-14. -/
  serial : BitVec 64 := 0
  /-- 32 OPHAL_IF_VERSION; 01 Table 1-13. -/
  ophal : BitVec 32 := 0
  /-- 32: Subsystem IDs after the fuse load; 15 R499. -/
  fuseIds : BitVec 32 := 0
  /-- block; 02_tide R68. -/
  tide : TideBlock := {}
  /-- block; 02_tide R55. -/
  vote : VoteBlock := {}
  /-- block; 13 R441. -/
  step : StepBlock := {}
  /-- 64 mailboxes, those that differ from the default; 03 R69. -/
  mbx : Assoc Mailbox := []
  /-- doorbells accepted; 03 R74. -/
  mbxOrder : Nat := 0
  /-- block; 15 R497. -/
  pf0 : PcieFn := {}
  /-- block; 15 R497. -/
  pf1 : PcieFn := {}
  /-- by slot; 03 R81. -/
  chans : Assoc Chan := []
  /-- by index; 03 R81. -/
  tensors : Assoc Tensor := []
  /-- BAR2 mappings; 03 R111. -/
  maps : List Mapping := []
  /-- by index; 03 R81. -/
  programs : Assoc Program := []
  /-- by index; 08 R283. -/
  plans : Assoc Plan := []
  /-- by index; 08 R283. -/
  factors : Assoc FactorSet := []
  /-- by index; 08 R283. -/
  warms : Assoc WarmSet := []
  /-- by index; 12 R402. -/
  groups : Assoc Group := []
  /-- index registries by handle kind; 03 R80. -/
  idx : List IdxReg := List.replicate 8 {}
  /-- by consumption number; 03 R106. -/
  items : Assoc Item := []
  /-- descriptors consumed; 03 R95. -/
  nextItem : Nat := 0
  /-- record; 09 R309. -/
  loss : LossScale := {}
  /-- device flag summary; 04 R143. -/
  devFlags : BitVec 4 := 0
  /-- six cluster summaries; 04 R143. -/
  cluFlags : List ClusterSum := List.replicate 6 {}
  /-- logical cores that hold state; 06 R186. -/
  cores : Assoc Core := []
  /-- the update units' work of this tide; 09 R287. -/
  upd : UpdUnits := {}
  /-- block; 10 R347. -/
  mem : MemBlock := {}
  /-- block; 01 R19. -/
  units : Units := {}
  /-- flash; 14 R477. -/
  flash : Flash := {}
  /-- block; 14 R467. -/
  power : PowerBlock := {}
  /-- block; 14 R470. -/
  brg : Bringup := {}
  /-- block; 11 R399. -/
  lnk : LinkBlock := {}
  /-- block; 13 R433. -/
  pair : PairBlock := {}
  /-- contents; 13 R438. -/
  lagoon : Lagoon := {}
  /-- block; 13 R449. -/
  spare : Spare := {}
  /-- block; 13 R464. -/
  ras : RasBlock := {}
  /-- block; 15 R517. -/
  rst : RstBlock := {}
  /-- block; 16 R537. -/
  sec : SecBlock := {}
  /-- block; 17 R560. -/
  tel : Telemetry := {}
  /-- block; 14 R491. -/
  frz : Freeze := {}
  /-- abandoned launches: group, launch, tide; 12 R411. -/
  abandoned : List (BitVec 32 × BitVec 32 × Nat) := []
  /-- JOINs held for launches not yet admitted here: group, launch, rank; 12 R409. -/
  earlyJoins : List (BitVec 32 × BitVec 32 × Nat) := []
  /-- host memory as the device sees it (outside the device); MODEL log 4. -/
  host : Mem := []
  /-- free-value counter; MODEL log 3. -/
  free : Nat := 0
  /-- observations; MODEL log 8. -/
  out : Out := {}
  deriving DecidableEq, Repr

/-- The machine: the commands that wait, first in first out; the fuses, which no reset changes back; and the device. -/
structure State where
  /-- The commands that wait, first in, first out (the block's queue). -/
  pending : List Sys2Proof.Instr := []
  /-- The fuses of the module (16 R524). -/
  fuses : Fuses := {}
  /-- Everything else the module holds. -/
  dev : Dev := {}
  deriving DecidableEq, Repr

/-- A step of this model never faults: the spec names no access that stops the module, and what it calls an error is a
record, a status or a refusal that the module itself reports. The one constructor is raised by nobody; it is safe. -/
inductive Fault where
  /-- Raised by nobody: kept so that the type has a name for "the model met what the spec rules out". Safe. -/
  | outsideSpec
  deriving DecidableEq, Repr

/-- Why the model gives no next state. -/
inductive Refusal where
  /-- The dispatcher, for a row of the command table whose meaning is not written. Safe: no claim about it can be proved. -/
  | notModelled (mnemonic : String)
  deriving DecidableEq, Repr

/-- The machine right after reset: PERST# deasserted, bring-up step 1 passed and PD14 good (14 Table 14-4, log 5). Every
register is at the Reset column of its table; what the spec gives no reset value is at the value its log entry names. -/
def State.reset : State := {}

end Sys2Proof.Machine
end

