-- ==== Sys2Proof/Machine/Ops.lean ====
section
/-! DEFINITION. The named operations that every meaning is written over: bytes and little-endian numbers (00 R7), addressed
stores, keyed tables, handles (00 R10, R11, 03 R80), MSI-X messages (15 R505, R508), RAS records (13 R461 to R465), the
host's memory (log 4), and the conditions under which the module's clocks run and its functions answer. -/
namespace Sys2Proof.Machine
open Sys2Proof

/-! ### Bytes -/

/-- `n` bytes of `v`, lowest first (00 R7). -/
def toLe : Nat → Nat → Bytes
  | 0, _ => []
  | n + 1, v => BitVec.ofNat 8 v :: toLe n (v / 256)

/-- The number that little-endian bytes spell (00 R7). -/
def ofLe : Bytes → Nat
  | [] => 0
  | b :: bs => b.toNat + 256 * ofLe bs

/-- `len` bytes from `off` of a string of bytes, zeros past its end. -/
def slice (bs : Bytes) (off len : Nat) : Bytes :=
  let t := (bs.drop off).take len
  t ++ List.replicate (len - t.length) 0

/-- The little-endian field of `len` bytes at `off`. -/
def fieldLe (bs : Bytes) (off len : Nat) : Nat := ofLe (slice bs off len)

/-- Zero bytes. -/
def zeros (n : Nat) : Bytes := List.replicate n 0

/-- Every byte is 0. -/
def allZero (bs : Bytes) : Bool := bs.all (· == 0)

/-- Offset of the first nonzero byte of `len` bytes from `off`, if one is. -/
def firstNonzero (bs : Bytes) (off len : Nat) : Option Nat :=
  ((List.range len).find? (fun i => (slice bs (off + i) 1) != [0])).map (off + ·)

/-- Bits `[lo + w - 1 : lo]` of a number. -/
def bitsOf (v lo w : Nat) : Nat := v / 2 ^ lo % 2 ^ w

/-- Bit `i` of a number. -/
def bitOf (v i : Nat) : Bool := v.testBit i

/-- A flag as a bit. -/
def b2n (b : Bool) : Nat := if b then 1 else 0

/-- The low `w` bits as a signed number. -/
def signExt (w v : Nat) : Int :=
  let u := v % 2 ^ w
  if 0 < w ∧ 2 ^ (w - 1) ≤ u then (u : Int) - 2 ^ w else u

/-- A signed number as `w` bits. -/
def wrapBits (w : Nat) (i : Int) : Nat := (i % (2 ^ w : Int)).toNat

/-- One more, saturating at `top`. -/
def satInc (top n : Nat) : Nat := if n < top then n + 1 else top

/-- The bits of a number that are set, below `n`. -/
def bitList (n v : Nat) : List Nat := (List.range n).filter (fun i => v.testBit i)

/-- The number whose set bits are listed. -/
def bitMask (l : List Nat) : Nat := l.foldl (fun acc i => acc ||| 2 ^ i) 0

/-- Quotient rounded up. -/
def ceilDiv (a b : Nat) : Nat := (a + b - 1) / b

/-- ⌈log₂ n⌉ for n ≥ 1. -/
def log2Up (n : Nat) : Nat := if n ≤ 1 then 0 else (n - 1).log2 + 1

/-! ### Addressed bytes -/

/-- The byte at an address: 0 where none is listed. -/
def memGet (m : Mem) (a : Nat) : Byte :=
  match m with
  | [] => 0
  | (k, b) :: t => if k = a then b else memGet t a

/-- `n` bytes from `a`. -/
def memRead (m : Mem) (a n : Nat) : Bytes :=
  let near := m.filter (fun c => a ≤ c.1 && c.1 < a + n)
  if near.isEmpty then zeros n else (List.range n).map (fun i => memGet near (a + i))

/-- The listed form of bytes from `a`: no zero byte is listed. -/
def cellsFrom (a : Nat) : Bytes → Mem
  | [] => []
  | b :: t => if b = 0 then cellsFrom (a + 1) t else (a, b) :: cellsFrom (a + 1) t

/-- Store a string of bytes at `a`, keeping the canonical form. -/
def memWrite (m : Mem) (a : Nat) (bs : Bytes) : Mem :=
  m.filter (fun c => decide (c.1 < a)) ++ cellsFrom a bs ++ m.filter (fun c => decide (a + bs.length ≤ c.1))

/-- The canonical form: addresses strictly rising and no zero byte listed. -/
def Memory.wf (m : Mem) : Bool :=
  match m with
  | [] => true
  | (a, b) :: t => b != 0 && t.all (fun c => decide (a < c.1)) && Memory.wf t

/-- Host stores applied in order (log 4). -/
def applyStores (m : Mem) (st : HostStores) : Mem := st.foldl (fun m c => memWrite m c.1 [c.2]) m

/-! ### Keyed tables -/

/-- The value at a key. -/
def aGet {α : Type} (l : Assoc α) (k : Nat) : Option α :=
  match l with
  | [] => none
  | (j, v) :: t => if j = k then some v else aGet t k

/-- Set the value at a key, keys rising. -/
def aSet {α : Type} (l : Assoc α) (k : Nat) (v : α) : Assoc α :=
  match l with
  | [] => [(k, v)]
  | (j, u) :: t => if j < k then (j, u) :: aSet t k v else if j = k then (k, v) :: t else (k, v) :: (j, u) :: t

/-- Remove a key. -/
def aDel {α : Type} (l : Assoc α) (k : Nat) : Assoc α := l.filter (fun c => decide (c.1 ≠ k))

/-- Change the value at a key where one is listed. -/
def aMod {α : Type} (l : Assoc α) (k : Nat) (f : α → α) : Assoc α :=
  l.map (fun c => if c.1 = k then (c.1, f c.2) else c)

/-- Change every value. -/
def aMap {α : Type} (l : Assoc α) (f : Nat → α → α) : Assoc α := l.map (fun c => (c.1, f c.1 c.2))

/-- Set entry `i` of a list. -/
def setAt {α : Type} (l : List α) (i : Nat) (v : α) : List α := l.set i v

/-- Change entry `i` of a list. -/
def modAt {α : Type} (l : List α) (i : Nat) (f : α → α) : List α :=
  match l[i]? with
  | some v => l.set i (f v)
  | none => l

/-- Add to a set kept as a list without repeats. -/
def addNew {α : Type} [DecidableEq α] (l : List α) (v : α) : List α := if v ∈ l then l else l ++ [v]

/-- Insertion into a list ordered by a key. -/
def insertBy {α : Type} (key : α → Nat) (v : α) : List α → List α
  | [] => [v]
  | u :: t => if key v ≤ key u then v :: u :: t else u :: insertBy key v t

/-- The list ordered by a key, equal keys in their order. -/
def sortByKey {α : Type} (key : α → Nat) (l : List α) : List α := l.foldr (insertBy key) []

/-! ### Clocks, firmware and functions -/

/-- The module is powered and out of PERST#. -/
def isOn (d : Dev) : Bool := d.tel.powered && !d.tel.perst

/-- The module has lost its host-interface, control or security domain in service and stands still (14 Table 14-2). -/
def isStopped (d : Dev) : Bool := d.brg.ready && (d.power.good &&& 0x1C000#20) != 0x1C000#20

/-- The clocks that a freeze stops are running (14 R491): a released member of a partition freeze still holds at its edge (R494). -/
def clocksRun (d : Dev) : Bool := isOn d && !d.frz.frozen && !d.frz.holdEdge && !isStopped d

/-- State of bring-up step `n` (14 Table 14-5). -/
def brgState (d : Dev) (n : Nat) : Nat := ((d.brg.steps[n - 1]?).getD {}).state

/-- Bring-up step `n` has passed. -/
def brgPassed (d : Dev) (n : Nat) : Bool := brgState d n == 2 || brgState d n == 3

/-- Firmware runs: step 8 has passed, or the cores are loaded by it (14 R471). -/
def firmwareRuns (d : Dev) : Bool := clocksRun d && brgPassed d 8

/-- The device is ready and firmware serves Ophal (01 R27). -/
def serves (d : Dev) : Bool := clocksRun d && d.ophal != 0

/-- PF0 takes register writes and answers reads (15 R510 to R512, R520; Memory Space Enable, log 25). -/
def pf0Up (d : Dev) : Bool :=
  isOn d && d.pf0.memEnable && !d.pf0.d3 && !d.rst.pending && !d.rst.hostDown

/-- PF1 takes register writes and answers reads. -/
def pf1Up (d : Dev) : Bool := isOn d && d.pf1.memEnable && !d.pf1.d3 && !d.rst.hostDown

/-- PF1 takes an access to a block that a freeze does not leave readable (14 R491). -/
def pf1Open (d : Dev) : Bool := pf1Up d && !d.frz.frozen

/-- Firmware issues PF0 requests (15 R505). -/
def pf0Requests (d : Dev) : Bool := d.pf0.busMaster && !d.pf0.d3 && !d.rst.hostDown

/-- TIDE_COUNT, or 0 while the tide generator does not run (13 Table 13-7). -/
def tideNow (d : Dev) : Nat := if d.tide.run then d.tide.count else 0

/-! ### MSI-X (15 R505, R507, R508) -/

/-- The table entry of a vector. -/
def msixEntry (f : PcieFn) (v : Nat) : MsixEntry := (aGet f.table v).getD {}

/-- The vector or its function is masked. -/
def msixMasked (f : PcieFn) (v : Nat) : Bool := f.fnMask || (msixEntry f v).mask

/-- A source of PF0 fires: pending while masked, held while PF0 requests are off, else sent. -/
def fire0 (v : Nat) (d : Dev) : Dev :=
  if msixMasked d.pf0 v then { d with pf0 := { d.pf0 with pba := addNew d.pf0.pba v } }
  else if pf0Requests d then { d with out := { d.out with msgs := d.out.msgs ++ [(0, v)] } }
  else { d with pf0 := { d.pf0 with held := d.pf0.held ++ [v] } }

/-- A source of PF1 fires. -/
def fire1 (v : Nat) (d : Dev) : Dev :=
  if msixMasked d.pf1 v then { d with pf1 := { d.pf1 with pba := addNew d.pf1.pba v } }
  else if d.pf1.busMaster && !d.pf1.d3 && !d.rst.hostDown then
    { d with out := { d.out with msgs := d.out.msgs ++ [(1, v)] } }
  else { d with pf1 := { d.pf1 with held := d.pf1.held ++ [v] } }

/-! ### RAS records (13 R461 to R465) -/

/-- Put a record into a queue of `cap` records under 13 R464; the flag says that it entered. -/
def queuePush (cap : Nat) (r : RasRec) (q : RasQueue) : RasQueue × Bool :=
  if q.storm && r.sev == 0 then ({ q with coalesced := satInc 0xFFFFFFFF q.coalesced }, false)
  else if q.recs.length < cap then ({ q with recs := q.recs ++ [r] }, true)
  else
    let drop : RasQueue := { q with lost := satInc 0xFFFFFFFF q.lost, storm := true }
    if r.sev == 0 || r.sev == 15 then (drop, false)
    else
      match (q.recs.reverse.findIdx? (fun x => x.sev == 0 || x.sev == 15)) with
      | some i => ({ drop with recs := q.recs.eraseIdx (q.recs.length - 1 - i) ++ [r] }, true)
      | none => (drop, false)

/-- A record signals when its severity reaches MIN_SEV; INFO never does (13 Table 13-11). -/
def queueSignals (q : RasQueue) (r : RasRec) : Bool := q.enable && r.sev != 15 && q.minSev ≤ r.sev

/-- The identity by which a unit is in handling (13 R463). -/
def unitKey (r : RasRec) : Nat × BitVec 32 := (r.unitKind, r.physical)

/-- Severity after escalation (13 R463), and whether it was raised. -/
def escalated (d : Dev) (r : RasRec) : Nat × Bool :=
  if r.unitKind != 0 && r.sev < 3 && (d.ras.handling.contains (unitKey r)) then (r.sev + 1, true) else (r.sev, false)

/-- Log a record: number and tide it, escalate it, queue it for PF1 and, where 13 R465 says, for PF0, and signal. -/
def logRec (r : RasRec) (d : Dev) : Dev :=
  let e := escalated d r
  let corr := r.flags.getLsbD 1
  let toPf0 := e.1 == 1 || e.1 == 4 || corr
  let r' : RasRec := { r with
    seq := d.ras.seq
    tide := tideNow d
    sev := e.1
    flags := BitVec.ofNat 8 (b2n e.2 + 2 * b2n corr + 4 * b2n toPf0) }
  let q1 := queuePush 256 r' d.ras.pf1
  let q0 := if toPf0 then queuePush 64 r' d.ras.pf0 else (d.ras.pf0, false)
  let d := { d with ras := { d.ras with seq := d.ras.seq + 1, pf1 := q1.1, pf0 := q0.1 } }
  let d := if q1.2 && queueSignals q1.1 r' then fire1 (q1.1.vector.toNat % 64) d else d
  if q0.2 && queueSignals q0.1 r' then fire0 q0.1.vector.toNat d else d

/-- An INFO record of a class with a code (13 Table 13-8). -/
def logInfo (cls : Nat) (code : Nat) (d : Dev) : Dev :=
  logRec { sev := 15, cls := BitVec.ofNat 16 cls, code := BitVec.ofNat 32 code } d

/-- The module's own position as a RAS object (13 Table 13-7). -/
def posWord (p : Pos) : Nat := p.x % 256 * 65536 + p.y % 256 * 256 + p.z % 256

/-- The serial number that the module knows for a position: its own, its partner's, an adopted spare's or a neighbour's. -/
def serialAt (d : Dev) (p : Pos) : BitVec 64 :=
  if p == d.lnk.pos then d.serial
  else if decide (d.pair.state ≠ 0) && p == d.pair.partner && d.pair.partnerSerial != 0 then d.pair.partnerSerial
  else match (d.lnk.adopted ++ d.spare.adoptedBy).find? (fun a => a.1 == p) with
    | some a => a.2
    | none => ((d.lnk.straits.find? (fun x => x.neighValid && x.neigh == p)).map (·.serial)).getD 0

/-- A record about the module at a position: the position is its logical identity and the low word of its serial number its
physical one (13 Table 13-9). -/
def ofModule (d : Dev) (p : Pos) (r : RasRec) : RasRec :=
  { r with unitKind := 12, logical := BitVec.ofNat 32 (posWord p), physical := (serialAt d p).setWidth 32, object := BitVec.ofNat 64 (posWord p) }

/-- A record about a unit. -/
def logUnit (sev cls kind logical physical : Nat) (d : Dev) : Dev :=
  logRec { sev := sev, cls := BitVec.ofNat 16 cls, unitKind := kind, logical := BitVec.ofNat 32 logical,
           physical := BitVec.ofNat 32 physical } d

/-- A unit enters handling (13 R463). -/
def beginHandling (kind physical : Nat) (d : Dev) : Dev :=
  { d with ras := { d.ras with handling := addNew d.ras.handling (kind, BitVec.ofNat 32 physical) } }

/-- The action that a unit's rule fixes is complete (13 R463). -/
def endHandling (kind physical : Nat) (d : Dev) : Dev :=
  { d with ras := { d.ras with
      handling := d.ras.handling.filter (fun k => decide (k ≠ (kind, BitVec.ofNat 32 physical))) } }

/-! ### Handles (00 R10, R11; 03 R80, R81) -/

/-- A handle: kind, generation, index (00 R10). -/
def mkHandle (kind gen idx : Nat) : BitVec 64 := BitVec.ofNat 64 (kind * 2 ^ 56 + gen % 2 ^ 24 * 2 ^ 32 + idx % 2 ^ 32)

/-- Kind, generation and index fields of a handle. -/
def hKind (h : BitVec 64) : Nat := h.toNat / 2 ^ 56
def hGen (h : BitVec 64) : Nat := bitsOf h.toNat 32 24
def hIdx (h : BitVec 64) : Nat := h.toNat % 2 ^ 32

/-- Generation of the live object of a kind at an index. -/
def liveGen (d : Dev) (kind idx : Nat) : Option Nat :=
  match kind with
  | 1 => ((d.chans.find? (fun c => c.2.index == idx)).map (·.2.gen))
  | 2 => (aGet d.tensors idx).map (·.gen)
  | 3 => (aGet d.programs idx).map (·.gen)
  | 4 => (aGet d.plans idx).map (·.gen)
  | 5 => (aGet d.groups idx).map (·.gen)
  | 6 => (aGet d.factors idx).map (·.gen)
  | 7 => (aGet d.warms idx).map (·.gen)
  | _ => none

/-- The handle names a live object of the kind (00 R11). -/
def handleOk (d : Dev) (kind : Nat) (h : BitVec 64) : Bool :=
  hKind h == kind && liveGen d kind (hIdx h) == some (hGen h)

/-- The handle names a live object of any kind of Table 0-5. -/
def handleLive (d : Dev) (h : BitVec 64) : Bool := liveGen d (hKind h) (hIdx h) == some (hGen h)

/-- The next handle index of a kind and its generation: the index free longest, else one never used (03 R80, log 18). -/
def idxNext (r : IdxReg) : Nat × Nat :=
  match r.freed with
  | (i, g) :: _ => (i, if g ≥ 0xFFFFFF then 1 else g + 1)
  | [] => (r.next, 1)

/-- The registry after that index is issued. -/
def idxTake (r : IdxReg) : IdxReg :=
  match r.freed with
  | _ :: t => { r with freed := t }
  | [] => { r with next := r.next + 1 }

/-- The registry of a kind. -/
def idxReg (d : Dev) (kind : Nat) : IdxReg := (d.idx[kind]?).getD {}

/-- Issue an index of a kind. -/
def takeIdx (kind : Nat) (d : Dev) : Dev := { d with idx := d.idx.set kind (idxTake (idxReg d kind)) }

/-- Free an index of a kind with the generation it carried. -/
def freeIdx (kind idx gen : Nat) (d : Dev) : Dev :=
  { d with idx := d.idx.set kind { idxReg d kind with freed := (idxReg d kind).freed ++ [(idx, gen)] } }

/-! ### Host memory (log 4) -/

/-- Bytes of host memory. -/
def hostRead (d : Dev) (a n : Nat) : Bytes := memRead d.host a n

/-- A posted write to host memory. -/
def hostWrite (a : Nat) (bs : Bytes) (d : Dev) : Dev := { d with host := memWrite d.host a bs }

/-- Host software's own stores before the write that a command stands for. -/
def hostStores (st : HostStores) (d : Dev) : Dev := { d with host := applyStores d.host st }

/-- Take `n` numbers of the free-value counter (log 3). -/
def takeFree (n : Nat) (d : Dev) : Dev := { d with free := d.free + n }

/-! ### Latched registers (02 R62, R63) -/

/-- A write to an RWL register: at once while the generator is stopped, else staged, a tide later in the latch guard. -/
def rwlWrite (run : Bool) (ph : Phase) (v : BitVec 32) (r : RwlReg) : RwlReg :=
  if !run then { active := v, staged := v, late := none }
  else match ph with
    | .guard => { r with late := some v }
    | _ => { r with staged := v }

/-- The register at a tide edge. -/
def rwlEdge (r : RwlReg) : RwlReg :=
  { active := r.staged, staged := r.late.getD r.staged, late := none }

/-! ### Shape (01 R19 to R22, R25) -/

/-- Logical cluster of a logical core (01 R22). -/
def clusterOf (l : Nat) : Nat := l / 192

/-- NUMV of the module (01 Table 1-12). -/
def idNumv : Nat := 1

/-- Positions of a step on a wrapped or open axis. -/
def posOk (dim p : Pos) : Bool := decide (p.x < dim.x) && decide (p.y < dim.y) && decide (p.z < dim.z)

/-! ### Lifting to State -/

/-- A change of the device alone: the queue and the fuses stay. -/
def State.onDev (s : State) (f : Dev → Dev) : State := { s with dev := f s.dev }

/-- What one command of the block answers. -/
abbrev Res := Host.Outcome State Fault Refusal

/-- A command whose whole effect is a change of the device. -/
def eff (f : Dev → Dev) (s : State) : Res := .next (s.onDev f)

end Sys2Proof.Machine
end

