-- ==== Sys2Proof/Machine/Flags.lean ====
section
/-! DEFINITION. The flag word of 04 R140 and every flag computation of the arithmetic: a value computed together with the
flags it raises. -/
namespace Sys2Proof.Machine
open Sys2Proof

/-- OF, UF, NX and NV in the layout of 04 R140. -/
def flOF : BitVec 4 := 1
def flUF : BitVec 4 := 2
def flNX : BitVec 4 := 4
def flNV : BitVec 4 := 8

/-- A result with the flags it raises. -/
abbrev Fl (α : Type) := α × BitVec 4

/-- Apply a flag-raising operation after another, keeping both sets of flags. -/
def Fl.then {α β : Type} (x : Fl α) (f : α → Fl β) : Fl β :=
  let y := f x.1
  (y.1, x.2 ||| y.2)

/-- The flags of a list of results, with the values. -/
def flSeq {α : Type} (l : List (Fl α)) : Fl (List α) :=
  (l.map (·.1), l.foldl (fun f x => f ||| x.2) 0)

/-- The bits of an outcome's DETAIL: OF, UF, NX, NV (03 Table 3-16). -/
def flDetail (f : BitVec 4) : Nat := f.toNat

/-- DONE_FLAGGED under 03 R100: OF, UF or NV raised. NX alone leaves DONE. -/
def flFlagged (f : BitVec 4) : Bool := (f &&& 0b1011) != 0

end Sys2Proof.Machine
end

