-- ==== Sys2Proof/Machine/Fp.lean ====
section
/-! DEFINITION. Number formats, rounding and conversion (04 R118 to R139, R145), exactly: a finite value is an integer
times a power of two, every operation is computed exactly and rounded once. -/
namespace Sys2Proof.Machine
open Sys2Proof

/-- A floating format: exponent and fraction bits; `noInf` for E4M3, whose all-ones exponent holds finite values;
`quiet` where every NaN is quiet (04 R118, R119). -/
structure FpFmt where
  eb : Nat
  fb : Nat
  noInf : Bool := false
  quiet : Bool := false
  deriving DecidableEq, Repr

/-- The kinds of value a floating encoding holds. -/
inductive FpClass where
  | zero | fin | inf | qnan | snan
  deriving DecidableEq, Repr

/-- A decoded value: (-1)^sign × m × 2^e when finite. -/
structure Fv where
  sign : Bool := false
  cls : FpClass := .zero
  m : Nat := 0
  e : Int := 0
  deriving DecidableEq, Repr

/-- Rounding: nearest even, toward zero, or stochastic with the 24-bit value u (04 R125, R126, R128). -/
inductive Rnd where
  | rn
  | rz
  | sr (u : Nat)
  deriving DecidableEq, Repr

def fp64 : FpFmt := { eb := 11, fb := 52 }
def fp32 : FpFmt := { eb := 8, fb := 23 }
def fp16 : FpFmt := { eb := 5, fb := 10 }
def bf16 : FpFmt := { eb := 8, fb := 7 }
def e4m3 : FpFmt := { eb := 4, fb := 3, noInf := true, quiet := true }
def e5m2 : FpFmt := { eb := 5, fb := 2, quiet := true }

/-- Floating format of a code of 03 Table 3-20. -/
def fpOf (code : Nat) : Option FpFmt :=
  match code with
  | 1 => some fp64
  | 2 => some fp32
  | 3 => some fp16
  | 4 => some bf16
  | 5 => some e4m3
  | 6 => some e5m2
  | _ => none

/-- Width in bits of an integer code of 03 Table 3-20. -/
def intBits (code : Nat) : Option Nat :=
  match code with
  | 16 => some 8
  | 17 => some 32
  | 18 => some 64
  | _ => none

/-- Bytes of an element of a format code (03 Table 3-20); 0 for a code that is not listed. -/
def fmtBytes (code : Nat) : Nat :=
  match code with
  | 1 => 8
  | 2 => 4
  | 3 => 2
  | 4 => 2
  | 5 => 1
  | 6 => 1
  | 16 => 1
  | 17 => 4
  | 18 => 8
  | _ => 0

/-- The code is listed in 03 Table 3-20. -/
def fmtKnown (code : Nat) : Bool := fmtBytes code != 0

/-- An FP8 code. -/
def isFp8 (code : Nat) : Bool := code == 5 || code == 6

def FpFmt.bits (f : FpFmt) : Nat := 1 + f.eb + f.fb
def FpFmt.bias (f : FpFmt) : Nat := 2 ^ (f.eb - 1) - 1
def FpFmt.emin (f : FpFmt) : Int := 1 - (f.bias : Int)
/-- Encoding of the largest finite magnitude (04 Table 4-1). -/
def FpFmt.maxMag (f : FpFmt) : Nat := if f.noInf then 2 ^ (f.eb + f.fb) - 2 else (2 ^ f.eb - 1) * 2 ^ f.fb - 1
/-- Encoding of infinity; E4M3 has none and its NaN stands there (04 Table 4-6, NONSAT). -/
def FpFmt.infMag (f : FpFmt) : Nat := if f.noInf then 2 ^ (f.eb + f.fb) - 1 else (2 ^ f.eb - 1) * 2 ^ f.fb
/-- The canonical NaN (04 Table 4-2). -/
def FpFmt.nan (f : FpFmt) : Nat :=
  if f.noInf then 2 ^ (f.eb + f.fb) - 1 else (2 ^ f.eb - 1) * 2 ^ f.fb + 2 ^ (f.fb - 1)
def FpFmt.signBit (f : FpFmt) : Nat := 2 ^ (f.eb + f.fb)
/-- An encoding from its sign and magnitude. -/
def FpFmt.mk' (f : FpFmt) (s : Bool) (mag : Nat) : Nat := (if s then f.signBit else 0) + mag
/-- The encoding of one. -/
def FpFmt.one (f : FpFmt) : Nat := f.bias * 2 ^ f.fb

/-- Decode an encoding (04 R118, R119). -/
def unpack (f : FpFmt) (bits : Nat) : Fv :=
  let sign := bits.testBit (f.eb + f.fb)
  let ex := bits / 2 ^ f.fb % 2 ^ f.eb
  let fr := bits % 2 ^ f.fb
  if ex == 2 ^ f.eb - 1 && !f.noInf then
    if fr == 0 then { sign := sign, cls := .inf }
    else if f.quiet || fr.testBit (f.fb - 1) then { sign := sign, cls := .qnan, m := fr }
    else { sign := sign, cls := .snan, m := fr }
  else if f.noInf && ex == 2 ^ f.eb - 1 && fr == 2 ^ f.fb - 1 then { sign := sign, cls := .qnan, m := fr }
  else if ex == 0 then
    if fr == 0 then { sign := sign, cls := .zero }
    else { sign := sign, cls := .fin, m := fr, e := f.emin - f.fb }
  else { sign := sign, cls := .fin, m := 2 ^ f.fb + fr, e := (ex : Int) - f.bias - f.fb }

def Fv.isNan (v : Fv) : Bool := v.cls == .qnan || v.cls == .snan
def Fv.isSnan (v : Fv) : Bool := v.cls == .snan
def Fv.isInf (v : Fv) : Bool := v.cls == .inf
def Fv.isZero (v : Fv) : Bool := v.cls == .zero
/-- Finite, zero included: its magnitude is m × 2^e. -/
def Fv.finite (v : Fv) : Bool := v.cls == .zero || v.cls == .fin

/-- Round m × 2^e to a whole number of units 2^q; the flag says that it was exact. -/
def roundAt (r : Rnd) (m : Nat) (e q : Int) : Nat × Bool :=
  if q ≤ e then (m * 2 ^ (e - q).toNat, true)
  else
    let sh := (q - e).toNat
    let quo := m / 2 ^ sh
    let rem := m % 2 ^ sh
    let up : Bool := match r with
      | .rn => decide (2 ^ sh < 2 * rem) || (2 * rem == 2 ^ sh && quo % 2 == 1)
      | .rz => false
      | .sr u => decide (2 ^ 24 ≤ rem * 2 ^ 24 / 2 ^ sh + u % 2 ^ 24)
    (if up then quo + 1 else quo, rem == 0)

/-- Compare m × 2^e with n × 2^x. -/
def magLe (m : Nat) (e : Int) (n : Nat) (x : Int) : Bool :=
  if e ≤ x then decide (m ≤ n * 2 ^ (x - e).toNat) else decide (m * 2 ^ (e - x).toNat ≤ n)

/-- Round a finite nonzero magnitude into a format with the flags of 04 R125, R128 and Table 4-5.
`nonsat` selects the FP8 overflow mode of 04 R136. -/
def roundPack (f : FpFmt) (r : Rnd) (nonsat : Bool) (s : Bool) (m : Nat) (e : Int) : Fl Nat :=
  if m = 0 then (f.mk' s 0, 0)
  else
    let top : Int := (m.log2 : Int) + e
    let q1 := top - f.fb
    let k1 := roundAt r m e q1
    let top' : Int := if k1.1 = 2 ^ (f.fb + 1) then top + 1 else top
    if top' < f.emin then
      let k := roundAt r m e (f.emin - f.fb)
      (f.mk' s k.1, if k.2 then 0 else flUF ||| flNX)
    else
      let frac := if k1.1 = 2 ^ (f.fb + 1) then 0 else k1.1 - 2 ^ f.fb
      let mag := (top' + f.bias).toNat * 2 ^ f.fb + frac
      if f.maxMag < mag then
        if f.quiet && !nonsat then (f.mk' s f.maxMag, flOF ||| flNX)
        else if f.noInf then (f.nan, flOF ||| flNX)
        else (f.mk' s f.infMag, flOF ||| flNX)
      else (f.mk' s mag, if k1.2 then 0 else flNX)

/-- Round a finite value, zero included, with its sign. -/
def packFv (f : FpFmt) (r : Rnd) (nonsat : Bool) (v : Fv) : Fl Nat := roundPack f r nonsat v.sign v.m v.e

/-- Encoding of an infinity in a format, under 04 Table 4-6 for FP8. -/
def packInf (f : FpFmt) (nonsat : Bool) (s : Bool) : Fl Nat :=
  if f.quiet then
    if !nonsat then (f.mk' s f.maxMag, flNX)
    else if f.noInf then (f.nan, flNV)
    else (f.mk' s f.infMag, 0)
  else (f.mk' s f.infMag, 0)

/-! ### Operations (04 Table 4-5): operands decoded in one format, result rounded in it -/

/-- The NaN row of 04 Table 4-5, for operations whose operands are listed. -/
def nanOf (f : FpFmt) (vs : List Fv) : Option (Fl Nat) :=
  if vs.any Fv.isSnan then some (f.nan, flNV)
  else if vs.any Fv.isNan then some (f.nan, 0)
  else none

/-- Exact sum of two finite values; an exact zero is +0 unless both are negative. -/
def addFv (a b : Fv) : Fv :=
  let e := min a.e b.e
  let x : Int := (if a.sign then -1 else 1) * (a.m * 2 ^ (a.e - e).toNat : Nat)
  let y : Int := (if b.sign then -1 else 1) * (b.m * 2 ^ (b.e - e).toNat : Nat)
  let t := x + y
  if t = 0 then { sign := a.sign && b.sign, cls := .zero }
  else { sign := decide (t < 0), cls := .fin, m := t.natAbs, e := e }

/-- Exact product of two finite values. -/
def mulFv (a b : Fv) : Fv :=
  { sign := a.sign != b.sign, cls := if a.m * b.m = 0 then .zero else .fin, m := a.m * b.m, e := a.e + b.e }

def Fv.neg (v : Fv) : Fv := { v with sign := !v.sign }

/-- Sum of decoded operands, rounded. -/
def addV (f : FpFmt) (r : Rnd) (a b : Fv) : Fl Nat :=
  match nanOf f [a, b] with
  | some x => x
  | none =>
    if a.isInf && b.isInf then if a.sign == b.sign then (f.mk' a.sign f.infMag, 0) else (f.nan, flNV)
    else if a.isInf then (f.mk' a.sign f.infMag, 0)
    else if b.isInf then (f.mk' b.sign f.infMag, 0)
    else packFv f r true (addFv a b)

/-- Product of decoded operands, rounded. -/
def mulV (f : FpFmt) (r : Rnd) (a b : Fv) : Fl Nat :=
  match nanOf f [a, b] with
  | some x => x
  | none =>
    if (a.isInf && b.isZero) || (a.isZero && b.isInf) then (f.nan, flNV)
    else if a.isInf || b.isInf then (f.mk' (a.sign != b.sign) f.infMag, 0)
    else packFv f r true (mulFv a b)

def fpAdd (f : FpFmt) (a b : Nat) : Fl Nat := addV f .rn (unpack f a) (unpack f b)
def fpSub (f : FpFmt) (a b : Nat) : Fl Nat :=
  let y := unpack f b
  addV f .rn (unpack f a) (if y.isNan then y else y.neg)
def fpMul (f : FpFmt) (a b : Nat) : Fl Nat := mulV f .rn (unpack f a) (unpack f b)

/-- x × y + z of decoded operands with one rounding. -/
def fmaV (f : FpFmt) (x y z : Fv) : Fl Nat :=
  match nanOf f [x, y, z] with
  | some r => r
  | none =>
    if (x.isInf && y.isZero) || (x.isZero && y.isInf) then (f.nan, flNV)
    else if x.isInf || y.isInf then
      let s := x.sign != y.sign
      if z.isInf && z.sign != s then (f.nan, flNV) else (f.mk' s f.infMag, 0)
    else if z.isInf then (f.mk' z.sign f.infMag, 0)
    else packFv f .rn true (addFv (mulFv x y) z)

/-- a × b + c with one rounding. -/
def fpFma (f : FpFmt) (a b c : Nat) : Fl Nat := fmaV f (unpack f a) (unpack f b) (unpack f c)

/-- Quotient of decoded operands, rounded; a finite nonzero value over zero raises OF (04 R132). -/
def divV (f : FpFmt) (x y : Fv) : Fl Nat :=
  let s := x.sign != y.sign
  match nanOf f [x, y] with
  | some r => r
  | none =>
    if (x.isZero && y.isZero) || (x.isInf && y.isInf) then (f.nan, flNV)
    else if y.isZero then if x.isInf then (f.mk' s f.infMag, 0) else (f.mk' s f.infMag, flOF)
    else if x.isInf then (f.mk' s f.infMag, 0)
    else if y.isInf || x.isZero then (f.mk' s 0, 0)
    else
      let sh := f.fb + 5 + y.m.log2
      let n := x.m * 2 ^ sh
      roundPack f .rn true s (2 * (n / y.m) + b2n (n % y.m != 0)) (x.e - y.e - sh - 1)

def fpDiv (f : FpFmt) (a b : Nat) : Fl Nat := divV f (unpack f a) (unpack f b)

/-- Integer square root below 2^k, bit by bit. -/
def isqrtBits : Nat → Nat → Nat → Nat
  | 0, r, _ => r
  | k + 1, r, n => isqrtBits k (if (r + 2 ^ k) * (r + 2 ^ k) ≤ n then r + 2 ^ k else r) n

/-- Square root, rounded (04 Table 4-5). -/
def fpSqrt (f : FpFmt) (a : Nat) : Fl Nat :=
  let x := unpack f a
  match nanOf f [x] with
  | some r => r
  | none =>
    if x.isZero then (f.mk' x.sign 0, 0)
    else if x.sign then (f.nan, flNV)
    else if x.isInf then (f.infMag, 0)
    else
      let odd := decide (x.e % 2 ≠ 0)
      let m0 := if odd then 2 * x.m else x.m
      let e0 := if odd then x.e - 1 else x.e
      let n := m0 * 2 ^ (2 * (f.fb + 4))
      let k := n.log2 / 2 + 1
      let r := isqrtBits k 0 n
      roundPack f .rn true false (2 * r + b2n (r * r != n)) (e0 / 2 - (f.fb + 4) - 1)

/-- Order of encodings that are no NaN, −0 equal to +0. -/
def ordKey (f : FpFmt) (bits : Nat) : Int :=
  let mag := bits % f.signBit
  if bits.testBit (f.eb + f.fb) then -(mag : Int) else mag

/-- Order with −0 below +0. -/
def ordKeyZ (f : FpFmt) (bits : Nat) : Int :=
  let mag := bits % f.signBit
  if bits.testBit (f.eb + f.fb) then -(mag : Int) - 1 else mag

/-- maximum and minimum of IEEE 754-2019 (04 R134). -/
def fpMax (f : FpFmt) (a b : Nat) : Fl Nat :=
  match nanOf f [unpack f a, unpack f b] with
  | some r => r
  | none => (if ordKeyZ f a ≤ ordKeyZ f b then b else a, 0)
def fpMin (f : FpFmt) (a b : Nat) : Fl Nat :=
  match nanOf f [unpack f a, unpack f b] with
  | some r => r
  | none => (if ordKeyZ f a ≤ ordKeyZ f b then a else b, 0)

/-- |x|, a bit operation. -/
def fpAbs (f : FpFmt) (a : Nat) : Nat := a % f.signBit
def fpNeg (f : FpFmt) (a : Nat) : Nat := a ^^^ f.signBit

/-- Comparison (04 R135): 0 eq, 1 ne, 2 lt, 3 le, 4 gt, 5 ge. -/
def fpCmp (f : FpFmt) (op a b : Nat) : Fl Bool :=
  let x := unpack f a
  let y := unpack f b
  if x.isNan || y.isNan then (op == 1, if x.isSnan || y.isSnan then flNV else 0)
  else
    let i := ordKey f a
    let j := ordKey f b
    (match op with
      | 0 => decide (i = j)
      | 1 => decide (i ≠ j)
      | 2 => decide (i < j)
      | 3 => decide (i ≤ j)
      | 4 => decide (j < i)
      | _ => decide (j ≤ i), 0)

/-! ### Conversion (04 R126, R136, R137) -/

/-- Floating to floating. -/
def cvtFF (src dst : FpFmt) (r : Rnd) (nonsat : Bool) (bits : Nat) : Fl Nat :=
  if src = dst then (bits, 0)
  else
    let v := unpack src bits
    match v.cls with
    | .snan => (dst.nan, flNV)
    | .qnan => (dst.nan, 0)
    | .inf => packInf dst nonsat v.sign
    | _ => packFv dst r nonsat v

/-- The nearest end of a signed range, with NV when the value lies outside it. -/
def clampInt (w : Nat) (i : Int) : Fl Nat :=
  if i < -(2 ^ (w - 1) : Int) then (2 ^ (w - 1), flNV)
  else if (2 ^ (w - 1) : Int) ≤ i then (2 ^ (w - 1) - 1, flNV)
  else (wrapBits w i, 0)

/-- Floating to integer of w bits (04 R126). -/
def cvtFI (src : FpFmt) (w : Nat) (rz : Bool) (bits : Nat) : Fl Nat :=
  let v := unpack src bits
  match v.cls with
  | .snan | .qnan => (0, flNV)
  | .inf => (if v.sign then 2 ^ (w - 1) else 2 ^ (w - 1) - 1, flNV)
  | .zero => (0, 0)
  | .fin =>
    let k := roundAt (if rz then .rz else .rn) v.m v.e 0
    let c := clampInt w (if v.sign then -(k.1 : Int) else k.1)
    (c.1, if c.2 != 0 then flNV else if k.2 then 0 else flNX)

/-- Integer of w bits to floating, always under RN (04 R127). -/
def cvtIF (w : Nat) (dst : FpFmt) (nonsat : Bool) (bits : Nat) : Fl Nat :=
  let i := signExt w bits
  if i = 0 then (0, 0) else roundPack dst .rn nonsat (decide (i < 0)) i.natAbs 0

/-- Integer to integer; narrowing saturates with NV (04 R137). -/
def cvtII (w v : Nat) (bits : Nat) : Fl Nat := clampInt v (signExt w bits)

/-- Conversion between two format codes of 03 Table 3-20 (04 Table 4-7). -/
def convert (src dst : Nat) (r : Rnd) (rz nonsat : Bool) (bits : Nat) : Fl Nat :=
  match fpOf src, fpOf dst with
  | some f, some g => cvtFF f g r nonsat bits
  | some f, none => cvtFI f ((intBits dst).getD 64) rz bits
  | none, some g => cvtIF ((intBits src).getD 64) g nonsat bits
  | none, none => cvtII ((intBits src).getD 64) ((intBits dst).getD 64) bits

/-- The conversion loses significance, so that SR applies where 04 R127 says: floating to floating. -/
def bothFloat (src dst : Nat) : Bool := (fpOf src).isSome && (fpOf dst).isSome

/-- A value as a tensor stores it: +0 for a zero, the canonical NaN for a NaN (04 R133). -/
def storeForm (code bits : Nat) : Nat :=
  match fpOf code with
  | none => bits
  | some f =>
    let v := unpack f bits
    if v.isZero then 0 else if v.isNan then f.nan else bits

/-- Multiply by 2^k, rounded (exact where 04 says so). -/
def scaleB (f : FpFmt) (bits : Nat) (k : Int) : Fl Nat :=
  let v := unpack f bits
  match v.cls with
  | .snan => (f.nan, flNV)
  | .qnan => (f.nan, 0)
  | .inf => (bits, 0)
  | .zero => (bits, 0)
  | .fin => packFv f .rn true { v with e := v.e + k }

/-! ### Stochastic rounding (04 R129) -/

def mix64 (z : BitVec 64) : BitVec 64 :=
  let z := z ^^^ (z >>> 30)
  let z := z * 0xBF58476D1CE4E5B9
  let z := z ^^^ (z >>> 27)
  let z := z * 0x94D049BB133111EB
  z ^^^ (z >>> 31)

/-- The 24-bit random value of a conversion: step, tensor index, element index and site. -/
def srValue (step tensor element site : Nat) : Nat :=
  let h0 := mix64 (BitVec.ofNat 64 step + 0x9E3779B97F4A7C15 * BitVec.ofNat 64 (site + 1))
  let h1 := mix64 (h0 ^^^ BitVec.ofNat 64 tensor)
  ((mix64 (h1 ^^^ BitVec.ofNat 64 element)) >>> 40).toNat % 2 ^ 24

/-! ### Compensated pairs (04 R123, R124) -/

/-- Flags of an operation whose rounding error the pair keeps: neither NX nor UF (04 R124). An overflow keeps OF and NX,
since R124 takes precedence over the row of inexact results alone. -/
def keptErr (x : Fl Nat) : Fl Nat := (x.1, if (x.2 &&& flOF) != 0 then x.2 else x.2 &&& 0b1001)

/-- The pair of FP64 encodings is finite in its high part. -/
def fp64Finite (b : Nat) : Bool := (unpack fp64 b).finite

/-- The exact low part of a product whose rounded high part is ph; the flag says that FP64 holds it exactly. -/
def productLow (a b ph : Nat) : Nat × Bool :=
  let x := unpack fp64 a
  let y := unpack fp64 b
  let h := unpack fp64 ph
  if x.finite && y.finite && h.finite then
    let r := packFv fp64 .rn true (addFv (mulFv x y) h.neg)
    (r.1, r.2 == 0)
  else (0, true)

/-- s = h + g with its error e, the low part t(e), and the renormalised pair: the common lines of 04 R123 and 07 R229, every
one of them an operation of FP64, with the flags of 04 R124. A high part that is an infinity or a NaN takes the low part +0
(log 47). -/
def pairSum (h g : Nat) (low : Nat → Fl Nat) : Fl (Nat × Nat) :=
  let s := keptErr (fpAdd fp64 h g)
  let bb := keptErr (fpSub fp64 s.1 h)
  let u := keptErr (fpSub fp64 s.1 bb.1)
  let v := keptErr (fpSub fp64 h u.1)
  let w := keptErr (fpSub fp64 g bb.1)
  let e := keptErr (fpAdd fp64 v.1 w.1)
  let t := low e.1
  let hi := keptErr (fpAdd fp64 s.1 t.1)
  let z := keptErr (fpSub fp64 hi.1 s.1)
  let lo := keptErr (fpSub fp64 t.1 z.1)
  ((hi.1, if fp64Finite hi.1 then lo.1 else 0), s.2 ||| bb.2 ||| u.2 ||| v.2 ||| w.2 ||| e.2 ||| t.2 ||| hi.2 ||| z.2 ||| lo.2)

/-- One multiply-add of a pair (04 R123, R124): t = (lo + e) + pl. -/
def pairMac (acc : Nat × Nat) (a b : Nat) : Fl (Nat × Nat) :=
  let p := fpMul fp64 a b
  if fp64Finite acc.1 then
    let pl := productLow a b p.1
    let fl := if pl.2 then (keptErr p).2 else p.2 ||| (flUF ||| flNX)
    let r := pairSum acc.1 p.1 (fun e => (fpAdd fp64 acc.2 e).then (fun x => fpAdd fp64 x pl.1))
    (r.1, fl ||| r.2)
  else
    let s := fpAdd fp64 acc.1 p.1
    ((s.1, 0), p.2 ||| s.2)

/-- The combination of two pairs (07 R229, 12 R416): t = (l1 + l2) + e. -/
def pairAdd (a b : Nat × Nat) : Fl (Nat × Nat) :=
  if fp64Finite a.1 && fp64Finite b.1 then
    pairSum a.1 b.1 (fun e => (fpAdd fp64 a.2 b.2).then (fun x => fpAdd fp64 x e))
  else
    let s := fpAdd fp64 a.1 b.1
    ((s.1, 0), s.2)

/-- The pair's value × 2^k rounded once into a format code (04 R124, 05 R173); NX also when lo is nonzero. -/
def pairRound (p : Nat × Nat) (dst : Nat) (r : Rnd) (rz nonsat : Bool) (k : Int := 0) : Fl Nat :=
  let h := unpack fp64 p.1
  let l := unpack fp64 p.2
  let nx : BitVec 4 := if l.m != 0 && h.finite then flNX else 0
  if dst = 1 then (p.1, nx)
  else if h.finite && l.finite then
    let v0 := if l.m = 0 then h else addFv h l
    let v := { v0 with e := v0.e + k }
    match fpOf dst with
    | some g =>
      let x := packFv g r nonsat v
      (x.1, x.2 ||| nx)
    | none =>
      let w := (intBits dst).getD 64
      let q := roundAt (if rz then .rz else .rn) v.m v.e 0
      let c := clampInt w (if v.sign then -(q.1 : Int) else q.1)
      (c.1, if c.2 != 0 then flNV else (if q.2 then 0 else flNX) ||| nx)
  else convert 1 dst r rz nonsat p.1

/-! ### Scale exponents (04 R145 to R147) -/

/-- Largest e with amax × 2^e ≤ F, for a finite nonzero FP64 amax. -/
def fitExp (f : FpFmt) (amax : Nat) : Int :=
  let v := unpack fp64 amax
  let F := unpack f f.maxMag
  let e0 : Int := ((F.m.log2 : Int) + F.e) - ((v.m.log2 : Int) + v.e)
  if magLe v.m (v.e + e0) F.m F.e then e0 else e0 - 1

/-- The exponent of a scale from an amax, a head-room and the previous value (04 R145, R147). -/
def scaleExp (code amax h : Nat) (prev : Int) : Int :=
  match fpOf code with
  | none => prev
  | some f =>
    let v := unpack fp64 amax
    if v.cls == .fin then max (-126) (min 127 (fitExp f amax - h)) else prev

/-- maximum(|x|) of FP64 encodings as an amax reduction computes it (04 R134). -/
def amaxOf (vals : List Nat) : Nat := vals.foldl (fun m x => (fpMax fp64 m (fpAbs fp64 x)).1) 0

end Sys2Proof.Machine
end

