-- ==== Sys2Proof/Machine/MemOps.lean ====
section
/-! DEFINITION. Device memory: placement of an object's rows (10 R320 to R323), the sector code with its corrections,
rebuilds and poison (10 R331 to R334), the flip mask (10 R348), merging writes (10 R330), and reading and writing a
tensor's bytes through them. Sectors in error are held by the data they hold (log 13). -/
namespace Sys2Proof.Machine
open Sys2Proof

/-! ### Tensors as bytes -/

/-- Elements of a tensor. -/
def tElems (t : Tensor) : Nat := t.dims.foldl (· * ·) 1
/-- Bytes of one epoch of a tensor. -/
def tBytes (t : Tensor) : Nat := tElems t * fmtBytes t.fmt
/-- Role with secured state: PARAMETER, MOMENT, REMAINDER (03 Table 3-21). -/
def roleSecured (r : Nat) : Bool := r == 2 || r == 3 || r == 4
def tSecured (t : Tensor) : Bool := roleSecured t.role
/-- The buffer that a read shows: the committed epoch of a secured tensor (06 R195). -/
def tCommitted (t : Tensor) : Nat := if tSecured t && t.sel then 1 else 0
/-- The buffer that an update writes: the other epoch of a secured tensor (09 R293). -/
def tOther (t : Tensor) : Nat := if tSecured t && t.sel then 0 else if tSecured t then 1 else 0

/-- A buffer of a tensor: 0 and 1 the epochs, 2 and 3 their low planes. -/
def tBuf (t : Tensor) (b : Nat) : Mem :=
  match b with
  | 0 => t.ep0
  | 1 => t.ep1
  | 2 => t.low0
  | _ => t.low1
def tSetBuf (t : Tensor) (b : Nat) (m : Mem) : Tensor :=
  match b with
  | 0 => { t with ep0 := m }
  | 1 => { t with ep1 := m }
  | 2 => { t with low0 := m }
  | _ => { t with low1 := m }
/-- Placement of a buffer. -/
def tPlace (t : Tensor) (b : Nat) : Placement :=
  match b with
  | 0 => t.place0
  | 1 => t.place1.getD {}
  | 2 => (t.placeLow[0]?).getD {}
  | _ => (t.placeLow[1]?).getD {}

/-! ### Placement -/

def region (d : Dev) (r : Nat) : Region := (aGet d.mem.regions r).getD {}
/-- Data units per row of a region (10 R320). -/
def dataUnits (r : Region) : Nat := if r.parity then r.width - 1 else r.width
/-- The pieces of a placement: region, first row, rows. -/
def pieces (p : Placement) : List (Nat × Nat × Nat) := (p.region, p.row, p.rows) :: p.more

/-- The row that holds data sector `n` of an object: region, region row, index of the row's first data sector. -/
def rowOfSector (d : Dev) : List (Nat × Nat × Nat) → Nat → Nat → Nat × Nat × Nat
  | [], base, _ => (0, 0, base)
  | (r, row, rows) :: t, base, n =>
    let per := 4 * dataUnits (region d r)
    if n < base + rows * per ∨ t.isEmpty then (r, row + (n - base) / max per 1, base + (n - base) / max per 1 * per)
    else rowOfSector d t (base + rows * per) n

/-- The key of data sector `n` of a tensor's buffer. -/
def dataKey (idx b n : Nat) : SectorKey := { kind := 0, obj := idx, buf := b, row := n, sector := 0 }
/-- The key of data sector `n` of the object that a key belongs to. -/
def dataLike (k : SectorKey) (n : Nat) : SectorKey := { k with row := n, sector := 0 }
/-- The key of sector `s` of the parity unit of the row whose first data sector is `base`, in that object. -/
def parityLike (k : SectorKey) (base s : Nat) : SectorKey := { k with row := base, sector := 1 + s }

/-- The rows of a lagoon from a row on, around its regions. -/
def lagoonPieces (rs : List Nat) (at_ : Nat) : List (Nat × Nat × Nat) :=
  let m := at_ % max (8192 * rs.length) 1
  match rs.rotateLeft (m / 8192) with
  | [] => [(0, 0, 0)]
  | r :: t => (r, m % 8192, 8192 - m % 8192) :: t.map (fun x => (x, 0, 8192)) ++ [(r, 0, m % 8192)]

/-- The rows of the object that a key belongs to: a tensor's buffer, a factor set, a warm-start set, an object of the
lagoon (10 R321; log 13). -/
def keyPieces (d : Dev) (k : SectorKey) : List (Nat × Nat × Nat) :=
  match k.kind with
  | 0 => pieces (tPlace ((aGet d.tensors k.obj).getD {}) k.buf)
  | 1 => pieces ((aGet d.factors k.obj).getD {}).place
  | 2 => pieces ((aGet d.warms k.obj).getD {}).place
  | _ => lagoonPieces d.pair.lagoonRegions (Config.lagoonAt k.obj k.buf)

/-- Region, region row and first data sector of the row of a key. -/
def keyRow (d : Dev) (k : SectorKey) : Nat × Nat × Nat := rowOfSector d (keyPieces d k) 0 k.row

/-- Position within its row: data unit or, for parity, the last unit. -/
def keyUnit (d : Dev) (k : SectorKey) : Nat :=
  let r := keyRow d k
  if k.sector = 0 then (k.row - r.2.2) / 4 else (region d r.1).width - 1
def keySub (d : Dev) (k : SectorKey) : Nat :=
  if k.sector = 0 then (k.row - (keyRow d k).2.2) % 4 else k.sector - 1

/-- A running move of a region is a re-salt: it stays on as many stacks (10 R326, R336). -/
def moveIsResalt (r : Region) : Bool := r.moving.any (fun m => m.1.length == r.onStacks.length)

/-- Stacks, granules and salt under which a row of a region lies: a re-salt has switched the rows below `moved` (10 R328). -/
def rowHome (r : Region) (row : Nat) : List Nat × List Nat × BitVec 64 :=
  match r.moving with
  | some m => if moveIsResalt r = true ∧ row < r.moved then m else (r.onStacks, r.granules, r.salt)
  | none => (r.onStacks, r.granules, r.salt)

/-- Place of a unit among its region's stacks under the row's rotation (10 R323). -/
def unitPlace (r : Region) (row u : Nat) : Nat :=
  (u + Config.rowRotation (rowHome r row).2.2 row) % max r.onStacks.length 1

/-- A row's slot in a granule: the rank of its key among the rows', a permutation of the 8,192 slots (10 R323; log 11). -/
def slotOf (salt : BitVec 64) (st row : Nat) : Nat :=
  let key := Config.slotKey salt st
  ((List.range 8192).filter (fun q => decide (key q < key row ∨ (key q = key row ∧ q < row)))).length

/-- Stack, granule and slot of a key's unit. -/
def keyUnitAt (d : Dev) (k : SectorKey) : Nat × Nat × Nat :=
  let w := keyRow d k
  let r := region d w.1
  let h := rowHome r w.2.1
  let i := unitPlace r w.2.1 (keyUnit d k)
  let st := (h.1[i]?).getD 0
  (st, (h.2.1[i]?).getD 0, slotOf h.2.2 st w.2.1)

/-- Stack that holds a sector. -/
def keyStack (d : Dev) (k : SectorKey) : Nat := (keyUnitAt d k).1

/-- Memory sector address of a key with an event kind (10 Table 10-1). -/
def sectorAddr (d : Dev) (kind : Nat) (k : SectorKey) : BitVec 64 :=
  let u := keyUnitAt d k
  BitVec.ofNat 64 (u.1 * 2 ^ 59 + kind * 2 ^ 56 + u.2.1 % 2 ^ 15 * 2 ^ 15 + u.2.2 * 4 + keySub d k)

/-- One access to the unit of a key, on its pseudo-channel (10 R325). -/
def hitUnit (d : Dev) (k : SectorKey) : Dev :=
  let u := keyUnitAt d k
  let pc := 32 * u.1 + u.2.2 % 32
  { d with mem := { d.mem with regions := aMod d.mem.regions (keyRow d k).1 (fun r =>
      { r with hits := aSet r.hits pc ((aGet r.hits pc).getD 0 + 1) }) } }

/-- Units that a byte range of an object covers, by their first sector. -/
def unitsOf (off len : Nat) : List Nat :=
  if len = 0 then [] else (List.range ((off + len - 1) / 256 - off / 256 + 1)).map (fun i => 4 * (off / 256 + i))

/-- A request for bytes of an object counts one access to each data unit, and a write one to the parity unit of each
protected row (10 R325; log 34). -/
def countHits (k : SectorKey) (off len : Nat) (write : Bool) (d : Dev) : Dev :=
  let ks := (unitsOf off len).map (dataLike k)
  let par := if write then (ks.filterMap (fun j =>
      let w := keyRow d j
      if (region d w.1).parity then some (parityLike k w.2.2 0) else none)).eraseDups else []
  (ks ++ par).foldl hitUnit d

/-! ### Stacks and their counters -/

def stack (d : Dev) (k : Nat) : Stack := (d.mem.hbm[k]?).getD {}
def onStack (k : Nat) (f : Stack → Stack) (d : Dev) : Dev :=
  { d with mem := { d.mem with hbm := modAt d.mem.hbm k f } }

/-- Enter an event that is neither CORRECTED nor POISONED_READ into ECC_LOG (10 Table 10-7). -/
def eccLog (a : BitVec 64) (d : Dev) : Dev :=
  { d with mem := { d.mem with log := d.mem.log.set d.mem.logHead a, logHead := (d.mem.logHead + 1) % 16 } }

def setErrs (l : List SectorErr) (d : Dev) : Dev := { d with mem := { d.mem with errs := l } }
def findErr (d : Dev) (k : SectorKey) : Option SectorErr := d.mem.errs.find? (fun e => decide (e.key = k))
def dropErr (k : SectorKey) (d : Dev) : Dev := setErrs (d.mem.errs.filter (fun e => decide (e.key ≠ k))) d

/-- Stored bytes of a codeword that are in error. -/
def errBytes (e : SectorErr) : Nat := (e.err.filter (· != 0)).length

/-- State of a stored sector: 0 clean, 1 correctable, 2 uncorrectable, 3 poisoned, 4 on a lost stack. -/
def sectorState (d : Dev) (k : SectorKey) : Nat :=
  match findErr d k with
  | some e =>
    if e.poison then 3
    else if (stack d (keyStack d k)).lost then 4
    else if errBytes e = 0 then 0
    else if errBytes e ≤ 2 then 1 else 2
  | none => if (stack d (keyStack d k)).lost then 4 else 0

/-- The other sectors from which a row rebuilds one (10 R334). -/
def peersOf (d : Dev) (k : SectorKey) : List SectorKey :=
  let w := keyRow d k
  let du := dataUnits (region d w.1)
  let s := keySub d k
  ((List.range du).map (fun u => dataLike k (w.2.2 + 4 * u + s)) ++ [parityLike k w.2.2 s]).filter (fun j => decide (j ≠ k))

def keyProtected (d : Dev) (k : SectorKey) : Bool := (region d (keyRow d k).1).parity

/-- The row can rebuild the sector: it is protected and every other unit answers. -/
def canRebuild (d : Dev) (k : SectorKey) : Bool :=
  keyProtected d k && (peersOf d k).all (fun j => let s := sectorState d j; s == 0 || s == 1)

/-! ### The flip mask (10 R348) -/

/-- The armed mask is applied to the first of the written sectors that the chosen die serves. -/
def flipOn (keys : List SectorKey) (d : Dev) : Dev :=
  if d.mem.flipArm then
    let md := d.mem.flipMd.toNat
    let here := keys.filter (fun k => decide (keyStack d k / 4 = md))
    let pick := if d.mem.flipAny then here.head?
      else here.find? (fun k => decide ((sectorAddr d 0 k).toNat
        = d.mem.flipAddr.toNat - bitsOf d.mem.flipAddr.toNat 56 3 * 2 ^ 56))
    match pick with
    | none => d
    | some k =>
      let mask := memRead d.mem.flipMask 0 72
      let errs := d.mem.errs.filter (fun e => decide (e.key ≠ k))
      { d with mem := { d.mem with
          errs := if allZero mask then errs else errs ++ [{ key := k, err := mask, poison := false }]
          flipMask := [], flipArm := false, flipApplied := true, flipAddr := d.mem.flipAddr
          flipSector := sectorAddr d 0 k } }
  else d

/-- Sectors of one request in the order in which the die counts them: data by stack and address, then parity. -/
def flipOrder (d : Dev) (data parity : List SectorKey) : List SectorKey :=
  let key := fun k => (sectorAddr d 0 k).toNat
  sortByKey key data ++ sortByKey key parity

/-! ### Reading a sector (10 R331, R333, R334) -/

/-- A RAS record about a sector. -/
def logSector (sev cls kind : Nat) (k : SectorKey) (d : Dev) : Dev :=
  let st := keyStack d k
  logRec { sev := sev, cls := BitVec.ofNat 16 cls, unitKind := 7, logical := BitVec.ofNat 32 st,
           physical := BitVec.ofNat 32 st, code := BitVec.ofNat 32 k.obj, object := sectorAddr d kind k } d

/-- The poison of a sector (10 R334). -/
def poisonSector (k : SectorKey) (d : Dev) : Dev :=
  let d := setErrs (d.mem.errs.filter (fun e => decide (e.key ≠ k)) ++ [{ key := k, err := [], poison := true }]) d
  let d := onStack (keyStack d k) (fun s => { s with uncorr := satInc 0xFFFFFFFF s.uncorr }) d
  logSector 1 0x303 3 k (eccLog (sectorAddr d 3 k) d)

/-- Correction and write-back of a sector. -/
def correctSector (k : SectorKey) (d : Dev) : Dev :=
  let d := onStack (keyStack d k) (fun s => { s with corrected := satInc 0xFFFFFFFF s.corrected }) (dropErr k d)
  let d := if d.mem.corrSeen.contains k then d
    else { logSector 0 0x301 1 k d with
           mem := { (logSector 0 0x301 1 k d).mem with corrSeen := d.mem.corrSeen ++ [k] } }
  flipOn [k] d

/-- The peers that a rebuild reads are corrected as any read corrects them (10 R333). -/
def correctPeers (k : SectorKey) (d : Dev) : Dev :=
  ((peersOf d k).filter (fun j => sectorState d j == 1)).foldl (fun d j => correctSector j d) d

/-- Rebuild and write-back of a sector from its row. -/
def rebuildSector (k : SectorKey) (d : Dev) : Dev :=
  let d := correctPeers k d
  let d := onStack (keyStack d k) (fun s => { s with rebuilt := satInc 0xFFFFFFFF s.rebuilt }) (dropErr k d)
  let d := logSector 0 0x302 2 k (eccLog (sectorAddr d 2 k) d)
  flipOn [k] d

/-- XOR bytes into stored data of a tensor. -/
def xorData (k : SectorKey) (e : Bytes) (d : Dev) : Dev :=
  if k.sector = 0 then
    { d with tensors := aMod d.tensors k.obj (fun t =>
        let old := memRead (tBuf t k.buf) (64 * k.row) 64
        tSetBuf t k.buf (memWrite (tBuf t k.buf) (64 * k.row) (old.zipWith (· ^^^ ·) (slice e 0 64)))) }
  else d

/-- The wrong correction that the decoder makes of a tensor's sector in error beyond its promise, if it makes one (log 12). -/
def beyondCode (d : Dev) (k : SectorKey) : Option Bytes :=
  match findErr d k with
  | some e => if k.kind = 0 ∧ 6 < errBytes e then Config.rsBeyondSix e.err else none
  | none => none

/-- A read that is answered with a bus error is counted. -/
def busError (k : SectorKey) (d : Dev) : Dev := onStack (keyStack d k) (fun s => { s with uncorr := satInc 0xFFFFFFFF s.uncorr }) d

/-- Read one stored sector: the device after it, and whether the requester gets data (else a bus error). -/
def touchSector (k : SectorKey) (d : Dev) : Dev × Bool :=
  match sectorState d k with
  | 0 => (d, true)
  | 1 => (correctSector k d, true)
  | 3 => (busError k d, false)
  | 4 => if canRebuild d k then (correctPeers k d, true) else (poisonSector k d, false)
  | _ =>
    match beyondCode d k with
    | some x =>
      let w := keyRow d k
      let d := correctSector k (xorData k x d)
      ({ d with mem := { d.mem with parityBad := addNew d.mem.parityBad (parityLike k w.2.2 0) } }, true)
    | none => if canRebuild d k then (rebuildSector k d, true) else (poisonSector k d, false)

/-- The kind of event that a read of a sector is (10 Table 10-1), 0 for a clean one. -/
def readKind (d : Dev) (k : SectorKey) : Nat :=
  match sectorState d k with
  | 0 => 0
  | 1 => 1
  | 3 => 4
  | 4 => if canRebuild d k then 0 else 3
  | _ => if (beyondCode d k).isSome then 1 else if canRebuild d k then 2 else 3

/-- Some sector may not read clean. -/
def anyTrouble (d : Dev) : Bool := !d.mem.errs.isEmpty || d.mem.hbm.any (·.lost)

/-- Sectors that a byte range covers. -/
def sectorsOf (off len : Nat) : List Nat :=
  if len = 0 then [] else (List.range ((off + len - 1) / 64 - off / 64 + 1)).map (off / 64 + ·)

/-- Read bytes [off, off + len) of the object that a key belongs to: whether they are all answered. -/
def touchBytes (k : SectorKey) (off len : Nat) (d : Dev) : Dev × Bool :=
  let d := countHits k off len false d
  if anyTrouble d then
    (sectorsOf off len).foldl (fun acc n => let r := touchSector (dataLike k n) acc.1; (r.1, acc.2 && r.2)) (d, true)
  else (d, true)

/-- Read bytes of a tensor's buffer: none on a bus error, and none of a LOST tensor (03 R110). -/
def readBuf (idx b off len : Nat) (d : Dev) : Dev × Option Bytes :=
  match aGet d.tensors idx with
  | none => (d, none)
  | some t =>
    if t.lost then (d, none)
    else
    let r := touchBytes (dataKey idx b 0) off len d
    match aGet r.1.tensors idx with
    | some t => (r.1, if r.2 then some (memRead (tBuf t b) off len) else none)
    | none => (r.1, none)

/-- Read bytes of a tensor as a requester sees them: the committed epoch. -/
def readTensor (idx off len : Nat) (d : Dev) : Dev × Option Bytes :=
  readBuf idx (tCommitted ((aGet d.tensors idx).getD {})) off len d

/-! ### Writing (10 R329, R330) -/

/-- Store bytes in a tensor's buffer as data. -/
def pokeBuf (idx b off : Nat) (bs : Bytes) (d : Dev) : Dev :=
  { d with tensors := aMod d.tensors idx (fun t => tSetBuf t b (memWrite (tBuf t b) off bs)) }

/-- A write of one sector's share of a request: whether it is applied. A part of a sector is merged into what the sector
reads, and discarded where that is a bus error; a whole sector loses what error or poison it held. -/
def writeShare (k : SectorKey) (off len n : Nat) (d : Dev) : Dev × Bool :=
  let j := dataLike k n
  let whole := decide (off ≤ 64 * n) && decide (64 * n + 64 ≤ off + len)
  let r := if whole then (d, true) else touchSector j d
  (if r.2 then dropErr j r.1 else r.1, r.2)

/-- The parity sectors of the rows of written sectors: first sector of the row and sector of the unit. -/
def parityOf (d : Dev) (ks : List SectorKey) : List (Nat × Nat) :=
  (ks.filterMap (fun k => if keyProtected d k then some ((keyRow d k).2.2, keySub d k) else none)).eraseDups

/-- A request wrote every data unit of a row. -/
def rowWhole (d : Dev) (k : SectorKey) (ns : List Nat) (base : Nat) : Bool :=
  (List.range (4 * dataUnits (region d (keyRow d (dataLike k base)).1))).all (fun i => ns.contains (base + i))

/-- A write forms parity: of a row written whole anew, else from the old parity, which is read for it; parity that cannot be
read stays as it is (10 R329; log 13). -/
def writeParity (k : SectorKey) (ns : List Nat) (p : Nat × Nat) (d : Dev) : Dev :=
  let j := parityLike k p.1 p.2
  if rowWhole d k ns p.1 then
    { dropErr j d with mem := { (dropErr j d).mem with parityBad := d.mem.parityBad.filter (fun q => decide (q ≠ parityLike k p.1 0)) } }
  else
    let r := touchSector j d
    if r.2 then dropErr j r.1 else r.1

/-- Write bytes [off, off + len) of the object that a key belongs to, sector by sector, with the rows' parity: the sectors
applied, and those that 10 R330 discards. The bytes themselves are stored by the caller. -/
def writeBytes (k : SectorKey) (off len : Nat) (d : Dev) : Dev × List Nat × List Nat :=
  let d := countHits k off len true d
  if anyTrouble d || d.mem.flipArm || !d.mem.parityBad.isEmpty then
    let r := (sectorsOf off len).foldl (fun (acc : Dev × List Nat × List Nat) n =>
      let w := writeShare k off len n acc.1
      if w.2 then (w.1, acc.2.1 ++ [n], acc.2.2) else (w.1, acc.2.1, acc.2.2 ++ [n])) (d, [], [])
    let data := r.2.1.map (dataLike k)
    let par := parityOf r.1 data
    let d := par.foldl (fun d p => writeParity k r.2.1 p d) r.1
    (flipOn (flipOrder d data (par.map (fun p => parityLike k p.1 p.2))) d, r.2.1, r.2.2)
  else (d, sectorsOf off len, [])

/-- Store the share of a request that falls in one sector. -/
def pokeShare (idx b off : Nat) (bs : Bytes) (n : Nat) (d : Dev) : Dev :=
  let lo := max off (64 * n)
  let hi := min (off + bs.length) (64 * n + 64)
  pokeBuf idx b lo (slice bs (lo - off) (hi - lo)) d

/-- Write bytes into a tensor's buffer: the device and the sectors discarded. -/
def storeBuf (idx b off : Nat) (bs : Bytes) (d : Dev) : Dev × List Nat :=
  let r := writeBytes (dataKey idx b 0) off bs.length d
  (if r.2.2.isEmpty then pokeBuf idx b off bs r.1 else r.2.1.foldl (fun d n => pokeShare idx b off bs n d) r.1, r.2.2)

/-- Write bytes into a tensor's buffer; false when the die discarded a sector of it. -/
def writeBuf (idx b off : Nat) (bs : Bytes) (d : Dev) : Dev × Bool :=
  let r := storeBuf idx b off bs d
  (r.1, r.2.isEmpty)

/-- Write bytes into an unsecured tensor. -/
def writeTensor (idx off : Nat) (bs : Bytes) (d : Dev) : Dev × Bool := writeBuf idx 0 off bs d

/-! ### Scale records (09 R314) -/

/-- The exponent that a scaled conversion of an item uses for a tensor; 0 for a tensor that is not FP8 (06 R204). -/
def scaleExpFor (d : Dev) (it : Item) (idx : Nat) : Int :=
  match aGet d.tensors idx with
  | some t =>
    match t.scale with
    | some r =>
      if it.step ≠ 0 then (aGet d.step.scaleExps idx).getD r.exp else (aGet it.scaleExps idx).getD r.exp
    | none => 0
  | none => 0

/-- The larger of two amaxes; an infinite or NaN amax records nothing (04 R147). -/
def joinAmax (old : Option (BitVec 64)) (a : Nat) : Option (BitVec 64) :=
  if fp64Finite a then
    match old with
    | some o => some (if ordKey fp64 o.toNat ≤ ordKey fp64 a then BitVec.ofNat 64 a else o)
    | none => some (BitVec.ofNat 64 a)
  else old

/-- A scaled conversion into a tensor records the amax of its sources and its OF (04 R146, 09 R314). -/
def recordAmax (it : Item) (idx amax : Nat) (ovf : Bool) (d : Dev) : Dev :=
  if (aGet d.tensors idx).any (fun t => t.scale.isSome) then
    if it.step ≠ 0 then
      { d with tensors := aMod d.tensors idx (fun t => { t with scale := t.scale.map (fun r =>
          { r with pending := joinAmax r.pending amax, pendingOf := r.pendingOf || ovf }) }) }
    else
      { d with items := aMod d.items it.order (fun i =>
          let o := (aGet i.scaleAmax idx).getD (none, false)
          { i with scaleAmax := aSet i.scaleAmax idx (joinAmax o.1 amax, o.2 || ovf) }) }
  else d

end Sys2Proof.Machine
end

