-- ==== Sys2Proof/Machine/Alloc.lean ====
section
/-! DEFINITION. Placement of objects in device memory (10 R320 to R323, R342, R344; 03 R108): the rows that are free, new
regions from free granules, taking and giving back the rows of an object. Which free rows and granules firmware takes is a
constant of Config (log 10). -/
namespace Sys2Proof.Machine
open Sys2Proof

def granules : Nat := 18432
def rowsPerRegion : Nat := 8192

/-- Granules of a stack that regions hold, the targets of a running migration included. -/
def heldGranules (d : Dev) (k : Nat) : List Nat :=
  (d.mem.regions.map (fun r =>
    ((r.2.onStacks.zip r.2.granules).filter (fun x => x.1 == k)).map (·.2) ++
    (match r.2.moving with
      | some m => ((m.1.zip m.2.1).filter (fun x => x.1 == k)).map (·.2)
      | none => []))).flatten

/-- Granules of a stack that are not free: held, retired or being retired. -/
def takenGranules (d : Dev) (k : Nat) : List Nat :=
  (heldGranules d k ++ (stack d k).retired ++
    ((d.mem.retires.filter (fun t => t.stack == k)).map (·.todo)).flatten).eraseDups

/-- Free granules of a stack. -/
def freeGranules (d : Dev) (k : Nat) : Nat :=
  if (stack d k).lost || ((stack d k).testing && !d.mem.returning.contains k) then 0 else granules - (takenGranules d k).length

/-- The free granule number `n` of a stack in ascending order. -/
def nthFree (taken : List Nat) (n : Nat) : Nat :=
  (sortByKey id taken).foldl (fun g t => if t ≤ g then g + 1 else g) n

/-- One of the free granules of a stack, chosen by firmware. -/
def pickGranule (d : Dev) (k : Nat) : Nat := nthFree (takenGranules d k) (Config.choice d.free % max (freeGranules d k) 1)

/-- Granules of a stack that running re-salts hold as their targets: they are of the two kept for migration (10 R322). -/
def migrationGranules (d : Dev) (k : Nat) : Nat :=
  (d.mem.regions.filter (fun r => moveIsResalt r.2 && r.2.onStacks.contains k)).length

/-- Free granules of a stack that software may have: two are kept for migration (10 R322). -/
def spareGranules (d : Dev) (k : Nat) : Nat := freeGranules d k + min 2 (migrationGranules d k) - 2

/-- A new region on the stacks that have a granule beyond the two kept for migration: none when fewer than all but one of
the stacks in service have (10 R320, R322, R344). -/
def newRegion (parity : Bool) (d : Dev) : Option (Nat × Dev) :=
  let up := (List.range 24).filter (fun k => !(stack d k).lost && !(stack d k).testing)
  let on := up.filter (fun k => decide (0 < spareGranules d k))
  if on.length < 2 ∨ on.length + 1 < up.length then none
  else
    let r := d.mem.nextRegion
    let reg : Region := { width := on.length, onStacks := on, granules := on.map (pickGranule d), parity := parity
                          salt := Config.salt d.free }
    some (r, { takeFree 1 d with mem := { d.mem with regions := aSet d.mem.regions r reg, nextRegion := r + 1 } })

/-- Rows of a region that objects hold: (first row, rows). -/
def usedRows (d : Dev) (r : Nat) : List (Nat × Nat) :=
  let of := fun (p : Placement) => (pieces p).filterMap (fun x => if x.1 = r ∧ 0 < x.2.2 then some (x.2.1, x.2.2) else none)
  ((d.tensors.map (fun t => of t.2.place0 ++ (t.2.place1.map of).getD [] ++ (t.2.placeLow.map of).flatten)).flatten) ++
  ((d.factors.map (fun f => of f.2.place)).flatten) ++ ((d.warms.map (fun f => of f.2.place)).flatten)

/-- Runs of free rows of a region. -/
def freeRows (d : Dev) (r : Nat) : List (Nat × Nat) :=
  let u := sortByKey (·.1) (usedRows d r)
  let g := u.foldl (fun (st : List (Nat × Nat) × Nat) x =>
    (if st.2 < x.1 then st.1 ++ [(st.2, x.1 - st.2)] else st.1, max st.2 (x.1 + x.2))) ([], 0)
  if g.2 < rowsPerRegion then g.1 ++ [(g.2, rowsPerRegion - g.2)] else g.1

/-- Free runs of the regions of a protection: (region, first row, rows). A region that is being re-striped takes no object. -/
def gaps (d : Dev) (parity : Bool) : List (Nat × Nat × Nat) :=
  (d.mem.regions.map (fun r =>
    if r.2.parity == parity && !r.2.lagoon && (r.2.moving.isNone || moveIsResalt r.2)
        && r.2.onStacks.all (fun k => !(stack d k).lost && !(stack d k).testing) then
      (freeRows d r.1).map (fun x => (r.1, x.1, x.2)) else [])).flatten

/-- Rows of a region that hold a number of bytes. -/
def rowsFor (d : Dev) (r bytes : Nat) : Nat := ceilDiv bytes (max (256 * dataUnits (region d r)) 1)

/-- Take further regions, each from its first row, until the bytes are placed. -/
def takeRegions (parity : Bool) : Nat → Nat → List (Nat × Nat × Nat) → Dev → Option (List (Nat × Nat × Nat) × Dev)
  | 0, left, acc, d => if left = 0 then some (acc, d) else none
  | k + 1, left, acc, d =>
    if left = 0 then some (acc, d)
    else match newRegion parity d with
      | none => none
      | some (r, d) =>
        let n := min rowsPerRegion (rowsFor d r left)
        takeRegions parity k (left - n * 256 * dataUnits (region d r)) (acc ++ [(r, 0, n)]) d

/-- One of the runs that hold an object, of firmware's choice. -/
def chooseRun (n : Nat) : List (Nat × Nat × Nat) → Option (Nat × Nat × Nat)
  | [] => none
  | [g] => some g
  | l => l[Config.choice n % l.length]?

/-- Place an object of `bytes` bytes in consecutive rows (10 R321): in one free run that holds it, of firmware's choice, else
from the longest free run that ends a region on into new regions; none when the memory left does not hold it (log 10). -/
def alloc (parity : Bool) (bytes : Nat) (d : Dev) : Option (Placement × Dev) :=
  let gs := gaps d parity
  let d1 := takeFree 2 d
  if bytes = 0 then some ({ region := 0, row := 0, rows := 0 }, d1)
  else
    let fit := gs.filter (fun g => decide (rowsFor d g.1 bytes ≤ g.2.2))
    match chooseRun (d.free + 1) fit with
    | some g => some ({ region := g.1, row := g.2.1, rows := rowsFor d g.1 bytes }, d1)
    | none =>
      let data := fun (g : Nat × Nat × Nat) => g.2.2 * 256 * dataUnits (region d g.1)
      let tail := (gs.filter (fun g => g.2.1 + g.2.2 == rowsPerRegion)).foldl (fun (b : Option (Nat × Nat × Nat)) g =>
        match b with
        | some x => if data x < data g then some g else b
        | none => some g) none
      match takeRegions parity (bytes / 2 ^ 18 + 1) (bytes - (tail.map data).getD 0) tail.toList d1 with
      | some ((r, row, n) :: t, d) => some ({ region := r, row := row, rows := n, more := t }, d)
      | _ => none

/-- Device memory that a placement takes: whole rows, parity included. -/
def placeBytes (d : Dev) (p : Placement) : Nat :=
  (pieces p).foldl (fun a x => a + x.2.2 * 256 * (region d x.1).width) 0

/-- Regions that a placement touches. -/
def placeRegions (p : Placement) : List Nat := ((pieces p).filter (fun x => decide (0 < x.2.2))).map (·.1)

/-- Give back the granules of regions in which nothing lies any more. -/
def sweepRegions (d : Dev) : Dev :=
  { d with mem := { d.mem with regions := d.mem.regions.filter (fun r =>
      r.2.lagoon || r.2.moving.isSome || !(usedRows d r.1).isEmpty) } }

/-- All placements of a tensor. -/
def tensorPlaces (t : Tensor) : List Placement := t.place0 :: (t.place1.toList ++ t.placeLow)

/-- Errors of an object's sectors go with it. -/
def dropObjErrs (kind obj : Nat) (d : Dev) : Dev :=
  setErrs (d.mem.errs.filter (fun e => !(e.key.kind == kind && e.key.obj == obj))) d

/-- A row of a tensor lies in a region. -/
def tensorIn (t : Tensor) (r : Nat) : Bool := (tensorPlaces t).any (fun p => (placeRegions p).contains r)

/-- The tensor is protected where it lies. -/
def tensorParity (t : Tensor) : Bool := t.parity

end Sys2Proof.Machine
end

