-- ==== Sys2Proof/Machine/Operands.lean ====
section
/-! DEFINITION. Operand forms: the fields of an instruction word (06 Tables 6-4, 6-6, 6-7, 6-8; 07 Table 7-1), the
registers they name, core-memory and window operands with their checks (06 R191 to R196), element layouts of vector
registers (07 R219), and the scaled conversions between a tensor and a register (06 R202 to R204, 04 R127 to R147). -/
namespace Sys2Proof.Machine
open Sys2Proof

/-! ### Fields of a word -/

def fld (w : BitVec 64) (lo n : Nat) : Nat := bitsOf w.toNat lo n
def wMajor (w : BitVec 64) : Nat := fld w 58 6
def wFunc (w : BitVec 64) : Nat := fld w 52 6
def wRD (w : BitVec 64) : Nat := fld w 47 5
def wRA (w : BitVec 64) : Nat := fld w 42 5
def wRB (w : BitVec 64) : Nat := fld w 37 5
def wRC (w : BitVec 64) : Nat := fld w 32 5
def wImm32 (w : BitVec 64) : Int := signExt 32 (fld w 0 32)
/-- Format W: window, predicate, format index and options (06 Table 6-6). -/
def wW (w : BitVec 64) : Nat := fld w 28 4
def wP (w : BitVec 64) : Nat := fld w 24 4
def wFmt (w : BitVec 64) : Nat := fld w 20 4
def wRz (w : BitVec 64) : Bool := w.getLsbD 19
def wNonsat (w : BitVec 64) : Bool := w.getLsbD 18
def wGrad (w : BitVec 64) : Bool := w.getLsbD 17
def wScale (w : BitVec 64) : Bool := w.getLsbD 16
def wSite (w : BitVec 64) : Nat := fld w 0 16
/-- Format V (07 Table 7-1). -/
def vP (w : BitVec 64) : Nat := fld w 28 4
def vFmt (w : BitVec 64) : Nat := fld w 24 4
def vFmt2 (w : BitVec 64) : Nat := fld w 20 4
def vWin (w : BitVec 64) : Nat := fld w 16 4
def vBS (w : BitVec 64) : Bool := w.getLsbD 15
def vPart (w : BitVec 64) : Nat := fld w 12 3
def vImm10 (w : BitVec 64) : Nat := fld w 0 10

/-- Table 3-20 code of a format index of 06 Table 6-6. -/
def fmtCode (i : Nat) : Nat :=
  match i with
  | 0 => 1 | 1 => 2 | 2 => 3 | 3 => 4 | 4 => 5 | 5 => 6 | 6 => 16 | 7 => 17 | 8 => 18 | _ => 0
/-- Width in bits of a format index. -/
def fmtW (i : Nat) : Nat := 8 * fmtBytes (fmtCode i)
/-- Elements of a vector register in a format (07 R218). -/
def vlMax (i : Nat) : Nat := 2048 / max (fmtW i) 1

/-! ### Registers -/

/-- Scalar register; s0 reads 0 (06 Table 6-1). -/
def rdS (c : Core) (i : Nat) : BitVec 64 := if i = 0 then 0 else (aGet c.s i).getD 0
/-- Write a scalar register; a write to s0 is discarded (06 R199). -/
def wrS (i : Nat) (v : BitVec 64) (c : Core) : Core := if i = 0 then c else { c with s := aSet c.s i v }
def rdV (c : Core) (i : Nat) : BitVec 2048 := (aGet c.v i).getD 0
def wrV (i : Nat) (v : BitVec 2048) (c : Core) : Core := { c with v := aSet c.v i v }
/-- Predicate register; p0 is all true (06 Table 6-1). -/
def rdP (c : Core) (i : Nat) : BitVec 256 := if i = 0 then BitVec.allOnes 256 else (aGet c.p i).getD 0
/-- Write a predicate register; writes to p0 are ignored. -/
def wrP (i : Nat) (v : BitVec 256) (c : Core) : Core := if i = 0 then c else { c with p := aSet c.p i v }

/-- Element of a vector register (07 R219). -/
def vElem (v : BitVec 2048) (wd i : Nat) : Nat := v.toNat / 2 ^ (wd * i) % 2 ^ wd
/-- A vector register from its elements. -/
def vOf (wd : Nat) (es : List Nat) : BitVec 2048 :=
  BitVec.ofNat 2048 (es.foldr (fun e acc => e % 2 ^ wd + 2 ^ wd * acc) 0)
/-- All elements of a register. -/
def vElems (v : BitVec 2048) (wd : Nat) : List Nat := (List.range (2048 / max wd 1)).map (vElem v wd)
/-- Element i is active (07 R222). -/
def active (c : Core) (p i : Nat) : Bool := decide (i < c.vl) && (rdP c p).getLsbD i
/-- Positions an instruction acts on, active ones only. -/
def actives (c : Core) (p n : Nat) : List Nat := (List.range (min c.vl n)).filter (active c p)
/-- Write the listed elements of a register and keep the others (07 R222). -/
def vUpdate (v : BitVec 2048) (wd : Nat) (new : List (Nat × Nat)) : BitVec 2048 :=
  vOf wd ((List.range (2048 / max wd 1)).map (fun i => ((new.find? (fun e => e.1 == i)).map (·.2)).getD (vElem v wd i)))

/-- Raise flags: both copies (04 R142). -/
def raise (f : BitVec 4) (c : Core) : Core := { c with flags := c.flags ||| f, segFlags := c.segFlags ||| f }

/-! ### What an instruction did -/

/-- Outcome of one instruction: it completed, it waits, it faults with a code and an address (06 R211), or it met
uncorrectable data of a tensor, with the address for CSR_FAULT_ADDR (06 R196). -/
inductive CRes where
  | ok (d : Dev) (c : Core)
  | stall
  | fault (code : Nat) (addr : Nat) (d : Dev)
  | memory (tensor addr : Nat) (d : Dev)
  deriving DecidableEq, Repr

/-- Fault code and address of a failed check. -/
abbrev Chk := Option (Nat × Nat)

/-- The fault with the lowest code (06 R212). -/
def lowest (l : List Chk) : Chk :=
  l.foldl (fun best x => match best, x with
    | none, y => y
    | some b, some y => if y.1 < b.1 then some y else some b
    | b, none => b) none

/-- The first fault of a list (05 R171). -/
def firstOf (l : List Chk) : Chk := l.foldl (fun best x => match best with | some b => some b | none => x) none

/-! ### Core memory (06 R191) -/

def cmSize : Nat := 2097152

/-- Range and alignment of an access. -/
def cmCheck (a : BitVec 64) (n align : Nat) : Chk :=
  if cmSize < a.toNat + n then some (0x102, a.toNat)
  else if a.toNat % max align 1 ≠ 0 then some (0x103, a.toNat) else none

/-- Byte ranges overlap. -/
def overlaps (a n b m : Nat) : Bool := decide (a < b + m) && decide (b < a + n) && decide (0 < n) && decide (0 < m)

/-- Core-memory bytes that an END in the output stage is going to write (06 R188). -/
def outJobTouches (j : OutJob) (a n : Nat) : Bool :=
  (slice j.desc 1 1 == [0]) && j.outs.any (fun o => overlaps o.1 (fmtBytes (fieldLe j.desc 0 1)) a n)

/-- An access to core memory must wait for an outstanding output stage, solver unit or assembly stage (06 R188). -/
def cmBusy (c : Core) (a n : Nat) : Bool :=
  c.outJobs.any (fun j => outJobTouches j a n) ||
  (c.slvJob.toList ++ c.asmJob.toList).any (fun j => j.ranges.any (fun r => overlaps r.1 r.2 a n))

/-- An outstanding or completed DMA that owes a memory fault and overlaps the access (06 R196). -/
def cmPoison (c : Core) (a n : Nat) : Option Nat :=
  (c.dmas.find? (fun m => m.poison.isSome && overlaps m.core m.len a n)).bind (·.poison)

/-! ### Windows (06 R193 to R195) -/

def rdW (c : Core) (i : Nat) : Option Window := aGet c.w i

/-- Elements of what a window shows. -/
def winElems (d : Dev) (c : Core) (w : Window) : Nat :=
  if w.isConst then ((aGet d.programs c.prog).getD {}).const.length
  else tElems ((aGet d.tensors w.tensor).getD {})

def wExt (w : Window) (i : Nat) : Nat := (w.ext[i]?).getD 1
def wStr (w : Window) (i : Nat) : Int := (w.str[i]?).getD 0

/-- Logical element index of a window-linear index (06 R194). -/
def winElem (d : Dev) (c : Core) (w : Window) (j : Int) : Option Nat :=
  let tot := wExt w 0 * wExt w 1 * wExt w 2 * wExt w 3
  if j < 0 ∨ (tot : Int) ≤ j then none
  else
    let j := j.toNat
    let c0 := j % wExt w 0
    let j1 := j / wExt w 0
    let c1 := j1 % wExt w 1
    let j2 := j1 / wExt w 1
    let e : Int := w.base + c0 + c1 * wStr w 0 + (j2 % wExt w 2 : Nat) * wStr w 1 + (j2 / wExt w 2 : Nat) * wStr w 2
    if e < 0 ∨ (winElems d c w : Int) ≤ e then none else some e.toNat

/-- Permission of an access (06 R195). -/
def winPerm (w : Option Window) (write : Bool) : Chk :=
  match w with
  | none => some (0x104, 0)
  | some v => if (write && !v.wr) || (!write && !v.rd) then some (0x107, 0) else none

/-- Bounds of an access. -/
def winBound (d : Dev) (c : Core) (w : Window) (j : Int) : Chk :=
  if (winElem d c w j).isNone then some (0x108, wrapBits 64 j) else none

/-- An output stage that is going to write the window's tensor holds the access (06 R188). -/
def winBusy (c : Core) (w : Window) : Bool :=
  c.outJobs.any (fun j => match j.win with | some v => !w.isConst && !v.isConst && v.tensor == w.tensor | none => false)

/-- The running item of a core. -/
def coreItem (d : Dev) (c : Core) : Item := (aGet d.items c.item).getD {}

/-- Read the bits of element `e` through a window: none on a bus error. -/
def winRead (w : Window) (c : Core) (e : Nat) (d : Dev) : Dev × Option Nat :=
  let n := fmtBytes w.fmt
  if w.isConst then (d, some (fieldLe ((aGet d.programs c.prog).getD {}).const e 1))
  else
    let r := readTensor w.tensor (e * n) n d
    (r.1, r.2.map ofLe)

/-- Write the bits of element `e` through a window; false where 10 R330 discards the write. -/
def winWrite (w : Window) (e bits : Nat) (d : Dev) : Dev × Bool :=
  writeTensor w.tensor (e * fmtBytes w.fmt) (toLe (fmtBytes w.fmt) bits) d

/-! ### Conversions between tensors and registers -/

/-- Options of a converting access. -/
structure CvtOpt where
  rz : Bool := false
  nonsat : Bool := false
  grad : Bool := false
  scale : Bool := false
  site : Nat := 0
  deriving DecidableEq, Repr

/-- Conversion of value × 2^k, rounded once (05 R173, 09 R313); k = 0 is the plain conversion. -/
def cvtScaled (src dst : Nat) (k : Int) (r : Rnd) (rz nonsat : Bool) (bits : Nat) : Fl Nat :=
  if k = 0 then convert src dst r rz nonsat bits
  else
    let v : Fv := match fpOf src with
      | some f => unpack f bits
      | none =>
        let i := signExt ((intBits src).getD 64) bits
        { sign := decide (i < 0), cls := if i = 0 then .zero else .fin, m := i.natAbs, e := 0 }
    match fpOf dst with
    | some g =>
      match v.cls with
      | .snan => (g.nan, flNV)
      | .qnan => (g.nan, 0)
      | .inf => packInf g nonsat v.sign
      | .zero => (g.mk' v.sign 0, 0)
      | .fin => packFv g r nonsat { v with e := v.e + k }
    | none =>
      let w := (intBits dst).getD 64
      match v.cls with
      | .snan | .qnan => (0, flNV)
      | .inf => (if v.sign then 2 ^ (w - 1) else 2 ^ (w - 1) - 1, flNV)
      | .zero => (0, 0)
      | .fin =>
        let q := roundAt (if rz then .rz else .rn) v.m (v.e + k) 0
        let c := clampInt w (if v.sign then -(q.1 : Int) else q.1)
        (c.1, if c.2 != 0 then flNV else if q.2 then 0 else flNX)

/-- FP64 magnitude of a source value, for an amax. -/
def absFp64 (src bits : Nat) : Nat := fpAbs fp64 (convert src 1 .rn false true bits).1

/-- Exponent of the tensor's scale record where the access selects scaling (06 R204). -/
def accessExp (d : Dev) (it : Item) (o : CvtOpt) (idx : Nat) : Int := if o.scale then scaleExpFor d it idx else 0

/-- Convert a register value for a tensor element (04 R127, R130, R133, R137, R139; 09 R314). -/
def toTensor (d : Dev) (it : Item) (o : CvtOpt) (idx : Nat) (role : Nat) (src dst e bits : Nat) : Fl Nat :=
  let sr := bothFloat src dst && (o.grad || role == 5)
  let r : Rnd := if sr then .sr (srValue it.step idx e o.site) else .rn
  let x := cvtScaled src dst (accessExp d it o idx) r o.rz o.nonsat bits
  (storeForm dst x.1, x.2)

/-- Convert a tensor element for a register; a load never uses SR (04 R139). -/
def fromTensor (d : Dev) (it : Item) (o : CvtOpt) (idx : Nat) (src dst bits : Nat) : Fl Nat :=
  cvtScaled src dst (-(accessExp d it o idx)) .rn false false bits

/-- The tensor's role, 0 for none. -/
def roleOf (d : Dev) (idx : Nat) : Nat := ((aGet d.tensors idx).map (·.role)).getD 0

end Sys2Proof.Machine
end

