-- ==== Sys2Proof/Machine/CoreOps.lean ====
section
/-! DEFINITION. How a logical core runs one instruction: the row takes effect when the core runs a segment whose word at
the program counter is the row's word (06 R197); it completes, waits, or ends the segment by a precise fault
(06 R211, R213); and the shared operations of window and core-memory accesses. -/
namespace Sys2Proof.Machine
open Sys2Proof

/-- Store a core. -/
def setCore (l : Nat) (c : Core) (d : Dev) : Dev := { d with cores := aSet d.cores l c }

/-- Code of the running segment. -/
def coreCode (d : Dev) (c : Core) : List (BitVec 64) :=
  ((((aGet d.programs c.prog).getD {}).segs[c.seg]?).getD {}).code

/-- The item's failure that a slack reports: the lowest status, then instance, then segment (06 R213). -/
def failItem (order : Nat) (status detail inst cluster : Nat) (d : Dev) : Dev :=
  { d with items := aMod d.items order (fun i =>
      let new := (status, inst, detail % 65536)
      let old := (i.status.toNat, i.failInst, i.detail.toNat % 65536)
      let better := decide (new.1 < old.1) || (new.1 == old.1 && (decide (new.2.1 < old.2.1)
        || (new.2.1 == old.2.1 && decide (new.2.2 < old.2.2))))
      if i.stage = .admitted ∧ (i.status.toNat < 16 ∨ better) then
        { i with status := BitVec.ofNat 8 status, detail := BitVec.ofNat 32 detail, failInst := inst
                 cluster := BitVec.ofNat 8 cluster }
      else i) }

/-- The core stops: its flags wait for the slack (04 R143) and its tiles, jobs and DMAs are gone. -/
def coreStop (c : Core) : Core :=
  { c with run := false, tiles := [], outJobs := [], dmas := [], slvJob := none, asmJob := none
           ended := c.ended ++ [(c.item, c.segFlags)]
           flagsSince := c.flagsSince ||| c.segFlags, segCount := c.segCount + 1 }

/-! ### What an output stage writes (05 R172 to R178) -/

/-- Read a list of window elements; on a bus error, nothing but the memory's own events. -/
def winReads (w : Window) (c : Core) (es : List Nat) (d : Dev) : Dev × Option (List Nat) :=
  es.foldl (fun acc e =>
    match acc.2 with
    | none => acc
    | some l => let r := winRead w c e acc.1; (r.1, r.2.map (fun b => l ++ [b]))) (d, some [])

/-- Write a list of window elements in order; false when one was discarded. -/
def winWrites (w : Window) (es : List (Nat × Nat)) (d : Dev) : Dev × Bool :=
  es.foldl (fun acc e => let r := winWrite w e.1 e.2 acc.1; (r.1, acc.2 && r.2)) (d, true)

/-- A write that the memory discarded ends the writing item FAILED_MEMORY (10 R330). -/
def afterWrite (ok : Bool) (w : Window) (l : Nat) (c : Core) (d : Dev) : Dev :=
  if ok then d else failItem c.item 0x12 w.tensor c.inst (clusterOf l) d

def osFmt (b : Bytes) : Nat := fieldLe b 0 1
def osKind (b : Bytes) : Nat := fieldLe b 1 1
def osMode (b : Bytes) (i : Nat) : Bool := bitOf (fieldLe b 2 2) i
def osWin (b : Bytes) : Nat := fieldLe b 4 1

/-- Slots of one 32 × 32 accumulator tile of a mode (05 Table 5-2). -/
def slotsOf (mode : Nat) : Nat := match mode with | 0 => 1 | 1 => 2 | 2 => 2 | _ => 4
/-- Rows and columns of subtiles of a logical tile (05 R160). -/
def subRows (m n : Nat) : Nat := if m < 32 ∧ n < 32 then 1 else ceilDiv m 32
def subCols (m n : Nat) : Nat := if m < 32 ∧ n < 32 then 1 else ceilDiv n 32

/-- Base slot, row and column of element (i, j) of problem p (05 R160, R166). -/
def accPlace (t : AccTile) (p i j : Nat) : Nat × Nat × Nat :=
  if t.p = 1 then
    let bi := if t.m < 32 ∧ t.n < 32 then 0 else i / 32
    let bj := if t.m < 32 ∧ t.n < 32 then 0 else j / 32
    (t.base + (bi * subCols t.m t.n + bj) * slotsOf t.mode, i - 32 * bi, j - 32 * bj)
  else
    let per := if t.p = 16 then 4 else 2
    (t.base, t.m * (p / per) + i, t.n * (p % per) + j)

/-- Valid elements of a tile as the output stage takes them: by accumulator tile, row and column (05 R177). -/
def outElems (t : AccTile) : List (Nat × Nat × Nat) :=
  if t.p = 1 then
    (List.range (subRows t.m t.n)).flatMap (fun bi => (List.range (subCols t.m t.n)).flatMap (fun bj =>
      ((List.range t.mValid).filter (fun i => i / 32 == bi)).flatMap (fun i =>
        ((List.range t.nValid).filter (fun j => j / 32 == bj)).map (fun j => (0, i, j)))))
  else
    let per := if t.p = 16 then 4 else 2
    (List.range per).flatMap (fun pr => (List.range t.mValid).flatMap (fun i => (List.range per).flatMap (fun pc =>
      (List.range t.nValid).map (fun j => (pr * per + pc, i, j)))))

/-- Same base slot, mode and shape. -/
def sameTile (s t : AccTile) : Bool :=
  s.base == t.base && s.mode == t.mode && s.m == t.m && s.n == t.n && s.p == t.p

/-- Store what an output stage writes: core memory for kind 0, else the window's tensor (05 R176). -/
def osStore (l : Nat) (j : OutJob) (outs : List (Nat × Nat)) (d : Dev) (c : Core) : Dev × Core :=
  match j.win with
  | none =>
    let n := fmtBytes (osFmt j.desc)
    (d, { c with mem := outs.foldl (fun m o => memWrite m o.1 (toLe n o.2)) c.mem })
  | some v =>
    let r := winWrites v outs d
    (afterWrite r.2 v l c r.1, c)

/-- Element ranges of consecutive elements. -/
def runsOf : List Nat → List (Nat × Nat)
  | [] => []
  | e :: t =>
    match runsOf t with
    | (a, n) :: r => if a = e + 1 then (e, n + 1) :: r else (e, 1) :: (a, n) :: r
    | [] => [(e, 1)]

/-- Post ready notices for elements of a tensor (05 R178). -/
def postNotices (idx : Nat) (es : List Nat) (d : Dev) : Dev :=
  { d with step := { d.step with readyMaps := d.step.readyMaps ++ (runsOf es).map (fun r => (idx, r.1, r.2)) } }

/-- The ready notices of a streamed END for the elements listed. -/
def osNotices (j : OutJob) (es : List Nat) (d : Dev) : Dev :=
  if osKind j.desc = 2 then (match j.win with | some v => postNotices v.tensor es d | none => d) else d

/-- An END finishes: its elements, the scale record, its notices, its flags, and its tile is released (05 R177, R178). -/
def osFinish (l : Nat) (j : OutJob) (d : Dev) (c : Core) : Dev × Core :=
  let r := osStore l j j.outs d c
  let d1 := match j.win with
    | some v => if osMode j.desc 2 then recordAmax (coreItem d c) v.tensor j.amax.toNat j.ovf r.1 else r.1
    | none => r.1
  (osNotices j (j.outs.map (·.1)) d1,
   raise j.flags { r.2 with
    tiles := r.2.tiles.filter (fun t => !(t.ending && sameTile t j.tile && t.group == j.tile.group)) })

/-- The elements that stand written when the slack stops an output stage that has begun `n` elements: it completes the row
it is writing (05 R172). -/
def osWritten (j : OutJob) (n : Nat) : List (Nat × Nat × Nat × Nat) :=
  let all := ((outElems j.tile).zip j.outs).map (fun x => let pl := accPlace j.tile x.1.1 x.1.2.1 x.1.2.2; (pl.1, pl.2.1, x.2.1, x.2.2))
  let begun := all.take n
  all.filter (fun x => begun.any (fun y => y.1 == x.1 && y.2.1 == x.2.1))

/-- An output stage is stopped: the rows written stay, and each accumulator tile written whole posts its notice (05 R172,
R178). How far it is depends on time (log 22). -/
def osStop (l : Nat) (j : OutJob) (d : Dev) (c : Core) : Dev × Core :=
  let w := osWritten j (Config.outputDone d.free % (j.outs.length + 1))
  let r := osStore l j (w.map (fun x => (x.2.2.1, x.2.2.2))) (takeFree 1 d) c
  let full := osWritten j j.outs.length
  let whole := fun (b : Nat) => (w.filter (fun x => x.1 == b)).length == (full.filter (fun x => x.1 == b)).length
  (osNotices j ((w.filter (fun x => whole x.1)).map (fun x => x.2.2.1)) r.1, r.2)

/-! ### How a segment ends -/

/-- Every instruction before a fault completes: ENDs with their writes, DMAs and a running unit with their flags
(06 R211, 05 R171). -/
def finishEarlier (l : Nat) (d : Dev) (c : Core) : Dev × Core :=
  let r := c.outJobs.foldl (fun (acc : Dev × Core) j => osFinish l j acc.1 acc.2) (d, c)
  let unit : Option Job → BitVec 4 := fun j => match j with
    | some j => if j.fault.isNone && j.poison.isNone then j.flags else 0
    | none => 0
  let fl := (c.dmas.filter (fun m => !m.done && m.poison.isNone)).foldl (fun f m => f ||| m.flags) (unit c.slvJob ||| unit c.asmJob)
  (r.1, raise fl r.2)

/-- A segment is stopped: the oldest output stage completes its row, and everything else in flight is abandoned
(05 R172, 06 R214). -/
def stopInFlight (l : Nat) (d : Dev) (c : Core) : Dev × Core :=
  match c.outJobs with
  | j :: _ => osStop l j d c
  | [] => (d, c)

/-- The record of a segment that a core ended: the core's identities (13 Table 13-9), the step and the object its item names,
and in DETAIL the instance, segment, PC and CSR_FAULT_ADDR (06 R213). -/
def coreRec (l addr : Nat) (d : Dev) (c : Core) : RasRec :=
  { sev := 1, cls := 0x201, unitKind := 1, cluster := BitVec.ofNat 8 (clusterOf l), logical := BitVec.ofNat 32 l
    physical := match aGet d.units.bind l with | some u => BitVec.ofNat 32 (u.1 * 65536 + u.2) | none => 0
    step := c.step, object := match aGet d.items c.item with | some i => i.object | none => 0
    detail := BitVec.ofNat 128 (c.inst + c.seg * 2 ^ 32 + c.pc * 2 ^ 48 + addr * 2 ^ 64) }

/-- A segment ends by a fault of a program (06 R211, R213): record, CSRs, the item's pending failure. -/
def coreFault (l : Nat) (code addr : Nat) (d : Dev) (c : Core) : Dev :=
  let r := finishEarlier l d c
  let c1 : Core := { coreStop r.2 with fault := BitVec.ofNat 16 code, faultPc := c.pc, faultAddr := BitVec.ofNat 64 addr }
  let d := failItem c.item 0x10 (code * 65536 + c.seg) c.inst (clusterOf l) (setCore l c1 r.1)
  logRec { coreRec l addr d c with status := 0x10, code := BitVec.ofNat 32 (code * 65536 + c.pc) } d

/-- A segment ends because uncorrectable data reached it (06 R196), a fault to which no code is given (log 21). -/
def coreMemFault (l : Nat) (tensor addr : Nat) (d : Dev) (c : Core) : Dev :=
  let r := finishEarlier l d c
  let c1 : Core := { coreStop r.2 with fault := 0, faultPc := c.pc, faultAddr := BitVec.ofNat 64 addr }
  let d := failItem c.item 0x12 tensor c.inst (clusterOf l) (setCore l c1 r.1)
  logRec { coreRec l addr d c with status := 0x12, code := BitVec.ofNat 32 tensor } d

/-- The core may run an instruction now. -/
def coreRuns (d : Dev) (l : Nat) : Option Core :=
  match aGet d.cores l with
  | some c => if clocksRun d && d.tide.phase == .work && c.run then some c else none
  | none => none

/-- The core runs the word: it is the word at the program counter. -/
def coreAt (d : Dev) (l : Nat) (w : BitVec 64) : Option Core :=
  match coreRuns d l with
  | some c => if (coreCode d c)[c.pc]? = some w then some c else none
  | none => none

/-- Settle what an instruction did; execution that passes the last word raises SEG_FALLTHROUGH (06 R200). -/
def coreSettle (l : Nat) (d : Dev) (c : Core) (r : CRes) : Dev :=
  match r with
  | .ok d' c' =>
    if c'.run && decide ((coreCode d' c').length ≤ c'.pc) then coreFault l 0x10B 0 (setCore l c' d') c'
    else setCore l c' d'
  | .stall => d
  | .fault code addr d' => coreFault l code addr d' c
  | .memory t addr d' => coreMemFault l t addr d' c

/-- One instruction row: `ok w` says that the word is one of the row's. -/
def coreRow (l : Nat) (w : BitVec 64) (mine : Bool) (f : Dev → Core → CRes) (d : Dev) : Dev :=
  match coreAt d l w with
  | some c => if mine then coreSettle l d c (f d c) else d
  | none => d

/-- Completed: the program counter moves to the next word. -/
def done (d : Dev) (c : Core) : CRes := .ok d { c with pc := c.pc + 1 }

/-- Go on unless a check failed. -/
def guarded (k : Chk) (d : Dev) (f : CRes) : CRes :=
  match k with
  | some x => .fault x.1 x.2 d
  | none => f

/-- A core-memory access: faults, then the waits of 06 R188 and R196, then the access. -/
def withCm (a : BitVec 64) (n align : Nat) (d : Dev) (c : Core) (f : CRes) : CRes :=
  guarded (cmCheck a n align) d
    (if cmBusy c a.toNat n then .stall
     else match cmPoison c a.toNat n with
      | some t => .memory t a.toNat d
      | none => f)

/-- The sources that a scaled conversion into a tensor records (09 R314). -/
def recordScaled (o : CvtOpt) (c : Core) (w : Window) (src : Nat) (vals : List Nat) (fl : BitVec 4) (d : Dev) : Dev :=
  if o.scale && !vals.isEmpty then
    recordAmax (coreItem d c) w.tensor (amaxOf (vals.map (absFp64 src))) (fl.getLsbD 0) d
  else d

/-- A store of register values to window elements, converting each. -/
def winStore (l : Nat) (d : Dev) (c : Core) (w : Window) (o : CvtOpt) (src : Nat) (es : List (Nat × Nat)) : Dev × Core :=
  let it := coreItem d c
  let xs := flSeq (es.map (fun e => toTensor d it o w.tensor (roleOf d w.tensor) src w.fmt e.1 e.2))
  let r := winWrites w ((es.map (·.1)).zip xs.1) d
  let d := afterWrite r.2 w l c r.1
  (recordScaled o c w src (es.map (·.2)) xs.2 d, raise xs.2 c)

/-- Element indices of window-linear indices, after the bounds check. -/
def winIdx (d : Dev) (c : Core) (w : Window) (js : List Int) : List Nat := js.filterMap (winElem d c w)

/-- Bounds of a list of accesses: the lowest-numbered failing one. -/
def winBounds (d : Dev) (c : Core) (w : Window) (js : List Int) : Chk := firstOf (js.map (winBound d c w))

/-- Options of a format W instruction. -/
def optW (w : BitVec 64) : CvtOpt :=
  { rz := wRz w, nonsat := wNonsat w, grad := wGrad w, scale := wScale w, site := wSite w }

end Sys2Proof.Machine
end

