-- ==== Sys2Proof/Machine/Mbx.lean ====
section
/-! DEFINITION. Command mailboxes (03 R69 to R79): the doorbell with the checks that every request passes (R77 steps 1
to 5), the bodies of the opcodes, and how a command's row answers. A doorbell is accepted at once; the command's own row
then acts and answers (log 9). -/
namespace Sys2Proof.Machine
open Sys2Proof

def mbx (d : Dev) (m : Nat) : Mailbox := (aGet d.mbx m).getD {}
def setMbx (m : Nat) (b : Mailbox) (d : Dev) : Dev := { d with mbx := aSet d.mbx m b }

/-! ### Refusal reasons (03 Table 3-5) -/

def rBadOpcode : Nat := 1
def rBadLength : Nat := 2
def rTagMismatch : Nat := 3
def rBadVersion : Nat := 4
def rReserved : Nat := 5
def rBadHandle : Nat := 6
def rBadField : Nat := 7
def rNoRoom : Nat := 8
def rInUse : Nat := 9
def rTooLong : Nat := 0xA
def rBadImage : Nat := 0xB
def rNumv : Nat := 0xC
def rBadAddress : Nat := 0xD
def rBadSeq : Nat := 0xE
def rDepFailed : Nat := 0xF
def rTensorLost : Nat := 0x10
def rWrongChannel : Nat := 0x11
def rNotAllowed : Nat := 0x12

/-! ### Bodies of the opcodes -/

/-- Reserved bytes: offset and the mask of the bits that must be 0. -/
def rz (off len : Nat) : List (Nat × Nat) := (List.range len).map (fun i => (off + i, 0xFF))

/-- Length that a request of an opcode must cover and its reserved bits; none for an unassigned opcode (03 R79). -/
def opBody (op : Nat) (req : Bytes) : Option (Nat × List (Nat × Nat)) :=
  match op with
  | 0x0101 => some (48, rz 19 1 ++ rz 40 8)
  | 0x0102 => some (24, [])
  | 0x0103 => some (24, [])
  | 0x0201 => some (56, (20, 0xFE) :: rz 21 3)
  | 0x0202 => some (24, [])
  | 0x0203 => some (24, [])
  | 0x0204 => some (32, rz 25 7)
  | 0x0205 => some (40, [])
  | 0x0206 => some (24, [])
  | 0x0301 => some (32, rz 28 4)
  | 0x0302 => some (24, [])
  | 0x0303 => some (24, [])
  | 0x0401 => some (112, (27, 0xF8) :: rz 61 19 ++ rz 104 8)
  | 0x0402 => some (24, [])
  | 0x0403 => some (24, [])
  | 0x0411 => some (32, rz 28 4)
  | 0x0412 => some (24, [])
  | 0x0421 => some (32, rz 24 8)
  | 0x0422 => some (24, [])
  | 0x0423 => some (24, [])
  | 0x0501 =>
    let n := fieldLe req 24 4
    if fieldLe req 20 1 = 1 then
      some (48 + 4 * min n 4084, rz 21 3 ++ rz 28 4 ++ rz 32 16
        ++ (List.range (min n 4084)).map (fun i => (48 + 4 * i + 3, 0xFF)))
    else some (48, rz 21 3 ++ rz 28 4 ++ rz 35 1 ++ rz 39 1 ++ rz 43 5)
  | 0x0502 => some (24, [])
  | 0x0503 => some (24, [])
  | 0x0601 => some (40, (19, 0xFE) :: rz 36 4)
  | 0x0602 => some (16, [])
  | 0x0603 => some (16, [])
  | 0x0611 => some (32, rz 20 4)
  | 0x0612 => some (16, [])
  | 0x0613 => some (20, [])
  | 0x0621 => some (48, [])
  | 0x0631 => some (16, [])
  | 0x0632 => some (40, rz 23 1 ++ rz 26 2 ++ rz 31 1 ++ rz 35 1 ++ [(39, 0xFE)])
  | 0x0633 => some (16, [])
  | 0x0634 => some (32, rz 28 4)
  | 0x0701 => some (32, rz 19 1)
  | 0x0702 => some (16, [])
  | 0x0703 => some (16, [])
  | 0x0704 => some (16, [])
  | 0x0711 => some (32, rz 26 6)
  | 0x0712 => some (24, [])
  | 0x0721 => some (32, rz 28 4)
  | 0x0722 => some (24, [])
  | 0x0801 => some (32, rz 26 6)
  | 0x0802 => some (24, [])
  | 0x0803 => some (24, [])
  | 0x0841 => some (16, [])
  | 0x0842 => some (40, rz 33 7)
  | 0x0851 => some (40, [])
  | 0x0852 => some (20, [])
  | 0x0853 => some (20, [])
  | 0x0861 => some (24, rz 17 1 ++ rz 20 4)
  | 0x0862 => some (24, rz 19 5)
  | 0x0863 => some (20, [])
  | 0x0F01 => some (24, rz 17 3)
  | 0x0F02 => some (20, [])
  | 0x0F03 => some (24, rz 18 2)
  | 0x0F04 => some (24, rz 17 3)
  | 0x0F05 => some (20, [])
  | 0x0F06 => some (20, rz 19 1)
  | 0x0F07 => some (20, rz 17 3)
  | 0x0F08 => some (20, rz 17 3)
  | 0x0F09 => some (20, rz 17 3)
  | 0x0F0A => some (20, [])
  | 0x0F0B => some (16, [])
  | _ => none

/-! ### Answers (03 R70, R76) -/

/-- A response of a status, a detail and a body. -/
def respBytes (cmd : Bytes) (status detail : Nat) (body : Bytes) : Bytes :=
  slice cmd 0 2 ++ toLe 2 (16 + body.length) ++ slice cmd 4 4 ++ toLe 1 status ++ zeros 3 ++ toLe 4 detail ++ body

/-- Write the response, set DONE, and send the mailbox's message. -/
def answer (m : Nat) (status detail : Nat) (body : Bytes) (d : Dev) : Dev :=
  let b := mbx d m
  let cmd := memRead b.cmd 0 16
  let b' : Mailbox := { b with state := 2, rsp := memWrite b.rsp 0 (respBytes cmd status detail body) }
  let d := setMbx m b' d
  if b'.enable then fire0 b'.vector.toNat d else d

/-- Refuse with a reason and the offset of the offending field. -/
def refuse (m reason off : Nat) (d : Dev) : Dev := answer m 0x30 (reason * 65536 + off % 65536) [] d

/-- What a command's own checks and effect come to. -/
inductive MRes where
  /-- Done, with a response body. -/
  | ok (d : Dev) (body : Bytes)
  /-- Refused: nothing changes. -/
  | no (reason off : Nat)
  /-- In progress: the device changes and the mailbox stays BUSY. -/
  | busy (d : Dev)
  deriving DecidableEq, Repr

/-- The handle of the object that a command acts on, by which R74 orders commands: at offset 16, for LOSS_SCALE_SET at 24, for
TENSOR_UNMAP that of the tensor that the mapping shows. -/
def cmdObject (d : Dev) (op : Nat) (cmd : Bytes) : Option Nat :=
  let some0 := fun (h : Nat) => if h = 0 then none else some h
  if [0x0102, 0x0103, 0x0202, 0x0203, 0x0204, 0x0205, 0x0302, 0x0303, 0x0402, 0x0403, 0x0411, 0x0412, 0x0422, 0x0423,
      0x0502, 0x0503, 0x0621, 0x0711, 0x0712, 0x0721, 0x0722, 0x0801, 0x0802, 0x0803, 0x0842, 0x0851].contains op
  then some0 (fieldLe cmd 16 8)
  else if op = 0x0701 then some0 (fieldLe cmd 24 8)
  else if op = 0x0206 then
    (d.maps.find? (fun x => x.off == fieldLe cmd 16 8)).bind (fun x =>
      (aGet d.tensors x.tensor).map (fun t => (mkHandle 2 t.gen x.tensor).toNat))
  else none

/-- A command accepted earlier on the same object has not completed (03 R74). A destroy that already drains its channel
is followed by R89's own rule. -/
def mbxBlocked (d : Dev) (m : Nat) : Bool :=
  let b := mbx d m
  let c := memRead b.cmd 0 40
  match cmdObject d (fieldLe c 0 2) c with
  | none => false
  | some o => d.mbx.any (fun x =>
      let e := memRead x.2.cmd 0 40
      x.2.state == 1 && decide (x.2.order < b.order) && cmdObject d (fieldLe e 0 2) e == some o &&
      !(d.chans.any (fun ch => ch.2.destroyBy == some x.1)))

/-- The command of mailbox m is in progress and is one of `op`. -/
def mbxRuns (d : Dev) (m op : Nat) : Bool :=
  serves d && decide (m < 64) && (mbx d m).state == 1 && fieldLe (memRead (mbx d m).cmd 0 2) 0 2 == op && !mbxBlocked d m

/-- The query commands. -/
def queryOps : List Nat :=
  [0x0103, 0x0203, 0x0303, 0x0403, 0x0503, 0x0602, 0x0612, 0x0633, 0x0702, 0x0703, 0x0712, 0x0722, 0x0803, 0x0841, 0x0852, 0x0863]

/-- A hot spare takes only the commands of ranges 0x06xx and 0x0Fxx and the queries (13 R449). -/
def spareRefuses (d : Dev) (op : Nat) : Bool :=
  (d.spare.armed || (d.brg.sparePath && d.spare.state == 0 && !d.lnk.planLoaded)) && op / 256 != 6 && op / 256 != 15 && !queryOps.contains op

/-- A mailbox command's row. -/
def mbxRow (m op : Nat) (f : Dev → Bytes → MRes) (d : Dev) : Dev :=
  if mbxRuns d m op then
    let cmd := memRead (mbx d m).cmd 0 16384
    match (if spareRefuses d op then .no rNotAllowed (Config.noField op rNotAllowed) else f d cmd) with
    | .ok d' body => answer m 0 0 body d'
    | .no r off => refuse m r off d
    | .busy d' => d'
  else d

/-- A handle field of a request, checked under R11 and R80. -/
def withHandle (d : Dev) (kind : Nat) (cmd : Bytes) (off : Nat) (f : Nat → MRes) : MRes :=
  let h := BitVec.ofNat 64 (fieldLe cmd off 8)
  if handleOk d kind h then f (hIdx h) else .no rBadHandle off

/-- A tensor field; a LOST tensor is refused but to TENSOR_QUERY and TENSOR_DESTROY (03 R110). -/
def withTensor (d : Dev) (cmd : Bytes) (off : Nat) (f : Nat → Tensor → MRes) : MRes :=
  withHandle d 2 cmd off (fun i =>
    match aGet d.tensors i with
    | some t => if t.lost then .no rTensorLost off else f i t
    | none => .no rBadHandle off)

/-! ### The doorbell (03 R70, R71, R77) -/

/-- R77 steps 1 to 5. -/
def requestCheck (d : Dev) (tag : BitVec 32) (req : Bytes) : Option (Nat × Nat) :=
  let op := fieldLe req 0 2
  let len := fieldLe req 2 2
  if fieldLe req 4 4 ≠ tag.toNat then some (rTagMismatch, 4)
  else if len < 16 ∨ 16384 < len ∨ ((opBody op req).map (fun b => decide (len < b.1))).getD false = true then some (rBadLength, 2)
  else if fieldLe req 8 2 ≠ d.ophal.toNat / 65536 ∨ d.ophal.toNat % 65536 < fieldLe req 10 2 then some (rBadVersion, 8)
  else match opBody op req with
    | none => some (rBadOpcode, 0)
    | some b =>
      ((rz 12 4 ++ b.2).find? (fun x => (fieldLe req x.1 1) &&& x.2 != 0)).map (fun x => (rReserved, x.1))

/-- An accepted CHANNEL_DESTROY takes the channel's last SUB_TAIL: later writes of it are ignored (03 R89). -/
def closeChannel (req : Bytes) (d : Dev) : Dev :=
  let h := BitVec.ofNat 64 (fieldLe req 16 8)
  if fieldLe req 0 2 = 0x0102 ∧ handleOk d 1 h = true then
    { d with chans := aMap d.chans (fun _ c => if c.index = hIdx h then { c with closing := true } else c) }
  else d

/-- A write of MBX_DOORBELL. -/
def ringMailbox (m : Nat) (tag : BitVec 32) (d : Dev) : Dev :=
  if !(pf0Up d && serves d && decide (m < 64)) then d
  else if (mbx d m).state = 1 then setMbx m { mbx d m with lost := true } d
  else
    let req := memRead (mbx d m).req 0 16384
    let d := { d with mbxOrder := d.mbxOrder + 1 }
    let d := setMbx m { mbx d m with
      state := 1, tag := tag, cmd := memWrite [] 0 req, order := d.mbxOrder } d
    match requestCheck d tag req with
    | some x => refuse m x.1 x.2 d
    | none => closeChannel req d

/-- MBX_DOORBELL: host software writes a tag. -/
def execMbxDoorbell (m : Nat) (tag : BitVec 32) (host : HostStores) (s : State) : Res :=
  eff (fun d => ringMailbox m tag (hostStores host d)) s

end Sys2Proof.Machine
end

