-- ==== Sys2Proof/Machine/SolverMath.lean ====
section
/-! DEFINITION. The arithmetic of the solver unit and the assembly stage (08): plans, assembly and its transpose, dense
factorisation with the pivot rule, the iterative methods, refinement, and the status word. Forms that 08 does not state
are constants of Config (log 20); textbook forms that it names only by name are DEDUCED (log 23). -/
namespace Sys2Proof.Machine
open Sys2Proof

/-! ### Plans (08 Table 8-6) -/

/-- A plan with its pattern. -/
structure SlvPlan where
  method : Nat := 1
  fmt : Nat := 1
  precond : Nat := 0
  block : Nat := 0
  n : Nat := 1
  m : Nat := 0
  restart : Nat := 0
  flags : Nat := 0
  cap : Nat := 0
  budget : Nat := 1
  rtol : Nat := 0
  atol : Nat := 0
  tau : Nat := 0
  nnzb : Nat := 0
  accBase : Nat := 0
  rowptr : List Nat := []
  colidx : List Nat := []
  deriving DecidableEq, Repr

def planOf (b : Bytes) (rowptr colidx : List Nat) : SlvPlan :=
  { method := fieldLe b 0 1, fmt := fieldLe b 1 1, precond := fieldLe b 2 1, block := fieldLe b 3 1
    n := fieldLe b 4 4, m := fieldLe b 8 2, restart := fieldLe b 10 1, flags := fieldLe b 11 1
    cap := fieldLe b 12 2, budget := fieldLe b 14 2, rtol := fieldLe b 16 8, atol := fieldLe b 24 8
    tau := fieldLe b 32 8, nnzb := fieldLe b 40 4, accBase := fieldLe b 44 1, rowptr := rowptr, colidx := colidx }

def isDirect (m : Nat) : Bool := m == 1 || m == 2 || m == 3
def isRefine (m : Nat) : Bool := m == 0x20 || m == 0x21
def isIter (m : Nat) : Bool := m == 0x10 || m == 0x11 || m == 0x12
def SlvPlan.retain (p : SlvPlan) : Bool := bitOf p.flags 0
def SlvPlan.warm (p : SlvPlan) : Bool := bitOf p.flags 1
def SlvPlan.residOut (p : SlvPlan) : Bool := bitOf p.flags 2
def SlvPlan.f (p : SlvPlan) : FpFmt := if p.fmt = 2 then fp32 else fp64
/-- Elements of the right-hand side: M for QR, n otherwise. -/
def SlvPlan.rows (p : SlvPlan) : Nat := if p.method = 3 then p.m else p.n
/-- Stored matrix values. -/
def SlvPlan.entries (p : SlvPlan) : Nat := if p.block = 0 then p.rows * p.n else p.nnzb * p.block * p.block

/-- FP64 encoding that is finite and not below 0. -/
def nonneg64 (b : Nat) : Bool := fp64Finite b && (!(unpack fp64 b).sign || (unpack fp64 b).isZero)

/-- Offset of the first field of a plan descriptor that breaks 08 Table 8-6, or R255 on the in-program path. -/
def planBad (b : Bytes) (inProgram : Bool) : Option Nat :=
  let p := planOf b [] []
  let dense := isDirect p.method || isRefine p.method
  ([ (0, !(dense || isIter p.method)),
     (1, !(p.fmt == 1 || p.fmt == 2) || (isRefine p.method && p.fmt != 1)),
     (2, decide (1 < p.precond) || (p.precond == 1 && !isIter p.method)),
     (3, if dense then p.block != 0 else !(p.block == 2 || p.block == 4 || p.block == 8)),
     (4, p.n == 0 || (if dense then decide (64 < p.n) else decide (262144 < p.n) || p.n % p.block != 0)),
     (8, if p.method = 3 then decide (p.m < p.n) || decide (64 < p.m) else p.m != 0),
     (10, if p.method = 0x12 then p.restart == 0 || decide (32 < p.restart) else p.restart != 0),
     (11, decide (8 ≤ p.flags) || (inProgram && (p.retain || p.warm)) || (p.warm && isDirect p.method)),
     (12, if isDirect p.method then p.cap != 0 else p.cap == 0 || (isRefine p.method && decide (32 < p.cap))),
     (14, p.budget == 0 || decide (1024 < p.budget)),
     (16, !nonneg64 p.rtol),
     (24, !nonneg64 p.atol),
     (32, p.tau != 0 && !(decide ((963 : Nat) * 2 ^ 52 ≤ p.tau) && decide (p.tau ≤ 1019 * 2 ^ 52))),
     (40, if dense then p.nnzb != 0 else p.nnzb == 0),
     (44, !(p.accBase == 0 || p.accBase == 16 || p.accBase == 32 || p.accBase == 48)),
     (((firstNonzero b 45 19).getD 45), (firstNonzero b 45 19).isSome) ].find? (·.2)).map (·.1)

/-- A valid block-sparse pattern (08 Table 8-2, R249). -/
def patternOk (p : SlvPlan) : Bool :=
  let r := p.n / max p.block 1
  decide (p.rowptr.length = r + 1) && p.rowptr[0]? == some 0 && p.rowptr[r]? == some p.nnzb &&
  decide (p.colidx.length = p.nnzb) &&
  (List.range r).all (fun i =>
    let lo := (p.rowptr[i]?).getD 0
    let hi := (p.rowptr[i + 1]?).getD 0
    let cols := (p.colidx.drop lo).take (hi - lo)
    decide (lo ≤ hi) && decide (hi ≤ p.nnzb) && cols.all (fun c => decide (c < r)) && cols.contains i &&
    (cols.zip cols.tail).all (fun x => decide (x.1 < x.2)))

/-- Index of the stored value of matrix entry (i, j), none outside the pattern. -/
def entryIdx (p : SlvPlan) (i j : Nat) : Option Nat :=
  if p.block = 0 then (if i < p.rows ∧ j < p.n then some (i * p.n + j) else none)
  else
    let b := p.block
    let lo := (p.rowptr[i / b]?).getD 0
    let hi := (p.rowptr[i / b + 1]?).getD 0
    let cols := (p.colidx.drop lo).take (hi - lo)
    if i < p.n ∧ j < p.n then
      (cols.findIdx? (· == j / b)).map (fun q => (lo + q) * b * b + i % b * b + j % b)
    else none

/-- Row and column of a stored value. -/
def entryPos (p : SlvPlan) (k : Nat) : Nat × Nat :=
  if p.block = 0 then (k / max p.n 1, k % max p.n 1)
  else
    let b := p.block
    let q := k / (b * b)
    let row := ((p.rowptr.tail.findIdx? (fun e => decide (q < e))).getD 0)
    (row * b + k % (b * b) / b, (p.colidx[q]?).getD 0 * b + k % b)

/-- Stored entries of row `i` of A, or of Aᵀ: (column, value), columns ascending. -/
def sysRow (p : SlvPlan) (a : List Nat) (tr : Bool) (i : Nat) : List (Nat × Nat) :=
  (List.range (if tr then p.rows else p.n)).filterMap (fun j =>
    (if tr then entryIdx p j i else entryIdx p i j).map (fun k => (j, (a[k]?).getD 0)))

/-! ### Assembly (08 R250 to R253) -/

/-- One generated term: target index, its source and its coefficient; `src` none for the constant 1. -/
structure AsmTerm where
  target : Nat := 0
  kind : Nat := 0
  index : Nat := 0
  coef : Nat := 0
  deriving DecidableEq, Repr

/-- The first field of an assembly descriptor that breaks 08 Table 8-3. -/
def asmDescBad (b : Bytes) : Bool :=
  let k := fieldLe b 0 1
  let f := fieldLe b 1 1
  let cnt := fieldLe b 4 4
  !(k == 1 || k == 2) || !(f == 1 || f == 2) || decide (1 < fieldLe b 2 2) || cnt == 0 || decide (1048576 < cnt) ||
  fieldLe b 14 2 != 0 || !allZero (slice b 36 28) || decide (15 < fieldLe b 12 1) || decide (15 < fieldLe b 13 1) ||
  (k == 2 && (fieldLe b 8 2 == 0 || fieldLe b 10 2 == 0)) || fieldLe b 32 4 % 8 != 0

/-- A record that breaks 08 Table 8-4 or 8-5. -/
def asmRecBad (kind : Nat) (r : Bytes) (rhs : Bool) : Bool :=
  let src := fieldLe r 4 4
  if kind = 1 then 3 ≤ src / 2 ^ 30
  else
    let dx := signExt 8 (fieldLe r 0 1)
    let dy := signExt 8 (fieldLe r 1 1)
    decide (dx < -4) || decide (4 < dx) || decide (dy < -4) || decide (4 < dy) || decide (2 < fieldLe r 2 1) ||
    decide (1 < fieldLe r 3 1) || (fieldLe r 3 1 == 1 && !rhs) || decide (3 ≤ src / 2 ^ 30)

def asmRecords (desc recs : Bytes) : List Bytes := (List.range (fieldLe desc 4 4)).map (fun i => slice recs (16 * i) 16)

/-- The terms of a problem in the order of 08 R251: none marks a matrix target outside the pattern (R252). -/
def asmTerms (p : SlvPlan) (desc recs : Bytes) : List (Option AsmTerm) :=
  let rs := asmRecords desc recs
  if fieldLe desc 0 1 = 1 then
    rs.map (fun r =>
      let t := fieldLe r 0 4
      let lim := p.entries + (if bitOf (fieldLe desc 2 2) 0 then p.rows else 0)
      if t < lim then
        some { target := t, kind := fieldLe r 4 4 / 2 ^ 30, index := fieldLe r 4 4 % 2 ^ 30, coef := fieldLe r 8 8 }
      else none)
  else
    let gx := fieldLe desc 8 2
    let gy := fieldLe desc 10 2
    ((List.range gy).map (fun (j : Nat) => ((List.range gx).map (fun (i : Nat) => (rs.map (fun r =>
      let i2 : Int := (i : Int) + signExt 8 (fieldLe r 0 1)
      let j2 : Int := (j : Int) + signExt 8 (fieldLe r 1 1)
      let out := decide (i2 < 0) || decide ((gx : Int) ≤ i2) || decide (j2 < 0) || decide ((gy : Int) ≤ j2)
      if out && fieldLe r 2 1 == 0 then []
      else
        let q : Int × Int := if out then (if fieldLe r 2 1 = 1 then ((i : Int), (j : Int)) else (i2 % gx, j2 % gy)) else (i2, j2)
        let c : Nat := i + gx * j
        let c2 : Nat := q.1.toNat + gx * q.2.toNat
        let src := fieldLe r 4 4
        let idx := src % 2 ^ 29 + (if bitOf src 29 then c2 else c)
        let tgt := if fieldLe r 3 1 = 1 then some (p.entries + c) else entryIdx p c c2
        [tgt.map (fun t => { target := t, kind := src / 2 ^ 30, index := idx, coef := fieldLe r 8 8 })])).flatten)).flatten)).flatten

/-- The FP64 value of a source. -/
def asmSource (param meas : Nat → Nat) (t : AsmTerm) : Nat :=
  match t.kind with
  | 0 => fp64.one
  | 1 => param t.index
  | _ => meas t.index

/-- The targets of one problem, in TARGET_FMT, with the flags raised (08 R251). `param` and `meas` give source values
already in FP64; `constOk` keeps constant terms. -/
def asmRun (terms : List AsmTerm) (size fmt : Nat) (param meas : Nat → Nat) (constOk : Bool) : Fl (List Nat) :=
  let w := (terms.filter (fun t => constOk || t.kind != 0)).foldl (fun (st : List Nat × BitVec 4) t =>
    let pr := fpMul fp64 t.coef (asmSource param meas t)
    let e := fpAdd fp64 ((st.1[t.target]?).getD 0) pr.1
    (st.1.set t.target e.1, st.2 ||| pr.2 ||| e.2)) (List.replicate size 0, 0)
  let c := flSeq (w.1.map (fun x => convert 1 fmt .rn false true x))
  (c.1.map (storeForm fmt), w.2 ||| c.2)

/-- The parameter derivatives of one problem (08 R253): a compensated pair per element of the slice, each rounded once. -/
def asmTranspose (terms : List AsmTerm) (slice : Nat) (ebar : Nat → Nat) : Fl (List (Nat × Nat)) :=
  (terms.filter (fun t => t.kind == 1)).foldl (fun (st : List (Nat × Nat) × BitVec 4) t =>
    let x := pairMac ((st.1[t.index]?).getD (0, 0)) t.coef (ebar t.target)
    (st.1.set t.index x.1, st.2 ||| x.2)) (List.replicate slice (0, 0), 0)

/-! ### Vectors in a working format -/

def fin (f : FpFmt) (x : Nat) : Bool := (unpack f x).finite
def allFin (f : FpFmt) (l : List Nat) : Bool := l.all (fin f)

/-- Value of a working-format encoding in FP64, exact. -/
def to64 (fmt x : Nat) : Nat := (convert fmt 1 .rn false true x).1

/-- A value of the solver unit with the flags raised so far: none once an element became an infinity or a NaN, where the unit
stops the problem (08 R261). -/
structure Fr (α : Type) where
  val : Option α
  fl : BitVec 4 := 0
  deriving Repr

def Fr.then {α β : Type} (x : Fr α) (g : α → Fr β) : Fr β :=
  match x.val with
  | none => { val := none, fl := x.fl }
  | some a => { val := (g a).val, fl := x.fl ||| (g a).fl }

/-- A scalar or a vector that is not checked. -/
def Fr.of {α : Type} (x : Fl α) : Fr α := { val := some x.1, fl := x.2 }

/-- Elements formed one after another, up to the first that is not finite. -/
def finSeq (f : FpFmt) (l : List (Fl Nat)) : Fr (List Nat) :=
  l.foldl (fun (st : Fr (List Nat)) x =>
    match st.val with
    | none => st
    | some v => { val := if fin f x.1 then some (v ++ [x.1]) else none, fl := st.fl ||| x.2 }) { val := some [] }

/-- One element put into its place. -/
def putFin (f : FpFmt) (v : List Nat) (k : Nat) (x : Fl Nat) : Fr (List Nat) :=
  { val := if fin f x.1 then some (v.set k x.1) else none, fl := x.2 }

/-- A fold that ends where the unit stops the problem. -/
def foldFin {α β : Type} (step : α → β → Fr α) (l : List β) (a : α) : Fr α :=
  l.foldl (fun st b => st.then (fun a => step a b)) { val := some a }

/-- a·x + y in mixed formats, rounded once into the working format: one element of a vector update (08 R262). -/
def updElem (f : FpFmt) (a x y : Nat) : Fl Nat := fmaV f (unpack fp64 a) (unpack f x) (unpack f y)

def neg64 (x : Nat) : Nat := fpNeg fp64 x

/-- y + a·x. -/
def axpy (f : FpFmt) (a : Nat) (x y : List Nat) : Fr (List Nat) := finSeq f (x.zipWith (fun u v => updElem f a u v) y)

/-- A compensated pair of products in ascending index from a start, rounded once into a format (04 R123, R124). -/
def pairDot (dst start : Nat) (l : List (Nat × Nat)) : Fl Nat :=
  let r := l.foldl (fun (st : (Nat × Nat) × BitVec 4) e =>
    let m := pairMac st.1 e.1 e.2
    (m.1, st.2 ||| m.2)) ((start, 0), 0)
  let q := pairRound r.1 dst .rn false true
  (q.1, r.2 ||| q.2)

/-- Inner product, rounded once to FP64 (08 R262). -/
def dot64 (fmt : Nat) (x y : List Nat) : Fl Nat := pairDot 1 0 (x.zipWith (fun a b => (to64 fmt a, to64 fmt b)) y)

/-- ‖x‖₂ in FP64. -/
def norm64 (fmt : Nat) (x : List Nat) : Fl Nat := (dot64 fmt x x).then (fpSqrt fp64)

/-- b − A x in compensated pairs, each element rounded once into the working format (08 R263, R267). -/
def residTrue (p : SlvPlan) (a : List Nat) (tr : Bool) (b x : List Nat) : Fr (List Nat) :=
  finSeq p.f ((List.range (if tr then p.n else p.rows)).map (fun i =>
    pairDot p.fmt (to64 p.fmt ((b[i]?).getD 0)) ((sysRow p a tr i).map (fun e =>
      (fpNeg fp64 (to64 p.fmt e.2), to64 p.fmt ((x[e.1]?).getD 0))))))

/-- RN(RN(RTOL × ‖b‖) + ATOL). -/
def tolOf (p : SlvPlan) (nb : Nat) : Fl Nat := (fpMul fp64 p.rtol nb).then (fun t => fpAdd fp64 t p.atol)

/-- The test of 08 R263. -/
def passes (nr tol : Nat) : Bool := (fpCmp fp64 3 nr tol).1

/-! ### Dense factorisation and the pivot rule (08 R257 to R261) -/

/-- τ of a plan in a working format. -/
def tauOf (tau : Nat) (f : FpFmt) : Nat := if tau ≠ 0 then tau else if f.eb = 8 then (1005 : Nat) * 2 ^ 52 else 983 * 2 ^ 52

/-- ‖A‖∞ of an m × n matrix in FP64. -/
def normInf (fmt m n : Nat) (a : List Nat) : Fl Nat :=
  (List.range m).foldl (fun (st : Nat × BitVec 4) i =>
    let r := (List.range n).foldl (fun (s : Nat × BitVec 4) j =>
      let x := fpAdd fp64 s.1 (fpAbs fp64 (to64 fmt ((a[i * n + j]?).getD 0)))
      (x.1, s.2 ||| x.2)) (0, 0)
    ((fpMax fp64 st.1 r.1).1, st.2 ||| r.2)) (0, 0)

/-- θ of 08 R258 in the working format. -/
def thetaOf (fmt : Nat) (f : FpFmt) (tau m n : Nat) (a : List Nat) : Fl Nat :=
  let nm := normInf fmt m n a
  let t := fpMul fp64 (tauOf tau f) nm.1
  let nu : Nat := if f.eb = 8 then (897 : Nat) * 2 ^ 52 else 2 ^ 52
  let c := convert 1 fmt .rn false true (fpMax fp64 t.1 nu).1
  (c.1, nm.2 ||| t.2 ||| c.2)

/-- A pivot below θ is replaced by sign(p) × θ; the flag says so. -/
def regPivot (f : FpFmt) (theta p : Nat) : Nat × Bool :=
  if ordKey f (fpAbs f p) < ordKey f theta then
    (if p.testBit (f.eb + f.fb) && fpAbs f p != 0 then f.mk' true theta else theta, true)
  else (p, false)

/-- What a factorisation leaves. -/
structure Fact where
  a : List Nat := []
  perm : List Nat := []
  regs : List (Nat × Nat) := []
  notSpd : Bool := false
  flags : BitVec 4 := 0
  ok : Bool := true
  deriving DecidableEq, Repr

def at2 (a : List Nat) (n i j : Nat) : Nat := (a[i * n + j]?).getD 0

/-- Swap two rows of an array of rows of n. -/
def swapRows (a : List Nat) (n i j : Nat) : List Nat :=
  if i = j then a else
    (List.range a.length).map (fun k =>
      if k / n = i then (a[j * n + k % n]?).getD 0 else if k / n = j then (a[i * n + k % n]?).getD 0 else (a[k]?).getD 0)

/-- x − l × u, two roundings (08 R257: every operation is one rounding). -/
def subMul (f : FpFmt) (x l u : Nat) : Fl Nat := (fpMul f l u).then (fun p => fpSub f x p)

/-- An element of a factor put into its place; where `chk` the unit stops at one that is not finite. -/
def putFact (f : FpFmt) (chk : Bool) (v : List Nat) (k : Nat) (x : Fl Nat) : Fr (List Nat) :=
  if chk then putFin f v k x else { val := some (v.set k x.1), fl := x.2 }

/-- The factorisation after a column. -/
def Fact.next (t : Fact) (r : Fr (List Nat)) : Fact := { t with a := r.val.getD t.a, flags := t.flags ||| r.fl, ok := r.val.isSome }

/-- Column k of LU. -/
def luStep (f : FpFmt) (chk : Bool) (n theta : Nat) (t : Fact) (k : Nat) : Fact :=
  if !t.ok then t else
  let best := (List.range (n - k)).foldl (fun (b : Nat) i =>
    if ordKey f (fpAbs f (at2 t.a n b k)) < ordKey f (fpAbs f (at2 t.a n (k + i) k)) then k + i else b) k
  let a := swapRows t.a n k best
  let pv := regPivot f theta (at2 a n k k)
  let rest := (List.range n).filter (fun i => decide (k < i))
  let r := (putFact f chk a (k * n + k) (pv.1, 0)).then (foldFin (fun v i =>
    (putFact f chk v (i * n + k) (fpDiv f (at2 v n i k) pv.1)).then (foldFin (fun v j =>
      putFact f chk v (i * n + j) (subMul f (at2 v n i j) (at2 v n i k) (at2 v n k j))) rest)) rest)
  { t.next r with perm := swapRows t.perm 1 k best, regs := if pv.2 then t.regs ++ [(k, pv.1)] else t.regs }

def luFactor (fmt : Nat) (f : FpFmt) (chk : Bool) (n tau : Nat) (a : List Nat) : Fact :=
  let th := thetaOf fmt f tau n n a
  (List.range n).foldl (luStep f chk n th.1) { a := a, perm := List.range n, flags := th.2 }

/-- Σ x_j y_j over the listed columns ascending, every operation one rounding (08 R257). -/
def sumMul (f : FpFmt) (l : List (Nat × Nat)) : Fl Nat :=
  l.foldl (fun (s : Fl Nat) e =>
    let p := fpMul f e.1 e.2
    let t := fpAdd f s.1 p.1
    (t.1, s.2 ||| p.2 ||| t.2)) (0, 0)

/-- a − Σ x_j y_j: the sum first, then one subtraction (08 R257). -/
def lessSum (f : FpFmt) (a : Nat) (l : List (Nat × Nat)) : Fl Nat := (sumMul f l).then (fun s => fpSub f a s)

/-- Column k of CHOL. -/
def cholStep (f : FpFmt) (chk : Bool) (n theta : Nat) (t : Fact) (k : Nat) : Fact :=
  if !t.ok then t else
  let row := fun (v : List Nat) (i : Nat) => (List.range k).map (fun j => (at2 v n i j, at2 v n k j))
  let d := lessSum f (at2 t.a n k k) (row t.a k)
  let low := decide (ordKey f d.1 < ordKey f theta)
  let neg := decide (ordKey f d.1 < -(ordKey f theta))
  let l := fpSqrt f (if low then theta else d.1)
  let r := (putFact f chk t.a (k * n + k) d).then (fun v =>
    (putFact f chk v (k * n + k) l).then (foldFin (fun v i =>
      putFact f chk v (i * n + k) ((lessSum f (at2 v n i k) (row v i)).then (fun x => fpDiv f x l.1)))
      ((List.range n).filter (fun i => decide (k < i)))))
  { t.next r with regs := if low then t.regs ++ [(k, theta)] else t.regs, notSpd := t.notSpd || neg }

def cholFactor (fmt : Nat) (f : FpFmt) (chk : Bool) (n tau : Nat) (a : List Nat) : Fact :=
  let th := thetaOf fmt f tau n n a
  (List.range n).foldl (cholStep f chk n th.1) { a := a, perm := List.range n, flags := th.2 }

def toW (l : List Nat) : List (BitVec 64) := l.map (BitVec.ofNat 64)
def ofW (l : List (BitVec 64)) : List Nat := l.map (·.toNat)

/-- A Householder reflection x − β (vᵀx) v of rows k to m − 1. -/
structure Reflector where
  beta : Nat := 0
  /-- m elements, 0 above row k. -/
  v : List Nat := []
  deriving DecidableEq, Repr

/-- Rows k to m − 1 of a column. -/
def colFrom (a : List Nat) (m n k j : Nat) : List Nat := ((List.range m).filter (fun i => decide (k ≤ i))).map (fun i => at2 a n i j)

/-- The reflection that carries rows k to m − 1 of column k into r_kk, with r_kk (08 R257; log 20). -/
def reflectorOf (fmt : Nat) (f : FpFmt) (m n k : Nat) (a : List Nat) : Fr (Nat × Reflector) :=
  let x := colFrom a m n k k
  let akk := at2 a n k k
  let sq := fun (v : List Nat) => sumMul f (v.map (fun e => (e, e)))
  (Fr.of ((sq x).then (fpSqrt f))).then (fun nrm =>
    if (unpack f nrm).isZero then { val := some (akk, { v := List.replicate m 0 }) }
    else
      let opp := Config.qrOpposite fmt (BitVec.ofNat 64 akk) (BitVec.ofNat 64 nrm)
      let r := f.mk' ((unpack f akk).sign != opp) nrm
      let vk := fpSub f akk r
      let v := vk.1 :: x.tail
      let full := fun (w : List Nat) => List.replicate k 0 ++ w
      ({ val := some (), fl := vk.2 } : Fr Unit).then (fun _ =>
        if (unpack f vk.1).isZero then { val := some (r, { v := List.replicate m 0 }) }
        else match Config.qrScaling fmt with
        | 0 => (Fr.of ((sq v).then (fun s => fpDiv f (fpAdd f f.one f.one).1 s))).then (fun b =>
            (finSeq f (v.map (fun e => (e, 0)))).then (fun w => { val := some (r, { beta := b, v := full w }) }))
        | 1 => (Fr.of (fpDiv f (fpNeg f vk.1) r)).then (fun b =>
            (finSeq f (v.map (fun e => fpDiv f e vk.1))).then (fun w => { val := some (r, { beta := b, v := full w }) }))
        | _ => (Fr.of ((sq v).then (fpSqrt f))).then (fun s =>
            (finSeq f (v.map (fun e => fpDiv f e s))).then (fun w =>
              { val := some (r, { beta := (fpAdd f f.one f.one).1, v := full w }) }))))

/-- A reflection of a vector of m elements, rows ascending. -/
def reflect (f : FpFmt) (h : Reflector) (x : List Nat) : Fr (List Nat) :=
  (Fr.of ((sumMul f (h.v.zip x)).then (fun s => fpMul f h.beta s))).then (fun t =>
    finSeq f (x.zipWith (fun e v => if v = 0 then (e, 0) else subMul f e t v) h.v))

/-- Column j of a reflected matrix. -/
def setCol (a : List Nat) (n j : Nat) (col : List Nat) : List Nat :=
  (List.range a.length).map (fun q => if q % n = j then (col[q / n]?).getD 0 else (a[q]?).getD 0)

/-- QR of an m × n matrix with its right-hand side: R on and above the diagonal, the reflections after it, pivots under
08 R258. -/
def qrFactor (fmt : Nat) (f : FpFmt) (m n tau : Nat) (a b : List Nat) : Fact × List Nat × List Reflector :=
  let th := thetaOf fmt f tau m n a
  (List.range n).foldl (fun (st : Fact × List Nat × List Reflector) k =>
    if !st.1.ok then st else
    let h := reflectorOf fmt f m n k st.1.a
    let rows := List.range m
    let r := h.then (fun h =>
      (foldFin (fun v j => (reflect f h.2 (colFrom v m n 0 j)).then (fun c => { val := some (setCol v n j c) }))
        ((List.range n).filter (fun j => decide (k < j))) st.1.a).then (fun v =>
      (reflect f h.2 st.2.1).then (fun b =>
        let pv := regPivot f th.1 h.1
        let col := rows.map (fun i => if i = k then pv.1 else if k < i then 0 else at2 v n i k)
        { val := if fin f pv.1 then some (setCol v n k col, b, h.2, if pv.2 then [(k, pv.1)] else []) else none })))
    match r.val with
    | none => ({ st.1 with ok := false, flags := st.1.flags ||| r.fl }, st.2)
    | some x => ({ st.1 with a := x.1, flags := st.1.flags ||| r.fl, regs := st.1.regs ++ x.2.2.2 }, x.2.1, st.2.2 ++ [x.2.2.1]))
    ({ a := a, perm := List.range n, flags := th.2 }, b, [])

/-- Triangular solve of rows `order`: x_i = (b_i − Σ c_ij x_j) ÷ d_i over the listed columns ascending; `unit` skips the
division. -/
def triSolve (f : FpFmt) (order : List Nat) (cols : Nat → List Nat) (c : Nat → Nat → Nat) (unit : Bool) (b : List Nat) :
    Fr (List Nat) :=
  foldFin (fun v i =>
    let x := (cols i).foldl (fun (s : Fl Nat) j =>
      let t := subMul f s.1 (c i j) ((v[j]?).getD 0)
      (t.1, s.2 ||| t.2)) ((v[i]?).getD 0, 0)
    putFin f v i (if unit then x else x.then (fun x => fpDiv f x (c i i)))) order b

def below (i : Nat) : List Nat := List.range i
def above (n i : Nat) : List Nat := (List.range n).filter (fun j => decide (i < j))

/-- A x = b with LU factors: P b, then L, then U. -/
def luSolve (f : FpFmt) (n : Nat) (a perm b : List Nat) : Fr (List Nat) :=
  let pb := perm.map (fun i => (b[i]?).getD 0)
  (triSolve f (List.range n) below (at2 a n) true pb).then
    (triSolve f (List.range n).reverse (above n) (at2 a n) false)

/-- Aᵀ λ = g: Uᵀ w = g, then Lᵀ v = w, then λ = Pᵀ v (08 R269). -/
def luSolveT (f : FpFmt) (n : Nat) (a perm g : List Nat) : Fr (List Nat) :=
  ((triSolve f (List.range n) below (fun i j => at2 a n j i) false g).then
    (triSolve f (List.range n).reverse (above n) (fun i j => at2 a n j i) true)).then (fun v =>
      { val := some ((List.range n).map (fun i => (v[(perm.findIdx? (· == i)).getD i]?).getD 0)) })

/-- L Lᵀ x = b. -/
def cholSolve (f : FpFmt) (n : Nat) (a b : List Nat) : Fr (List Nat) :=
  (triSolve f (List.range n) below (at2 a n) false b).then
    (triSolve f (List.range n).reverse (above n) (fun i j => at2 a n j i) false)

/-- R x = the first n elements of Qᵀ b. -/
def qrBack (f : FpFmt) (n : Nat) (a qb : List Nat) : Fr (List Nat) :=
  triSolve f (List.range n).reverse (above n) (at2 a n) false (qb.take n)

/-- The reflections as retained words, each its β and its vector, and back. -/
def reflWords (l : List Reflector) : List Nat := (l.map (fun h => h.beta :: h.v)).flatten
def wordsRefl (m n : Nat) (w : List Nat) : List Reflector :=
  (List.range n).map (fun k =>
    let x := (w.drop (k * (m + 1))).take (m + 1)
    { beta := (x.head?).getD 0, v := x.tail })

/-- Reflections applied in order. -/
def reflectAll (f : FpFmt) (l : List Reflector) (x : List Nat) : Fr (List Nat) := foldFin (fun v h => reflect f h v) l x

/-- QR transposed: Rᵀ, then the reflections in reverse order (08 R269). -/
def qrSolveT (f : FpFmt) (m n : Nat) (a : List Nat) (hs : List Reflector) (g : List Nat) : Fr (List Nat) :=
  (triSolve f (List.range n) below (fun i j => at2 a n j i) false g).then (fun w =>
    reflectAll f hs.reverse (w ++ List.replicate (m - n) 0))

/-! ### Outcomes (08 R278) -/

def noteReg : Nat := 1
def noteWarm : Nat := 2
def noteSpd : Nat := 4
def noteBreak : Nat := 8
def noteStall : Nat := 16
def noteNonfin : Nat := 32
def noteNoFactor : Nat := 64

/-- The problem status word (08 Table 8-9). -/
def statusWord (state notes regs pivot iters : Nat) : BitVec 64 :=
  BitVec.ofNat 64 (state % 16 + notes % 256 * 2 ^ 8 + min regs 255 * 2 ^ 16 + pivot % 2 ^ 24 * 2 ^ 24
    + min iters 0xFFFF * 2 ^ 48)

def SlvOut.word (o : SlvOut) : BitVec 64 :=
  statusWord o.state o.notes o.regs.length (((o.regs.head?).map (·.1)).getD 0xFFFFFF) o.iters

/-- A problem stopped at an infinity or a NaN (08 R261). -/
def nonfiniteOut (f : FpFmt) (n : Nat) (regs : List (Nat × Nat)) (notes iters : Nat) (fl : BitVec 4) : SlvOut :=
  { state := 3, notes := notes ||| noteNonfin, regs := regs, iters := iters, x := List.replicate n f.nan, flags := fl
    resid := fp64.nan }

/-- A problem with no retained data (08 R271). -/
def noFactorOut (f : FpFmt) (n : Nat) : SlvOut :=
  { state := 6, notes := noteNoFactor, x := List.replicate n f.nan, resid := fp64.nan }

/-! ### Block-Jacobi (08 R259, R262) -/

/-- LU factors of the diagonal blocks: values, pivots (within their block) and regularised pivots by global row. -/
def bjFactor (p : SlvPlan) (a : List Nat) : Fact :=
  if p.precond = 0 then {} else
  (List.range (p.n / max p.block 1)).foldl (fun (t : Fact) r =>
    if !t.ok then t else
    let d := ((List.range p.block).map (fun i => (List.range p.block).map (fun j =>
      ((entryIdx p (r * p.block + i) (r * p.block + j)).bind (fun k => a[k]?)).getD 0))).flatten
    let x := luFactor p.fmt p.f true p.block p.tau d
    { t with a := t.a ++ x.a, perm := t.perm ++ x.perm, regs := t.regs ++ x.regs.map (fun g => (r * p.block + g.1, g.2))
             flags := t.flags ||| x.flags, ok := t.ok && x.ok }) {}

/-- M⁻¹ v, or M⁻ᵀ v. -/
def bjApply (p : SlvPlan) (a perm : List Nat) (tr : Bool) (v : List Nat) : Fr (List Nat) :=
  if p.precond = 0 then { val := some v } else
  let b := p.block
  foldFin (fun (acc : List Nat) r =>
    let fa := (a.drop (r * b * b)).take (b * b)
    let pe := (perm.drop (r * b)).take b
    let w := (v.drop (r * b)).take b
    (if tr then luSolveT p.f b fa pe w else luSolve p.f b fa pe w).then (fun x => { val := some (acc ++ x) }))
    (List.range (p.n / max b 1)) []

/-- A v, or Aᵀ v: the inner products of the rows with v, each a compensated pair rounded once into the working format
(08 R262; log 20). -/
def matvec (p : SlvPlan) (a : List Nat) (tr : Bool) (v : List Nat) : Fr (List Nat) :=
  finSeq p.f ((List.range p.n).map (fun i =>
    pairDot p.fmt 0 ((sysRow p a tr i).map (fun e => (to64 p.fmt e.2, to64 p.fmt ((v[e.1]?).getD 0))))))

/-! ### Iterative methods (08 R262 to R266; log 23) -/

/-- The system that a method runs on. -/
structure ItSys where
  p : SlvPlan
  a : List Nat
  bj : Fact
  tr : Bool
  b : List Nat
  tol : Nat
  deriving DecidableEq, Repr

structure ItSt where
  x : List Nat := []
  r : List Nat := []
  d : List Nat := []
  v : List Nat := []
  rho : Nat := 0
  alpha : Nat := 0
  omega : Nat := 0
  iters : Nat := 0
  flags : BitVec 4 := 0
  resid : Nat := 0
  deriving DecidableEq, Repr

/-- The end of an iteration that goes on, or a final state. -/
inductive ItRes where
  | go (s : ItSt)
  | stop (state : Nat) (s : ItSt)
  deriving DecidableEq, Repr

/-- Collect flags. -/
def ItSt.fl (s : ItSt) (f : BitVec 4) : ItSt := { s with flags := s.flags ||| f }

/-- Go on with a value, or stop NONFINITE (08 R261). -/
def ItSt.on {α : Type} (s : ItSt) (x : Fr α) (k : ItSt → α → ItRes) : ItRes :=
  match x.val with
  | none => .stop 3 (s.fl x.fl)
  | some a => k (s.fl x.fl) a

/-- The true residual and its test (08 R263): SOLVED, CAPPED, or on from the true residual. -/
def trueTest (y : ItSys) (s : ItSt) : ItRes :=
  s.on (residTrue y.p y.a y.tr y.b s.x) (fun s r =>
    let nr := norm64 y.p.fmt r
    let s := { s.fl nr.2 with resid := nr.1 }
    if passes nr.1 y.tol then .stop 1 s else if y.p.cap ≤ s.iters then .stop 2 s else .go { s with r := r })

/-- The test of 08 R263 on a recurrence residual, with the check against the true residual. -/
def itTest (y : ItSys) (s : ItSt) : ItRes :=
  let nr := norm64 y.p.fmt s.r
  let s := { s.fl nr.2 with resid := nr.1 }
  if passes nr.1 y.tol then trueTest y s
  else if y.p.cap ≤ s.iters then .stop 2 s else .go s

/-- M⁻¹ of the system. -/
def ItSys.pre (y : ItSys) (v : List Nat) : Fr (List Nat) := bjApply y.p y.bj.a y.bj.perm y.tr v
def ItSys.mul (y : ItSys) (v : List Nat) : Fr (List Nat) := matvec y.p y.a y.tr v

def le0 (x : Nat) : Bool := (unpack fp64 x).isZero || ((unpack fp64 x).sign && !(unpack fp64 x).isNan)

/-- One CG iteration; `d` is the search direction and `rho` is r·z. -/
def cgIter (y : ItSys) (s : ItSt) : ItRes :=
  let f := y.p.f
  s.on (y.mul s.d) (fun s q =>
    let pq := dot64 y.p.fmt s.d q
    let s := s.fl pq.2
    if le0 pq.1 then .stop 4 s
    else
      let al := fpDiv fp64 s.rho pq.1
      (s.fl al.2).on (axpy f al.1 s.d s.x) (fun s x =>
        ({ s with x := x }).on (axpy f (neg64 al.1) q s.r) (fun s r =>
          match itTest y { s with r := r, iters := s.iters + 1 } with
          | .stop st s => .stop st s
          | .go s => s.on (y.pre s.r) (fun s z =>
            let rho := dot64 y.p.fmt s.r z
            let be := fpDiv fp64 rho.1 s.rho
            ((s.fl rho.2).fl be.2).on (axpy f be.1 s.d z) (fun s d => .go { s with d := d, rho := rho.1 })))))

/-- One BiCGSTAB iteration; `rhat` is the initial residual. -/
def biIter (y : ItSys) (rhat : List Nat) (s : ItSt) : ItRes :=
  let f := y.p.f
  let rho := dot64 y.p.fmt rhat s.r
  let s := s.fl rho.2
  if (unpack fp64 rho.1).isZero then .stop 4 s else
  let be := (fpDiv fp64 rho.1 s.rho).then (fun t => (fpDiv fp64 s.alpha s.omega).then (fun u => fpMul fp64 t u))
  let first := s.iters == 0
  let dir : Fr (List Nat) := if first then { val := some s.r }
    else (Fr.of be).then (fun be => (axpy f (neg64 s.omega) s.v s.d).then (fun t => axpy f be t s.r))
  s.on dir (fun s d => s.on (y.pre d) (fun s h => s.on (y.mul h) (fun s v =>
    let rv := dot64 y.p.fmt rhat v
    let s := s.fl rv.2
    if (unpack fp64 rv.1).isZero then .stop 4 s else
    let al := fpDiv fp64 rho.1 rv.1
    (s.fl al.2).on (axpy f (neg64 al.1) v s.r) (fun s sv => s.on (y.pre sv) (fun s z => s.on (y.mul z) (fun s t =>
      let ts := dot64 y.p.fmt t sv
      let tt := dot64 y.p.fmt t t
      let om := fpDiv fp64 ts.1 tt.1
      let s := ((s.fl ts.2).fl tt.2).fl om.2
      if (unpack fp64 om.1).isZero then .stop 4 s else
      s.on ((axpy f al.1 h s.x).then (fun u => axpy f om.1 z u)) (fun s x =>
        ({ s with x := x }).on (axpy f (neg64 om.1) t sv) (fun s r =>
          itTest y { s with r := r, d := d, v := v, rho := rho.1, alpha := al.1, omega := om.1, iters := s.iters + 1 }))))))))

/-- Run iterations to a final state; the fuel is the cap. -/
def itLoop (step : ItSt → ItRes) : Nat → ItSt → Nat × ItSt
  | 0, s => (2, s)
  | k + 1, s => match step s with
    | .stop st s => (st, s)
    | .go s => itLoop step k s

/-- A GMRES cycle: basis, rotated columns, rotations and the rotated right-hand side. -/
structure GmSt where
  it : ItSt := {}
  basis : List (List Nat) := []
  cols : List (List Nat) := []
  rots : List (Nat × Nat) := []
  g : List Nat := []
  deriving DecidableEq, Repr

/-- What a step of GMRES comes to: the cycle goes on, or a final state. -/
inductive GmRes where
  | go (t : GmSt)
  | stop (state : Nat) (s : ItSt)
  deriving DecidableEq, Repr

/-- Go on with a value of a cycle, or stop NONFINITE. -/
def ItSt.gm {α : Type} (s : ItSt) (x : Fr α) (k : ItSt → α → GmRes) : GmRes :=
  match x.val with
  | none => .stop 3 (s.fl x.fl)
  | some a => k (s.fl x.fl) a

/-- An element over a scalar in one rounding. -/
def divElem (f : FpFmt) (x s : Nat) : Fl Nat := divV f (unpack f x) (unpack fp64 s)

/-- The rotation (c, s) that carries (a, b) into (r, 0): none where r is 0 or not finite, since it cannot be formed then
(08 R265; log 20). -/
def givens (a b : Nat) : Option (Nat × Nat) × BitVec 4 :=
  let ok := fun (r : Nat) => fp64Finite r && !(unpack fp64 r).isZero
  if Config.givensForm = 0 then
    let r := (fpMul fp64 a a).then (fun x => (fpMul fp64 b b).then (fun y => (fpAdd fp64 x y).then (fpSqrt fp64)))
    if ok r.1 then
      let c := fpDiv fp64 a r.1
      let s := fpDiv fp64 b r.1
      (some (c.1, s.1), r.2 ||| c.2 ||| s.2)
    else (none, r.2)
  else
    let swap := decide (ordKey fp64 (fpAbs fp64 a) < ordKey fp64 (fpAbs fp64 b))
    let big := if swap then b else a
    let small := if swap then a else b
    if ok big then
      let t := fpDiv fp64 small big
      let u := (fpMul fp64 t.1 t.1).then (fun q => (fpAdd fp64 fp64.one q).then (fun v => (fpSqrt fp64 v).then (fun w => fpDiv fp64 fp64.one w)))
      let o := fpMul fp64 u.1 t.1
      (some (if swap then (o.1, u.1) else (u.1, o.1)), t.2 ||| u.2 ||| o.2)
    else (none, 0)

/-- A rotation of a pair: (c a + s b, c b − s a). -/
def rotate (q : Nat × Nat) (a b : Nat) : Nat × Nat × BitVec 4 :=
  let x := (fpMul fp64 q.1 a).then (fun u => (fpMul fp64 q.2 b).then (fun v => fpAdd fp64 u v))
  let y := (fpMul fp64 q.1 b).then (fun u => (fpMul fp64 q.2 a).then (fun v => fpSub fp64 u v))
  (x.1, y.1, x.2 ||| y.2)

/-- Start a cycle from the current iterate and its residual. -/
def gmStart (y : ItSys) (s : ItSt) : GmRes :=
  let nr := norm64 y.p.fmt s.r
  (s.fl nr.2).gm (finSeq y.p.f (s.r.map (fun x => divElem y.p.f x nr.1))) (fun s v =>
    .go { it := { s with resid := nr.1 }, basis := [v], g := [nr.1] })

/-- The iterate of a cycle: x + M⁻¹ V y. -/
def gmIterate (y : ItSys) (t : GmSt) : Fr (List Nat) :=
  let j := t.cols.length
  let c := fun i k => (((t.cols[k]?).getD [])[i]?).getD 0
  (triSolve fp64 (List.range j).reverse (above j) c false (t.g.take j)).then (fun yy =>
    (foldFin (fun u k => axpy y.p.f ((yy[k]?).getD 0) ((t.basis[k]?).getD []) u) (List.range j) (List.replicate y.p.n 0)).then (fun u =>
      (y.pre u).then (fun z => axpy y.p.f fp64.one z t.it.x)))

/-- The end of a cycle: the test on the true residual where the estimate passed, then CAPPED or a restart (08 R263, R264, R266). -/
def gmClose (y : ItSys) (t : GmSt) (tested : Bool) : GmRes :=
  t.it.gm (gmIterate y t) (fun s x =>
    let s := { s with x := x }
    if tested then
      match trueTest y s with
      | .stop st s => .stop st s
      | .go s => gmStart y s
    else if y.p.cap ≤ s.iters then .stop 2 s
    else s.gm (residTrue y.p y.a y.tr y.b x) (fun s r => gmStart y { s with r := r }))

/-- One Arnoldi step: modified Gram–Schmidt in ascending basis order, the rotations so far, and the new one. -/
def gmStep (y : ItSys) (t : GmSt) : GmRes :=
  let f := y.p.f
  let j := t.cols.length
  t.it.gm ((y.pre ((t.basis[j]?).getD [])).then y.mul) (fun it w0 =>
    it.gm (foldFin (fun (s : List Nat × List Nat) v =>
        (Fr.of (dot64 y.p.fmt s.1 v)).then (fun h => (axpy f (neg64 h) v s.1).then (fun w => { val := some (w, s.2 ++ [h]) })))
      t.basis (w0, [])) (fun it mg =>
    let hn := norm64 y.p.fmt mg.1
    let rot := (List.range t.rots.length).foldl (fun (h : List Nat × BitVec 4) i =>
      let a := rotate ((t.rots[i]?).getD (0, 0)) ((h.1[i]?).getD 0) ((h.1[i + 1]?).getD 0)
      ((h.1.set i a.1).set (i + 1) a.2.1, h.2 ||| a.2.2)) (mg.2, hn.2)
    let it := { it.fl rot.2 with iters := it.iters + 1 }
    let hj := (rot.1[j]?).getD 0
    let breaks := fun (it : ItSt) => it.gm (gmIterate y { t with it := it }) (fun s x => .stop 4 { s with x := x })
    if (unpack fp64 hn.1).isZero then
      if (unpack fp64 hj).isZero then breaks it else gmClose y { t with it := it, cols := t.cols ++ [rot.1] } true
    else
      let q := givens hj hn.1
      match q.1 with
      | none => breaks (it.fl q.2)
      | some r =>
        let a := rotate r hj hn.1
        let gg := rotate r ((t.g[j]?).getD 0) 0
        let est := fpAbs fp64 gg.2.1
        let it := { ((it.fl q.2).fl a.2.2).fl gg.2.2 with resid := est }
        let t' : GmSt := { it := it, basis := t.basis, cols := t.cols ++ [rot.1.set j a.1], rots := t.rots ++ [r]
                           g := (t.g.set j gg.1) ++ [gg.2.1] }
        if passes est y.tol then gmClose y t' true
        else if y.p.cap ≤ it.iters ∨ y.p.restart ≤ j + 1 then gmClose y t' false
        else it.gm (finSeq f (mg.1.map (fun x => divElem f x hn.1))) (fun it v =>
          .go { t' with it := it, basis := t.basis ++ [v] })))

def gmLoop (y : ItSys) : Nat → GmRes → Nat × ItSt
  | _, .stop st s => (st, s)
  | 0, .go t => (2, t.it)
  | k + 1, .go t => gmLoop y k (gmStep y t)

/-- An iterative solve of A x = b, or Aᵀ x = b, from x₀ with given block-Jacobi factors. -/
def iterSolve (p : SlvPlan) (a : List Nat) (bj : Fact) (tr : Bool) (b x0 : List Nat) (notes : Nat) : SlvOut :=
  let f := p.f
  let nb := norm64 p.fmt b
  let tol := tolOf p nb.1
  let y : ItSys := { p := p, a := a, bj := bj, tr := tr, b := b, tol := tol.1 }
  let s0 : ItSt := { x := x0, flags := bj.flags ||| nb.2 ||| tol.2 }
  let notes := notes ||| (if bj.regs.isEmpty then 0 else noteReg)
  let start := s0.on (residTrue p a tr b x0) (fun s r => itTest { y with p := { p with cap := p.cap + 1 } } { s with r := r })
  let res : Nat × ItSt :=
    if !bj.ok then (3, { s0 with flags := bj.flags }) else
    match start with
    | .stop st s => (st, s)
    | .go s =>
      if p.method = 0x12 then gmLoop y (p.cap + 1) (gmStart y s)
      else if p.method = 0x11 then itLoop (biIter y s.r) (p.cap + 1) { s with rho := fp64.one, alpha := fp64.one, omega := fp64.one }
      else
        match s.on (y.pre s.r) (fun s z =>
          let rho := dot64 p.fmt s.r z
          .go { s.fl rho.2 with d := z, rho := rho.1 }) with
        | .go s => itLoop (cgIter y) (p.cap + 1) s
        | .stop st s => (st, s)
  if res.1 = 3 then nonfiniteOut f p.n bj.regs notes res.2.iters res.2.flags
  else
    { state := res.1, notes := notes ||| (if res.1 = 4 then noteBreak else 0), regs := bj.regs, iters := res.2.iters
      x := res.2.x, flags := res.2.flags, resid := res.2.resid }

/-! ### Refinement (08 R267) -/

/-- Solve with FP32 factors of LU or CHOL. -/
def solve32 (chol tr : Bool) (n : Nat) (a perm b : List Nat) : Fr (List Nat) :=
  if chol then cholSolve fp32 n a b else if tr then luSolveT fp32 n a perm b else luSolve fp32 n a perm b

/-- A rounding to FP32 is no factor, iterate or residual: an overflow of it does not stop the problem (08 R267). -/
def to32 (l : List Nat) : Fl (List Nat) := flSeq (l.map (fun x => convert 1 2 .rn false true x))
def up64 (l : List Nat) : List Nat := l.map (to64 2)

/-- A correction or a first iterate: the FP32 solve of an FP64 right-hand side, in FP64. -/
def solveUp (p : SlvPlan) (tr : Bool) (fa : Fact) (b : List Nat) : Fr (List Nat) :=
  (Fr.of (to32 b)).then (fun b => (solve32 (p.method == 0x21) tr p.n fa.a fa.perm b).then (fun x => { val := some (up64 x) }))

/-- What refinement comes to. -/
structure RefEnd where
  state : Nat
  steps : Nat
  x : List Nat := []
  note : Nat := 0
  flags : BitVec 4 := 0
  resid : Nat := 0
  deriving DecidableEq, Repr

/-- The loop of 08 R267: step k on the iterate x, with the residual norms so far, newest first. -/
def refineLoop (p : SlvPlan) (a : List Nat) (tr : Bool) (fa : Fact) (b : List Nat) (tol : Nat) :
    Nat → Nat → List Nat → List Nat → BitVec 4 → RefEnd
  | 0, k, x, hist, fl => { state := 2, steps := k - 1, x := x, flags := fl, resid := (hist.head?).getD 0 }
  | fuel + 1, k, x, hist, fl =>
    let r := residTrue p a tr b x
    match r.val with
    | none => { state := 3, steps := k - 1, flags := fl ||| r.fl }
    | some rv =>
      let nr := norm64 1 rv
      let fl := fl ||| r.fl ||| nr.2
      let half := fun v => (scaleB fp64 v (-1)).1
      let h1 := (hist.head?).getD 0
      let h2 := (hist.tail.head?).getD 0
      let ends := fun (st note : Nat) => ({ state := st, steps := k - 1, x := x, note := note, flags := fl, resid := nr.1 } : RefEnd)
      if passes nr.1 tol then ends 1 0
      else if p.cap < k then ends 2 0
      else if 3 ≤ k && (fpCmp fp64 4 nr.1 (half h1)).1 && (fpCmp fp64 4 h1 (half h2)).1 then ends 2 noteStall
      else
        let x' := (solveUp p tr fa rv).then (fun d => finSeq fp64 (x.zipWith (fun u v => fpAdd fp64 u v) d))
        match x'.val with
        | none => { state := 3, steps := k - 1, flags := fl ||| x'.fl }
        | some v => refineLoop p a tr fa b tol fuel (k + 1) v (nr.1 :: hist) (fl ||| x'.fl)

/-- The FP32 factors. Where the conversion of A overflows the unit regularises and goes on (08 R267). -/
def refineFactor (p : SlvPlan) (a : List Nat) : Fact :=
  let a32 := to32 a
  let chk := allFin fp32 a32.1
  let fa := if p.method = 0x21 then cholFactor 2 fp32 chk p.n p.tau a32.1 else luFactor 2 fp32 chk p.n p.tau a32.1
  { fa with flags := fa.flags ||| a32.2 }

/-- Refinement from a start, or from the FP32 solve of b (08 R267, R274; log 23). -/
def refineSolve (p : SlvPlan) (a : List Nat) (tr : Bool) (fa : Fact) (b : List Nat) (x0 : Option (List Nat)) : SlvOut :=
  let notes := (if fa.regs.isEmpty then 0 else noteReg) ||| (if fa.notSpd then noteSpd else 0)
  if !fa.ok then nonfiniteOut fp64 p.n fa.regs notes 0 fa.flags
  else
    let nb := norm64 1 b
    let tol := tolOf p nb.1
    let first : Fr (List Nat) := match x0 with
      | some x => { val := some x }
      | none => solveUp p tr fa b
    let fl := fa.flags ||| nb.2 ||| tol.2 ||| first.fl
    match first.val with
    | none => nonfiniteOut fp64 p.n fa.regs notes 0 fl
    | some x =>
      let r := refineLoop p a tr fa b tol.1 (p.cap + 2) 1 x [] fl
      if r.state = 3 then nonfiniteOut fp64 p.n fa.regs notes r.steps r.flags
      else { state := r.state, notes := notes ||| r.note, regs := fa.regs, iters := r.steps, x := r.x, flags := r.flags, resid := r.resid }

/-! ### One problem -/

def factData (fa : Fact) (aux : List Nat) : FactorData :=
  { mats := toW fa.a, aux := toW aux, perm := fa.perm, regs := fa.regs.map (fun r => (r.1, BitVec.ofNat 64 r.2)) }

def dataFact (d : FactorData) : Fact :=
  { a := ofW d.mats, perm := d.perm, regs := d.regs.map (fun r => (r.1, r.2.toNat)) }

/-- The residual norm of a direct solve, in FP64 (RESID_OUT). -/
def residNorm (p : SlvPlan) (a : List Nat) (tr : Bool) (b x : List Nat) : Fr Nat :=
  (residTrue p a tr b x).then (fun r => Fr.of (norm64 p.fmt r))

/-- A direct solve's outcome: the solution, with the residual norm where the plan asks for it. -/
def directOut (p : SlvPlan) (regs : List (Nat × Nat)) (notes : Nat) (fl : BitVec 4) (a : List Nat) (tr : Bool) (b : List Nat)
    (x : Fr (List Nat)) (fd : List Nat → FactorData) : SlvOut :=
  let r := x.then (fun v => (if p.residOut && !a.isEmpty then residNorm p a tr b v else { val := some 0 }).then (fun n =>
    { val := some (v, n) }))
  match r.val with
  | none => nonfiniteOut p.f p.n regs notes 0 (fl ||| r.fl)
  | some y => { state := 1, notes := notes, regs := regs, x := y.1, flags := fl ||| r.fl, resid := y.2, fd := fd y.1 }

/-- Factorise and solve A x = b from x₀ (08 R257 to R267): a start only where the plan is WARM. -/
def solveFresh (p : SlvPlan) (a b : List Nat) (x0 : Option (List Nat)) (notes : Nat) : SlvOut :=
  let f := p.f
  let wide := fun (l : List Nat) => l.map (fun v => BitVec.ofNat 64 (to64 p.fmt v))
  if !(allFin f a && allFin f b) then nonfiniteOut f p.n [] notes 0 0
  else if isIter p.method then
    let bj := bjFactor p a
    let o := iterSolve p a bj false b (x0.getD (List.replicate p.n 0)) notes
    { o with fd := { mats := toW a, aux := toW bj.a, perm := bj.perm, regs := bj.regs.map (fun r => (r.1, BitVec.ofNat 64 r.2))
                     x := wide o.x } }
  else if isRefine p.method then
    let fa := refineFactor p a
    let o := refineSolve p a false fa b x0
    { o with notes := o.notes ||| notes, fd := { factData fa a with x := toW o.x } }
  else
    let q := qrFactor p.fmt f p.m p.n p.tau a b
    let fa := match p.method with
      | 1 => luFactor p.fmt f true p.n p.tau a
      | 2 => cholFactor p.fmt f true p.n p.tau a
      | _ => { q.1 with a := q.1.a ++ reflWords q.2.2 }
    let x := match p.method with
      | 1 => luSolve f p.n fa.a fa.perm b
      | 2 => cholSolve f p.n fa.a b
      | _ => qrBack f p.n fa.a q.2.1
    let nt := notes ||| (if fa.regs.isEmpty then 0 else noteReg) ||| (if fa.notSpd then noteSpd else 0)
    if !fa.ok then nonfiniteOut f p.n fa.regs nt 0 fa.flags
    else directOut p fa.regs nt fa.flags a false b x (fun v => { factData fa a with x := wide v })

/-- Solve with retained data: A x = b, or Aᵀ x = b (08 R269, R270). -/
def solveKept (p : SlvPlan) (d : FactorData) (tr : Bool) (b : List Nat) : SlvOut :=
  let f := p.f
  let fa := dataFact d
  let notes := if fa.regs.isEmpty then 0 else noteReg
  if !allFin f b then nonfiniteOut f p.n fa.regs notes 0 0
  else if isIter p.method then
    iterSolve p fa.a { a := ofW d.aux, perm := d.perm, regs := fa.regs } tr b (List.replicate p.n 0) notes
  else if isRefine p.method then refineSolve p (ofW d.aux) tr fa b none
  else
    let hs := wordsRefl p.m p.n (fa.a.drop (p.m * p.n))
    let x := match p.method with
      | 1 => if tr then luSolveT f p.n fa.a fa.perm b else luSolve f p.n fa.a fa.perm b
      | 2 => cholSolve f p.n fa.a b
      | _ => if tr then qrSolveT f p.m p.n fa.a hs b else (reflectAll f hs b).then (fun v => qrBack f p.n fa.a v)
    directOut p fa.regs notes 0 (ofW d.aux) tr b x (fun _ => {})

/-- Work units of a solve at the boundaries of 08 Table 8-1: assembly, factor columns, iterations, transfer. -/
def solveUnits (p : SlvPlan) (assembled : Bool) (factor : Bool) (iters : Nat) : Nat × Nat :=
  let setup := b2n assembled + (if factor && !isIter p.method then p.n else 0)
  (setup, setup + iters + 1)

end Sys2Proof.Machine
end

