-- ==== Sys2Proof/Machine/Items.lean ====
section
/-! DEFINITION. Work items (03 R92 to R107): the handles that a descriptor and its records name, the conditions IN_USE
rests on, and how an item ends. -/
namespace Sys2Proof.Machine
open Sys2Proof

/-! ### Handles of a descriptor (03 Table 3-14, 08 R284, 09 R296, 12 R404) -/

/-- Operation defined for a channel kind. -/
def opDefined (kind op : Nat) : Bool :=
  match kind with
  | 1 => op == 1
  | 2 => decide (1 ≤ op) && decide (op ≤ 4)
  | 3 => decide (1 ≤ op) && decide (op ≤ 3)
  | 4 => decide (1 ≤ op) && decide (op ≤ 7)
  | 5 => op == 1 || op == 2
  | _ => false

/-- Handle fields: descriptor offset, handle kind, "none" allowed. -/
def itemFields (kind op : Nat) : List (Nat × Nat × Bool) :=
  match kind, op with
  | 1, _ => [(16, 3, false), (24, 2, true)]
  | 2, _ => [(16, 4, false), (24, 2, false), (32, 6, true), (40, 7, true)]
  | 3, 3 => [(16, 2, false), (24, 2, false)]
  | 3, _ => [(16, 2, false)]
  | 4, _ => [(16, 5, false), (24, 2, false)]
  | 5, 1 => [(16, 2, false)]
  | _, _ => []

/-- Reserved argument bytes of an operation (03 R102 step 3). -/
def itemReserved (kind op : Nat) : List (Nat × Nat) :=
  match kind, op with
  | 1, _ => rz 36 4 ++ rz 40 16
  | 3, 3 => []
  | 3, _ => rz 48 8
  | 4, _ => rz 40 16
  | 5, 1 => rz 32 24
  | 5, _ => rz 16 40
  | _, _ => []

/-- Tensor fields of a solver argument record (08 Table 8-14): offset. -/
def solverTensors (op : Nat) : List Nat :=
  match op with
  | 1 => [0, 8, 16, 24, 32, 40, 48]
  | 2 => [24, 32, 40, 48, 56]
  | 3 => [0, 24, 32, 40, 48]
  | _ => [0, 8, 16, 24, 40]

/-- Handles that an item names: its descriptor's and its records'. -/
def itemHandles (it : Item) : List (BitVec 64) :=
  let h := fun (b : Bytes) (o : Nat) => BitVec.ofNat 64 (fieldLe b o 8)
  let own := (itemFields it.kind it.op).map (fun f => h it.desc f.1)
  let recs := match it.kind with
    | 2 => if it.upd.isEmpty then [] else (solverTensors it.op).map (h it.upd)
    | 5 => if it.upd.isEmpty then [] else [8, 16, 24, 32, 40].map (h it.upd)
    | 4 => match it.launch with | some l => [l.src, l.dst] | none => []
    | _ => []
  (own ++ recs).filter (· != 0)

/-- An admitted item names the object. -/
def namedByItem (d : Dev) (h : BitVec 64) : Bool :=
  d.items.any (fun i => i.2.stage == .admitted && (itemHandles i.2).contains h)

/-- A step is open on the module (13 R441). -/
def stepIsOpen (d : Dev) : Bool := d.step.state == .running

/-- The handle of the tensor at an index. -/
def tensorHandle (d : Dev) (i : Nat) : BitVec 64 := mkHandle 2 (((aGet d.tensors i).map (·.gen)).getD 0) i

/-- An entry of the object table changed: it is ferried in the slack of this tide (13 R436). -/
def noteChange (h : BitVec 64) (d : Dev) : Dev :=
  { d with pair := { d.pair with changes := addNew d.pair.changes h } }

/-! ### Secured bytes (13 R431, R432; log 24) -/

def tensorSecuredBytes (t : Tensor) : Nat :=
  if tSecured t && t.workingOf.isNone then tBytes t + (if t.master = 1 then 2 * tElems t else 0) else 0
def warmBytes (w : WarmSet) : Nat := 8 * (w.n + 1) * w.slots
/-- Bytes of one epoch of a warm-start set in whole sectors. -/
def warmSpan (w : WarmSet) : Nat := ceilDiv (warmBytes w) 64 * 64
def programBytes (p : Program) : Nat := p.imageLen
def planBytes (p : Plan) : Nat := p.desc.length + p.asm.length + 4 * (p.rowptr.length + p.colidx.length)

/-- Bytes of secured state that the module holds, one epoch. -/
def securedBytes (d : Dev) : Nat :=
  d.tensors.foldl (fun a t => a + tensorSecuredBytes t.2) 0 + d.warms.foldl (fun a w => a + warmBytes w.2) 0 +
  d.programs.foldl (fun a p => a + programBytes p.2) 0 + d.plans.foldl (fun a p => a + planBytes p.2) 0

/-- `more` secured bytes would pass the budget in force. -/
def overBudget (d : Dev) (more : Nat) : Bool := decide (d.pair.ownBudget < securedBytes d + more)

/-! ### Finding items -/

/-- The item of a slot with a sequence number that is admitted and not ended. -/
def findItem (d : Dev) (slot seq : Nat) : Option Item :=
  (d.items.find? (fun i => i.2.slot == slot && i.2.seq.toNat == seq && i.2.stage == .admitted)).map (·.2)

def setItem (it : Item) (d : Dev) : Dev := { d with items := aSet d.items it.order it }

/-- The item can work now: it is admitted and its first tide has come, its work is not over, and the window is open. -/
def itemWorks (d : Dev) (it : Item) (kind op : Nat) : Bool :=
  clocksRun d && serves d && d.tide.phase == .work && it.kind == kind && it.op == op && decide (it.admTide ≤ d.tide.count) &&
  decide (it.status.toNat < 16) && !it.work

/-- An item's work is over; the slack ends it (03 R106). -/
def itemDone (it : Item) (status detail : Nat) : Item :=
  { it with work := true, status := BitVec.ofNat 8 status, detail := BitVec.ofNat 32 detail }

/-- The same, keeping a failure that stands. -/
def finishItem (order status detail : Nat) (d : Dev) : Dev :=
  { d with items := aMod d.items order (fun i => if i.status.toNat < 16 then itemDone i status detail else { i with work := true }) }

end Sys2Proof.Machine
end

