-- ==== Sys2Proof/Machine/Digest.lean ====
section
/-! DEFINITION. The digests and check sums that the spec names by their public standards: SHA-256 (08 R273, 12 R400, 16),
CRC-32C (11 Table 11-1) and CRC-64 (12 R419). Their constants are those of the standards (PRESUMED, log 27). -/
namespace Sys2Proof.Machine
open Sys2Proof

/-! ### SHA-256 (FIPS 180-4) -/

/-- The largest r below 2^k with r^e ≤ n. -/
def rootBits (e : Nat) : Nat → Nat → Nat → Nat
  | 0, r, _ => r
  | k + 1, r, n => rootBits e k (if (r + 2 ^ k) ^ e ≤ n then r + 2 ^ k else r) n

/-- The prime numbers below 312: the first 64. -/
def smallPrimes : List Nat :=
  (List.range 312).filter (fun p => decide (2 ≤ p) && (List.range 18).all (fun q => decide (q < 2) || decide (p ≤ q) || p % q != 0))

/-- The first 32 bits of the fraction of the e-th root of a prime number. -/
def rootFraction (e p : Nat) : BitVec 32 := BitVec.ofNat 32 (rootBits e 36 0 (p * 2 ^ (32 * e)))

/-- The round constants: fractions of cube roots. -/
def shaK : List (BitVec 32) := smallPrimes.map (rootFraction 3)

/-- The eight working words. -/
structure ShaSt where
  a : BitVec 32
  b : BitVec 32
  c : BitVec 32
  d : BitVec 32
  e : BitVec 32
  f : BitVec 32
  g : BitVec 32
  h : BitVec 32
  deriving DecidableEq, Repr

/-- The initial words: fractions of square roots. -/
def shaInit : ShaSt :=
  let r := rootFraction 2
  { a := r 2, b := r 3, c := r 5, d := r 7, e := r 11, f := r 13, g := r 17, h := r 19 }

def rotr (x : BitVec 32) (n : Nat) : BitVec 32 := x.rotateRight n

/-- Big-endian number of bytes. -/
def ofBe (bs : Bytes) : Nat := bs.foldl (fun a b => a * 256 + b.toNat) 0
/-- `n` bytes of `v`, highest first. -/
def toBe (n v : Nat) : Bytes := (toLe n v).reverse

/-- The message schedule, newest word first. -/
def shaExpand : Nat → List (BitVec 32) → List (BitVec 32)
  | 0, w => w
  | n + 1, w =>
    let x := fun i => (w[i]?).getD 0
    let s0 := rotr (x 14) 7 ^^^ rotr (x 14) 18 ^^^ (x 14 >>> 3)
    let s1 := rotr (x 1) 17 ^^^ rotr (x 1) 19 ^^^ (x 1 >>> 10)
    shaExpand n ((x 15 + s0 + x 6 + s1) :: w)

def shaRound (s : ShaSt) (kw : BitVec 32 × BitVec 32) : ShaSt :=
  let s1 := rotr s.e 6 ^^^ rotr s.e 11 ^^^ rotr s.e 25
  let ch := (s.e &&& s.f) ^^^ (~~~s.e &&& s.g)
  let t1 := s.h + s1 + ch + kw.1 + kw.2
  let s0 := rotr s.a 2 ^^^ rotr s.a 13 ^^^ rotr s.a 22
  let mj := (s.a &&& s.b) ^^^ (s.a &&& s.c) ^^^ (s.b &&& s.c)
  { a := t1 + (s0 + mj), b := s.a, c := s.b, d := s.c, e := s.d + t1, f := s.e, g := s.f, h := s.g }

def shaBlock (s : ShaSt) (blk : Bytes) : ShaSt :=
  let w0 := (List.range 16).map (fun i => BitVec.ofNat 32 (ofBe (slice blk (4 * i) 4)))
  let w := (shaExpand 48 w0.reverse).reverse
  let r := (shaK.zip w).foldl shaRound s
  { a := s.a + r.a, b := s.b + r.b, c := s.c + r.c, d := s.d + r.d, e := s.e + r.e, f := s.f + r.f, g := s.g + r.g, h := s.h + r.h }

/-- SHA-256. -/
def sha256 (msg : Bytes) : Bytes :=
  let l := msg.length
  let pad := (119 - l % 64) % 64
  let all := msg ++ [(0x80 : Byte)] ++ zeros pad ++ toBe 8 (8 * l)
  let r := (List.range (all.length / 64)).foldl (fun s i => shaBlock s (slice all (64 * i) 64)) shaInit
  (([r.a, r.b, r.c, r.d, r.e, r.f, r.g, r.h]).map (fun x => toBe 4 x.toNat)).flatten

/-- The first 8 bytes of a SHA-256 digest as a number (08 R273, 12 R400). -/
def sha64 (msg : Bytes) : BitVec 64 := BitVec.ofNat 64 (ofLe ((sha256 msg).take 8))

/-! ### CRC -/

/-- A reflected CRC of `w` bits, one byte. -/
def crcByte (w : Nat) (poly : Nat) (crc : Nat) (b : Byte) : Nat :=
  (List.range 8).foldl (fun c _ => if c % 2 = 1 then (c / 2) ^^^ poly else c / 2) ((crc ^^^ b.toNat) % 2 ^ w)

/-- CRC-32C (Castagnoli). -/
def crc32c (bs : Bytes) : BitVec 32 :=
  BitVec.ofNat 32 (bs.foldl (crcByte 32 0x82F63B78) 0xFFFFFFFF ^^^ 0xFFFFFFFF)

/-- CRC-64 of 12 R420, most significant bit first: 12 gives no bit order (log 27). -/
def crc64 (bs : Bytes) : BitVec 64 :=
  bs.foldl (fun (c : BitVec 64) b =>
    (List.range 8).foldl (fun (x : BitVec 64) _ => if x.msb then (x <<< 1) ^^^ 0x42F0E1EBA9EA3693 else x <<< 1)
      (c ^^^ (BitVec.ofNat 64 b.toNat <<< 56))) (BitVec.allOnes 64) ^^^ BitVec.allOnes 64

end Sys2Proof.Machine
end

