-- ==== Sys2Proof/Machine/Wire.lean ====
section
/-! DEFINITION. The torus and its wire (11): axes and neighbours (R349, R389), detours (R394 to R396), routes and classes
(R389 to R391), packets as bytes and as flits (R356 to R359), credits and the replay buffer (R366, R367), and what the module
sends. Layouts that the spec names only by their contents are the model's own (log 26). -/
namespace Sys2Proof.Machine
open Sys2Proof

/-! ### Axes, directions and distances (11 R349, R389) -/

def posAxis (p : Pos) (a : Nat) : Nat := match a with | 0 => p.x | 1 => p.y | _ => p.z
def setAxis (p : Pos) (a v : Nat) : Pos :=
  match a with | 0 => { p with x := v } | 1 => { p with y := v } | _ => { p with z := v }
def wrapped (d : Dev) (a : Nat) : Bool := d.lnk.wrap.getLsbD a
def axisDim (d : Dev) (a : Nat) : Nat := max (posAxis d.lnk.dim a) 1

/-- Hops along an axis. -/
def axisHops (d : Dev) (a x y : Nat) : Nat :=
  let n := axisDim d a
  let up := (y + n - x) % n
  if wrapped d a then min up (n - up) else if x ≤ y then y - x else x - y

/-- Hops between two positions on the routes of 11 R389. -/
def hops (d : Dev) (p q : Pos) : Nat :=
  axisHops d 0 p.x q.x + axisHops d 1 p.y q.y + axisHops d 2 p.z q.z

/-- Index of a position in its partition (11 R391). -/
def posIndex (d : Dev) (p : Pos) : Nat := p.x + axisDim d 0 * (p.y + axisDim d 1 * p.z)

/-- The position lies inside the partition. -/
def inPart (d : Dev) (p : Pos) : Bool := posOk d.lnk.dim p

/-- The neighbour over strait s (+X, −X, +Y, −Y, +Z, −Z): none beyond an unwrapped edge or on an axis of extent 1. -/
def neighbourOf (d : Dev) (p : Pos) (s : Nat) : Option Pos :=
  let a := s / 2
  let n := axisDim d a
  let x := posAxis p a
  if n ≤ 1 then none
  else if s % 2 = 0 then
    if x + 1 < n then some (setAxis p a (x + 1)) else if wrapped d a then some (setAxis p a 0) else none
  else if 0 < x then some (setAxis p a (x - 1)) else if wrapped d a then some (setAxis p a (n - 1)) else none

/-- The strait of the opposite direction. -/
def oppStrait (s : Nat) : Nat := if s % 2 = 0 then s + 1 else s - 1

/-! ### Links and straits -/

def linkOf (d : Dev) (st ln : Nat) : Link := (d.lnk.links[4 * st + ln]?).getD {}
def setLink (st ln : Nat) (k : Link) (d : Dev) : Dev :=
  { d with lnk := { d.lnk with links := d.lnk.links.set (4 * st + ln) k } }
def straitOf (d : Dev) (st : Nat) : Strait := (d.lnk.straits[st]?).getD {}
def setStrait (st : Nat) (x : Strait) (d : Dev) : Dev :=
  { d with lnk := { d.lnk with straits := d.lnk.straits.set st x } }

/-- ACTIVE links of a strait in ascending order. -/
def activeLinks (d : Dev) (st : Nat) : List Nat := (List.range 4).filter (fun l => (linkOf d st l).state == 7)

/-- The strait has a live link at a position, as this module knows (11 R394). -/
def lostAt (d : Dev) (p : Pos) (s : Nat) : Bool :=
  if p = d.lnk.pos then (activeLinks d s).isEmpty
  else match d.lnk.recs.find? (fun r => decide (r.pos = p)) with
    | some r => r.lost.getLsbD s
    | none => false

/-! ### Routes (11 R389, R390, R394 to R396) -/

/-- The strait on which a packet leaves position p for dst: none at its destination. -/
def dorStrait (d : Dev) (p dst : Pos) : Option Nat :=
  match (List.range 3).find? (fun a => posAxis p a != posAxis dst a) with
  | none => none
  | some a =>
    let n := axisDim d a
    let x := posAxis p a
    let y := posAxis dst a
    let up := (y + n - x) % n
    let plus := if wrapped d a then decide (up ≤ n - up) else decide (x < y)
    some (2 * a + (if plus then 0 else 1))

/-- The first sidestep whose three straits are live, for the hop over strait s from m (11 R395). -/
def sidestepOf (d : Dev) (m : Pos) (s : Nat) : Option Nat :=
  ((List.range 6).filter (fun b => b / 2 != s / 2)).find? (fun b =>
    match neighbourOf d m b with
    | none => false
    | some p =>
      match neighbourOf d p s with
      | none => false
      | some q => (neighbourOf d q (oppStrait b)).isSome && !lostAt d m b && !lostAt d p s && !lostAt d q (oppStrait b))

/-- What becomes of a packet at this module. -/
inductive Way where
  | here
  | out (st cls : Nat) (detour : Bool)
  | wait (st : Nat)
  | lostWay (st : Nat)
  deriving DecidableEq, Repr

/-- The class of a normal hop over strait s, for a packet that came with class c over strait `arr` (11 R390). -/
def hopClass (d : Dev) (arr : Option Nat) (c s : Nat) : Nat :=
  let a := s / 2
  let x := posAxis d.lnk.pos a
  let cross := wrapped d a && (if s % 2 = 0 then x + 1 == axisDim d a else x == 0)
  if cross then 1 else if arr.any (fun t => t / 2 == a) && c == 1 then 1 else 0

/-- The second or third hop of a detour that a packet of class 2 is on, arriving over strait t (11 R395). -/
def detourHop (d : Dev) (t : Nat) (dst : Pos) : Option Nat :=
  match neighbourOf d d.lnk.pos t with
  | none => none
  | some m1 =>
    let first := match dorStrait d m1 dst with
      | some s => if lostAt d m1 s && sidestepOf d m1 s == some (oppStrait t) then some s else none
      | none => none
    match first with
    | some s => some s
    | none =>
      let s := oppStrait t
      ((List.range 6).find? (fun b => b / 2 != s / 2 &&
        (match neighbourOf d m1 (oppStrait b) with
          | some m => dorStrait d m dst == some s && lostAt d m s && sidestepOf d m s == some b
          | none => false))).map oppStrait

/-- The way of a packet that stands at this module; `arr` is the strait over which it came. -/
def wayOf (d : Dev) (arr : Option Nat) (h : PacketHeader) : Way :=
  if h.dst = d.lnk.pos then .here
  else
    let mid := match arr with
      | some t => if h.cls = 2 then detourHop d t h.dst else none
      | none => none
    match mid with
    | some s => if (activeLinks d s).isEmpty then .lostWay s else .out s 2 true
    | none =>
      match dorStrait d d.lnk.pos h.dst with
      | none => .here
      | some s =>
        if !(activeLinks d s).isEmpty then .out s (hopClass d arr h.cls s) h.detour
        else if h.detour then .lostWay s
        else match d.lnk.detourNow.find? (fun x => x.1 == s) with
          | some x => if x.2 < 6 ∧ !(activeLinks d x.2).isEmpty then .out x.2 2 true else .lostWay s
          | none => .wait s

/-! ### Packets and flits (11 R356 to R359) -/

def posBytes (p : Pos) : Bytes := toLe 1 p.x ++ toLe 1 p.y ++ toLe 1 p.z

/-- The 16 header bytes of a packet (11 Table 11-3). -/
def packetHead (h : PacketHeader) : Bytes :=
  posBytes h.dst ++ toLe 1 (b2n h.detour + 2 * h.cls) ++ posBytes h.src ++ zeros 1 ++ toLe 2 h.partId.toNat ++ toLe 2 h.length
    ++ toLe 2 h.use ++ zeros 2

/-- A packet header from its bytes and its channel. -/
def packetOf (b : Bytes) (ch : Nat) : PacketHeader :=
  { dst := { x := fieldLe b 0 1, y := fieldLe b 1 1, z := fieldLe b 2 1 }, src := { x := fieldLe b 4 1, y := fieldLe b 5 1, z := fieldLe b 6 1 }
    detour := bitOf (fieldLe b 3 1) 0, cls := bitsOf (fieldLe b 3 1) 1 2, partId := BitVec.ofNat 16 (fieldLe b 8 2)
    length := fieldLe b 10 2, use := fieldLe b 12 2, vl := ch / 3 }

/-- Channel of a virtual lane and a class (11 Table 11-6). -/
def channelOf (h : PacketHeader) : Nat := 3 * h.vl + h.cls

/-- A packet cut into flits. -/
def cutFlits (h : PacketHeader) (bytes : Bytes) : List Flit :=
  let all := packetHead h ++ bytes
  let n := max 1 (ceilDiv all.length 304)
  (List.range n).map (fun i =>
    { ch := channelOf h, sop := i == 0, eop := i + 1 == n, valid := min 304 (all.length - 304 * i), payload := (all.drop (304 * i)).take 304 })

/-- Bytes 0 to 315 of a data flit (11 Tables 11-1 and 11-2). -/
def flitBytes (f : Flit) : Bytes :=
  toLe 12 (f.seq.toNat + f.ack.toNat * 2 ^ 12 + 2 ^ 24 + f.ch % 16 * 2 ^ 26 + b2n f.sop * 2 ^ 30 + b2n f.eop * 2 ^ 31
    + f.crdCh % 16 * 2 ^ 32 + f.crd % 1024 * 2 ^ 36 + f.valid % 1024 * 2 ^ 46) ++ slice f.payload 0 304

/-- A flit as it goes on the wire: the acknowledgement and the CRC are those of the moment. -/
def stampFlit (k : Link) (f : Flit) : Flit :=
  let g : Flit := { f with ack := k.rxSeq - 1 }
  { g with crc := crc32c (flitBytes g) }

/-! ### Credits and the replay buffer (11 R365 to R367) -/

/-- Pool limit of a virtual lane: values above 699 are taken as 699. -/
def poolLimit (d : Dev) (vl : Nat) : Nat := min 699 ((d.lnk.vlLimit[vl]?).getD 0)

def slotsHeld (k : Link) (ch : Nat) : Nat := (aGet k.rxSlots ch).getD 0
def poolUsed (k : Link) : Nat := k.rxSlots.foldl (fun s c => s + (c.2 - 8)) 0

/-- A flit of channel c may be sent. -/
def mayGo (d : Dev) (k : Link) (c : Nat) : Bool :=
  decide (k.replayBuf.length < 819) &&
  (decide (slotsHeld k c < 8) || (decide (poolUsed k < 699) && decide (slotsHeld k c < 8 + poolLimit d (c / 3))))

/-- Send what the far end has slots for, in order. -/
def pumpLink (d : Dev) : List Flit → Link → Link
  | [], k => { k with txq := [] }
  | f :: t, k =>
    if mayGo d k f.ch then
      pumpLink d t { k with
        replayBuf := k.replayBuf ++ [{ f with seq := k.txSeq }], txSeq := k.txSeq + 1
        rxSlots := aSet k.rxSlots f.ch (slotsHeld k f.ch + 1) }
    else { k with txq := f :: t }

/-- The link that a packet takes within a strait (11 R391). -/
def pickLink (d : Dev) (st : Nat) (h : PacketHeader) : Option Nat :=
  let l := activeLinks d st
  l[(posIndex d h.src + posIndex d h.dst + h.vl) % max l.length 1]?

/-- A packet leaves over a strait. -/
def transmit (st : Nat) (h : PacketHeader) (bytes : Bytes) (d : Dev) : Dev :=
  match pickLink d st h with
  | none => d
  | some ln =>
    let k := linkOf d st ln
    let d := setLink st ln (pumpLink d (k.txq ++ cutFlits h bytes) k) d
    { d with out := { d.out with sent := d.out.sent ++ [.packet st h bytes] } }

/-- A packet waits at the module where its strait was lost (11 R394). -/
def waitAt (st : Nat) (h : PacketHeader) (bytes : Bytes) (d : Dev) : Dev :=
  setStrait st { straitOf d st with waiting := (straitOf d st).waiting ++ [(h, bytes)] } d

/-- Drop flits through an acknowledged SEQ; a packet that is still in part unacknowledged keeps its first payload. -/
def ackLink (ack : BitVec 12) (k : Link) : Link :=
  match k.replayBuf.findIdx? (fun f => f.seq == ack) with
  | none => k
  | some i =>
    let gone := k.replayBuf.take (i + 1)
    let heads := gone.foldl (fun (t : Assoc Bytes) f =>
      if f.eop then aDel t f.ch else if f.sop then aSet t f.ch f.payload else t) k.heads
    { k with replayBuf := k.replayBuf.drop (i + 1), heads := heads, sameReplays := 0 }

/-- Slots given back by the far end. -/
def creditLink (ch n : Nat) (k : Link) : Link := { k with rxSlots := aSet k.rxSlots ch (slotsHeld k ch - n) }

/-! ### Payloads (12 Table 12-9, 13 Tables 13-1 and 13-2, 14 Table 14-13) -/

/-- The 64-byte collective header (12 Table 12-9). -/
def collHeadBytes (h : CollHeader) : Bytes :=
  toLe 4 h.gid.toNat ++ toLe 4 h.launch.toNat ++ toLe 8 h.digest.toNat ++ toLe 4 h.chunk ++ toLe 4 h.rank ++ toLe 1 h.level
    ++ toLe 1 h.phase ++ toLe 2 h.packet ++ toLe 2 h.packets ++ toLe 1 h.flags.toNat ++ toLe 1 h.cause ++ toLe 8 h.check.toNat
    ++ toLe 8 h.tides.toNat ++ zeros 16

def collHeadOf (b : Bytes) : CollHeader :=
  { gid := BitVec.ofNat 32 (fieldLe b 0 4), launch := BitVec.ofNat 32 (fieldLe b 4 4), digest := BitVec.ofNat 64 (fieldLe b 8 8)
    chunk := fieldLe b 16 4, rank := fieldLe b 20 4, level := fieldLe b 24 1, phase := fieldLe b 25 1, packet := fieldLe b 26 2
    packets := fieldLe b 28 2, flags := BitVec.ofNat 4 (fieldLe b 30 1), cause := fieldLe b 31 1
    check := BitVec.ofNat 64 (fieldLe b 32 8), tides := BitVec.ofNat 64 (fieldLe b 40 8) }

/-- Header bytes 0 to 23 of a ferry packet (13 Table 13-2). -/
def ferryHead (h : FerryHeader) : Bytes :=
  toLe 4 h.step ++ toLe 4 h.obj ++ toLe 1 h.part ++ zeros 3 ++ toLe 4 h.fseq ++ toLe 8 h.off

def ferryHeadOf (b : Bytes) : FerryHeader :=
  { step := fieldLe b 0 4, obj := fieldLe b 4 4, part := fieldLe b 8 1, fseq := fieldLe b 12 4, off := fieldLe b 16 8
    check := BitVec.ofNat 64 (fieldLe b 24 8) }

def pairBytes (p : PairPayload) : Bytes :=
  posBytes p.pos ++ toLe 1 p.feedId.toNat ++ toLe 8 p.ownBudget ++ toLe 8 p.partnerBudget ++ toLe 1 (b2n p.feedOverride)
def pairOf (b : Bytes) : PairPayload :=
  { pos := { x := fieldLe b 0 1, y := fieldLe b 1 1, z := fieldLe b 2 1 }, feedId := BitVec.ofNat 4 (fieldLe b 3 1)
    ownBudget := fieldLe b 4 8, partnerBudget := fieldLe b 12 8, feedOverride := bitOf (fieldLe b 20 1) 0 }

/-- Destination, virtual lane, USE and payload of what is sent as a packet to one position. -/
def packetFor (x : Sent) : Option (Pos × Nat × Nat × Bytes) :=
  match x with
  | .coll dst use h b => some (dst, 2, use, collHeadBytes h ++ b)
  | .pair dst p => some (dst, 0, 1, pairBytes p)
  | .pairReply dst p v => some (dst, 1, 1, pairBytes p ++ toLe 1 v)
  | .fillRead dst r => some (dst, 0, 2, toLe 4 r.obj ++ toLe 1 r.part ++ toLe 1 r.buf ++ toLe 8 r.off ++ toLe 2 r.len)
  | .fillData dst h b => some (dst, 1, 2, ferryHead h ++ toLe 8 h.check.toNat ++ b)
  | .adoptReq dst s f p => some (dst, 0, 3, toLe 8 s.toNat ++ toLe 1 f.toNat ++ posBytes p)
  | .adoptReply dst c => some (dst, 1, 3, toLe 1 c)
  | .decisionReq dst n => some (dst, 0, 4, toLe 4 n)
  | .decisionReply dst w => some (dst, 1, 4, toLe 4 w.toNat)
  | .ferry dst use h b => some (dst, 3, use, ferryHead h ++ toLe 8 h.check.toNat ++ b)
  | .ferryAck dst n f => some (dst, 3, 2, toLe 4 n ++ toLe 4 f)
  | _ => none

/-- Arrival strait, USE and payload of a management broadcast (14 R490). -/
def floodFor (x : Sent) : Option (Option Nat × Nat × Bytes) :=
  match x with
  | .straitState a q p l act t => some (a, 1, toLe 4 q ++ posBytes p ++ toLe 1 l.toNat ++ toLe 3 act.toNat ++ toLe 8 t)
  | .deviceFailed a q p c t => some (a, 2, toLe 4 q ++ posBytes p ++ zeros 1 ++ toLe 2 c.toNat ++ zeros 2 ++ toLe 8 t)
  | .adopted a q p s t => some (a, 3, toLe 4 q ++ posBytes p ++ zeros 1 ++ toLe 8 s.toNat ++ toLe 8 t)
  | _ => none

/-- A packet of this module's own enters the torus (11 R389, R390). -/
def inject (dst : Pos) (vl use : Nat) (bytes : Bytes) (d : Dev) : Dev :=
  let h : PacketHeader := { dst := dst, src := d.lnk.pos, partId := d.lnk.partId, length := bytes.length, use := use, vl := vl }
  match wayOf d none h with
  | .out st c det => transmit st { h with cls := c, detour := det } bytes d
  | .wait st => waitAt st h bytes d
  | _ => d

/-- Something leaves the module: it is noted as sent (log 8), and a packet enters the torus. -/
def send (x : Sent) (d : Dev) : Dev :=
  let d := { d with out := { d.out with sent := d.out.sent ++ [x] } }
  match packetFor x, floodFor x with
  | some p, _ => inject p.1 p.2.1 p.2.2.1 p.2.2.2 d
  | none, some f =>
    ((List.range 6).filter (fun s => f.1 != some s)).foldl (fun d s =>
      match neighbourOf d d.lnk.pos s with
      | some q => transmit s { dst := q, src := d.lnk.pos, partId := d.lnk.partId, length := f.2.2.length, use := f.2.1, vl := 4 } f.2.2 d
      | none => d) d
  | none, none => d

end Sys2Proof.Machine
end

