-- ==== Sys2Proof/Machine/Ferry.lean ====
section
/-! DEFINITION. The sending side of the ferry (13 R436, R437, R440, Table 13-2): its header and check, packets kept until
they are acknowledged, and the bytes by which the model writes a scale record and a warm-start slot (log 26). -/
namespace Sys2Proof.Machine
open Sys2Proof

/-- The pairing is in effect (13 R433, R434). -/
def paired (d : Dev) : Bool := d.pair.state == 2 || d.pair.state == 3

/-- CHECK of a ferry packet. -/
def ferryCheck (h : FerryHeader) (bytes : Bytes) : BitVec 64 := crc64 (ferryHead h ++ bytes)

/-- One ferry packet toward the partner, kept until its ACK. -/
def ferryOne (use step obj part off : Nat) (bytes : Bytes) (d : Dev) : Dev :=
  let h0 : FerryHeader := { step := step, obj := obj, part := part, fseq := d.pair.fseq, off := off }
  let h : FerryHeader := { h0 with check := ferryCheck h0 bytes }
  send (.ferry d.pair.partner use h bytes)
    { d with pair := { d.pair with fseq := d.pair.fseq + 1, unacked := d.pair.unacked ++ [{ use := use, hdr := h, bytes := bytes }] } }

/-- Data on the ferry in packets of up to 4,032 bytes; nothing while the module is not paired. -/
def ferry (use step obj part off : Nat) (bytes : Bytes) (d : Dev) : Dev :=
  if paired d then
    (List.range (ceilDiv bytes.length 4032)).foldl (fun d i =>
      ferryOne use step obj part (off + 4032 * i) ((bytes.drop (4032 * i)).take 4032) d) d
  else d

/-- New-epoch data of a step. -/
def ferryData (step obj part off : Nat) (bytes : Bytes) (d : Dev) : Dev := ferry 1 step obj part off bytes d

/-- A scale record as bytes (log 26). -/
def scaleBytes (r : ScaleRec) : Bytes :=
  toLe 1 r.mode ++ toLe 1 r.headroom ++ toLe 1 r.window ++ toLe 1 (wrapBits 8 r.exp) ++ toLe 1 r.amaxes.length
    ++ toLe 1 (b2n r.hasExp) ++ zeros 2 ++ slice (r.amaxes.map (fun a => toLe 8 a.toNat)).flatten 0 512

/-- A scale record from its bytes. -/
def scaleOf (b : Bytes) : ScaleRec :=
  { mode := fieldLe b 0 1, headroom := fieldLe b 1 1, window := fieldLe b 2 1, exp := signExt 8 (fieldLe b 3 1)
    amaxes := (List.range (min (fieldLe b 4 1) 64)).map (fun i => BitVec.ofNat 64 (fieldLe b (8 + 8 * i) 8))
    hasExp := fieldLe b 5 1 == 1 }

/-- A step's pending amax and OF mark as bytes (log 26). -/
def pendingBytes (r : ScaleRec) : Bytes :=
  toLe 8 ((r.pending.map (·.toNat)).getD 0) ++ toLe 1 (b2n r.pendingOf) ++ toLe 1 (b2n r.pending.isSome) ++ zeros 6

/-- A scale record takes a step's pending amax (09 R314, 04 R145 to R147). -/
def scaleApply (fmt : Nat) (r : ScaleRec) : ScaleRec :=
  let r0 : ScaleRec := { r with pending := none, pendingOf := false }
  match r.pending with
  | some a =>
    if r.mode = 2 then
      let l := if r.pendingOf then [a] else r.amaxes ++ [a]
      let l := if r.window < l.length then l.drop (l.length - r.window) else l
      let e := scaleExp fmt (amaxOf (l.map (·.toNat))) r.headroom r.exp
      { r0 with amaxes := l, exp := e, hasExp := true }
    else r0
  | none => if r.mode = 2 ∧ r.pendingOf = true then { r0 with amaxes := [] } else r0

/-- A warm-start slot as bytes: its signature and its vector (log 26). -/
def warmSlotBytes (w : WarmSlot) : Bytes := toLe 8 w.sig.toNat ++ (w.x.map (fun v => toLe 8 v.toNat)).flatten

/-- A warm-start slot from its bytes. -/
def warmSlotOf (b : Bytes) (n : Nat) : WarmSlot :=
  { sig := BitVec.ofNat 64 (fieldLe b 0 8), x := (List.range n).map (fun i => BitVec.ofNat 64 (fieldLe b (8 + 8 * i) 8)) }

end Sys2Proof.Machine
end

