-- ==== Sys2Proof/Machine/Groups.lean ====
section
/-! DEFINITION. Collective groups with their commands (12 R400 to R403). -/
namespace Sys2Proof.Machine
open Sys2Proof

/-! ### Groups (12 R400 to R402) -/

/-- The digest of a group (12 R400). -/
def groupDigest (gid : BitVec 32) (ms : List Pos) : BitVec 64 :=
  sha64 (toLe 4 gid.toNat ++ toLe 4 ms.length ++ (ms.map (fun p => toLe 1 p.x ++ toLe 1 p.y ++ toLe 1 p.z)).flatten)

def posAt (c : Bytes) (off : Nat) : Pos := { x := fieldLe c off 1, y := fieldLe c (off + 1) 1, z := fieldLe c (off + 2) 1 }

/-- One coordinate of a BOX member: none where it leaves an unwrapped axis. -/
def boxCoord (d : Dev) (a o i s : Nat) : Option Nat :=
  let n := axisDim d a
  let x := o + i * s
  if wrapped d a then some (x % n) else if x < n then some x else none

/-- Members of a request in rank order: each its position, or none. -/
def groupMembers (d : Dev) (c : Bytes) : List (Option Pos) :=
  let n := fieldLe c 24 4
  if fieldLe c 20 1 = 1 then (List.range n).map (fun r => some (posAt c (48 + 4 * r)))
  else
    let e := posAt c 36
    let s := posAt c 40
    let o := posAt c 32
    (List.range n).map (fun r =>
      match boxCoord d 0 o.x (r % e.x) s.x, boxCoord d 1 o.y (r / e.x % e.y) s.y, boxCoord d 2 o.z (r / e.x / e.y) s.z with
      | some x, some y, some z => some { x := x, y := y, z := z }
      | _, _, _ => none)

/-- Largest number of hops between two members. -/
def groupDiameter (d : Dev) (ms : List Pos) : Nat :=
  ms.foldl (fun m p => ms.foldl (fun m q => max m (hops d p q)) m) 0

/-- The first member that is no position of the partition or repeats an earlier one. -/
def badMember (d : Dev) (ms : List (Option Pos)) : Option Nat :=
  (List.range ms.length).find? (fun i =>
    match (ms[i]?).join with
    | none => true
    | some p => !inPart d p || (ms.take i).contains (some p))

def groupCheck (d : Dev) (c : Bytes) : Option (Nat × Nat) :=
  let shape := fieldLe c 20 1
  let n := fieldLe c 24 4
  let e := posAt c 36
  let s := posAt c 40
  let in1 := fun (lo hi v : Nat) => decide (lo ≤ v) && decide (v ≤ hi)
  if fieldLe c 16 4 = 0 then some (rBadField, 16)
  else if 1 < shape then some (rBadField, 20)
  else if n = 0 ∨ (if shape = 1 then 4084 else 262144) < n then some (rBadField, 24)
  else if shape = 0 ∧ !(in1 1 64 e.x && in1 1 64 e.y && in1 1 64 e.z && e.x * e.y * e.z == n) then some (rBadField, 36)
  else if shape = 0 ∧ !(in1 1 63 s.x && in1 1 63 s.y && in1 1 63 s.z) then some (rBadField, 40)
  else
    let ms := groupMembers d c
    match badMember d ms with
    | some i => some (rBadField, if shape = 0 then 24 else 48 + 4 * i)
    | none =>
      if !ms.contains (some d.lnk.pos) then some (rNotAllowed, Config.noField 0x0501 rNotAllowed)
      else if d.groups.any (fun g => g.2.gid.toNat == fieldLe c 16 4) || stepIsOpen d then some (rInUse, 16)
      else if 1024 ≤ d.groups.length then some (rNoRoom, Config.noField 0x0501 rNoRoom)
      else none

def execGroupCreate (m : Nat) (s : State) : Res :=
  eff (mbxRow m 0x0501 (fun d c =>
    match groupCheck d c with
    | some x => .no x.1 x.2
    | none =>
      let ms := (groupMembers d c).filterMap id
      let gid := BitVec.ofNat 32 (fieldLe c 16 4)
      let n := idxNext (idxReg d 5)
      let g : Group := { gen := n.2, gid := gid, members := ms, rank := (ms.findIdx? (· == d.lnk.pos)).getD 0
                         dg := groupDiameter d ms, digest := groupDigest gid ms }
      let h := mkHandle 5 n.2 n.1
      .ok (noteChange h { takeIdx 5 d with groups := aSet d.groups n.1 g }) (toLe 8 h.toNat))) s

def execGroupDestroy (m : Nat) (s : State) : Res :=
  eff (mbxRow m 0x0502 (fun d c =>
    withHandle d 5 c 16 (fun i =>
      let h := BitVec.ofNat 64 (fieldLe c 16 8)
      if stepIsOpen d || namedByItem d h then .no rInUse 16
      else .ok (noteChange h (freeIdx 5 i (hGen h) { d with groups := aDel d.groups i })) []))) s

def execGroupQuery (m : Nat) (s : State) : Res :=
  eff (mbxRow m 0x0503 (fun d c =>
    withHandle d 5 c 16 (fun i =>
      match aGet d.groups i with
      | none => .no rBadHandle 16
      | some g => .ok d (toLe 4 g.gid.toNat ++ toLe 4 g.rank ++ toLe 4 g.members.length ++ toLe 2 g.dg ++ zeros 2
          ++ toLe 8 g.digest.toNat ++ toLe 4 g.lastLaunch.toNat ++ toLe 1 g.lastStatus.toNat ++ zeros 3 ++ toLe 4 g.lastRank)))) s

end Sys2Proof.Machine
end

