-- ==== Sys2Proof/Machine/CoreScalar.lean ====
section
/-! DEFINITION. The scalar, branch, core-memory, window, DMA, flag, CSR and synchronisation instructions of a core
(06 R193 to R210) and the segment events that frame them (06 R185, R186, R214). -/
namespace Sys2Proof.Machine
open Sys2Proof

/-! ### Scalar arithmetic (06 R198, R199) -/

/-- Integer functions other than division (06 Table 6-5). -/
def intFuncs : List Nat := [0, 1, 2, 8, 9, 10, 11, 12, 13, 16, 17, 18, 19, 20]
def divFuncs : List Nat := [3, 4, 5, 6]
def floatFuncs : List Nat := [0x20, 0x21, 0x22, 0x23, 0x24, 0x25, 0x26, 0x27, 0x28, 0x29]

/-- The second operand: a register, or the sign-extended immediate. -/
def scalarB (c : Core) (w : BitVec 64) : BitVec 64 :=
  if wMajor w = 1 then rdS c (wRB w) else BitVec.ofInt 64 (wImm32 w)

def intOp (f : Nat) (a b : BitVec 64) : BitVec 64 :=
  let sh := b.toNat % 64
  match f with
  | 0 => a + b
  | 1 => a - b
  | 2 => a * b
  | 8 => a &&& b
  | 9 => a ||| b
  | 10 => a ^^^ b
  | 11 => a <<< sh
  | 12 => a >>> sh
  | 13 => a.sshiftRight sh
  | 16 => if a.slt b then 1 else 0
  | 17 => if a.ult b then 1 else 0
  | 18 => if a = b then 1 else 0
  | 19 => if a.slt b then a else b
  | _ => if a.slt b then b else a

/-- DIV, DIVU, REM, REMU (06 R199). -/
def divOp (f : Nat) (a b : BitVec 64) : BitVec 64 :=
  if b = 0 then (if f = 3 ∨ f = 4 then BitVec.allOnes 64 else a)
  else match f with
    | 3 => a.sdiv b
    | 4 => a / b
    | 5 => a.srem b
    | _ => a % b

def floatOp (f : Nat) (a b : BitVec 64) : Fl (BitVec 64) :=
  let x := a.toNat
  let y := b.toNat
  let r : Fl Nat := match f with
    | 0x20 => fpAdd fp64 x y
    | 0x21 => fpSub fp64 x y
    | 0x22 => fpMul fp64 x y
    | 0x23 => fpDiv fp64 x y
    | 0x24 => fpSqrt fp64 x
    | 0x25 => fpMin fp64 x y
    | 0x26 => fpMax fp64 x y
    | 0x27 => let c := fpCmp fp64 0 x y; (b2n c.1, c.2)
    | 0x28 => let c := fpCmp fp64 2 x y; (b2n c.1, c.2)
    | _ => let c := fpCmp fp64 3 x y; (b2n c.1, c.2)
  (BitVec.ofNat 64 r.1, r.2)

/-- SCALAR_INTEGER_OP: d ← a op b (06 R198). -/
def execScalarIntegerOp (l : Nat) (w : BitVec 64) (s : State) : Res :=
  eff (coreRow l w ((wMajor w == 1 || wMajor w == 2) && intFuncs.contains (wFunc w)) (fun d c =>
    done d (wrS (wRD w) (intOp (wFunc w) (rdS c (wRA w)) (scalarB c w)) c))) s

/-- DIV: DIV, DIVU, REM and REMU (06 R199). -/
def execDiv (l : Nat) (w : BitVec 64) (s : State) : Res :=
  eff (coreRow l w ((wMajor w == 1 || wMajor w == 2) && divFuncs.contains (wFunc w)) (fun d c =>
    done d (wrS (wRD w) (divOp (wFunc w) (rdS c (wRA w)) (scalarB c w)) c))) s

/-- SCALAR_FLOAT_OP: FP64 functions with their flags (06 R198, 04 Table 4-5). -/
def execScalarFloatOp (l : Nat) (w : BitVec 64) (s : State) : Res :=
  eff (coreRow l w (wMajor w == 1 && floatFuncs.contains (wFunc w)) (fun d c =>
    let r := floatOp (wFunc w) (rdS c (wRA w)) (rdS c (wRB w))
    done d (raise r.2 (wrS (wRD w) r.1 c)))) s

/-- LI: d ← sext(imm47). -/
def execLi (l : Nat) (w : BitVec 64) (s : State) : Res :=
  eff (coreRow l w (wMajor w == 4 && wFunc w == 0) (fun d c =>
    done d (wrS (wRD w) (BitVec.ofInt 64 (signExt 47 (fld w 0 47))) c))) s

/-- LIH: bits [63:48] of d ← imm47[15:0]. -/
def execLih (l : Nat) (w : BitVec 64) (s : State) : Res :=
  eff (coreRow l w (wMajor w == 4 && wFunc w == 1) (fun d c =>
    let low := (rdS c (wRD w)).toNat % 2 ^ 48
    done d (wrS (wRD w) (BitVec.ofNat 64 (low + fld w 0 16 * 2 ^ 48)) c))) s

/-! ### Branches (06 R200) -/

/-- Jump to a word, or BR_TARGET outside the segment's code. -/
def jumpTo (d : Dev) (c : Core) (t : Int) : CRes :=
  if t < 0 ∨ ((coreCode d c).length : Int) ≤ t then .fault 0x101 (wrapBits 64 t) d
  else .ok d { c with pc := t.toNat }

def branchHolds (f : Nat) (a b : BitVec 64) : Bool :=
  match f with
  | 0 => true
  | 1 => a == b
  | 2 => a != b
  | 3 => a.slt b
  | 4 => !a.slt b
  | 5 => a.ult b
  | _ => !a.ult b

/-- CONDITIONAL_BRANCH: B to BGEU. -/
def execConditionalBranch (l : Nat) (w : BitVec 64) (s : State) : Res :=
  eff (coreRow l w (wMajor w == 8 && decide (wFunc w ≤ 6)) (fun d c =>
    if branchHolds (wFunc w) (rdS c (wRA w)) (rdS c (wRB w)) then jumpTo d c (c.pc + wImm32 w) else done d c)) s

/-- Write the return word, then jump; a target outside the code changes nothing. -/
def linkJump (rd : Nat) (t : Int) (d : Dev) (c : Core) : CRes :=
  match jumpTo d c t with
  | .ok d' c' => .ok d' (wrS rd (BitVec.ofNat 64 (c.pc + 1)) c')
  | r => r

/-- CALL. -/
def execCall (l : Nat) (w : BitVec 64) (s : State) : Res :=
  eff (coreRow l w (wMajor w == 8 && wFunc w == 8) (fun d c => linkJump (wRD w) (c.pc + wImm32 w) d c)) s

/-- JR. -/
def execJr (l : Nat) (w : BitVec 64) (s : State) : Res :=
  eff (coreRow l w (wMajor w == 8 && wFunc w == 9) (fun d c => jumpTo d c (rdS c (wRA w)).toNat)) s

/-- CALLR. -/
def execCallr (l : Nat) (w : BitVec 64) (s : State) : Res :=
  eff (coreRow l w (wMajor w == 8 && wFunc w == 10) (fun d c =>
    linkJump (wRD w) (rdS c (wRA w)).toNat d c)) s

/-! ### Core-memory loads and stores (06 R201) -/

/-- Effective address s[RA] + sext(IMM32). -/
def cmAddr (c : Core) (w : BitVec 64) : BitVec 64 := rdS c (wRA w) + BitVec.ofInt 64 (wImm32 w)

/-- Bytes of a load or store function. -/
def cmBytes (f : Nat) : Nat :=
  match f with
  | 0 | 1 | 8 => 1
  | 2 | 3 | 9 => 2
  | 4 | 5 | 10 => 4
  | _ => 8

/-- CORE_MEMORY_LOAD. -/
def execCoreMemoryLoad (l : Nat) (w : BitVec 64) (s : State) : Res :=
  eff (coreRow l w (wMajor w == 0x10 && decide (wFunc w ≤ 6)) (fun d c =>
    let n := cmBytes (wFunc w)
    let a := cmAddr c w
    withCm a n n d c
      (let v := ofLe (memRead c.mem a.toNat n)
       let x := if wFunc w % 2 = 1 then BitVec.ofInt 64 (signExt (8 * n) v) else BitVec.ofNat 64 v
       done d (wrS (wRD w) x c)))) s

/-- CORE_MEMORY_STORE. -/
def execCoreMemoryStore (l : Nat) (w : BitVec 64) (s : State) : Res :=
  eff (coreRow l w (wMajor w == 0x10 && decide (8 ≤ wFunc w) && decide (wFunc w ≤ 11)) (fun d c =>
    let n := cmBytes (wFunc w)
    let a := cmAddr c w
    withCm a n n d c
      (done d { c with mem := memWrite c.mem a.toNat (toLe n (rdS c (wRD w)).toNat) }))) s

/-! ### Windows and DMA (06 R193, R202) -/

/-- The layout of 06 Table 6-2 is kept. -/
def winDescOk (b : Bytes) : Bool :=
  let rank := fieldLe b 56 1
  let perm := fieldLe b 57 1
  decide (1 ≤ rank) && decide (rank ≤ 4) && decide (1 ≤ perm) && decide (perm ≤ 3) && allZero (slice b 58 6)
  && (List.range 4).all (fun i => let e := fieldLe b (16 + 4 * i) 4
      decide (1 ≤ e) && (decide (i < rank) || e == 1))
  && (List.range 3).all (fun i => decide (i + 1 < rank) || fieldLe b (32 + 8 * i) 8 == 0)

/-- The window that a descriptor installs. -/
def winOf (d : Dev) (b : Bytes) : Window :=
  let idx := fieldLe b 0 4
  { desc := b, tensor := idx, isConst := false, fmt := ((aGet d.tensors idx).getD {}).fmt
    base := signExt 64 (fieldLe b 8 8)
    ext := (List.range 4).map (fun i => fieldLe b (16 + 4 * i) 4)
    str := (List.range 3).map (fun i => signExt 64 (fieldLe b (32 + 8 * i) 8))
    rd := bitOf (fieldLe b 57 1) 0, wr := bitOf (fieldLe b 57 1) 1 }

/-- WSET (06 R193). -/
def execWset (l : Nat) (w : BitVec 64) (s : State) : Res :=
  eff (coreRow l w (wMajor w == 0x0C && wFunc w == 0) (fun d c =>
    let a := rdS c (wRA w)
    withCm a 64 64 d c
      (let b := memRead c.mem a.toNat 64
       let h := BitVec.ofNat 64 (fieldLe b 0 8)
       if !winDescOk b then .fault 0x105 a.toNat d
       else if !handleOk d 2 h then .fault 0x106 a.toNat d
       else
         let t := (aGet d.tensors (hIdx h)).getD {}
         if t.lost then .memory (hIdx h) a.toNat d
         else if bitOf (fieldLe b 57 1) 1 && tSecured t then .fault 0x107 a.toNat d
         else done d { c with w := aSet c.w (wW w) (winOf d b) }))) s

/-- WGET (06 R202). -/
def execWget (l : Nat) (w : BitVec 64) (s : State) : Res :=
  eff (coreRow l w (wMajor w == 0x0C && wFunc w == 1) (fun d c =>
    let a := rdS c (wRA w)
    withCm a 64 64 d c
      (done d { c with mem := memWrite c.mem a.toNat (match rdW c (wW w) with
        | some v => v.desc
        | none => zeros 64) }))) s

/-- WCLR. -/
def execWclr (l : Nat) (w : BitVec 64) (s : State) : Res :=
  eff (coreRow l w (wMajor w == 0x0C && wFunc w == 2) (fun d c => done d { c with w := aDel c.w (wW w) })) s

/-- Outstanding DMAs (06 Table 6-9, CSR_DMAOUT). -/
def dmaCount (c : Core) : Nat := (c.dmas.filter (fun m => !m.done)).length

/-- Window indices of a DMA. -/
def dmaIdx (c : Core) (w : BitVec 64) : List Int :=
  (List.range (rdS c (wRC w)).toNat).map (fun i => ((rdS c (wRB w)).toNat : Int) + i)

/-- Checks of a DMA at issue: core range, window, permission, bounds (06 R202, R212). A count that passes
core memory or the window's extent is found by its range before any element is listed. -/
def dmaCheck (d : Dev) (c : Core) (w : BitVec 64) (write : Bool) : Chk :=
  let n := (rdS c (wRC w)).toNat
  let size := fmtBytes (fmtCode (wFmt w))
  if n = 0 then none
  else
    match cmCheck (rdS c (wRA w)) (n * size) 1 with
    | some x => some x
    | none =>
      lowest [winPerm (rdW c (wW w)) write,
        match rdW c (wW w) with
        | some v => winBounds d c v (dmaIdx c w)
        | none => none]

/-- DMAIN: convert window elements into core memory (06 R202). The data moves at issue (log 14); uncorrectable data
leaves a fault owed to the first instruction that waits for it (06 R196). -/
def execDmain (l : Nat) (w : BitVec 64) (s : State) : Res :=
  eff (coreRow l w (wMajor w == 0x0C && wFunc w == 3) (fun d c =>
    guarded (dmaCheck d c w false) d
      (if 8 ≤ dmaCount c then .stall
       else
        let size := fmtBytes (fmtCode (wFmt w))
        let a := (rdS c (wRA w)).toNat
        let n := (rdS c (wRC w)).toNat
        match rdW c (wW w) with
        | none => done d c
        | some v =>
          if winBusy c v || cmBusy c a (n * size) then .stall
          else match cmPoison c a (n * size) with
            | some t => .memory t a d
            | none =>
              if n = 0 then done d c
              else
                let es := winIdx d c v (dmaIdx c w)
                let r := winReads v c es d
                let job : Dma := { isIn := true, core := a, len := n * size, seq := c.dmaSeq }
                match r.2 with
                | none =>
                  done r.1 { c with dmas := c.dmas ++ [{ job with poison := some v.tensor }], dmaSeq := c.dmaSeq + 1 }
                | some vals =>
                  let x := flSeq (vals.map (fromTensor d (coreItem d c) (optW w) v.tensor v.fmt (fmtCode (wFmt w))))
                  done r.1 { c with
                    mem := memWrite c.mem a (x.1.map (toLe size)).flatten
                    dmas := c.dmas ++ [{ job with flags := x.2 }]
                    dmaSeq := c.dmaSeq + 1 }))) s

/-- DMAOUT: convert core memory into window elements (06 R202). -/
def execDmaout (l : Nat) (w : BitVec 64) (s : State) : Res :=
  eff (coreRow l w (wMajor w == 0x0C && wFunc w == 4) (fun d c =>
    guarded (dmaCheck d c w true) d
      (if 8 ≤ dmaCount c then .stall
       else
        let size := fmtBytes (fmtCode (wFmt w))
        let a := (rdS c (wRA w)).toNat
        let n := (rdS c (wRC w)).toNat
        match rdW c (wW w) with
        | none => done d c
        | some v =>
          if winBusy c v || cmBusy c a (n * size) then .stall
          else match cmPoison c a (n * size) with
            | some t => .memory t a d
            | none =>
              if n = 0 then done d c
              else
                let es := winIdx d c v (dmaIdx c w)
                let src := fmtCode (wFmt w)
                let vals := (List.range n).map (fun i => ofLe (memRead c.mem (a + i * size) size))
                let it := coreItem d c
                let x := flSeq ((es.zip vals).map (fun e =>
                  toTensor d it (optW w) v.tensor (roleOf d v.tensor) src v.fmt e.1 e.2))
                let r := winWrites v (es.zip x.1) d
                let d1 := recordScaled (optW w) c v src vals x.2 (afterWrite r.2 v l c r.1)
                done d1 { c with
                  dmas := c.dmas ++ [{ isIn := false, core := a, len := n * size, seq := c.dmaSeq, flags := x.2 }]
                  dmaSeq := c.dmaSeq + 1 }))) s

/-- DMA_COMPLETE: the oldest outstanding DMA completes, and its flags are raised (06 R202, 04 R141). One that owes a
memory fault stays until an instruction takes the fault (06 R196). -/
def execDmaComplete (l : Nat) (s : State) : Res :=
  eff (fun d => match coreRuns d l with
    | none => d
    | some c =>
      match c.dmas.find? (fun m => !m.done) with
      | none => d
      | some m =>
        let c1 := raise m.flags { c with dmas := (c.dmas.map (fun x =>
          if x.seq = m.seq then { x with done := true } else x)).filter (fun x => !x.done || x.poison.isSome) }
        setCore l c1 d) s

/-! ### Converting scalar loads and stores, CVT (06 R203, R204) -/

/-- The register form of a scalar access: FP64 for a floating tensor, INT64 for an integer tensor. -/
def scalarCode (fmt : Nat) : Nat := if (fpOf fmt).isSome then 1 else 18

/-- LDW. -/
def execLdw (l : Nat) (w : BitVec 64) (s : State) : Res :=
  eff (coreRow l w (wMajor w == 0x11 && wFunc w == 0) (fun d c =>
    let j : Int := (rdS c (wRB w)).toNat
    match rdW c (wW w) with
    | none => .fault 0x104 0 d
    | some v =>
      guarded (lowest [winPerm (some v) false, winBound d c v j]) d
        (if winBusy c v then .stall
         else match winElem d c v j with
          | none => .fault 0x108 j.toNat d
          | some e =>
            let r := winRead v c e d
            match r.2 with
            | none => .memory v.tensor j.toNat r.1
            | some b =>
              let x := fromTensor d (coreItem d c) (optW w) v.tensor v.fmt (scalarCode v.fmt) b
              done r.1 (raise x.2 (wrS (wRD w) (BitVec.ofNat 64 x.1) c))))) s

/-- STW. -/
def execStw (l : Nat) (w : BitVec 64) (s : State) : Res :=
  eff (coreRow l w (wMajor w == 0x11 && wFunc w == 1) (fun d c =>
    let j : Int := (rdS c (wRB w)).toNat
    match rdW c (wW w) with
    | none => .fault 0x104 0 d
    | some v =>
      guarded (lowest [winPerm (some v) true, winBound d c v j]) d
        (if winBusy c v then .stall
         else
          let r := winStore l d c v (optW w) (scalarCode v.fmt)
            ((winIdx d c v [j]).map (fun e => (e, (rdS c (wRD w)).toNat)))
          done r.1 r.2))) s

/-- The options of a CVT: its SR key and its scale come from window W (06 R204). -/
def cvtWindow (c : Core) (w : BitVec 64) : Chk :=
  if (wGrad w || wScale w) && (rdW c (wW w)).isNone then some (0x104, 0) else none

/-- Convert one value under CVT; `e` is the element of the SR key. -/
def cvtOne (d : Dev) (c : Core) (w : BitVec 64) (e bits : Nat) : Fl Nat :=
  let src := fmtCode (fld w 32 4)
  let dst := fmtCode (wFmt w)
  let it := coreItem d c
  let idx := ((rdW c (wW w)).map (·.tensor)).getD 0
  let k : Int := if wScale w && isFp8 dst then scaleExpFor d it idx else 0
  let r : Rnd := if wGrad w && bothFloat src dst then .sr (srValue it.step idx e (wSite w)) else .rn
  cvtScaled src dst k r (wRz w) (wNonsat w) bits

/-- The values that a scaling CVT records (06 R204, 04 R146). -/
def cvtRecord (d : Dev) (c : Core) (w : BitVec 64) (vals : List Nat) (fl : BitVec 4) : Dev :=
  if wScale w && isFp8 (fmtCode (wFmt w)) && !vals.isEmpty then
    recordAmax (coreItem d c) (((rdW c (wW w)).map (·.tensor)).getD 0)
      (amaxOf (vals.map (absFp64 (fmtCode (fld w 32 4))))) (fl.getLsbD 0) d
  else d

/-- The element that the SR key of a CVT takes, in the vector form for every lane: the one that window index s[RB] selects
(06 R204, 04 R130; log 49). -/
def cvtKey (d : Dev) (c : Core) (w : BitVec 64) : Option Nat :=
  (rdW c (wW w)).bind (fun v => winElem d c v (rdS c (wRB w)).toNat)

/-- A CVT with GRAD checks its key's window index, where it converts anything. -/
def cvtBound (d : Dev) (c : Core) (w : BitVec 64) (any : Bool) : Chk :=
  if wGrad w && any && (cvtKey d c w).isNone then some (0x108, (rdS c (wRB w)).toNat) else none

/-- VEC_VL: VL exceeds VLMAX of a tested format (07 R221). -/
def vlCheck (c : Core) (fmts : List Nat) : Chk := if fmts.any (fun f => decide (vlMax f < c.vl)) then some (0x301, 0) else none

/-- CVT: scalar and vector forms (06 R204). -/
def execCvt (l : Nat) (w : BitVec 64) (s : State) : Res :=
  eff (coreRow l w (wMajor w == 0x20 && wFunc w == 0) (fun d c =>
    let srcI := fld w 32 4
    let src := fmtCode srcI
    let dst := fmtCode (wFmt w)
    let e := (cvtKey d c w).getD 0
    if fld w 36 1 = 0 then
      guarded (lowest [cvtWindow c w, cvtBound d c w true]) d
        (let bits := (rdS c (wRA w)).toNat % 2 ^ (8 * fmtBytes src)
         let x := cvtOne d c w e bits
         let v := if (fpOf dst).isSome then BitVec.ofNat 64 x.1 else BitVec.ofInt 64 (signExt (8 * fmtBytes dst) x.1)
         done (cvtRecord d c w [bits] x.2) (raise x.2 (wrS (wRD w) v c)))
    else
      let ks := actives c (wP w) (min (vlMax srcI) (vlMax (wFmt w)))
      guarded (lowest [vlCheck c [srcI, wFmt w], cvtWindow c w, cvtBound d c w (!ks.isEmpty)]) d
        (let vals := ks.map (vElem (rdV c (wRA w)) (fmtW srcI))
         let xs := flSeq (vals.map (cvtOne d c w e))
         done (cvtRecord d c w vals xs.2)
           (raise xs.2 (wrV (wRD w) (vUpdate (rdV c (wRD w)) (fmtW (wFmt w)) (ks.zip xs.1)) c))))) s

/-! ### Flags and CSRs (06 R208, R210; 07 R241; 08 Table 8-10) -/

/-- FRD. -/
def execFrd (l : Nat) (w : BitVec 64) (s : State) : Res :=
  eff (coreRow l w (wMajor w == 0x24 && wFunc w == 0) (fun d c =>
    done d (wrS (wRD w) (BitVec.ofNat 64 c.flags.toNat) c))) s

/-- FCLR: clears CSR_FLAGS only; SEG_FLAGS stays (04 R142). -/
def execFclr (l : Nat) (w : BitVec 64) (s : State) : Res :=
  eff (coreRow l w (wMajor w == 0x24 && wFunc w == 1) (fun d c =>
    done d { c with flags := c.flags &&& ~~~(BitVec.ofNat 4 (fld w 0 4)) })) s

/-- Open groups as a mask (06 Table 6-9, CSR_ACCOPEN). -/
def openGroups (c : Core) : Nat := bitMask (c.tiles.map (·.group)).eraseDups

/-- Value of a CSR (06 Table 6-9, 07 Table 7-4, 08 Table 8-10); an unassigned one reads 0. -/
def csrRead (d : Dev) (c : Core) (n : Nat) : Nat :=
  match n with
  | 0x000 => c.flags.toNat
  | 0x010 => c.inst
  | 0x011 => c.insts
  | 0x012 => c.seg
  | 0x013 => c.step
  | 0x014 => c.bound
  | 0x015 => (Config.cycleCount d.free).toNat
  | 0x016 => openGroups c
  | 0x017 => dmaCount c
  | 0x100 => c.vl
  | 0x101 => c.vfmt
  | 0x102 => 0x100
  | 0x103 => c.vff.toNat
  | 0x180 => b2n (c.slvJob.isSome) + 2 * b2n (c.asmJob.isSome)
  | 0x181 => c.slvSummary.toNat
  | _ => 0

/-- CSRR. -/
def execCsrr (l : Nat) (w : BitVec 64) (s : State) : Res :=
  eff (coreRow l w (wMajor w == 0x24 && wFunc w == 2) (fun d c =>
    let n := fld w 0 12
    if 0x700 ≤ n ∧ n ≤ 0x7FF then .fault 0x109 n d
    else
      let c1 := if n = 0x15 then { c with cycle := (Config.cycleCount d.free).toNat } else c
      done (if n = 0x15 then takeFree 1 d else d) (wrS (wRD w) (BitVec.ofNat 64 (csrRead d c n)) c1))) s

/-- The assigned CSRs that a program may not write: RO ones, the vector and solver CSRs included. -/
def csrReadOnly (n : Nat) : Bool :=
  (decide (0x010 ≤ n) && decide (n ≤ 0x017)) || (decide (0x100 ≤ n) && decide (n ≤ 0x103))
  || n == 0x180 || n == 0x181

/-- CSRW. -/
def execCsrw (l : Nat) (w : BitVec 64) (s : State) : Res :=
  eff (coreRow l w (wMajor w == 0x24 && wFunc w == 3) (fun d c =>
    let n := fld w 0 12
    if (0x700 ≤ n ∧ n ≤ 0x7FF) ∨ csrReadOnly n = true then .fault 0x109 n d
    else if n = 0 then done d { c with flags := c.flags &&& ~~~(BitVec.ofNat 4 ((rdS c (wRA w)).toNat % 16)) }
    else done d c)) s

/-! ### Synchronisation (06 R209) -/

/-- NOP. -/
def execNop (l : Nat) (w : BitVec 64) (s : State) : Res :=
  eff (coreRow l w (wMajor w == 0x28 && wFunc w == 0) (fun d c => done d c)) s

/-- FENCE: earlier tensor writes are visible; every write of this model is, once it is made. -/
def execFence (l : Nat) (w : BitVec 64) (s : State) : Res :=
  eff (coreRow l w (wMajor w == 0x28 && wFunc w == 1) (fun d c =>
    if c.outJobs.isEmpty && c.dmas.all (fun m => m.isIn || m.done) then done d c else .stall)) s

/-- The tensor of a DMA that owes a fault to a wait for all but the last `n` DMAs (06 R196). -/
def dmaOwes (c : Core) (n : Nat) : Option Nat :=
  (c.dmas.find? (fun m => m.poison.isSome && decide (n + m.seq + 1 ≤ c.dmaSeq))).bind (·.poison)

/-- WAITD. -/
def execWaitd (l : Nat) (w : BitVec 64) (s : State) : Res :=
  eff (coreRow l w (wMajor w == 0x28 && wFunc w == 2) (fun d c =>
    let n := fld w 0 4
    match dmaOwes c n with
    | some t => .memory t 0 d
    | none => if dmaCount c ≤ n then done d c else .stall)) s

/-- WAITE. -/
def execWaite (l : Nat) (w : BitVec 64) (s : State) : Res :=
  eff (coreRow l w (wMajor w == 0x28 && wFunc w == 3) (fun d c =>
    if c.outJobs.isEmpty then done d c else .stall)) s

/-- DMAs, the engine, and the solver unit with the assembly stage are idle. -/
def allIdle (c : Core) : Bool := dmaCount c == 0 && c.outJobs.isEmpty && c.slvJob.isNone && c.asmJob.isNone

/-- WAITA. -/
def execWaita (l : Nat) (w : BitVec 64) (s : State) : Res :=
  eff (coreRow l w (wMajor w == 0x28 && wFunc w == 4) (fun d c =>
    match dmaOwes c 0 with
    | some t => .memory t 0 d
    | none => if allIdle c then done d c else .stall)) s

/-- The instance after its segment ended: its next segment, its carry, and the tide from which it may go on (06 R185). -/
def instEnd (d : Dev) (c : Core) (nxt : Nat) (i : Inst) : Inst :=
  { i with next := nxt, fresh := d.tide.count + 1
           carry := (List.range 8).map (fun k => rdS c (24 + k)) }

/-- SEGEND: waits as WAITA, takes a deferred fault, checks the next segment, and ends the segment (06 R209). -/
def execSegend (l : Nat) (w : BitVec 64) (s : State) : Res :=
  eff (coreRow l w (wMajor w == 0x28 && wFunc w == 5) (fun d c =>
    match dmaOwes c 0 with
    | some t => .memory t 0 d
    | none =>
      if !allIdle c then .stall
      else match c.slvPoison with
        | some t => .memory t c.slvFaultAddr.toNat d
        | none =>
          let nxt := (rdS c (wRA w)).toNat % 65536
          let n := ((aGet d.programs c.prog).getD {}).segs.length
          guarded (lowest [
            if nxt ≠ 0xFFFF ∧ n ≤ nxt then some (0x10A, nxt) else none,
            if c.tiles.isEmpty then none else some (0x206, 0),
            c.slvFault.map (fun f => (f, c.slvFaultAddr.toNat))]) d
            (.ok { d with items := aMod d.items c.item (fun i =>
                { i with insts := aMod i.insts c.inst (instEnd d c nxt) }) } (coreStop c)))) s

/-! ### Segment events (06 R186, R214; 05 R182) -/

/-- The window of the argument tensor and of the constant section (06 Table 6-1). -/
def startWindows (d : Dev) (it : Item) (prog : Nat) : Assoc Window :=
  let p := (aGet d.programs prog).getD {}
  let w0 : Assoc Window :=
    if it.arg0 = 0 then []
    else
      let t := (aGet d.tensors (hIdx it.arg0)).getD {}
      let n := tElems t
      [(0, { desc := toLe 8 it.arg0.toNat ++ zeros 8 ++ toLe 4 n ++ toLe 4 1 ++ toLe 4 1 ++ toLe 4 1 ++ zeros 24
                ++ [1, 1] ++ zeros 6
             tensor := hIdx it.arg0, fmt := t.fmt, base := 0, ext := [n, 1, 1, 1], str := [0, 0, 0], rd := true })]
  let w1 : Assoc Window :=
    if p.const.isEmpty then []
    else [(1, { desc := zeros 16 ++ toLe 4 p.const.length ++ toLe 4 1 ++ toLe 4 1 ++ toLe 4 1 ++ zeros 24
                  ++ [1, 1] ++ zeros 6
                isConst := true, fmt := 16, base := 0, ext := [p.const.length, 1, 1, 1], str := [0, 0, 0], rd := true })]
  w0 ++ w1

/-- The core state at the start of a segment (06 R186, Table 6-1). -/
def startCore (d : Dev) (c : Core) (it : Item) (inst seg : Nat) : Core :=
  let prog := hIdx it.object
  let i := (aGet it.insts inst).getD {}
  let insts := it.arg1.toNat % 2 ^ 32
  let bound := ((((aGet d.programs prog).getD {}).segs[seg]?).getD {}).bound
  let carry := (List.range 8).filterMap (fun k =>
    let v := (i.carry[k]?).getD 0
    if v = 0 then none else some (24 + k, v))
  let args := ([(1, inst), (2, insts), (3, seg), (4, it.step)].filter (fun x => decide (x.2 ≠ 0))).map
    (fun x => (x.1, BitVec.ofNat 64 x.2))
  { c with
    item := it.order, run := true, inst := inst, insts := insts, seg := seg, step := it.step, prog := prog
    bound := bound, cycle := 0, pc := 0, s := args ++ carry, v := [], p := [], w := startWindows d it prog
    mem := [], acc := [], tiles := [], flags := 0, segFlags := 0, outJobs := [], dmas := [], dmaSeq := 0
    vl := 0, vfmt := 0, vff := 0, rowGroups := 0, idle := 0
    slvJob := none, asmJob := none, slvFault := none, slvSummary := 0, slvStatus := [], slvPrev := none
    slvFactors := [], slvWork := (0, 0, []), slvPoison := none }

/-- SEGMENT_START: the next segment planned on the core for this tide starts (06 R186). -/
def execSegmentStart (l : Nat) (s : State) : Res :=
  eff (fun d =>
    match aGet d.cores l with
    | none => d
    | some c =>
      if clocksRun d && d.tide.phase == .work && d.tide.run && !c.run && !c.pastFall && !d.units.fills.any (fun f => f.l == l) then
        match c.plan with
        | [] => d
        | (o, i, g) :: rest =>
          match aGet d.items o with
          | none => setCore l { c with plan := rest } d
          | some it =>
            if it.stage = .admitted then setCore l (startCore d { c with plan := rest } it i g) d
            else setCore l { c with plan := rest } d
      else d) s

/-- An overrun is counted (02 R43, R53). -/
def countOverrun (d : Dev) : Dev := { d with tide := { d.tide with overruns := satInc 0xFFFF d.tide.overruns } }

/-- A segment stops without SEGEND, an overrun whatever its cause, and fails with that cause (02 R43, R48, 06 R214). -/
def stopSegment (l cause : Nat) (d : Dev) (c : Core) : Dev :=
  let r := stopInFlight l d c
  countOverrun (failItem c.item 0x11 (cause * 65536 + c.seg) c.inst (clusterOf l) (setCore l (coreStop r.2) r.1))

/-- SEGMENT_BOUND_REACHED: OVERRUN at the declared bound (06 R214). -/
def execSegmentBoundReached (l : Nat) (s : State) : Res :=
  eff (fun d => match coreRuns d l with
    | some c => stopSegment l 1 d c
    | none => d) s

/-- ENGINE_RAMP_DOWN: after 256 idle cycles the engine disables its row groups (05 R182). -/
def execEngineRampDown (l : Nat) (s : State) : Res :=
  eff (fun d => match coreRuns d l with
    | some c => setCore l { c with rowGroups := 0, idle := 256 } d
    | none => d) s

end Sys2Proof.Machine
end

