-- ==== Sys2Proof/Machine/CoreVector.lean ====
section
/-! DEFINITION. The vector extension (07): length and predicates, arithmetic, reductions, permutations, window accesses
and conversions, and the contiguous vector loads and stores (06 R203). Every instruction reads its sources as they stood
before it issued (07 R238). -/
namespace Sys2Proof.Machine
open Sys2Proof

/-! ### Length and predicates (07 R220 to R223) -/

/-- The grant: min(r, VLMAX). -/
def grant (w : BitVec 64) (r : Nat) (c : Core) : Core :=
  let n := min r (vlMax (vFmt w))
  wrS (wRD w) (BitVec.ofNat 64 n) { c with vl := n, vfmt := vFmt w }

/-- VGRANT. -/
def execVgrant (l : Nat) (w : BitVec 64) (s : State) : Res :=
  eff (coreRow l w (wMajor w == 0x30 && wFunc w == 0) (fun d c => done d (grant w (rdS c (wRA w)).toNat c))) s

/-- VGRANTI: the request is IMM10, unsigned. -/
def execVgranti (l : Nat) (w : BitVec 64) (s : State) : Res :=
  eff (coreRow l w (wMajor w == 0x30 && wFunc w == 1) (fun d c => done d (grant w (vImm10 w) c))) s

/-- VGRANTRD. -/
def execVgrantrd (l : Nat) (w : BitVec 64) (s : State) : Res :=
  eff (coreRow l w (wMajor w == 0x30 && wFunc w == 2) (fun d c => done d (wrS (wRD w) (BitVec.ofNat 64 c.vl) c))) s

/-- PAND, POR, PANDN, PXOR, PNOT act on all 256 bits. -/
def predOp (f : Nat) (a b : BitVec 256) : BitVec 256 :=
  match f with
  | 8 => a &&& b
  | 9 => a ||| b
  | 10 => a &&& ~~~b
  | 11 => a ^^^ b
  | _ => ~~~a

/-- The second predicate of a predicate function: with BS = 1 the scalar s[VB], whose 64 bits are bits 0 to 63 (07 R224;
log 49). -/
def predB (c : Core) (w : BitVec 64) : BitVec 256 :=
  if vBS w then BitVec.ofNat 256 (rdS c (wRB w)).toNat else rdP c (wRB w % 16)

/-- PREDICATE_LOGIC. -/
def execPredicateLogic (l : Nat) (w : BitVec 64) (s : State) : Res :=
  eff (coreRow l w (wMajor w == 0x30 && decide (8 ≤ wFunc w) && decide (wFunc w ≤ 12)) (fun d c =>
    done d (wrP (wRD w % 16) (predOp (wFunc w) (rdP c (wRA w % 16)) (predB c w)) c))) s

/-- A predicate from the set of its true bits. -/
def predOf (f : Nat → Bool) : BitVec 256 := BitVec.ofNat 256 (bitMask ((List.range 256).filter f))

/-- PWHILE. -/
def execPwhile (l : Nat) (w : BitVec 64) (s : State) : Res :=
  eff (coreRow l w (wMajor w == 0x30 && wFunc w == 13) (fun d c =>
    let a := (rdS c (wRA w)).toNat
    let b := (rdS c (wRB w)).toNat
    done d (wrP (wRD w % 16) (predOf (fun i => decide (i < vlMax (vFmt w)) && decide (a + i < b))) c))) s

/-- PCOUNT. -/
def execPcount (l : Nat) (w : BitVec 64) (s : State) : Res :=
  eff (coreRow l w (wMajor w == 0x30 && wFunc w == 16) (fun d c =>
    done d (wrS (wRD w) (BitVec.ofNat 64 (((List.range c.vl).filter (fun i => (rdP c (wRA w % 16)).getLsbD i)).length)) c))) s

/-- PFIRST. -/
def execPfirst (l : Nat) (w : BitVec 64) (s : State) : Res :=
  eff (coreRow l w (wMajor w == 0x30 && wFunc w == 17) (fun d c =>
    done d (wrS (wRD w)
      (BitVec.ofNat 64 (((List.range c.vl).find? (fun i => (rdP c (wRA w % 16)).getLsbD i)).getD c.vl)) c))) s

/-! ### Arithmetic (07 R226, R227) -/

/-- The floating format of an element format index. -/
def vFp (i : Nat) : FpFmt := (fpOf (fmtCode i)).getD fp64

/-- The scalar operand of BS = 1 in a floating format: FP64 converted once (07 R226). -/
def bsFloat (c : Core) (w : BitVec 64) : Fl Nat :=
  cvtFF fp64 (vFp (vFmt w)) .rn true (rdS c (wRB w)).toNat

/-- Functions that take no VB operand. -/
def vfUnary (f : Nat) : Bool := f == 4 || f == 9 || f == 10

def vfOp (f : Nat) (g : FpFmt) (a b z : Nat) : Fl Nat :=
  match f with
  | 0 => fpAdd g a b
  | 1 => fpSub g a b
  | 2 => fpMul g a b
  | 3 => fpDiv g a b
  | 4 => fpSqrt g a
  | 5 => fpMin g a b
  | 6 => fpMax g a b
  | 7 => fpFma g a b z
  | 9 => (fpAbs g a, 0)
  | _ => (fpNeg g a, 0)

/-- VECTOR_FLOAT_OP. -/
def execVectorFloatOp (l : Nat) (w : BitVec 64) (s : State) : Res :=
  eff (coreRow l w (wMajor w == 0x31 && (decide (wFunc w ≤ 7) || wFunc w == 9 || wFunc w == 10)) (fun d c =>
    let i := vFmt w
    let wd := fmtW i
    let ks := actives c (vP w) (vlMax i)
    guarded (vlCheck c [i]) d
      (let sb := bsFloat c w
       let xs := flSeq (ks.map (fun k => vfOp (wFunc w) (vFp i) (vElem (rdV c (wRA w)) wd k)
         (if vBS w then sb.1 else vElem (rdV c (wRB w)) wd k) (vElem (rdV c (wRC w)) wd k)))
       let fl := xs.2 ||| (if vBS w && !ks.isEmpty then sb.2 else 0)
       done d (raise fl (wrV (wRD w) (vUpdate (rdV c (wRD w)) wd (ks.zip xs.1)) c))))) s

/-- Integer functions modulo 2^w (07 R227). -/
def viOp (f wd a b : Nat) : Nat :=
  let m := 2 ^ wd
  let sh := b % wd
  match f with
  | 0 => (a + b) % m
  | 1 => (a + m - b % m) % m
  | 2 => a * b % m
  | 8 => a &&& b
  | 9 => a ||| b
  | 10 => a ^^^ b
  | 11 => a * 2 ^ sh % m
  | 12 => a / 2 ^ sh
  | 13 => wrapBits wd (signExt wd a / 2 ^ sh)
  | 19 => if signExt wd a < signExt wd b then a else b
  | 20 => if signExt wd a < signExt wd b then b else a
  | 21 => min a b
  | _ => max a b

/-- VECTOR_INTEGER_OP. -/
def execVectorIntegerOp (l : Nat) (w : BitVec 64) (s : State) : Res :=
  eff (coreRow l w (wMajor w == 0x32) (fun d c =>
    let i := vFmt w
    let wd := fmtW i
    let ks := actives c (vP w) (vlMax i)
    guarded (vlCheck c [i]) d
      (let sb := (rdS c (wRB w)).toNat % 2 ^ wd
       let xs := ks.map (fun k => viOp (wFunc w) wd (vElem (rdV c (wRA w)) wd k)
         (if vBS w then sb else vElem (rdV c (wRB w)) wd k))
       done d (wrV (wRD w) (vUpdate (rdV c (wRD w)) wd (ks.zip xs)) c)))) s

/-- Integer comparison (07 R227). -/
def viCmp (op wd a b : Nat) : Bool :=
  let x := signExt wd a
  let y := signExt wd b
  match op with
  | 0 => a == b
  | 1 => a != b
  | 2 => decide (x < y)
  | 3 => decide (x ≤ y)
  | 4 => decide (y < x)
  | 5 => decide (y ≤ x)
  | 6 => decide (a < b)
  | _ => decide (b ≤ a)

/-- VECTOR_COMPARE: the result of each active element, 0 elsewhere (07 R223). -/
def execVectorCompare (l : Nat) (w : BitVec 64) (s : State) : Res :=
  eff (coreRow l w (wMajor w == 0x33) (fun d c =>
    let i := vFmt w
    let wd := fmtW i
    let ks := actives c (vP w) (vlMax i)
    guarded (vlCheck c [i]) d
      (let isF := (fpOf (fmtCode i)).isSome
       let sb := bsFloat c w
       let si := (rdS c (wRB w)).toNat % 2 ^ wd
       let one := fun k =>
         let a := vElem (rdV c (wRA w)) wd k
         let b := vElem (rdV c (wRB w)) wd k
         if isF then fpCmp (vFp i) (wFunc w) a (if vBS w then sb.1 else b)
         else (viCmp (wFunc w) wd a (if vBS w then si else b), (0 : BitVec 4))
       let xs := flSeq (ks.map one)
       let fl := xs.2 ||| (if isF && vBS w && !ks.isEmpty then sb.2 else 0)
       let on := ((ks.zip xs.1).filter (·.2)).map (·.1)
       done d (raise fl (wrP (wRD w % 16) (BitVec.ofNat 256 (bitMask on)) c))))) s

/-! ### Approximations (07 R236): the exact function rounded toward zero, by rational bounds -/

/-- Floor of e^(m × 2^e) × 2^k for a positive argument, by the Taylor series with `n` terms over numerator and
denominator scaled by 2^g; the sum is below the exact value by less than the bound that the caller allows for. -/
def expSum (x g : Nat) : Nat → Nat → Nat → Nat → Nat
  | 0, _, _, acc => acc
  | n + 1, i, term, acc =>
    let t := term * x / 2 ^ g / (i + 1)
    expSum x g n (i + 1) t (acc + t)

/-- 2^g × ln 2, rounded down within 2^-200 relative, from the series of atanh(1/3): ln 2 = 2 Σ 1/((2i+1) 3^(2i+1)). -/
def ln2Sum (g : Nat) : Nat → Nat → Nat → Nat → Nat
  | 0, _, _, acc => acc
  | n + 1, i, p, acc => ln2Sum g n (i + 1) (p / 9) (acc + 2 * (p / (2 * i + 1)))

/-- Working precision of the exact evaluations: far below half of any output spacing that can arise. -/
def apxG : Nat := 300
def ln2Fix : Nat := ln2Sum apxG 110 0 (2 ^ apxG / 3) 0

/-- Bounds of eˣ × 2^apxG-scaled mantissa: with x = q ln 2 + r, 0 ≤ r < ln 2, answers q and lower and upper bounds of
e^r × 2^apxG. -/
def expBounds (s : Bool) (m : Nat) (e : Int) : Int × Nat × Nat :=
  let X : Nat := if 0 ≤ e + apxG then m * 2 ^ (e + apxG).toNat else m / 2 ^ (-(e + apxG)).toNat
  let q : Nat := X / ln2Fix
  if s then
    let q' := q + 1
    let r := q' * ln2Fix - X
    let lo := expSum r apxG 90 0 (2 ^ apxG) (2 ^ apxG)
    (-(q' : Int), lo - 2 ^ 40, lo + 2 ^ 40)
  else
    let r := X - q * ln2Fix
    let lo := expSum r apxG 90 0 (2 ^ apxG) (2 ^ apxG)
    ((q : Int), lo - 2 ^ 40, lo + 2 ^ 40)

/-- 2^g × atanh(z / 2^g) by its series. -/
def atanhSum (z g : Nat) : Nat → Nat → Nat → Nat → Nat
  | 0, _, _, acc => acc
  | n + 1, i, p, acc => atanhSum z g n (i + 1) (p * z / 2 ^ g * z / 2 ^ g) (acc + p / (2 * i + 1))

/-- Bounds of ln(m × 2^e) × 2^apxG as signed numbers: m normalised into [1/√2, √2) so that ln y = 2 atanh((y-1)/(y+1)). -/
def lnBounds (m : Nat) (e : Int) : Int × Int :=
  let t := m.log2
  let up := decide (2 ^ (2 * t + 1) ≤ m * m)
  let k : Int := (t : Int) + e + (if up then 1 else 0)
  let den := 2 ^ (t + (if up then 1 else 0))
  let z := (if den ≤ m then m - den else den - m) * 2 ^ apxG / (m + den)
  let a := 2 * atanhSum z apxG 130 0 z 0
  let v : Int := (if den ≤ m then (a : Int) else -(a : Int)) + k * ln2Fix
  (v - 2 ^ 40, v + 2 ^ 40)

/-- Round a magnitude given between lo × 2^e and hi × 2^e toward zero to p significant bits; `exact` where lo = hi is the
value. The bounds decide every rounding whose exact value is not itself representable, which these functions guarantee
for all inputs handled here. -/
def apxPack (f : FpFmt) (p : Nat) (s : Bool) (lo : Nat) (e : Int) (exact : Bool) : Fl Nat :=
  let top := lo.log2
  let m := if p ≤ top + 1 then lo / 2 ^ (top + 1 - p) else lo * 2 ^ (p - (top + 1))
  let e' : Int := e + (top : Int) + 1 - p
  let lost := !exact || (p ≤ top + 1 && lo % 2 ^ (top + 1 - p) != 0)
  let r := roundPack f .rz true s m e'
  let tiny := decide ((m.log2 : Int) + e' < f.emin)
  if (r.2 &&& flOF) != 0 then r
  else if lost || r.2 != 0 then (r.1, if tiny then flUF ||| flNX else flNX)
  else r

/-- Significant bits of the approximations (07 R236). -/
def apxBits (f : FpFmt) : Nat := if f = fp16 then 11 else if f = bf16 then 8 else 24

/-- VRCPA of a finite nonzero value. -/
def rcpApx (f : FpFmt) (v : Fv) : Fl Nat :=
  let sh := v.m.log2 + 64
  let q := 2 ^ sh / v.m
  apxPack f (apxBits f) v.sign q (-v.e - sh) (2 ^ sh % v.m == 0)

/-- VRSQA of a finite positive value. -/
def rsqApx (f : FpFmt) (v : Fv) : Fl Nat :=
  let odd := decide (v.e % 2 ≠ 0)
  let m := if odd then 2 * v.m else v.m
  let e := if odd then v.e - 1 else v.e
  let sh := 2 * (m.log2 / 2 + 64)
  let n := 2 ^ sh / m
  let r := isqrtBits (n.log2 / 2 + 1) 0 n
  apxPack f (apxBits f) false r (-(e / 2) - (sh / 2 : Nat)) (2 ^ sh % m == 0 && r * r == n)

/-- VEXPA of a finite nonzero value. -/
def expApx (f : FpFmt) (v : Fv) : Fl Nat :=
  if (v.m.log2 : Int) + v.e ≥ 11 then
    if v.sign then (0, flUF ||| flNX) else (f.infMag, flOF ||| flNX)
  else if (v.m.log2 : Int) + v.e < -100 then
    -- e^x is 1 + x + …: just above 1 for a positive x, just below it for a negative one
    if v.sign then (apxPack f (apxBits f) false (2 ^ 64 - 1) (-64) false) else (f.one, flNX)
  else
    let b := expBounds v.sign v.m v.e
    apxPack f (apxBits f) false b.2.1 (b.1 - apxG) false

/-- VLOGA of a finite positive value other than 1. -/
def lnApx (f : FpFmt) (v : Fv) : Fl Nat :=
  let b := lnBounds v.m v.e
  if b.1 < 0 ∧ b.2 ≤ 0 then apxPack f (apxBits f) true b.2.natAbs (-(apxG : Int)) false
  else apxPack f (apxBits f) false b.1.natAbs (-(apxG : Int)) false

/-- One element of VRCPA, VRSQA, VEXPA or VLOGA with the special cases of 07 Table 7-3. -/
def apxOp (f : Nat) (g : FpFmt) (bits : Nat) : Fl Nat :=
  let v := unpack g bits
  match v.cls with
  | .snan => (g.nan, flNV)
  | .qnan => (g.nan, 0)
  | .zero =>
    match f with
    | 0x10 => (g.mk' v.sign g.infMag, flOF)
    | 0x11 => (g.mk' v.sign g.infMag, flOF)
    | 0x12 => (g.one, 0)
    | _ => (g.mk' true g.infMag, flOF)
  | .inf =>
    match f with
    | 0x10 => (g.mk' v.sign 0, 0)
    | 0x11 => if v.sign then (g.nan, flNV) else (0, 0)
    | 0x12 => if v.sign then (0, 0) else (g.infMag, 0)
    | _ => if v.sign then (g.nan, flNV) else (g.infMag, 0)
  | .fin =>
    match f with
    | 0x10 => rcpApx g v
    | 0x11 => if v.sign then (g.nan, flNV) else rsqApx g v
    | 0x12 => expApx g v
    | _ => if v.sign then (g.nan, flNV) else if bits = g.one then (0, 0) else lnApx g v

/-- VECTOR_APPROXIMATION. -/
def execVectorApproximation (l : Nat) (w : BitVec 64) (s : State) : Res :=
  eff (coreRow l w (wMajor w == 0x31 && decide (0x10 ≤ wFunc w) && decide (wFunc w ≤ 0x13)) (fun d c =>
    let i := vFmt w
    let wd := fmtW i
    let ks := actives c (vP w) (vlMax i)
    guarded (vlCheck c [i]) d
      (let xs := flSeq (ks.map (fun k => apxOp (wFunc w) (vFp i) (vElem (rdV c (wRA w)) wd k)))
       done d (raise xs.2 (wrV (wRD w) (vUpdate (rdV c (wRD w)) wd (ks.zip xs.1)) c))))) s

/-! ### Reductions (07 R228 to R230) -/

/-- One level of the tree: neighbours combine, an absent one passes the other (07 R228). -/
def treeLevel {α : Type} (comb : α → α → Fl α) : List (Option α) → List (Option α) × BitVec 4
  | a :: b :: t =>
    let r := treeLevel comb t
    match a, b with
    | some x, some y => let z := comb x y; (some z.1 :: r.1, z.2 ||| r.2)
    | some x, none => (some x :: r.1, r.2)
    | none, y => (y :: r.1, r.2)
  | l => (l, 0)

/-- The fixed tree over 2^n leaves. -/
def treeRun {α : Type} (comb : α → α → Fl α) : Nat → List (Option α) × BitVec 4 → List (Option α) × BitVec 4
  | 0, x => x
  | n + 1, x => let r := treeLevel comb x.1; treeRun comb n (r.1, x.2 ||| r.2)

def redComb (f a b : Nat) : Fl Nat :=
  match f with
  | 0 => fpAdd fp64 a b
  | 2 => fpMax fp64 a b
  | 3 => fpMin fp64 a b
  | _ => fpMax fp64 (fpAbs fp64 a) (fpAbs fp64 b)

/-- The value of a reduction without active elements. -/
def redEmpty (f : Nat) : Nat :=
  match f with
  | 2 => fp64.mk' true fp64.infMag
  | 3 => fp64.infMag
  | _ => 0

def redInt (f : Nat) (xs : List Int) : Int :=
  match f with
  | 0 => xs.foldl (· + ·) 0
  | 2 => xs.foldl max (-(2 ^ 63))
  | _ => xs.foldl min (2 ^ 63 - 1)

/-- VREDSUM and the other tree reductions: VREDMAX, VREDMIN, VREDAMAX. An FP8 result saturates, since a reduction carries no
NONSAT bit (04 R136); with VL = 0 no element is touched (07 R221). -/
def execVredsum (l : Nat) (w : BitVec 64) (s : State) : Res :=
  eff (coreRow l w (wMajor w == 0x34 && (wFunc w == 0 || wFunc w == 2 || wFunc w == 3 || wFunc w == 4)) (fun d c =>
    let i := vFmt w
    let wd := fmtW i
    let n := vlMax i
    guarded (vlCheck c [i]) d
      (if c.vl = 0 then done d c
       else if (fpOf (fmtCode i)).isSome then
        let lv := (List.range n).map (fun k =>
          if active c (vP w) k then
            let x := cvtFF (vFp i) fp64 .rn true (vElem (rdV c (wRA w)) wd k)
            (some x.1, x.2)
          else (none, (0 : BitVec 4)))
        let leaf := lv.foldl (fun f x => f ||| x.2) 0
        let t := treeRun (redComb (wFunc w)) n.log2 (lv.map (·.1), 0)
        let r := (t.1.headD none).getD (redEmpty (wFunc w))
        let o := convert 1 (fmtCode (vFmt2 w)) .rn false false r
        done d (raise (leaf ||| t.2 ||| o.2)
          (wrV (wRD w) (vUpdate (rdV c (wRD w)) (fmtW (vFmt2 w)) [(0, o.1)]) c))
      else
        let xs := (actives c (vP w) n).map (fun k => signExt wd (vElem (rdV c (wRA w)) wd k))
        done d (wrV (wRD w) (vUpdate (rdV c (wRD w)) 64 [(0, wrapBits 64 (redInt (wFunc w) xs))]) c)))) s

/-- A node of VREDSUMP's tree: the combination of two pairs (07 R229). -/
def pairNode (a b : Nat × Nat) : Fl (Nat × Nat) := pairAdd a b

/-- VREDSUMP. -/
def execVredsump (l : Nat) (w : BitVec 64) (s : State) : Res :=
  eff (coreRow l w (wMajor w == 0x34 && wFunc w == 1) (fun d c =>
    let i := vFmt w
    let wd := fmtW i
    let n := vlMax i
    guarded (vlCheck c [i]) d
      (if c.vl = 0 then done d c else
       let lv := (List.range n).map (fun k =>
         if active c (vP w) k then
           let x := cvtFF (vFp i) fp64 .rn true (vElem (rdV c (wRA w)) wd k)
           (some (x.1, 0), x.2)
         else (none, (0 : BitVec 4)))
       let leaf := lv.foldl (fun f x => f ||| x.2) 0
       let t := treeRun pairNode n.log2 (lv.map (·.1), 0)
       let o := pairRound ((t.1.headD none).getD (0, 0)) (fmtCode (vFmt2 w)) .rn false false
       done d (raise (leaf ||| t.2 ||| o.2)
         (wrV (wRD w) (vUpdate (rdV c (wRD w)) (fmtW (vFmt2 w)) [(0, o.1)]) c))))) s

/-! ### Permutations (07 R231) -/

/-- A permutation of register bits: element k of the destination from a function of the sources. -/
def permute (w : BitVec 64) (d : Dev) (c : Core) (f : Nat → Option Nat) : CRes :=
  let i := vFmt w
  let ks := actives c (vP w) (vlMax i)
  let new := ks.filterMap (fun k => (f k).map (fun v => (k, v)))
  done d (wrV (wRD w) (vUpdate (rdV c (wRD w)) (fmtW i) new) c)

/-- VSLIDEUP. -/
def execVslideup (l : Nat) (w : BitVec 64) (s : State) : Res :=
  eff (coreRow l w (wMajor w == 0x35 && wFunc w == 0) (fun d c =>
    guarded (vlCheck c [vFmt w]) d
      (permute w d c (fun k => if vImm10 w ≤ k then some (vElem (rdV c (wRA w)) (fmtW (vFmt w)) (k - vImm10 w)) else none)))) s

/-- VSLIDEDN. -/
def execVslidedn (l : Nat) (w : BitVec 64) (s : State) : Res :=
  eff (coreRow l w (wMajor w == 0x35 && wFunc w == 1) (fun d c =>
    guarded (vlCheck c [vFmt w]) d
      (permute w d c (fun k => some (if k + vImm10 w < vlMax (vFmt w)
        then vElem (rdV c (wRA w)) (fmtW (vFmt w)) (k + vImm10 w) else 0))))) s

/-- Element k of the second source: with BS = 1 the low bits of s[VB] for every element (07 R224; log 49). -/
def vbElem (c : Core) (w : BitVec 64) (wd k : Nat) : Nat :=
  if vBS w then (rdS c (wRB w)).toNat % 2 ^ wd else vElem (rdV c (wRB w)) wd k

/-- A signed index element of VPERM. -/
def permIndex (c : Core) (w : BitVec 64) (k : Nat) : Int := signExt (fmtW (vFmt2 w)) (vbElem c w (fmtW (vFmt2 w)) k)

/-- A signed index element of a gather or scatter, whose bit 15 belongs to SITE (07 Table 7-1). -/
def vIndex (c : Core) (w : BitVec 64) (k : Nat) : Int :=
  signExt (fmtW (vFmt2 w)) (vElem (rdV c (wRB w)) (fmtW (vFmt2 w)) k)

/-- VPERM. -/
def execVperm (l : Nat) (w : BitVec 64) (s : State) : Res :=
  eff (coreRow l w (wMajor w == 0x35 && wFunc w == 2) (fun d c =>
    guarded (vlCheck c (if vBS w then [vFmt w] else [vFmt w, vFmt2 w])) d
      (permute w d c (fun k =>
        let j := permIndex c w k
        some (if j < 0 ∨ (vlMax (vFmt w) : Int) ≤ j then 0 else vElem (rdV c (wRA w)) (fmtW (vFmt w)) j.toNat))))) s

/-- VCOMPRESS. -/
def execVcompress (l : Nat) (w : BitVec 64) (s : State) : Res :=
  eff (coreRow l w (wMajor w == 0x35 && wFunc w == 3) (fun d c =>
    guarded (vlCheck c [vFmt w]) d
      (let i := vFmt w
       let xs := (actives c (vP w) (vlMax i)).map (vElem (rdV c (wRA w)) (fmtW i))
       done d (wrV (wRD w) (vUpdate (rdV c (wRD w)) (fmtW i) ((List.range xs.length).zip xs)) c)))) s

/-- VMERGE: P is the selector; every element below VL. -/
def execVmerge (l : Nat) (w : BitVec 64) (s : State) : Res :=
  eff (coreRow l w (wMajor w == 0x35 && wFunc w == 4) (fun d c =>
    guarded (vlCheck c [vFmt w]) d
      (let i := vFmt w
       let ks := List.range (min c.vl (vlMax i))
       let xs := ks.map (fun k => if (rdP c (vP w)).getLsbD k then vElem (rdV c (wRA w)) (fmtW i) k else vbElem c w (fmtW i) k)
       done d (wrV (wRD w) (vUpdate (rdV c (wRD w)) (fmtW i) (ks.zip xs)) c)))) s

/-- VBCAST: s[VA] converted once under RN for a floating format, its low bits for an integer format. -/
def execVbcast (l : Nat) (w : BitVec 64) (s : State) : Res :=
  eff (coreRow l w (wMajor w == 0x35 && wFunc w == 5) (fun d c =>
    guarded (vlCheck c [vFmt w]) d
      (let i := vFmt w
       let ks := actives c (vP w) (vlMax i)
       let v := (rdS c (wRA w)).toNat
       let x : Fl Nat := match fpOf (fmtCode i) with
         | some g => cvtFF fp64 g .rn false v
         | none => (v % 2 ^ fmtW i, 0)
       done d (raise (if ks.isEmpty then 0 else x.2)
         (wrV (wRD w) (vUpdate (rdV c (wRD w)) (fmtW i) (ks.map (fun k => (k, x.1)))) c))))) s

/-- VEXTS: ignores VL and P. -/
def execVexts (l : Nat) (w : BitVec 64) (s : State) : Res :=
  eff (coreRow l w (wMajor w == 0x35 && wFunc w == 6) (fun d c =>
    done d (wrS (wRD w) (BitVec.ofNat 64 (vElem (rdV c (wRA w)) (fmtW (vFmt w)) (vImm10 w))) c))) s

/-- VINSS: ignores VL and P. -/
def execVinss (l : Nat) (w : BitVec 64) (s : State) : Res :=
  eff (coreRow l w (wMajor w == 0x35 && wFunc w == 7) (fun d c =>
    let wd := fmtW (vFmt w)
    done d (wrV (wRD w) (vUpdate (rdV c (wRD w)) wd [(vImm10 w, (rdS c (wRA w)).toNat % 2 ^ wd)]) c))) s

/-- VMOV. -/
def execVmov (l : Nat) (w : BitVec 64) (s : State) : Res :=
  eff (coreRow l w (wMajor w == 0x35 && wFunc w == 8) (fun d c =>
    guarded (vlCheck c [vFmt w]) d
      (permute w d c (fun k => some (vElem (rdV c (wRA w)) (fmtW (vFmt w)) k))))) s

/-! ### Window accesses (06 R203; 07 R232 to R234) -/

/-- Options of a major 0x36 instruction (07 Table 7-1). -/
def optV (w : BitVec 64) : CvtOpt :=
  { rz := w.getLsbD 32, nonsat := w.getLsbD 33, grad := w.getLsbD 34, scale := w.getLsbD 35, site := wSite w }

/-- Load window elements into active elements of a register. -/
def loadInto (rd fmt : Nat) (o : CvtOpt) (v : Window) (ks : List Nat) (js : List Int) (d : Dev) (c : Core) : CRes :=
  let r := winReads v c (winIdx d c v js) d
  match r.2 with
  | none => .memory v.tensor (wrapBits 64 (js.headD 0)) r.1
  | some bs =>
    let xs := flSeq (bs.map (fromTensor d (coreItem d c) o v.tensor v.fmt (fmtCode fmt)))
    done r.1 (raise xs.2 (wrV rd (vUpdate (rdV c rd) (fmtW fmt) (ks.zip xs.1)) c))

/-- Permission, bounds and waits of a vector window access over its active elements; none active takes no element fault. -/
def winAccess (wi : Nat) (write : Bool) (fmts : List Nat) (js : List Int) (d : Dev) (c : Core)
    (f : Window → CRes) : CRes :=
  if js.isEmpty then guarded (vlCheck c fmts) d (done d c)
  else match rdW c wi with
  | none => guarded (lowest [some (0x104, 0), vlCheck c fmts]) d .stall
  | some v =>
    guarded (lowest [winPerm (some v) write, winBounds d c v js, vlCheck c fmts]) d (if winBusy c v then .stall else f v)

/-- VLDW: elements s[RB] + k of window W into the active elements of v[RD]. -/
def execVldw (l : Nat) (w : BitVec 64) (s : State) : Res :=
  eff (coreRow l w (wMajor w == 0x12 && wFunc w == 0) (fun d c =>
    let ks := actives c (wP w) (vlMax (wFmt w))
    let js := ks.map (fun k => ((rdS c (wRB w)).toNat : Int) + k)
    winAccess (wW w) false [wFmt w] js d c (fun v => loadInto (wRD w) (wFmt w) (optW w) v ks js d c))) s

/-- VSTW. -/
def execVstw (l : Nat) (w : BitVec 64) (s : State) : Res :=
  eff (coreRow l w (wMajor w == 0x12 && wFunc w == 1) (fun d c =>
    let ks := actives c (wP w) (vlMax (wFmt w))
    let js := ks.map (fun k => ((rdS c (wRB w)).toNat : Int) + k)
    winAccess (wW w) true [wFmt w] js d c (fun v =>
      let vals := ks.map (vElem (rdV c (wRD w)) (fmtW (wFmt w)))
      let r := winStore l d c v (optW w) (fmtCode (wFmt w)) ((winIdx d c v js).zip vals)
      done r.1 r.2))) s

/-- Core-memory checks and waits of a contiguous vector access over its active elements. -/
def vcAccess (w : BitVec 64) (ks : List Nat) (d : Dev) (c : Core) (f : CRes) : CRes :=
  let n := fmtBytes (fmtCode (wFmt w))
  let a := fun k => (rdS c (wRA w)).toNat + k * n
  let chk := lowest (ks.map (fun k =>
    if cmSize < a k + n then some (0x102, a k) else if a k % n ≠ 0 then some (0x103, a k) else none))
  guarded (lowest [chk, vlCheck c [wFmt w]]) d
    (if ks.any (fun k => cmBusy c (a k) n) then .stall
     else match ks.findSome? (fun k => (cmPoison c (a k) n).map (fun t => (t, a k))) with
      | some t => .memory t.1 t.2 d
      | none => f)

/-- VLDC. -/
def execVldc (l : Nat) (w : BitVec 64) (s : State) : Res :=
  eff (coreRow l w (wMajor w == 0x12 && wFunc w == 2) (fun d c =>
    let n := fmtBytes (fmtCode (wFmt w))
    let ks := actives c (wP w) (vlMax (wFmt w))
    vcAccess w ks d c
      (let xs := ks.map (fun k => ofLe (memRead c.mem ((rdS c (wRA w)).toNat + k * n) n))
       done d (wrV (wRD w) (vUpdate (rdV c (wRD w)) (8 * n) (ks.zip xs)) c)))) s

/-- VSTC: elements of a floating format in stored form (04 R133). -/
def execVstc (l : Nat) (w : BitVec 64) (s : State) : Res :=
  eff (coreRow l w (wMajor w == 0x12 && wFunc w == 3) (fun d c =>
    let n := fmtBytes (fmtCode (wFmt w))
    let ks := actives c (wP w) (vlMax (wFmt w))
    vcAccess w ks d c
      (done d { c with mem := ks.foldl (fun m k =>
        memWrite m ((rdS c (wRA w)).toNat + k * n) (toLe n (storeForm (fmtCode (wFmt w)) (vElem (rdV c (wRD w)) (8 * n) k)))) c.mem }))) s

/-- Window indices of a gather or scatter: s[VA] plus signed index elements (07 R232). -/
def gatherIdx (c : Core) (w : BitVec 64) (ks : List Nat) : List Int :=
  ks.map (fun k => ((rdS c (wRA w)).toNat : Int) + vIndex c w k)

/-- VGATHER. -/
def execVgather (l : Nat) (w : BitVec 64) (s : State) : Res :=
  eff (coreRow l w (wMajor w == 0x36 && wFunc w == 0) (fun d c =>
    let ks := actives c (vP w) (min (vlMax (vFmt w)) (vlMax (vFmt2 w)))
    let js := gatherIdx c w ks
    winAccess (vWin w) false [vFmt w, vFmt2 w] js d c (fun v => loadInto (wRD w) (vFmt w) (optV w) v ks js d c))) s

/-- VSCATTER: elements in ascending order, so that the highest-numbered one stays (07 R233). -/
def execVscatter (l : Nat) (w : BitVec 64) (s : State) : Res :=
  eff (coreRow l w (wMajor w == 0x36 && wFunc w == 1) (fun d c =>
    let ks := actives c (vP w) (min (vlMax (vFmt w)) (vlMax (vFmt2 w)))
    let js := gatherIdx c w ks
    winAccess (vWin w) true [vFmt w, vFmt2 w] js d c (fun v =>
      let vals := ks.map (vElem (rdV c (wRD w)) (fmtW (vFmt w)))
      let r := winStore l d c v (optV w) (fmtCode (vFmt w)) ((winIdx d c v js).zip vals)
      done r.1 r.2))) s

/-- What stops a first-fault load at an element: a bounds fault (its code) or uncorrectable data (code 0); and the
values before it (07 R234). -/
def firstFault (v : Window) (js : List (Nat × Int)) (d : Dev) (c : Core) :
    Dev × List (Nat × Nat) × Option (Nat × Nat) :=
  js.foldl (fun acc kj =>
    match acc.2.2 with
    | some _ => acc
    | none =>
      match winElem d c v kj.2 with
      | none => (acc.1, acc.2.1, some (kj.1, 0x108))
      | some e =>
        let r := winRead v c e acc.1
        match r.2 with
        | some b => (r.1, acc.2.1 ++ [(kj.1, b)], none)
        | none => (r.1, acc.2.1, some (kj.1, 0))) (d, [], none)

/-- The code that CSR_VFF records for suppressed uncorrectable data, for which the spec names no code (log 21). -/
def vffMemory : Nat := Config.vffMemoryCode.toNat

/-- A first-fault load (07 R234). -/
def firstFaultLoad (w : BitVec 64) (fmts : List Nat) (ks : List Nat) (js : List Int) (d : Dev) (c : Core) : CRes :=
  if ks.isEmpty then guarded (vlCheck c fmts) d (done d { c with vff := 0 })
  else match rdW c (vWin w) with
  | none => guarded (lowest [some (0x104, 0), vlCheck c fmts]) d .stall
  | some v =>
    let head := match js with
      | j :: _ => winBound d c v j
      | [] => none
    guarded (lowest [winPerm (some v) false, head, vlCheck c fmts]) d
      (if winBusy c v then .stall
       else
        let r := firstFault v (ks.zip js) d c
        let xs := flSeq (r.2.1.map (fun kb => fromTensor d (coreItem d c) (optV w) v.tensor v.fmt (fmtCode (vFmt w)) kb.2))
        let c1 := raise xs.2 (wrV (wRD w) (vUpdate (rdV c (wRD w)) (fmtW (vFmt w)) ((r.2.1.map (·.1)).zip xs.1)) c)
        match r.2.2 with
        | none => done r.1 { c1 with vff := 0 }
        | some (k, code) =>
          if r.2.1.isEmpty then .memory v.tensor (wrapBits 64 (js.headD 0)) r.1
          else
            let cause := if code = 0 then vffMemory else code
            done r.1
              { c1 with vl := k, vff := BitVec.ofNat 32 (cause * 65536 + k) })

/-- VLDFF. -/
def execVldff (l : Nat) (w : BitVec 64) (s : State) : Res :=
  eff (coreRow l w (wMajor w == 0x36 && wFunc w == 2) (fun d c =>
    let ks := actives c (vP w) (vlMax (vFmt w))
    firstFaultLoad w [vFmt w] ks (ks.map (fun k => ((rdS c (wRA w)).toNat : Int) + k)) d c)) s

/-- VGATHERFF. -/
def execVgatherff (l : Nat) (w : BitVec 64) (s : State) : Res :=
  eff (coreRow l w (wMajor w == 0x36 && wFunc w == 3) (fun d c =>
    let ks := actives c (vP w) (min (vlMax (vFmt w)) (vlMax (vFmt2 w)))
    firstFaultLoad w [vFmt w, vFmt2 w] ks (gatherIdx c w ks) d c)) s

/-! ### Conversion (07 R235) -/

/-- VCVTP: PART selects one slice of the wider register; VL is tested against the wider format only. -/
def execVcvtp (l : Nat) (w : BitVec 64) (s : State) : Res :=
  eff (coreRow l w (wMajor w == 0x37 && wFunc w == 0) (fun d c =>
    let di := vFmt w
    let si := vFmt2 w
    let dw := fmtW di
    let sw := fmtW si
    let wide := if sw ≤ dw then di else si
    let n := vlMax wide
    let ks := actives c (vP w) n
    guarded (vlCheck c [wide]) d
      (let srcAt := fun k => if sw < dw then vPart w * n + k else k
       let dstAt := fun k => if dw < sw then vPart w * n + k else k
       let xs := flSeq (ks.map (fun k =>
         convert (fmtCode si) (fmtCode di) .rn (w.getLsbD 11) (w.getLsbD 10) (vElem (rdV c (wRA w)) sw (srcAt k))))
       done d (raise xs.2 (wrV (wRD w) (vUpdate (rdV c (wRD w)) dw ((ks.map dstAt).zip xs.1)) c))))) s

end Sys2Proof.Machine
end

