-- ==== Sys2Proof/Machine/CoreMatrix.lean ====
section
/-! DEFINITION. The matrix engine (05): accumulator tiles and groups, matrix instructions with their packing, the output
stage, row reads and writes, and element-wise work on tiles. -/
namespace Sys2Proof.Machine
open Sys2Proof

/-- A matrix, row or element-wise instruction: it waits while the solver unit or the assembly stage is busy (08 R247). -/
def engineRow (l : Nat) (w : BitVec 64) (mine : Bool) (f : Dev → Core → CRes) (d : Dev) : Dev :=
  coreRow l w mine (fun d c => if c.slvJob.isSome || c.asmJob.isSome then .stall else f d c) d

/-! ### Fields and footprints (06 Table 6-7, 05 Table 5-2, R160, R166) -/

def mFmt (w : BitVec 64) : Nat := fld w 55 3
def mMode (w : BitVec 64) : Nat := fld w 53 2
def mM (w : BitVec 64) : Nat := 8 * 2 ^ fld w 50 3
def mN (w : BitVec 64) : Nat := 8 * 2 ^ fld w 47 3
def mP (w : BitVec 64) : Nat := 4 ^ fld w 45 2
def mGroup (w : BitVec 64) : Nat := fld w 42 3
def mBegin (w : BitVec 64) : Bool := w.getLsbD 40
def mEnd (w : BitVec 64) : Bool := w.getLsbD 41
def mTile (w : BitVec 64) : Nat := fld w 34 6
/-- Table 3-20 code of the matrix format field. -/
def mFmtCode (f : Nat) : Nat :=
  match f with
  | 0 => 5 | 1 => 6 | 2 => 3 | 3 => 4 | 4 => 2 | _ => 1

/-- Slots of a logical tile. -/
def footprint (mode m n : Nat) : Nat := slotsOf mode * subRows m n * subCols m n

def tileSlots (t : AccTile) : Nat := footprint t.mode t.m t.n
def tileHas (t : AccTile) (slot : Nat) : Bool := decide (t.base ≤ slot) && decide (slot < t.base + tileSlots t)
def tilesMeet (t : AccTile) (base n : Nat) : Bool := overlaps t.base (tileSlots t) base n

/-- Byte address of an accumulator element's FP32 or (high) FP64 value (05 Table 5-2). -/
def accAddr (mode slot row col : Nat) : Nat :=
  if mode = 0 then slot * 4096 + 128 * row + 4 * col else slot * 4096 + 256 * row + 8 * col

/-- An accumulator element: its value, and the low part in pair mode. -/
def accGet (acc : Mem) (mode slot row col : Nat) : Nat × Nat :=
  if mode = 0 then (ofLe (memRead acc (accAddr mode slot row col) 4), 0)
  else
    (ofLe (memRead acc (accAddr mode slot row col) 8),
     if mode = 3 then ofLe (memRead acc (accAddr mode (slot + 2) row col) 8) else 0)

def accPut (acc : Mem) (mode slot row col : Nat) (v : Nat × Nat) : Mem :=
  if mode = 0 then memWrite acc (accAddr mode slot row col) (toLe 4 v.1)
  else
    let a := memWrite acc (accAddr mode slot row col) (toLe 8 v.1)
    if mode = 3 then memWrite a (accAddr mode (slot + 2) row col) (toLe 8 v.2) else a

/-- Format of an accumulator. -/
def accFmt (mode : Nat) : FpFmt := if mode = 0 then fp32 else fp64
/-- Bytes of a value in accumulator format. -/
def accBytes (mode : Nat) : Nat := if mode = 0 then 4 else 8

/-! ### One multiply-add (05 R122, R123) -/

/-- acc ← RN(acc + RN(a × b)), or one step of a compensated pair. The operands are encodings in the input format. -/
def macStep (mode : Nat) (f : FpFmt) (acc : Nat × Nat) (a b : Nat) : Fl (Nat × Nat) :=
  if mode = 3 then
    let x := cvtFF f fp64 .rn true a
    let y := cvtFF f fp64 .rn true b
    let r := pairMac acc x.1 y.1
    (r.1, x.2 ||| y.2 ||| r.2)
  else
    let g := accFmt mode
    let pr := mulV g .rn (unpack f a) (unpack f b)
    let s := fpAdd g acc.1 pr.1
    ((s.1, 0), pr.2 ||| s.2)

/-- The products of one element in ascending K (05 R165). -/
def macRun (mode : Nat) (f : FpFmt) (acc : Nat × Nat) (ab : List (Nat × Nat)) : Fl (Nat × Nat) :=
  ab.foldl (fun r x => let y := macStep mode f r.1 x.1 x.2; (y.1, r.2 ||| y.2)) (acc, 0)

/-! ### Operands of a matrix instruction (06 R205, 05 Table 5-3) -/

structure MatArgs where
  a : Nat
  b : Nat
  lda : Nat
  ldb : Nat
  ps : Nat
  k : Nat
  mv : Nat
  nv : Nat
  kv : Nat
  osd : Nat
  deriving DecidableEq, Repr

def matArgs (c : Core) (w : BitVec 64) : MatArgs :=
  let r := fun i => (rdS c (8 * fld w 32 2 + i)).toNat
  { a := r 0, b := r 1, lda := r 2, ldb := r 3, ps := r 4, k := r 5
    mv := r 6 % 256, nv := bitsOf (r 6) 8 8, kv := bitsOf (r 6) 16 16, osd := r 7 }

/-- ACC_SHAPE (05 Table 5-3, R158). -/
def shapeOk (w : BitVec 64) (x : MatArgs) : Bool :=
  decide (8 ≤ x.k) && decide (x.k ≤ 2048) && x.k % 8 == 0
  && decide (1 ≤ x.mv) && decide (x.mv ≤ mM w) && decide (1 ≤ x.nv) && decide (x.nv ≤ mN w)
  && decide (1 ≤ x.kv) && decide (x.kv ≤ x.k)

/-- Panel addresses wrap at 64 bits. -/
def panel (base ld k i size ps p : Nat) : Nat := (base + p * ps + k * ld + i * size) % 2 ^ 64

/-- Byte range of the fed elements of one panel. -/
def panelCheck (base ld ps : Nat) (x : MatArgs) (count size P : Nat) : Chk :=
  lowest ((List.range P).map (fun p => lowest ((List.range x.kv).map (fun k =>
    lowest ((List.range count).map (fun i => cmCheck (BitVec.ofNat 64 (panel base ld k i size ps p)) size size))))))

/-- Core-memory ranges of the fed panels. -/
def panelRanges (base ld ps : Nat) (x : MatArgs) (count size P : Nat) : List (Nat × Nat) :=
  (List.range P).flatMap (fun p => (List.range x.kv).map (fun k => (panel base ld k 0 size ps p, count * size)))

/-- The tile that a matrix instruction names. -/
def matTile (w : BitVec 64) (x : MatArgs) : AccTile :=
  { group := mGroup w, base := mTile w, mode := mMode w, m := mM w, n := mN w, p := mP w, mValid := x.mv, nValid := x.nv }

/-! ### The output-stage descriptor (05 R174, Table 5-7) -/

/-- The options of a descriptor as a conversion sees them. -/
def osOpt (b : Bytes) : CvtOpt :=
  { rz := osMode b 7, nonsat := osMode b 0, grad := osMode b 1, scale := osMode b 2, site := fieldLe b 6 2 }

/-- The descriptor keeps R174, its vectors and address included. -/
def osOk (c : Core) (t : AccTile) (osd : Nat) (b : Bytes) : Bool :=
  let n := accBytes t.mode
  let cnt := t.p * t.n
  let win := rdW c (osWin b)
  let f := accFmt t.mode
  let lo := fieldLe b 32 n
  let hi := fieldLe b 40 n
  let wide := fun off => n == 8 || allZero (slice b (off + 4) 4)
  let vec := fun off => let a := fieldLe b off 4; a % n == 0 && decide (a + cnt * n ≤ cmSize)
  osd % 64 == 0 && decide (osd + 64 ≤ cmSize)
  && slice b 5 1 == [0] && slice b 3 1 == [0]
  && [1, 2, 3, 4, 5, 6, 16, 17].contains (osFmt b)
  && decide (osKind b ≤ 2) && decide (osWin b < 16) && (osKind b != 0 || osWin b == 0)
  && (osKind b == 0 || win.isNone || (win.map (·.fmt)) == some (osFmt b))
  && !(osMode b 4 && osMode b 5)
  && (!osMode b 3 || (!(unpack f lo).isNan && !(unpack f hi).isNan && decide (ordKey f lo ≤ ordKey f hi)))
  && !(osMode b 1 && osKind b == 0)
  && (!osMode b 2 || (osKind b != 0 && (win.isNone || isFp8 (osFmt b))))
  && (!osMode b 5 || vec 48) && (!osMode b 6 || vec 52)
  && wide 24 && wide 32 && wide 40

/-- Element offset from the descriptor's DST: p × PROBLEM_STRIDE + i × ROW_STRIDE + j. -/
def osOffset (b : Bytes) (t : AccTile) (p i j : Nat) : Int :=
  (if t.p = 1 then 0 else (p : Int) * signExt 64 (fieldLe b 56 8)) + (i : Int) * signExt 64 (fieldLe b 16 8) + j

/-- Valid elements of a tile in row order: problem, row, column. -/
def tileElems (t : AccTile) : List (Nat × Nat × Nat) :=
  ((List.range t.p).map (fun p => ((List.range t.mValid).map (fun i =>
    (List.range t.nValid).map (fun j => (p, i, j)))).flatten)).flatten

/-- Core address (kind 0) or element index of the window's tensor (kinds 1, 2) of a valid element. -/
def osDest (b : Bytes) (t : AccTile) (x : Nat × Nat × Nat) : Int :=
  let off := osOffset b t x.1 x.2.1 x.2.2
  if osKind b = 0 then (fieldLe b 8 8 : Int) + off * fmtBytes (osFmt b) else (fieldLe b 8 8 : Int) + off

/-- The element of the tensor lies inside the window's bounds: some window index maps to it (05 R176, 06 R194). -/
def winCovers (d : Dev) (c : Core) (w : Window) (e : Int) : Bool :=
  decide (0 ≤ e) && decide (e < (winElems d c w : Int)) &&
  (List.range (wExt w 3)).any (fun c3 => (List.range (wExt w 2)).any (fun c2 => (List.range (wExt w 1)).any (fun c1 =>
    let o : Int := e - w.base - c1 * wStr w 0 - c2 * wStr w 1 - c3 * wStr w 2
    decide (0 ≤ o) && decide (o < (wExt w 0 : Int)))))

/-- Destination checks of an END as a whole (05 R176). -/
def osDestCheck (d : Dev) (c : Core) (t : AccTile) (b : Bytes) : Chk :=
  let es := tileElems t
  if osKind b = 0 then
    let n := fmtBytes (osFmt b)
    lowest (es.map (fun x =>
      let a := osDest b t x
      if a < 0 ∨ (cmSize : Int) < a + n then some (0x102, wrapBits 64 a)
      else if a % (n : Int) ≠ 0 then some (0x103, wrapBits 64 a) else none))
  else
    match rdW c (osWin b) with
    | none => some (0x104, 0)
    | some v =>
      lowest [winPerm (some v) true,
        firstOf (es.map (fun x => let e := osDest b t x
          if winCovers d c v e then none else some (0x108, wrapBits 64 e)))]

/-- One element through scale, bias, clip and the final conversion (05 R173, R175). -/
def osElem (d : Dev) (it : Item) (c : Core) (t : AccTile) (b : Bytes) (win : Option Window) (e : Nat) (x : Nat × Nat × Nat)
    (acc : Nat × Nat) : Fl Nat × Nat :=
  let f := accFmt t.mode
  let n := accBytes t.mode
  let col := x.1 * t.n + x.2.2
  let vec := fun off => ofLe (memRead c.mem (fieldLe b off 4 + col * n) n)
  let o := osOpt b
  let idx := (win.map (·.tensor)).getD 0
  let role := roleOf d idx
  let sr := (fpOf (osFmt b)).isSome && (o.grad || (osKind b != 0 && role == 5))
  let r : Rnd := if sr then .sr (srValue it.step idx e o.site) else .rn
  let k : Int := if o.scale then scaleExpFor d it idx else 0
  let plain := !(osMode b 3 || osMode b 4 || osMode b 5 || osMode b 6)
  let store := fun (y : Fl Nat) => (storeForm (osFmt b) y.1, y.2)
  if t.mode = 3 && plain then (store (pairRound acc (osFmt b) r o.rz o.nonsat k), acc.1)
  else
    let y0 : Fl Nat := (acc.1, if t.mode = 3 && (unpack fp64 acc.2).m != 0 then flNX else 0)
    let y1 := if osMode b 4 then Fl.then y0 (fun y => fpMul f y (fieldLe b 24 n)) else y0
    let y2 := if osMode b 5 then Fl.then y1 (fun y => fpMul f y (vec 48)) else y1
    let y3 := if osMode b 6 then Fl.then y2 (fun y => fpAdd f y (vec 52)) else y2
    let y4 := if osMode b 3 then
        Fl.then (Fl.then y3 (fun y => fpMax f y (fieldLe b 32 n))) (fun y => fpMin f y (fieldLe b 40 n)) else y3
    (store (Fl.then y4 (fun y => cvtScaled (if t.mode = 0 then 2 else 1) (osFmt b) k r o.rz o.nonsat y)), y4.1)

/-- The output-stage job of an END: every destination with its bits, in the order in which the stage takes them. -/
def osJob (d : Dev) (c : Core) (t : AccTile) (b : Bytes) (fl : BitVec 4) : OutJob :=
  let it := coreItem d c
  let win := if osKind b = 0 then none else rdW c (osWin b)
  let rs := (outElems t).map (fun x =>
    let pl := accPlace t x.1 x.2.1 x.2.2
    let dst := (osDest b t x).toNat
    (dst, osElem d it c t b win dst x (accGet c.acc t.mode pl.1 pl.2.1 pl.2.2)))
  let ofl := rs.foldl (fun f r => f ||| r.2.1.2) 0
  { tile := t, desc := b, flags := fl ||| ofl, win := win, pc := c.pc
    outs := rs.map (fun r => (r.1, r.2.1.1))
    amax := BitVec.ofNat 64 (amaxOf (rs.map (fun r => absFp64 (if t.mode = 0 then 2 else 1) r.2.2)))
    ovf := ofl.getLsbD 0 }

/-! ### The matrix instruction (05 R149 to R171) -/

/-- The checks of 05 Table 5-6 that concern the operands and the tile. -/
def matCheckTile (c : Core) (w : BitVec 64) (x : MatArgs) : Chk :=
  let t := matTile w x
  let n := tileSlots t
  let own := c.tiles.filter (fun s => s.group == t.group)
  let conflict := c.tiles.any (fun s => s.group != t.group && tilesMeet s t.base n)
  let met := own.filter (fun s => tilesMeet s t.base n)
  firstOf [
    if shapeOk w x then none else some (0x201, 0),
    if conflict then some (0x202, 0) else none,
    if !mBegin w && met.isEmpty then some (0x203, 0) else none,
    if met.any (fun s => !sameTile s t) then some (0x204, 0) else none]

/-- Checks of 05 Table 5-6 for a matrix instruction, in its order. -/
def matCheck (c : Core) (w : BitVec 64) (x : MatArgs) (b : Bytes) : Chk :=
  firstOf [matCheckTile c w x, if mEnd w && !osOk c (matTile w x) x.osd b then some (0x205, x.osd) else none]

/-- Core-memory ranges that an END reads or writes beside its panels: the descriptor's vectors and a kind 0 destination. -/
def osRanges (t : AccTile) (b : Bytes) : List (Nat × Nat) :=
  let n := t.p * t.n * accBytes t.mode
  (if osMode b 5 then [(fieldLe b 48 4, n)] else []) ++ (if osMode b 6 then [(fieldLe b 52 4, n)] else []) ++
  (if osKind b = 0 then (tileElems t).map (fun e => ((osDest b t e).toNat, fmtBytes (osFmt b))) else [])

/-- Accumulate every valid element of the tile (05 R164 to R167). -/
def matAccumulate (c : Core) (w : BitVec 64) (x : MatArgs) : Mem × BitVec 4 :=
  let t := matTile w x
  let code := mFmtCode (mFmt w)
  let f := (fpOf code).getD fp64
  let size := fmtBytes code
  let at' := fun a => ofLe (memRead c.mem a size)
  (tileElems t).foldl (fun st e =>
    let pl := accPlace t e.1 e.2.1 e.2.2
    let acc0 := if mBegin w then (0, 0) else accGet st.1 t.mode pl.1 pl.2.1 pl.2.2
    let ab := (List.range x.kv).map (fun k =>
      (at' (panel x.a x.lda k e.2.1 size x.ps e.1), at' (panel x.b x.ldb k e.2.2 size x.ps e.1)))
    let r := macRun t.mode f acc0 ab
    (accPut st.1 t.mode pl.1 pl.2.1 pl.2.2 r.1, st.2 ||| r.2)) (c.acc, 0)

/-- MATRIX_INSTRUCTION. Its accumulation takes effect when it issues; with END, the output stage's job stands until
MATRIX_END_COMPLETE (log 15). -/
def execMatrixInstruction (l : Nat) (w : BitVec 64) (s : State) : Res :=
  eff (engineRow l w (wMajor w == 0x18) (fun d c =>
    let x := matArgs c w
    let t := matTile w x
    let b := memRead c.mem x.osd 64
    let size := fmtBytes (mFmtCode (mFmt w))
    let ps := if mP w = 1 then 0 else x.ps
    let x := { x with ps := ps }
    if c.tiles.any (fun u => u.ending && tilesMeet u t.base (tileSlots t)) then
      (if shapeOk w x then .stall else .fault 0x201 0 d)
    else guarded (matCheckTile c w x) d
     (if mEnd w && cmBusy c x.osd 64 then .stall
      else match (if mEnd w then cmPoison c x.osd 64 else none) with
      | some p => .memory p x.osd d
      | none =>
      guarded (firstOf [matCheck c w x b,
        lowest [panelCheck x.a x.lda ps x x.mv size (mP w), panelCheck x.b x.ldb ps x x.nv size (mP w),
          if mEnd w then osDestCheck d c t b else none]]) d
        (let rs := panelRanges x.a x.lda ps x x.mv size (mP w) ++ panelRanges x.b x.ldb ps x x.nv size (mP w)
           ++ (if mEnd w then osRanges t b else [])
         if rs.any (fun r => cmBusy c r.1 r.2) then .stall
         else match rs.findSome? (fun r => (cmPoison c r.1 r.2).map (fun p => (p, r.1))) with
         | some p => .memory p.1 p.2 d
         | none =>
         if mEnd w && osKind b != 0 && ((rdW c (osWin b)).map (winBusy c)).getD false then .stall
         else
          let r := matAccumulate c w x
          let others := c.tiles.filter (fun u => !(u.group == t.group && sameTile u t))
          let c1 := { c with acc := r.1, rowGroups := 8, idle := 0 }
          if mEnd w then
            let job := osJob d c1 t b r.2
            done d { c1 with tiles := others ++ [{ t with ending := true }], outJobs := c1.outJobs ++ [job] }
          else done d (raise r.2 { c1 with tiles := others ++ [t] }))))) s

/-- MATRIX_END_COMPLETE: the oldest END of the core finishes its output stage (05 R173 to R178). -/
def execMatrixEndComplete (l : Nat) (s : State) : Res :=
  eff (fun d => match coreRuns d l with
    | none => d
    | some c =>
      match c.outJobs with
      | [] => d
      | j :: rest =>
        let r := osFinish l j d { c with outJobs := rest }
        setCore l r.2 r.1) s

/-! ### Row access (05 R155; 06 Table 6-8) -/

def aFunc (w : BitVec 64) : Nat := fld w 55 3
def aGroup (w : BitVec 64) : Nat := fld w 52 3
def aTD (w : BitVec 64) : Nat := fld w 46 6
def aTS (w : BitVec 64) : Nat := fld w 40 6
def aOp (w : BitVec 64) : Nat := fld w 37 3
def aV (w : BitVec 64) : Nat := fld w 32 5
def aS (w : BitVec 64) : Nat := fld w 27 5
def aRow (w : BitVec 64) : Nat := fld w 22 5

/-- The owned tile that holds a slot. -/
def tileAt (c : Core) (slot : Nat) : Option AccTile := c.tiles.find? (fun t => tileHas t slot)

/-- A slot is the base slot of one of the tile's accumulator tiles. -/
def isSubBase (t : AccTile) (slot : Nat) : Bool := (slot - t.base) % slotsOf t.mode == 0

/-- ROWRD. -/
def execRowrd (l : Nat) (w : BitVec 64) (s : State) : Res :=
  eff (engineRow l w (wMajor w == 0x19 && aFunc w == 0) (fun d c =>
    match tileAt c (aTD w) with
    | none => .fault 0x203 0 d
    | some t =>
      if t.ending then .stall
      else
      guarded (firstOf [
        if isSubBase t (aTD w) then none else some (0x204, 0),
        if t.mode = 3 ∧ aV w = 31 then some (0x207, 0) else none]) d
         (let el := (List.range 32).map (fun j => accGet c.acc t.mode (aTD w) (aRow w) j)
          let wd := 8 * accBytes t.mode
          let c1 := wrV (aV w) (vOf wd (el.map (·.1))) c
          done d (if t.mode = 3 then wrV (aV w + 1) (vOf 64 (el.map (·.2))) c1 else c1)))) s

/-- ROWWR. -/
def execRowwr (l : Nat) (w : BitVec 64) (s : State) : Res :=
  eff (engineRow l w (wMajor w == 0x19 && aFunc w == 1) (fun d c =>
    match tileAt c (aTD w) with
    | none => .fault 0x203 0 d
    | some t =>
      if t.ending then .stall
      else
      guarded (firstOf [
        if t.group ≠ aGroup w then some (0x202, 0) else none,
        if isSubBase t (aTD w) then none else some (0x204, 0),
        if t.mode = 3 ∧ aV w = 31 then some (0x207, 0) else none]) d
         (let wd := 8 * accBytes t.mode
          let acc := (List.range 32).foldl (fun m j =>
            accPut m t.mode (aTD w) (aRow w) j (vElem (rdV c (aV w)) wd j, vElem (rdV c (aV w + 1)) 64 j)) c.acc
          done d { c with acc := acc }))) s

/-! ### Element-wise work (05 R180) -/

def ewOp (op : Nat) (f : FpFmt) (a b : Nat) : Fl Nat :=
  match op with
  | 0 => fpAdd f a b
  | 1 => fpSub f a b
  | 2 => fpMul f a b
  | 3 => fpMax f a b
  | _ => fpMin f a b

/-- Checks of 05 Table 5-6 for an element-wise instruction; `src` is the source tile of EWT. -/
def ewCheck (c : Core) (w : BitVec 64) (src : Option Nat) : Chk :=
  let td := tileAt c (aTD w)
  let ts := src.map (tileAt c)
  let owned := fun (t : Option AccTile) => t.isSome
  firstOf [
    match td with
    | some t => if t.group ≠ aGroup w then some (0x202, 0) else none
    | none => none,
    if !owned td || (match ts with | some x => !owned x | none => false) then some (0x203, 0) else none,
    match td with
    | none => none
    | some t =>
      let bad := t.base ≠ aTD w ∨ t.mode = 3
      let badS := match src, ts with
        | some n, some (some u) => u.base != n || u.mode == 3 || u.mode != t.mode || u.m != t.m || u.n != t.n || u.p != t.p
        | _, _ => false
      if bad ∨ badS = true then some (0x204, 0) else none]

/-- Apply an operation to the valid elements of the destination tile. -/
def ewApply (c : Core) (t : AccTile) (f : Nat × Nat × Nat → Nat → Fl Nat) : Core :=
  let r := (tileElems t).foldl (fun st e =>
    let pl := accPlace t e.1 e.2.1 e.2.2
    let x := f e (accGet c.acc t.mode pl.1 pl.2.1 pl.2.2).1
    (accPut st.1 t.mode pl.1 pl.2.1 pl.2.2 (x.1, 0), st.2 ||| x.2)) (c.acc, (0 : BitVec 4))
  raise r.2 { c with acc := r.1, rowGroups := 8, idle := 0 }

/-- The tile that holds a slot is in the output stage: what names it waits (05 R170). -/
def slotEnding (c : Core) (slot : Nat) : Bool := ((tileAt c slot).map (·.ending)).getD false

/-- An element-wise row: its waits, then its checks. -/
def ewRow (w : BitVec 64) (src : Option Nat) (d : Dev) (c : Core) (f : AccTile → Nat × Nat × Nat → Nat → Fl Nat) : CRes :=
  if slotEnding c (aTD w) || (src.map (slotEnding c)).getD false then .stall
  else guarded (ewCheck c w src) d
    (match tileAt c (aTD w) with
     | none => .fault 0x203 0 d
     | some t => done d (ewApply c t (f t)))

/-- EWT: dst ← dst op src, src another tile. -/
def execEwt (l : Nat) (w : BitVec 64) (s : State) : Res :=
  eff (engineRow l w (wMajor w == 0x19 && aFunc w == 2) (fun d c =>
    ewRow w (some (aTS w)) d c (fun t e a =>
      let u := { t with base := aTS w }
      let pl := accPlace u e.1 e.2.1 e.2.2
      ewOp (aOp w) (accFmt t.mode) a (accGet c.acc t.mode pl.1 pl.2.1 pl.2.2).1))) s

/-- EWV: element c of the vector serves column c of each accumulator tile. -/
def execEwv (l : Nat) (w : BitVec 64) (s : State) : Res :=
  eff (engineRow l w (wMajor w == 0x19 && aFunc w == 3) (fun d c =>
    ewRow w none d c (fun t e a =>
      let pl := accPlace t e.1 e.2.1 e.2.2
      ewOp (aOp w) (accFmt t.mode) a (vElem (rdV c (aV w)) (8 * accBytes t.mode) pl.2.2)))) s

/-- EWS: dst ← dst × s. -/
def execEws (l : Nat) (w : BitVec 64) (s : State) : Res :=
  eff (engineRow l w (wMajor w == 0x19 && aFunc w == 4) (fun d c =>
    ewRow w none d c (fun t _ a =>
      fpMul (accFmt t.mode) a ((rdS c (aS w)).toNat % 2 ^ (8 * accBytes t.mode))))) s

end Sys2Proof.Machine
end

