-- ==== Sys2Proof/Machine/Image.lean ====
section
/-! DEFINITION. The checks that firmware makes of a gvc image (06 R197, R205, R215, R216; 05 R158, R166; 07 R225) and the
program it reads out of it. -/
namespace Sys2Proof.Machine
open Sys2Proof

/-! ### Scalar classes (06 Tables 6-4, 6-5) -/

def wordSOk (w : BitVec 64) : Bool :=
  let f := wFunc w
  let imm := fld w 0 32
  let r36 := fld w 32 5 == 0
  match wMajor w with
  | 0x01 => (intFuncs ++ divFuncs ++ floatFuncs).contains f && r36 && imm == 0
  | 0x02 => (intFuncs ++ divFuncs).contains f && r36 && wRB w == 0
  | 0x04 => f == 0 || (f == 1 && fld w 16 31 == 0)
  | 0x08 => (List.range 7 ++ [8, 9, 10]).contains f && r36
  | 0x10 => (List.range 7 ++ [8, 9, 10, 11]).contains f && r36
  | 0x1C => decide (f < 4) && r36
  | 0x24 => r36 && (match f with
      | 0 => imm == 0
      | 1 => imm / 16 == 0
      | 2 => imm / 4096 == 0
      | 3 => imm / 4096 == 0
      | _ => false)
  | 0x28 => decide (f < 6) && r36
  | _ => false

/-- Format W (06 Table 6-6): a field for which a function's column names no use is 0. -/
def wordWOk (w : BitVec 64) : Bool :=
  let f := wFunc w
  let opts := fld w 17 3
  match wMajor w with
  | 0x0C =>
    let dma := f == 3 || f == 4
    decide (f < 5) && wRD w == 0 && wP w == 0 && (dma || (wRB w == 0 && wRC w == 0 && wFmt w == 0 && fld w 16 1 == 0)) &&
    (f == 4 || opts == 0) && decide (wFmt w < 9)
  | 0x11 => decide (f < 2) && wRA w == 0 && wRC w == 0 && wP w == 0 && wFmt w == 0 && (f == 1 || opts == 0)
  | 0x12 => decide (f < 4) && (wRA w == 0 || decide (2 ≤ f)) && wRC w == 0 && decide (wFmt w < 9) &&
    (f == 1 || f == 3 || opts == 0)
  | 0x20 => f == 0 && decide (wFmt w < 9) && decide (fld w 32 4 < 9) && (w.getLsbD 36 || wP w == 0)
  | _ => false

/-- Formats M and A (06 Tables 6-7, 6-8; 05 Tables 5-2, 5-3, 5-5). -/
def wordMOk (w : BitVec 64) : Bool :=
  let fm := mFmt w
  let md := mMode w
  let pc := fld w 45 2
  decide (fm < 6) &&
  (match md with
    | 0 => decide (fm < 5)
    | 1 => fm == 4
    | 2 => fm == 5
    | _ => fm == 4 || fm == 5) &&
  decide (fld w 50 3 < 5) && decide (fld w 47 3 < 5) && pc != 3 && fld w 32 2 != 0 && fld w 0 32 == 0 &&
  (pc == 0 || (if md = 0 then (pc == 1 && mM w == 16 && mN w == 16) || (pc == 2 && mM w == 8 && mN w == 8)
    else pc == 1 && mM w == 8 && mN w == 8)) &&
  mTile w % slotsOf md == 0 && decide (mTile w + footprint md (mM w) (mN w) ≤ 64)

def wordAOk (w : BitVec 64) : Bool :=
  decide (aFunc w < 5) && fld w 0 22 == 0 && (!(aFunc w == 2 || aFunc w == 3) || decide (aOp w < 5))

/-! ### Vector classes (07 Table 7-2, R225) -/

def vFuncs : Nat → List Nat
  | 0x30 => [0, 1, 2, 8, 9, 0xA, 0xB, 0xC, 0xD, 0x10, 0x11]
  | 0x31 => [0, 1, 2, 3, 4, 5, 6, 7, 9, 0xA, 0x10, 0x11, 0x12, 0x13]
  | 0x32 => [0, 1, 2, 8, 9, 0xA, 0xB, 0xC, 0xD, 0x13, 0x14, 0x15, 0x16]
  | 0x33 => List.range 8
  | 0x34 => List.range 5
  | 0x35 => List.range 9
  | 0x36 => List.range 4
  | 0x37 => [0]
  | _ => []

/-- The function takes a VB operand. -/
def vTakesB (major f : Nat) : Bool :=
  match major with
  | 0x30 => [8, 9, 0xA, 0xB, 0xD].contains f
  | 0x31 => [0, 1, 2, 3, 5, 6, 7].contains f
  | 0x32 => true
  | 0x33 => true
  | 0x35 => f == 2 || f == 4
  | _ => false

/-- Width ratio of the two formats of a VCVTP: the slices that PART may name (07 R235). -/
def partRatio (a b : Nat) : Nat := max (fmtW a) (fmtW b) / max (min (fmtW a) (fmtW b)) 1

def isFloatIdx (i : Nat) : Bool := decide (i < 6)

def wordVOk (w : BitVec 64) : Bool :=
  let mj := wMajor w
  let f := wFunc w
  let fm := vFmt w
  let imm := signExt 10 (vImm10 w)
  (vFuncs mj).contains f && decide (fm < 9) &&
  (match mj with
    | 0x31 => decide (fm < 4)
    | 0x32 => decide (6 ≤ fm)
    | 0x33 => if 6 ≤ f then decide (6 ≤ fm) else decide (fm < 4) || decide (6 ≤ fm)
    | 0x34 => !(f == 1 || f == 4) || decide (fm < 6)
    | _ => true) &&
  -- predicate numbers
  (match mj with
    | 0x30 =>
      if f = 8 ∨ f = 9 ∨ f = 0xA ∨ f = 0xB then decide (wRD w < 16) && decide (wRA w < 16) && (vBS w || decide (wRB w < 16))
      else if f = 0xC then decide (wRD w < 16) && decide (wRA w < 16)
      else if f = 0xD then decide (wRD w < 16)
      else if f = 0x10 ∨ f = 0x11 then decide (wRA w < 16) else true
    | 0x33 => decide (wRD w < 16)
    | _ => true) &&
  -- second formats
  (match mj with
    | 0x34 => if isFloatIdx fm then isFloatIdx (vFmt2 w) else vFmt2 w == 8
    | 0x35 => f != 2 || vFmt2 w == 7 || vFmt2 w == 8
    | 0x36 => f == 2 || vFmt2 w == 7 || vFmt2 w == 8
    | 0x37 => decide (vFmt2 w < 9) && decide (vPart w < partRatio fm (vFmt2 w))
    | _ => true) &&
  -- positions and distances
  (if mj = 0x35 ∧ (f = 0 ∨ f = 1 ∨ f = 6 ∨ f = 7) then
     decide (0 ≤ imm) && (f == 0 || f == 1 || decide (imm < vlMax fm)) else true) &&
  (mj == 0x36 || !vBS w || vTakesB mj f) &&
  (if mj = 0x36 then !w.getLsbD 36 else vWin w == 0)

/-- One word of a segment (06 R197, R205; 05 R158; 07 R224, R225). -/
def wordOk (w : BitVec 64) : Bool :=
  match wMajor w with
  | 0x0C => wordWOk w
  | 0x11 => wordWOk w
  | 0x12 => wordWOk w
  | 0x20 => wordWOk w
  | 0x18 => wordMOk w
  | 0x19 => wordAOk w
  | n => if 0x30 ≤ n then wordVOk w else wordSOk w

/-- A direct branch stays in its segment (06 R216). -/
def branchOk (len pc : Nat) (w : BitVec 64) : Bool :=
  if wMajor w = 0x08 ∧ (wFunc w < 7 ∨ wFunc w = 8) then
    decide (0 ≤ (pc : Int) + wImm32 w) && decide ((pc : Int) + wImm32 w < len)
  else true

/-! ### The image (06 Tables 6-11, 6-12) -/

/-- Instruction words of a run of bytes. -/
def wordsOf (bs : Bytes) (n : Nat) : List (BitVec 64) := (List.range n).map (fun i => BitVec.ofNat 64 (fieldLe bs (8 * i) 8))

/-- Record `i` of the segment table. -/
def segRec (img : Bytes) (i : Nat) : Bytes := slice img (fieldLe img 24 8 + 16 * i) 16

/-- A segment's record lies in the image and keeps 06 R216. -/
def segRecOk (img : Bytes) (len i : Nat) : Bool :=
  let r := segRec img i
  let n := fieldLe r 4 4
  let start := fieldLe img 32 8 + 8 * fieldLe r 0 4
  fieldLe r 0 4 % 8 == 0 && decide (1 ≤ n) && decide (n ≤ 8192) && decide (32 ≤ fieldLe r 8 4) && fieldLe r 12 4 == 0 &&
  decide (start + 8 * n ≤ len) &&
  (let ws := wordsOf (slice img start (8 * n)) n
   ws.all wordOk && (ws.zipIdx).all (fun x => branchOk n x.2 x.1))

/-- The format checks of an image of `len` bytes. -/
def imageOk (img : Bytes) (len : Nat) : Bool :=
  let segs := fieldLe img 8 4
  decide (64 ≤ len) && fieldLe img 0 4 == 0x49564347 && fieldLe img 4 2 == 1 && fieldLe img 7 1 == 0 &&
  fieldLe img 20 4 == 0 && fieldLe img 56 8 == 0 && decide (1 ≤ segs) && decide (segs ≤ 65535) &&
  decide (fieldLe img 12 4 < segs) && fieldLe img 32 8 % 64 == 0 && decide (fieldLe img 32 8 ≤ len) &&
  decide (fieldLe img 24 8 + 16 * segs ≤ len) && !(fieldLe img 40 8 == 0 && fieldLe img 48 8 != 0) &&
  decide (fieldLe img 40 8 + fieldLe img 48 8 ≤ len) && (List.range segs).all (segRecOk img len)

/-- The program of an image. -/
def imageProgram (img : Bytes) (len : Nat) : Program :=
  let segs := fieldLe img 8 4
  { segs := (List.range segs).map (fun i =>
      let r := segRec img i
      { code := wordsOf (slice img (fieldLe img 32 8 + 8 * fieldLe r 0 4) (8 * fieldLe r 4 4)) (fieldLe r 4 4)
        bound := fieldLe r 8 4 })
    entry := fieldLe img 12 4, coreMem := fieldLe img 16 4, numv := fieldLe img 6 1
    const := slice img (fieldLe img 40 8) (fieldLe img 48 8), imageLen := len }

/-- Largest declared bound. -/
def maxBound (p : Program) : Nat := p.segs.foldl (fun a s => max a s.bound) 0

/-- The working window in core cycles at a clock in MHz, a rate code and a slack code (02 R35, R36). -/
def workWindow (mhz rate slack : Nat) : Nat := mhz * (4000 - slack * rate) / (2 * max rate 1)

end Sys2Proof.Machine
end

