-- ==== Sys2Proof/Machine/CmdsObj.lean ====
section
/-! DEFINITION. The commands of 03: channels, tensors, programs and placement hints. -/
namespace Sys2Proof.Machine
open Sys2Proof

/-! ### Channels (03 R82, R89, R91) -/

/-- A channel by the index of its handle: slot and channel. -/
def chanByIdx (d : Dev) (i : Nat) : Option (Nat × Chan) := d.chans.find? (fun c => c.2.index == i)

def chanHandle (c : Chan) : BitVec 64 := mkHandle 1 c.gen c.index

/-- CHAN_STATE.STATE. -/
def chanState (c : Chan) : Nat := if c.draining then 2 else 1

/-- The slot of a new channel: the one requested, or one of the free ones. -/
def newSlot (d : Dev) (want : Nat) : Nat :=
  if want ≠ 0xFFFF then want
  else nthFree (d.chans.map (·.1)) (Config.choice d.free % max (4096 - d.chans.length) 1)

def chanCreateCheck (d : Dev) (c : Bytes) : Option (Nat × Nat) :=
  let kind := fieldLe c 16 1
  let sub := fieldLe c 17 1
  let out := fieldLe c 18 1
  let vec := fieldLe c 20 2
  let slot := fieldLe c 22 2
  if kind = 0 ∨ 5 < kind then some (rBadField, 16)
  else if sub < 6 ∨ 16 < sub then some (rBadField, 17)
  else if out < sub ∨ 17 < out then some (rBadField, 18)
  else if 2047 < vec ∧ vec ≠ 0xFFFF then some (rBadField, 20)
  else if 4095 < slot ∧ slot ≠ 0xFFFF then some (rBadField, 22)
  else if fieldLe c 24 8 % 4096 ≠ 0 then some (rBadAddress, 24)
  else if fieldLe c 32 8 % 4096 ≠ 0 then some (rBadAddress, 32)
  else if slot ≠ 0xFFFF ∧ (aGet d.chans slot).isSome then some (rInUse, 22)
  else if 4096 ≤ d.chans.length then some (rNoRoom, Config.noField 0x0101 rNoRoom)
  else none

def execChannelCreate (m : Nat) (s : State) : Res :=
  eff (mbxRow m 0x0101 (fun d c =>
    match chanCreateCheck d c with
    | some x => .no x.1 x.2
    | none =>
      let slot := newSlot d (fieldLe c 22 2)
      let n := idxNext (idxReg d 1)
      let vec := fieldLe c 20 2
      let ch : Chan := { gen := n.2, index := n.1, kind := fieldLe c 16 1, subLog2 := fieldLe c 17 1
                         outLog2 := fieldLe c 18 1, vector := if vec = 0xFFFF then none else some vec
                         subBase := BitVec.ofNat 64 (fieldLe c 24 8), outBase := BitVec.ofNat 64 (fieldLe c 32 8) }
      let d := takeFree 1 (takeIdx 1 d)
      .ok { d with chans := aSet d.chans slot ch }
        (toLe 8 (chanHandle ch).toNat ++ toLe 2 slot ++ zeros 2 ++ toLe 4 (0x1000000 + 4096 * slot)))) s

/-- CHANNEL_DESTROY marks the channel draining; the slack ends its items and answers (03 R89). -/
def execChannelDestroy (m : Nat) (s : State) : Res :=
  eff (mbxRow m 0x0102 (fun d c =>
    withHandle d 1 c 16 (fun i =>
      match chanByIdx d i with
      | none => .no rBadHandle 16
      | some (slot, ch) =>
        if ch.draining then (if ch.destroyBy = some m then .busy d else .no rInUse 16)
        else
          let ch : Chan := { ch with draining := true, destroyBy := some m, drainTail := ch.subTail }
          .busy { d with chans := aSet d.chans slot ch }))) s

def execChannelQuery (m : Nat) (s : State) : Res :=
  eff (mbxRow m 0x0103 (fun d c =>
    withHandle d 1 c 16 (fun i =>
      match chanByIdx d i with
      | none => .no rBadHandle 16
      | some (slot, ch) =>
        let admitted := (d.items.filter (fun x => x.2.slot == slot && x.2.stage == .admitted)).length
        .ok d (toLe 1 ch.kind ++ toLe 1 (chanState ch) ++ toLe 2 slot ++ toLe 4 ch.subHead.toNat ++ toLe 4 ch.subTail.toNat
          ++ toLe 4 ch.outTail.toNat ++ toLe 4 ch.outHead.toNat ++ toLe 4 admitted ++ toLe 8 ch.lastSeq.toNat)))) s

/-! ### Doorbells (03 R85, R86) -/

/-- An index write that is ignored (03 R86). -/
def badIndex (slot : Nat) (ch : Chan) (d : Dev) : Dev :=
  logRec { sev := 15, cls := 0x0002, unitKind := 13, logical := BitVec.ofNat 32 slot }
    { d with chans := aSet d.chans slot { ch with badIndex := true } }

/-- A write of SUB_TAIL. -/
def writeSubTail (slot : Nat) (v : BitVec 32) (d : Dev) : Dev :=
  match aGet d.chans slot with
  | none => d
  | some ch =>
    if !(pf0Up d && serves d) then d
    else if ch.draining || ch.closing || decide ((ch.subTail - ch.subHead).toNat > (v - ch.subHead).toNat)
        || decide (2 ^ ch.subLog2 < (v - ch.subHead).toNat) then badIndex slot ch d
    else { d with chans := aSet d.chans slot { ch with subTail := v } }

/-- A write of OUT_HEAD. -/
def writeOutHead (slot : Nat) (v : BitVec 32) (d : Dev) : Dev :=
  match aGet d.chans slot with
  | none => d
  | some ch =>
    if !(pf0Up d && serves d) then d
    else if (ch.outTail - ch.outHead).toNat < (v - ch.outHead).toNat then badIndex slot ch d
    else { d with chans := aSet d.chans slot { ch with outHead := v } }

/-- SUB_TAIL. -/
def execSubTail (slot : Nat) (v : BitVec 32) (host : HostStores) (s : State) : Res :=
  eff (fun d => writeSubTail slot v (hostStores host d)) s

/-- OUT_HEAD. -/
def execOutHead (slot : Nat) (v : BitVec 32) (s : State) : Res := eff (writeOutHead slot v) s

/-! ### Tensors (03 R108 to R112) -/

/-- Default protection of a role (03 Table 3-21). -/
def roleParity (r : Nat) : Bool := decide (2 ≤ r)

/-- Formats that a role allows. -/
def roleFmtOk (role fmt : Nat) : Bool :=
  match role with
  | 2 => decide (fmt ≤ 6)
  | 3 => decide (fmt ≤ 6)
  | 4 => fmt == 3 || fmt == 4
  | 5 => decide (fmt ≤ 6)
  | 7 => fmt == 0x11 || fmt == 0x12
  | 8 => fmt == 0x10
  | _ => true

def tensorDims (c : Bytes) (rank : Nat) : List Nat := (List.range rank).map (fun i => fieldLe c (24 + 4 * i) 4)

def tensorCreateCheck (c : Bytes) : Option (Nat × Nat) :=
  let fmt := fieldLe c 16 1
  let role := fieldLe c 17 1
  let prot := fieldLe c 18 1
  let rank := fieldLe c 19 1
  if !fmtKnown fmt then some (rBadField, 16)
  else if 8 < role then some (rBadField, 17)
  else if !roleFmtOk role fmt then some (rBadField, 16)
  else if 2 < prot ∨ (prot = 2 ∧ roleSecured role = true) then some (rBadField, 18)
  else if rank = 0 ∨ 8 < rank then some (rBadField, 19)
  else if (List.range 8).any (fun i => (fieldLe c (24 + 4 * i) 4 == 0) == decide (i < rank)) then some (rBadField, 24)
  else none

/-- A tensor with its rows placed: none where the memory left does not hold it. -/
def placeTensor (t : Tensor) (d : Dev) : Option (Tensor × Dev) :=
  match alloc t.parity (tBytes t) d with
  | none => none
  | some (p0, d) =>
    if tSecured t then
      match alloc true (tBytes t) { d with tensors := aSet d.tensors 0 { t with place0 := p0 } } with
      | none => none
      | some (p1, d) => some ({ t with place0 := p0, place1 := some p1 }, { d with tensors := aDel d.tensors 0 })
    else some ({ t with place0 := p0 }, d)

/-- Device memory of a tensor (03 Table 3-18, BYTES). -/
def tensorTaken (d : Dev) (t : Tensor) : Nat := (tensorPlaces t).foldl (fun a p => a + placeBytes d p) 0

/-- The scale record of a new FP8 tensor (09 R313). -/
def newScale (fmt : Nat) : Option ScaleRec := if isFp8 fmt then some {} else none

def execTensorCreate (m : Nat) (s : State) : Res :=
  eff (mbxRow m 0x0201 (fun d c =>
    match tensorCreateCheck c with
    | some x => .no x.1 x.2
    | none =>
      let prot := fieldLe c 18 1
      let role := fieldLe c 17 1
      let rank := fieldLe c 19 1
      let n := idxNext (idxReg d 2)
      let t : Tensor := { gen := n.2, fmt := fieldLe c 16 1, role := role
                          parity := if prot = 0 then roleParity role else prot == 1
                          rank := rank, dims := tensorDims c rank, retain := bitOf (fieldLe c 20 4) 0
                          scale := newScale (fieldLe c 16 1) }
      let room := Config.noField 0x0201 rNoRoom
      if 1048576 ≤ d.tensors.length then .no rNoRoom room
      else if tSecured t && overBudget d (tBytes t) then .no rNoRoom room
      else match placeTensor t d with
        | none => .no rNoRoom room
        | some (t, d) =>
          let d := takeIdx 2 d
          let d := noteChange (mkHandle 2 n.2 n.1) { d with tensors := aSet d.tensors n.1 t }
          .ok d (toLe 8 (mkHandle 2 n.2 n.1).toNat ++ toLe 8 (tensorTaken d t) ++ toLe 8 (tElems t)))) s

/-- Remove a tensor: its data, its errors, its rows and its index. -/
def removeTensor (i : Nat) (d : Dev) : Dev :=
  match aGet d.tensors i with
  | none => d
  | some t =>
    let d := noteChange (mkHandle 2 t.gen i) d
    let d := dropObjErrs 0 i { d with tensors := aDel d.tensors i, maps := d.maps.filter (fun x => x.tensor != i) }
    freeIdx 2 i t.gen (sweepRegions d)

/-- Remove a tensor with its working copy (09 R291). -/
def removeMaster (i : Nat) (d : Dev) : Dev :=
  match (aGet d.tensors i).bind (·.working) with
  | some w => removeTensor i (removeTensor w d)
  | none => removeTensor i d

def execTensorDestroy (m : Nat) (s : State) : Res :=
  eff (mbxRow m 0x0202 (fun d c =>
    withHandle d 2 c 16 (fun i =>
      match aGet d.tensors i with
      | none => .no rBadHandle 16
      | some t =>
        if t.workingOf.isSome then .no rNotAllowed 16
        else if namedByItem d (tensorHandle d i) || d.maps.any (fun x => x.tensor == i) || (tSecured t && stepIsOpen d) then
          .no rInUse 16
        else .ok (removeMaster i d) []))) s

def execTensorQuery (m : Nat) (s : State) : Res :=
  eff (mbxRow m 0x0203 (fun d c =>
    withHandle d 2 c 16 (fun i =>
      match aGet d.tensors i with
      | none => .no rBadHandle 16
      | some t =>
        let flags := b2n t.retain + 4 * b2n (tSecured t) + 8 * b2n t.lost
        .ok d (toLe 1 t.fmt ++ toLe 1 t.role ++ toLe 1 (if t.parity then 1 else 2) ++ toLe 1 t.rank ++ toLe 4 flags
          ++ (List.range 8).flatMap (fun k => toLe 4 ((t.dims[k]?).getD 0)) ++ toLe 8 (tensorTaken d t))))) s

def execTensorSetRetain (m : Nat) (s : State) : Res :=
  eff (mbxRow m 0x0204 (fun d c =>
    withTensor d c 16 (fun i t =>
      let v := fieldLe c 24 1
      if 1 < v then .no rBadField 24
      else .ok (noteChange (mkHandle 2 t.gen i) { d with tensors := aSet d.tensors i { t with retain := v == 1 } }) []))) s

/-- End of the 4 KiB page that holds the tensor's last byte. -/
def pageEnd (t : Tensor) : Nat := ceilDiv (tBytes t) 4096 * 4096

def bar2Size : Nat := 2 ^ 36

/-- Free runs of the BAR2 window that hold `len` bytes: (offset, length). -/
def bar2Gaps (d : Dev) (len : Nat) : List (Nat × Nat) :=
  let g := (sortByKey (·.off) d.maps).foldl (fun (st : List (Nat × Nat) × Nat) x =>
    (st.1 ++ [(st.2, x.off - st.2)], max st.2 (x.off + x.len))) ([], 0)
  (g.1 ++ [(g.2, bar2Size - g.2)]).filter (fun x => decide (len ≤ x.2))

def execTensorMap (m : Nat) (s : State) : Res :=
  eff (mbxRow m 0x0205 (fun d c =>
    withTensor d c 16 (fun i t =>
      let off := fieldLe c 24 8
      let len := fieldLe c 32 8
      if t.workingOf.isSome then .no rNotAllowed 16
      else if off % 4096 ≠ 0 ∨ pageEnd t ≤ off then .no rBadField 24
      else if len = 0 ∨ len % 4096 ≠ 0 ∨ pageEnd t < off + len then .no rBadField 32
      else
        let g := bar2Gaps d len
        match g[Config.choice d.free % max g.length 1]? with
        | none => .no rNoRoom (Config.noField 0x0205 rNoRoom)
        | some (base, room) =>
          let at0 := base + 4096 * (Config.choice (d.free + 1) % ((room - len) / 4096 + 1))
          .ok { takeFree 2 d with maps := d.maps ++ [{ off := at0, len := len, tensor := i, tOff := off }] } (toLe 8 at0)))) s

def execTensorUnmap (m : Nat) (s : State) : Res :=
  eff (mbxRow m 0x0206 (fun d c =>
    let off := fieldLe c 16 8
    if d.maps.any (fun x => x.off == off) then .ok { d with maps := d.maps.filter (fun x => x.off != off) } []
    else .no rBadField 16)) s

/-! ### Programs (03 R113, R114) -/

/-- The body that PROGRAM_CREATE and PROGRAM_QUERY return. -/
def programBody (h : BitVec 64) (p : Program) : Bytes :=
  toLe 8 h.toNat ++ toLe 4 p.segs.length ++ toLe 4 (maxBound p) ++ toLe 4 p.coreMem ++ toLe 1 p.numv ++ zeros 3

def programCheck (d : Dev) (addr len : Nat) (img : Bytes) : Option (Nat × Nat) :=
  if addr % 4096 ≠ 0 then some (rBadAddress, 16)
  else if len = 0 ∨ 2 ^ 26 < len then some (rBadField, 24)
  else if !imageOk img len then some (rBadImage, 16)
  else
    let p := imageProgram img len
    if idNumv < p.numv then some (rNumv, 16)
    else if 2097152 < p.coreMem then some (rBadImage, 16)
    else if workWindow 1750 d.tide.rate d.tide.slack < maxBound p then some (rTooLong, 16)
    else if 16384 ≤ d.programs.length ∨ overBudget d len = true then some (rNoRoom, Config.noField 0x0301 rNoRoom)
    else none

def execProgramCreate (m : Nat) (s : State) : Res :=
  eff (mbxRow m 0x0301 (fun d c =>
    let addr := fieldLe c 16 8
    let len := fieldLe c 24 4
    let img := if addr % 4096 ≠ 0 ∨ len = 0 ∨ 2 ^ 26 < len then [] else hostRead d addr len
    if !pf0Requests d then .busy d
    else match programCheck d addr len img with
    | some x => .no x.1 x.2
    | none =>
      let n := idxNext (idxReg d 3)
      let p : Program := { imageProgram img len with gen := n.2 }
      let h := mkHandle 3 n.2 n.1
      .ok (noteChange h { takeIdx 3 d with programs := aSet d.programs n.1 p }) (programBody h p))) s

def execProgramDestroy (m : Nat) (s : State) : Res :=
  eff (mbxRow m 0x0302 (fun d c =>
    withHandle d 3 c 16 (fun i =>
      let h := BitVec.ofNat 64 (fieldLe c 16 8)
      if namedByItem d h then .no rInUse 16
      else .ok (noteChange h (freeIdx 3 i (hGen h) { d with programs := aDel d.programs i })) []))) s

def execProgramQuery (m : Nat) (s : State) : Res :=
  eff (mbxRow m 0x0303 (fun d c =>
    withHandle d 3 c 16 (fun i =>
      match aGet d.programs i with
      | none => .no rBadHandle 16
      | some p => .ok d (programBody (BitVec.ofNat 64 (fieldLe c 16 8)) p ++ toLe 4 p.imageLen)))) s

/-! ### Placement hints (03 R115 to R117) -/

/-- Change the hint of a program or channel: none when the handle names neither. -/
def withHint (d : Dev) (h : BitVec 64) (v : Option Hint → Option Hint) : Option Dev :=
  if handleOk d 3 h then some { d with programs := aMod d.programs (hIdx h) (fun p => { p with hint := v p.hint }) }
  else if handleOk d 1 h then
    some { d with chans := aMap d.chans (fun _ c => if c.index = hIdx h then { c with hint := v c.hint } else c) }
  else none

def hintOf (d : Dev) (h : BitVec 64) : Option (Option Hint) :=
  if handleOk d 3 h then (aGet d.programs (hIdx h)).map (·.hint)
  else if handleOk d 1 h then (chanByIdx d (hIdx h)).map (·.2.hint) else none

def execHintSet (m : Nat) (s : State) : Res :=
  eff (mbxRow m 0x0801 (fun d c =>
    let h := BitVec.ofNat 64 (fieldLe c 16 8)
    let mask := fieldLe c 24 1
    let mode := fieldLe c 25 1
    match withHint d h (fun _ => some { clusters := BitVec.ofNat 6 mask, mode := mode }) with
    | none => .no rBadHandle 16
    | some d' => if 63 < mask then .no rBadField 24 else if mode ≠ 1 ∧ mode ≠ 2 then .no rBadField 25 else .ok d' [])) s

def execHintClear (m : Nat) (s : State) : Res :=
  eff (mbxRow m 0x0802 (fun d c =>
    match withHint d (BitVec.ofNat 64 (fieldLe c 16 8)) (fun _ => none) with
    | none => .no rBadHandle 16
    | some d' => .ok d' [])) s

def execHintQuery (m : Nat) (s : State) : Res :=
  eff (mbxRow m 0x0803 (fun d c =>
    match hintOf d (BitVec.ofNat 64 (fieldLe c 16 8)) with
    | none => .no rBadHandle 16
    | some none => .ok d (zeros 2)
    | some (some h) => .ok d (toLe 1 h.clusters.toNat ++ toLe 1 h.mode))) s

end Sys2Proof.Machine
end

