-- ==== Sys2Proof/Machine/CmdsTrain.lean ====
section
/-! DEFINITION. The commands of 09 (numerics and training: loss scale, flags, masters, scale records) and of 08 (plans,
factor sets, warm-start sets). -/
namespace Sys2Proof.Machine
open Sys2Proof

/-! ### Loss scale (09 R309, R312, R317) -/

/-- The encoding of 2^e in FP32 or FP64. -/
def powTwo (code : Nat) (e : Int) : Nat :=
  match fpOf code with
  | some f => (f.bias + e).toNat * 2 ^ f.fb
  | none => 0

/-- Firmware writes 2^EXP into element 0 of TENSOR (09 R312). -/
def writeLossTensor (d : Dev) : Dev :=
  if handleOk d 2 d.loss.tensor then
    let i := hIdx d.loss.tensor
    let f := ((aGet d.tensors i).map (·.fmt)).getD 1
    (writeTensor i 0 (toLe (fmtBytes f) (powTwo f d.loss.exp)) d).1
  else d

/-- The tensor of a loss scale: a MEASUREMENT tensor in FP32 or FP64. -/
def lossTensorOk (t : Tensor) : Bool := t.role == 6 && (t.fmt == 1 || t.fmt == 2)

def lossSetCheck (d : Dev) (c : Bytes) : Option (Nat × Nat) :=
  let exp := fieldLe c 16 1
  let lo := fieldLe c 17 1
  let hi := fieldLe c 18 1
  let h := BitVec.ofNat 64 (fieldLe c 24 8)
  if h ≠ 0 ∧ handleOk d 2 h = false then some (rBadHandle, 24)
  else if h ≠ 0 ∧ ((aGet d.tensors (hIdx h)).map (·.lost)).getD false = true then some (rTensorLost, 24)
  else if h ≠ 0 ∧ ((aGet d.tensors (hIdx h)).map lossTensorOk).getD false = false then some (rNotAllowed, 24)
  else if exp < lo ∨ hi < exp then some (rBadField, 16)
  else if 24 < lo ∨ hi < lo then some (rBadField, 17)
  else if 24 < hi then some (rBadField, 18)
  else if fieldLe c 20 4 = 0 ∨ 1000000 < fieldLe c 20 4 then some (rBadField, 20)
  else if stepIsOpen d then some (rInUse, Config.noField 0x0701 rInUse)
  else if h ≠ 0 ∧ namedByItem d h = true then some (rInUse, 24)
  else none

def execLossScaleSet (m : Nat) (s : State) : Res :=
  eff (mbxRow m 0x0701 (fun d c =>
    match lossSetCheck d c with
    | some x => .no x.1 x.2
    | none =>
      let r : LossScale := { d.loss with
        exp := (fieldLe c 16 1 : Nat), lo := (fieldLe c 17 1 : Nat), hi := (fieldLe c 18 1 : Nat)
        interval := fieldLe c 20 4, clean := 0, skipped := 0, tensor := BitVec.ofNat 64 (fieldLe c 24 8) }
      .ok (writeLossTensor { d with loss := r }) [])) s

def execLossScaleQuery (m : Nat) (s : State) : Res :=
  eff (mbxRow m 0x0702 (fun d _ =>
    let r := d.loss
    .ok d (toLe 1 r.exp.toNat ++ toLe 1 r.lo.toNat ++ toLe 1 r.hi.toNat ++ zeros 1 ++ toLe 4 r.interval ++ toLe 4 r.clean
      ++ toLe 4 r.skipped ++ toLe 8 r.tensor.toNat ++ toLe 4 r.lastStep))) s

/-! ### Flags (04 R143, R144; 09 R319) -/

def execFlagsQuery (m : Nat) (s : State) : Res :=
  eff (mbxRow m 0x0703 (fun d _ =>
    .ok d (toLe 4 d.devFlags.toNat ++
      (d.cluFlags.map (fun c => toLe 4 c.flags.toNat ++ toLe 2 c.nvCore.toNat ++ zeros 2)).flatten))) s

def execFlagsClear (m : Nat) (s : State) : Res :=
  eff (mbxRow m 0x0704 (fun d _ =>
    .ok { d with devFlags := 0, cluFlags := List.replicate 6 {}
                 cores := aMap d.cores (fun _ c => { c with flagsSince := 0, segCount := 0 }) } [])) s

/-! ### Masters (09 R289 to R292, R318) -/

/-- Poison a sector of a tensor's buffer because its source cannot be read (09 R292). -/
def poisonKey (k : SectorKey) (d : Dev) : Dev :=
  setErrs (d.mem.errs.filter (fun e => decide (e.key ≠ k)) ++ [{ key := k, err := [], poison := true }])
    (pokeBuf k.obj k.buf (64 * k.row) (zeros 64) d)

/-- The FP64 value of element `e` of a master in a buffer: SPLIT takes the low plane (09 R290). -/
def masterBits (t : Tensor) (b e : Nat) : Nat × Nat :=
  let n := fmtBytes t.fmt
  let hi := ofLe (memRead (tBuf t b) (e * n) n)
  if t.master = 1 then (2, hi * 65536 + ofLe (memRead (tBuf t (b + 2)) (2 * e) 2)) else (t.fmt, hi)

/-- Read bytes [off, off + len) of a master: the sectors that cannot be read, each named by a CONTAINED record (09 R292). -/
def badSectors (i b off len : Nat) (d : Dev) : Dev × List Nat :=
  let d := countHits (dataKey i b 0) off len false d
  if anyTrouble d then
    (sectorsOf off len).foldl (fun st n =>
      let k := dataKey i b n
      let was := sectorState st.1 k
      let r := touchSector k st.1
      if r.2 then (r.1, st.2) else (if was = 3 then logSector 1 0x303 4 k r.1 else r.1, st.2 ++ [n])) (d, [])
  else (d, [])

/-- FP64 values of the elements [lo, hi) of a committed master: none where the sector cannot be read. -/
def masterVals (t : Tensor) (lo hi : Nat) (bad : List Nat) : List (Option Nat) :=
  (List.range (hi - lo)).map (fun k =>
    let e := lo + k
    let m := masterBits t (tCommitted t) e
    if bad.contains (e * fmtBytes t.fmt / 64) then none else some (convert m.1 1 .rn false true m.2).1)

/-- Store the elements from `lo` on of a working copy in some of its epochs, and poison in both epochs every sector that holds
an element which the master does not give (09 R292). -/
def putWorking (w lo : Nat) (bufs : List Nat) (whole : Bool) (vals : List (Option Nat)) (d : Dev) : Dev :=
  let u := (aGet d.tensors w).getD {}
  let n := fmtBytes u.fmt
  let exp := (u.scale.map (·.exp)).getD 0
  let bytes := vals.flatMap (fun v => match v with
    | some x => toLe n (storeForm u.fmt (cvtScaled 1 u.fmt exp .rn false false x).1)
    | none => zeros n)
  let bytes := if whole then bytes ++ zeros (ceilDiv bytes.length 64 * 64 - bytes.length) else bytes
  let d := bufs.foldl (fun d b => (storeBuf w b (lo * n) bytes d).1) d
  let lost := ((List.range vals.length).filterMap (fun k =>
    if (vals[k]?).join.isNone then some ((lo + k) * n / 64) else none)).eraseDups
  [0, 1].foldl (fun d b => lost.foldl (fun d k => poisonKey (dataKey w b k) d) d) d

/-- The working copy is formed again from the committed master, in the epochs listed (09 R291, R292). -/
def regenWorking (i : Nat) (bufs : List Nat) (d : Dev) : Dev :=
  match (aGet d.tensors i).bind (·.working) with
  | none => d
  | some w =>
    let t0 := (aGet d.tensors i).getD {}
    let r := badSectors i (tCommitted t0) 0 (tBytes t0) d
    let t := (aGet r.1.tensors i).getD {}
    let u := (aGet r.1.tensors w).getD {}
    let vals := masterVals t 0 (tElems t) r.2
    let amax := amaxOf (vals.filterMap (fun v => v.map (fpAbs fp64)))
    let exp := match u.scale with
      | some sr => if sr.mode = 1 ∧ fp64Finite amax = true ∧ amax ≠ 0 then scaleExp u.fmt amax sr.headroom sr.exp else sr.exp
      | none => 0
    let u : Tensor := { u with sel := t.sel, scale := u.scale.map (fun sr => { sr with exp := exp, hasExp := true }) }
    putWorking w 0 bufs true vals { r.1 with tensors := aSet r.1.tensors w u }

/-- The working copy is formed again over elements [lo, hi) with the exponent in force (17 R565). -/
def regenRange (i lo hi : Nat) (d : Dev) : Dev :=
  match (aGet d.tensors i).bind (·.working) with
  | none => d
  | some w =>
    let t0 := (aGet d.tensors i).getD {}
    let n := fmtBytes t0.fmt
    let r := badSectors i (tCommitted t0) (lo * n) ((hi - lo) * n) d
    let t := (aGet r.1.tensors i).getD {}
    putWorking w lo [tCommitted t] false (masterVals t lo hi r.2) r.1

/-- Table 9-1 formats of a master mode. -/
def masterFmtOk (mode fmt : Nat) : Bool :=
  match mode with
  | 0 => decide (1 ≤ fmt) && decide (fmt ≤ 4)
  | 1 => fmt == 4
  | 2 => fmt == 1 || fmt == 2
  | _ => false

/-- Drop what the old mode attached. -/
def leaveMaster (i : Nat) (t : Tensor) (d : Dev) : Dev :=
  let d := match t.working with | some w => removeTensor w d | none => d
  let d := { d with tensors := aSet d.tensors i { t with master := 0, workFmt := 0, working := none, low0 := [], low1 := [], placeLow := [] } }
  sweepRegions (setErrs (d.mem.errs.filter (fun e => !(e.key.kind == 0 && e.key.obj == i && decide (2 ≤ e.key.buf)))) d)

/-- Attach what a new mode needs: none where the memory is not there. -/
def enterMaster (i mode wf : Nat) (d : Dev) : Option Dev :=
  let t := (aGet d.tensors i).getD {}
  match mode with
  | 1 =>
    match alloc true (2 * tElems t) d with
    | none => none
    | some (p0, d) =>
      match alloc true (2 * tElems t) { d with tensors := aSet d.tensors i { t with placeLow := [p0] } } with
      | none => none
      | some (p1, d) => some { d with tensors := aSet d.tensors i { t with master := 1, placeLow := [p0, p1] } }
  | 2 =>
    let n := idxNext (idxReg d 2)
    let w : Tensor := { gen := n.2, fmt := wf, role := 2, parity := true, rank := t.rank, dims := t.dims, sel := t.sel
                        workingOf := some i
                        scale := if isFp8 wf then some { mode := 1, headroom := 0 } else none }
    if 1048576 ≤ d.tensors.length then none
    else match placeTensor w d with
    | none => none
    | some (w, d) =>
      let d := takeIdx 2 { d with tensors := aSet (aSet d.tensors n.1 w) i { t with master := 2, workFmt := wf, working := some n.1 } }
      some (noteChange (mkHandle 2 n.2 n.1) (regenWorking i [0, 1] d))
  | _ => some d

def masterBytes (d : Dev) (i : Nat) : Nat :=
  match aGet d.tensors i with
  | none => 0
  | some t => tensorTaken d t + ((t.working.bind (aGet d.tensors)).map (tensorTaken d)).getD 0

def execMasterConfig (m : Nat) (s : State) : Res :=
  eff (mbxRow m 0x0711 (fun d c =>
    withTensor d c 16 (fun i t =>
      let mode := fieldLe c 24 1
      let wf := fieldLe c 25 1
      if t.role ≠ 2 ∨ t.workingOf.isSome = true then .no rNotAllowed 16
      else if !masterFmtOk mode t.fmt then .no rBadField 24
      else if (if mode = 2 then !(wf == 4 || wf == 3 || wf == 5 || wf == 6) else wf != 0) then .no rBadField 25
      else if stepIsOpen d || namedByItem d (tensorHandle d i) ||
          ((t.working.map (fun w => namedByItem d (tensorHandle d w))).getD false) then .no rInUse 16
      else
        let before := masterBytes d i
        let room := Config.noField 0x0711 rNoRoom
        let r := if mode = t.master ∧ wf = t.workFmt then some d else enterMaster i mode wf (leaveMaster i t d)
        if mode = 1 && t.master != 1 && overBudget d (2 * tElems t) then .no rNoRoom room
        else match r with
          | none => .no rNoRoom room
          | some d' =>
            let w := ((aGet d'.tensors i).bind (·.working)).map (fun w => (tensorHandle d' w).toNat)
            .ok (noteChange (mkHandle 2 t.gen i) d')
              (toLe 8 (w.getD 0) ++ toLe 8 (wrapBits 64 ((masterBytes d' i : Int) - before)))))) s

def execMasterQuery (m : Nat) (s : State) : Res :=
  eff (mbxRow m 0x0712 (fun d c =>
    withTensor d c 16 (fun _ t =>
      if t.role ≠ 2 then .no rNotAllowed 16
      else .ok d (toLe 1 t.master ++ toLe 1 t.workFmt ++ zeros 6
        ++ toLe 8 ((t.working.map (fun w => (tensorHandle d w).toNat)).getD 0))))) s

/-! ### Scale records (09 R313, R316) -/

def execScaleConfig (m : Nat) (s : State) : Res :=
  eff (mbxRow m 0x0721 (fun d c =>
    withTensor d c 16 (fun i t =>
      let mode := fieldLe c 24 1
      let exp := signExt 8 (fieldLe c 27 1)
      match t.scale with
      | none => .no rNotAllowed 16
      | some r =>
        if mode = 0 ∨ 3 < mode then .no rBadField 24
        else if mode = 1 ∧ t.workingOf.isNone = true then .no rNotAllowed 24
        else if 3 < fieldLe c 25 1 then .no rBadField 25
        else if fieldLe c 26 1 = 0 ∨ 64 < fieldLe c 26 1 then .no rBadField 26
        else if exp < -126 then .no rBadField 27
        else if stepIsOpen d || namedByItem d (tensorHandle d i) then .no rInUse 16
        else
          let r : ScaleRec := { r with mode := mode, headroom := fieldLe c 25 1, window := fieldLe c 26 1, exp := exp
                                       amaxes := [], hasExp := true }
          .ok (noteChange (mkHandle 2 t.gen i) { d with tensors := aSet d.tensors i { t with scale := some r } }) []))) s

/-- WINDOW_MAX. -/
def windowMax (r : ScaleRec) : Nat := amaxOf (r.amaxes.map (·.toNat))

def execScaleQuery (m : Nat) (s : State) : Res :=
  eff (mbxRow m 0x0722 (fun d c =>
    withTensor d c 16 (fun _ t =>
      match t.scale with
      | none => .no rNotAllowed 16
      | some r => .ok d (toLe 1 r.mode ++ toLe 1 r.headroom ++ toLe 1 r.window ++ toLe 1 (wrapBits 8 r.exp)
          ++ toLe 1 r.amaxes.length ++ zeros 3 ++ toLe 8 (windowMax r))))) s

/-! ### Plans (08 R249, R252, R254, R255, R273, R283) -/

/-- The plan of an object. -/
def planOfObj (p : Plan) : SlvPlan := planOf p.desc p.rowptr p.colidx

/-- The structure signature (08 R273). -/
def planSignature (p : SlvPlan) : BitVec 64 :=
  sha64 (toLe 4 p.n ++ toLe 1 p.block ++
    (if p.block = 0 then [] else (p.rowptr.map (toLe 4)).flatten ++ (p.colidx.map (toLe 4)).flatten))

def int32s (bs : Bytes) (off n : Nat) : List Nat := (List.range n).map (fun i => fieldLe bs (off + 4 * i) 4)

/-- The checks of PLAN_CREATE; `asm` and `pat` are the host bytes. -/
def planCheck (d : Dev) (c asm pat : Bytes) : Option (Nat × Nat) :=
  let desc := slice c 16 64
  let aAddr := fieldLe c 80 8
  let aLen := fieldLe c 88 4
  let pAddr := fieldLe c 92 8
  let pLen := fieldLe c 100 4
  match planBad desc false with
  | some o => some (rBadField, 16 + o)
  | none =>
    let p0 := planOf desc [] []
    let r := p0.n / max p0.block 1
    if aAddr % 64 ≠ 0 then some (rBadAddress, 80)
    else if pAddr % 64 ≠ 0 then some (rBadAddress, 92)
    else if (aAddr = 0 ∧ aLen ≠ 0) ∨ (aAddr ≠ 0 ∧ aLen ≠ 64 + 16 * fieldLe asm 4 4) then some (rBadField, 88)
    else if (p0.block = 0) ≠ (pAddr = 0) then some (rBadField, 92)
    else if pLen ≠ (if p0.block = 0 then 0 else 4 * (r + 1) + 4 * p0.nnzb) then some (rBadField, 100)
    else
      let p := { p0 with rowptr := int32s pat 0 (if p0.block = 0 then 0 else r + 1)
                         colidx := int32s pat (4 * (r + 1)) p0.nnzb }
      if p.block ≠ 0 ∧ patternOk p = false then some (rBadField, 92)
      else
        let recs := asm.drop 64
        if aAddr ≠ 0 ∧ (asmDescBad asm || fieldLe asm 1 1 != p.fmt ||
            (fieldLe asm 0 1 == 2 && fieldLe asm 8 2 * fieldLe asm 10 2 != p.n) ||
            (asmRecords asm recs).any (fun x => asmRecBad (fieldLe asm 0 1) x (bitOf (fieldLe asm 2 2) 0))) = true then
          some (rBadField, 80)
        else if aAddr ≠ 0 ∧ (asmTerms p asm recs).any (·.isNone) = true then some (rBadField, 16)
        else if 1984 * 1024 < Config.workBytes desc then some (rBadField, 20)
        else if 4096 ≤ d.plans.length ∨ overBudget d (64 + asm.length + pat.length) = true then
          some (rNoRoom, Config.noField 0x0401 rNoRoom)
        else none

def planBody (h : BitVec 64) (p : Plan) : Bytes := toLe 8 h.toNat ++ toLe 4 p.workBytes ++ toLe 8 p.signature.toNat

def execPlanCreate (m : Nat) (s : State) : Res :=
  eff (mbxRow m 0x0401 (fun d c =>
    let asm := if fieldLe c 80 8 = 0 then [] else hostRead d (fieldLe c 80 8) (fieldLe c 88 4)
    let pat := if fieldLe c 92 8 = 0 then [] else hostRead d (fieldLe c 92 8) (fieldLe c 100 4)
    if (fieldLe c 80 8 != 0 || fieldLe c 92 8 != 0) && !pf0Requests d then .busy d
    else match planCheck d c asm pat with
    | some x => .no x.1 x.2
    | none =>
      let desc := slice c 16 64
      let p0 := planOf desc [] []
      let r := p0.n / max p0.block 1
      let rp := int32s pat 0 (if p0.block = 0 then 0 else r + 1)
      let ci := int32s pat (4 * (r + 1)) p0.nnzb
      let n := idxNext (idxReg d 4)
      let p : Plan := { gen := n.2, desc := desc, asm := asm, rowptr := rp, colidx := ci
                        signature := planSignature (planOf desc rp ci), workBytes := Config.workBytes desc }
      let h := mkHandle 4 n.2 n.1
      .ok (noteChange h { takeIdx 4 d with plans := aSet d.plans n.1 p }) (planBody h p))) s

def execPlanDestroy (m : Nat) (s : State) : Res :=
  eff (mbxRow m 0x0402 (fun d c =>
    withHandle d 4 c 16 (fun i =>
      let h := BitVec.ofNat 64 (fieldLe c 16 8)
      if namedByItem d h || d.factors.any (fun f => f.2.plan == h) then .no rInUse 16
      else .ok (noteChange h (freeIdx 4 i (hGen h) { d with plans := aDel d.plans i })) []))) s

def execPlanQuery (m : Nat) (s : State) : Res :=
  eff (mbxRow m 0x0403 (fun d c =>
    withHandle d 4 c 16 (fun i =>
      match aGet d.plans i with
      | none => .no rBadHandle 16
      | some p => .ok d (planBody (BitVec.ofNat 64 (fieldLe c 16 8)) p ++ slice p.desc 0 64)))) s

/-! ### Factor sets and warm-start sets (08 R268, R272, R283) -/

def execFactorSetCreate (m : Nat) (s : State) : Res :=
  eff (mbxRow m 0x0411 (fun d c =>
    withHandle d 4 c 16 (fun i =>
      let probs := fieldLe c 24 4
      let room := Config.noField 0x0411 rNoRoom
      let desc := ((aGet d.plans i).map (·.desc)).getD []
      if probs = 0 then .no rBadField 24
      else if 1024 ≤ d.factors.length then .no rNoRoom room
      else match alloc true (Config.factorBytes desc * probs) d with
        | none => .no rNoRoom room
        | some (p, d) =>
          let n := idxNext (idxReg d 6)
          let h := mkHandle 6 n.2 n.1
          let f : FactorSet := { gen := n.2, plan := BitVec.ofNat 64 (fieldLe c 16 8), problems := probs, place := p }
          .ok (noteChange h { takeIdx 6 d with factors := aSet d.factors n.1 f }) (toLe 8 h.toNat ++ toLe 8 (placeBytes d p))))) s

def execFactorSetDestroy (m : Nat) (s : State) : Res :=
  eff (mbxRow m 0x0412 (fun d c =>
    withHandle d 6 c 16 (fun i =>
      let h := BitVec.ofNat 64 (fieldLe c 16 8)
      if namedByItem d h then .no rInUse 16
      else .ok (noteChange h (freeIdx 6 i (hGen h) (sweepRegions (dropObjErrs 1 i { d with factors := aDel d.factors i })))) []))) s

def execWarmSetCreate (m : Nat) (s : State) : Res :=
  eff (mbxRow m 0x0421 (fun d c =>
    let n := fieldLe c 16 4
    let slots := fieldLe c 20 4
    let room := Config.noField 0x0421 rNoRoom
    let w : WarmSet := { n := n, slots := slots }
    if n = 0 ∨ 262144 < n then .no rBadField 16
    else if slots = 0 then .no rBadField 20
    else if 1024 ≤ d.warms.length ∨ overBudget d (warmBytes w) = true then .no rNoRoom room
    else match alloc true (2 * warmSpan w) d with
      | none => .no rNoRoom room
      | some (p, d) =>
        let k := idxNext (idxReg d 7)
        let h := mkHandle 7 k.2 k.1
        let w : WarmSet := { w with gen := k.2, place := p }
        .ok (noteChange h { takeIdx 7 d with warms := aSet d.warms k.1 w }) (toLe 8 h.toNat ++ toLe 8 (placeBytes d p)))) s

def warmInUse (d : Dev) (h : BitVec 64) : Bool := namedByItem d h || stepIsOpen d

def execWarmSetDestroy (m : Nat) (s : State) : Res :=
  eff (mbxRow m 0x0422 (fun d c =>
    withHandle d 7 c 16 (fun i =>
      let h := BitVec.ofNat 64 (fieldLe c 16 8)
      if warmInUse d h then .no rInUse 16
      else .ok (noteChange h (freeIdx 7 i (hGen h) (sweepRegions (dropObjErrs 2 i { d with warms := aDel d.warms i })))) []))) s

def execWarmSetClear (m : Nat) (s : State) : Res :=
  eff (mbxRow m 0x0423 (fun d c =>
    withHandle d 7 c 16 (fun i =>
      let h := BitVec.ofNat 64 (fieldLe c 16 8)
      if warmInUse d h then .no rInUse 16
      else .ok (noteChange h { d with warms := aMod d.warms i (fun w => { w with ep0 := [], ep1 := [] }) }) []))) s

end Sys2Proof.Machine
end

