-- ==== Sys2Proof/Machine/CoreSolver.lean ====
section
/-! DEFINITION. The in-program path of the solver unit and the assembly stage (08 R244, R247, R250 to R256, R280, R281;
06 R207): ASM, SLVS, SOLVER_COMPLETE, SLVW and SLVQ. What a unit leaves is computed at its issue and stands at
SOLVER_COMPLETE (log 15); later accesses to the bytes it reads or writes wait (06 R188). -/
namespace Sys2Proof.Machine
open Sys2Proof

/-! ### Operand block (08 Table 8-7) -/

structure SlvOps where
  a : Nat := 0
  b : Nat := 0
  x : Nat := 0
  status : Nat := 0
  work : Nat := 0
  workLen : Nat := 0
  rowptr : Nat := 0
  colidx : Nat := 0
  sa : Nat := 0
  sv : Nat := 0
  count : Nat := 0
  op : Nat := 0
  deriving DecidableEq, Repr

def slvOps (b : Bytes) : SlvOps :=
  { a := fieldLe b 0 4, b := fieldLe b 4 4, x := fieldLe b 8 4, status := fieldLe b 12 4, work := fieldLe b 16 4
    workLen := fieldLe b 20 4, rowptr := fieldLe b 24 4, colidx := fieldLe b 28 4, sa := fieldLe b 32 4
    sv := fieldLe b 36 4, count := fieldLe b 40 4, op := fieldLe b 44 1 }

/-- A 64-byte block can be read at the address. -/
def blockOk (a : BitVec 64) : Bool := a.toNat % 64 == 0 && decide (a.toNat + 64 ≤ cmSize)

/-- `n` runs of `len` bytes, `stride` apart, lie in core memory and are aligned. -/
def runsOk (base stride len n es : Nat) : Bool :=
  base % es == 0 && (n ≤ 1 || stride % es == 0) && decide (base + (n - 1) * stride + len ≤ cmSize)

/-- INT32 values of a pattern in core memory. -/
def cmInts (m : Mem) (a n : Nat) : List Nat :=
  let bs := memRead m a (4 * n)
  (List.range n).map (fun i => fieldLe bs (4 * i) 4)

/-- The plan of an SLVS with the pattern that the operand block names. -/
def slvPlan (c : Core) (pb : Bytes) (o : SlvOps) : SlvPlan :=
  let p := planOf pb [] []
  if p.block = 0 then p
  else { p with rowptr := cmInts c.mem o.rowptr (p.n / p.block + 1), colidx := cmInts c.mem o.colidx p.nnzb }

/-- Elements of a problem's right-hand side and solution for an OP. -/
def slvLenB (p : SlvPlan) (op : Nat) : Nat := if op = 2 then p.n else p.rows
def slvLenX (p : SlvPlan) (op : Nat) : Nat := if op = 2 then p.rows else p.n

/-- The ranges that an SLVS reads or writes. -/
def slvRanges (p : SlvPlan) (o : SlvOps) : List (Nat × Nat) :=
  let es := fmtBytes p.fmt
  [(o.a, (o.count - 1) * o.sa + p.entries * es), (o.b, (o.count - 1) * o.sv + slvLenB p o.op * es),
   (o.x, (o.count - 1) * o.sv + slvLenX p o.op * es), (o.status, 8 * o.count), (o.work, o.workLen)]
  ++ (if p.block = 0 then [] else [(o.rowptr, 4 * (p.n / p.block + 1)), (o.colidx, 4 * p.nnzb)])

/-- Operand ranges and alignments (08 R256). -/
def slvOperandsOk (p : SlvPlan) (o : SlvOps) : Bool :=
  let es := fmtBytes p.fmt
  runsOk o.a o.sa (p.entries * es) o.count es && runsOk o.b o.sv (slvLenB p o.op * es) o.count es &&
  runsOk o.x o.sv (slvLenX p o.op * es) o.count es && runsOk o.status 8 8 o.count 8 && runsOk o.work 0 o.workLen 1 8 &&
  (p.block == 0 || (runsOk o.rowptr 0 (4 * (p.n / p.block + 1)) 1 4 && runsOk o.colidx 0 (4 * p.nnzb) 1 4))

/-- The fault of an SLVS at its issue, the lowest code first (08 Table 8-11, 06 R212). -/
def slvCheck (c : Core) (ra rb : BitVec 64) : Option Nat :=
  if !(blockOk ra && blockOk rb) then some 0x401
  else
    let pb := memRead c.mem ra.toNat 64
    let ob := memRead c.mem rb.toNat 64
    let o := slvOps ob
    let p := planOf pb [] []
    if (planBad pb true).isSome || o.count == 0 || decide (2 < o.op) || !allZero (slice ob 45 19) ||
       (o.op != 0 && decide (c.slvPrev ≠ some (pb, o.count))) then some 0x401
    else if !slvOperandsOk p o then some 0x402
    else if c.tiles.any (fun t => tilesMeet t p.accBase 16) then some 0x403
    else if o.workLen < Config.workBytes pb * o.count then some 0x404
    else if p.block != 0 && !patternOk (slvPlan c pb o) then some 0x407
    else none

/-- What decides the bytes that a unit leaves in WORK: the pattern and the matrices of the problems (08 R277; log 20). -/
def workInputs (c : Core) (p : SlvPlan) (o : SlvOps) : List (BitVec 64) :=
  (p.rowptr ++ p.colidx).map (BitVec.ofNat 64) ++ (List.range o.count).flatMap (fun q =>
    let es := fmtBytes p.fmt
    let bs := memRead c.mem (o.a + q * o.sa) (p.entries * es)
    (List.range p.entries).map (fun i => BitVec.ofNat 64 (fieldLe bs (es * i) es)))

/-- Elements of a format from core memory. -/
def cmVec (m : Mem) (a n fmt : Nat) : List Nat :=
  let es := fmtBytes fmt
  let bs := memRead m a (n * es)
  (List.range n).map (fun i => fieldLe bs (es * i) es)

/-- A vector as it is written to core memory: −0 and NaN in stored form (08 R248, 04 R133). -/
def vecBytes (fmt : Nat) (v : List Nat) : Bytes := (v.map (fun x => toLe (fmtBytes fmt) (storeForm fmt x))).flatten

/-- The bytes that an OP 0 leaves in WORK. -/
def workLeft (pb : Bytes) (inputs : List (BitVec 64)) (n : Nat) : Bytes := (List.range n).map (Config.workByte pb inputs)

/-- The factors that an OP 1 or 2 finds: those of the last OP 0 while WORK is as it left it (08 R256). -/
def slvKept (c : Core) (o : SlvOps) (p : Nat) : Option FactorData :=
  let pb := (c.slvPrev.map (·.1)).getD []
  let left := workLeft pb c.slvWork.2.2 c.slvWork.2.1
  if o.work = c.slvWork.1 ∧ memRead c.mem o.work c.slvWork.2.1 = left then aGet c.slvFactors p
  else
    let q := Config.factorsFrom (memRead c.mem o.work o.workLen) p
    some { mats := q.1, aux := q.2.1, perm := q.2.2 }

/-- One problem of an SLVS. -/
def slvOne (c : Core) (p : SlvPlan) (o : SlvOps) (q : Nat) : SlvOut :=
  let b := cmVec c.mem (o.b + q * o.sv) (slvLenB p o.op) p.fmt
  if o.op = 0 then
    solveFresh p (cmVec c.mem (o.a + q * o.sa) p.entries p.fmt) b none 0
  else
    match slvKept c o q with
    | some fd => solveKept p fd (o.op == 2) b
    | none => noFactorOut p.f (slvLenX p o.op)

/-- The summary of 08 R280. -/
def slvSummaryOf (ws : List (BitVec 64)) : BitVec 64 :=
  let st := fun (w : BitVec 64) => w.toNat % 16
  let fin := (ws.filter (fun w => st w != 0 && st w != 5)).length
  let notes := ws.foldl (fun a w => a ||| (w.toNat / 256 % 256)) 0
  let cap := (ws.filter (fun w => st w == 2)).length
  let bad := (ws.filter (fun w => st w == 3 || st w == 4)).length
  BitVec.ofNat 64 (min fin 0xFFFFFF + notes * 2 ^ 24 + min cap 0xFFFF * 2 ^ 32 + min bad 0xFFFF * 2 ^ 48)

/-- What an SLVS will leave. -/
def slvJobOf (c : Core) (ra rb : BitVec 64) : Job :=
  match slvCheck c ra rb with
  | some k => { fault := some k, faultAddr := ra.toNat }
  | none =>
    let pb := memRead c.mem ra.toNat 64
    let o := slvOps (memRead c.mem rb.toNat 64)
    let p := slvPlan c pb o
    let outs := (List.range o.count).map (slvOne c p o)
    let words := outs.map (·.word)
    let xs := (outs.zipIdx).map (fun y => (o.x + y.2 * o.sv, vecBytes p.fmt y.1.x))
    let facts := (outs.zipIdx).filterMap (fun y =>
      if y.1.state = 1 ∨ y.1.state = 2 then some (y.2, y.1.fd) else none)
    let inputs := workInputs c p o
    { stores := xs ++ [(o.status, (words.map (fun w => toLe 8 w.toNat)).flatten)]
        ++ (if o.op = 0 then [(o.work, workLeft pb inputs o.workLen)] else [])
      ranges := slvRanges p o ++ [(ra.toNat, 64), (rb.toNat, 64)]
      flags := outs.foldl (fun f y => f ||| y.flags) 0
      status := words, factors := if o.op = 0 then facts else c.slvFactors
      prev := if o.op = 0 then some (pb, o.count) else none
      work := if o.op = 0 then (o.work, o.workLen, inputs) else c.slvWork
      acc := p.accBase }

/-- Uncorrectable data that a DMA owes to a range that the unit reads or writes, with the range's address (06 R196). -/
def slvOwes (c : Core) (ra rb : BitVec 64) : Option (Nat × Nat) :=
  let poison := fun (r : Nat × Nat) => (cmPoison c r.1 r.2).map (fun t => (t, r.1))
  (([(ra.toNat, 64), (rb.toNat, 64)].findSome? poison).or
    (if (slvCheck c ra rb).isSome then none
     else
      let o := slvOps (memRead c.mem rb.toNat 64)
      (slvRanges (slvPlan c (memRead c.mem ra.toNat 64) o) o).findSome? poison))

/-- SLVS (08 R255): it waits while the solver unit is busy or a read of its operands must wait. -/
def execSlvs (l : Nat) (w : BitVec 64) (s : State) : Res :=
  eff (coreRow l w (wMajor w == 0x1C && wFunc w == 1) (fun d c =>
    let ra := rdS c (wRA w)
    let rb := rdS c (wRB w)
    if c.slvJob.isSome || c.asmJob.isSome || !c.outJobs.isEmpty then .stall
    else match slvOwes c ra rb with
      | some t => .memory t.1 t.2 d
      | none => done d { c with slvJob := some (slvJobOf c ra rb) })) s

/-! ### The assembly stage in a program (08 R250 to R252) -/

/-- The plan shape that stands for the targets of an in-program assembly (log 20). -/
def asmShape (q : AsmPlace) (fmt : Nat) : SlvPlan :=
  if q.block = 0 then { method := if q.m = q.n then 1 else 3, fmt := fmt, n := q.n, m := q.m }
  else { method := 0x10, fmt := fmt, n := q.n, block := q.block, nnzb := q.colidx.length, rowptr := q.rowptr, colidx := q.colidx }

/-- Read the source values that the terms name: (element index, FP64 value), none on a bus error. -/
def asmFetch (c : Core) (w : Window) (es : List Nat) (d : Dev) : Dev × Option (Fl (List (Nat × Nat))) :=
  es.foldl (fun acc e =>
    match acc.2 with
    | none => acc
    | some l =>
      let r := winRead w c e acc.1
      (r.1, r.2.map (fun b =>
        let v := convert w.fmt 1 .rn false true b
        (l.1 ++ [(e, v.1)], l.2 ||| v.2)))) (d, some ([], 0))

/-- The window of the sources of a kind: parameters or measurements. -/
def asmWin (c : Core) (desc : Bytes) (kind : Nat) : Option Window := rdW c (fieldLe desc (11 + kind) 1)
/-- Elements of a problem's slice of the sources of a kind. -/
def asmStride (desc : Bytes) (kind : Nat) : Nat := fieldLe desc (if kind = 1 then 16 else 24) 8

/-- Window index of a term's source in a problem, and the window's element at it. -/
def asmIndex (desc : Bytes) (pr : Nat) (t : AsmTerm) : Int := ((pr * asmStride desc t.kind + t.index : Nat) : Int)
def asmElem (d : Dev) (c : Core) (desc : Bytes) (pr : Nat) (t : AsmTerm) : Option Nat :=
  (asmWin c desc t.kind).bind (fun w => winElem d c w (asmIndex desc pr t))

/-- What the sources of an assembly fail on, the lowest code first: their windows (06 R194, R195) and their slices (R252). -/
def asmSourceCheck (d : Dev) (c : Core) (desc : Bytes) (problems : Nat) (terms : List AsmTerm) : Chk :=
  let src := terms.filter (fun t => t.kind != 0)
  let bound := fun (pr : Nat) (t : AsmTerm) => (asmWin c desc t.kind).bind (fun w => winBound d c w (asmIndex desc pr t))
  lowest [
    lowest (src.map (fun t => winPerm (asmWin c desc t.kind) false)),
    (List.range problems).findSome? (fun pr => src.findSome? (bound pr)),
    if src.any (fun t => asmStride desc t.kind != 0 && decide (asmStride desc t.kind ≤ t.index)) then some (0x406, 0) else none]

/-- The targets of an in-program assembly (log 20); a stencil has n = GRID_X × GRID_Y (08 Table 8-3). -/
def asmTargets (desc recs : Bytes) : AsmPlace :=
  let q := Config.asmPlace desc recs
  if fieldLe desc 0 1 = 2 then { q with n := fieldLe desc 8 2 * fieldLe desc 10 2, m := fieldLe desc 8 2 * fieldLe desc 10 2 } else q

/-- What an ASM will leave. -/
def asmJobOf (d : Dev) (c : Core) (ra : BitVec 64) : Dev × Job :=
  let bad := fun (k a : Nat) => (d, ({ fault := some k, faultAddr := a } : Job))
  let desc := memRead c.mem ra.toNat 64
  let n := fieldLe desc 4 4
  let rec0 := fieldLe desc 32 4
  if !blockOk ra || asmDescBad desc || decide (cmSize < rec0 + 16 * n) then bad 0x405 ra.toNat
  else
    let recs := memRead c.mem rec0 (16 * n)
    let rhs := bitOf (fieldLe desc 2 2) 0
    let fmt := fieldLe desc 1 1
    if (asmRecords desc recs).any (fun r => asmRecBad (fieldLe desc 0 1) r rhs) then bad 0x405 ra.toNat
    else
      let q := asmTargets desc recs
      let p := asmShape q fmt
      let ts := asmTerms p desc recs
      let terms := ts.filterMap id
      let size := p.entries + (if rhs then p.rows else 0)
      let es := fmtBytes fmt
      let index : Chk := if ts.any (·.isNone) || terms.any (fun t => decide (size ≤ t.target)) then some (0x406, ra.toNat) else none
      match lowest [asmSourceCheck d c desc q.problems terms, index] with
      | some x => bad x.1 x.2
      | none =>
        let fetch : Nat → Dev → Dev × Option (Fl (List (Nat × Nat))) := fun k d =>
          match asmWin c desc k with
          | none => (d, some ([], 0))
          | some w => asmFetch c w (((List.range q.problems).map (fun pr =>
              terms.filterMap (fun (t : AsmTerm) => if t.kind = k then asmElem d c desc pr t else none))).flatten.eraseDups) d
        let r1 := fetch 1 d
        let r2 := fetch 2 r1.1
        match r1.2, r2.2 with
        | some v1, some v2 =>
          let look := fun (vs : List (Nat × Nat)) (k pr i : Nat) =>
            (((asmElem d c desc pr { kind := k, index := i }).bind (fun e => vs.find? (fun y => y.1 == e))).map (·.2)).getD 0
          let outs : List (Fl (List Nat)) := (List.range q.problems).map (fun pr => asmRun terms size fmt (look v1.1 1 pr) (look v2.1 2 pr) true)
          let st := (outs.zipIdx).map (fun y =>
            [(q.mat + y.2 * q.strideA, vecBytes fmt (y.1.1.take p.entries)),
             (q.rhs + y.2 * q.strideV, vecBytes fmt (y.1.1.drop p.entries))])
          (r2.1, { stores := st.flatten.filter (fun x => decide (x.1 + x.2.length ≤ cmSize))
                   ranges := [(ra.toNat, 64), (rec0, 16 * n), (q.mat, (q.problems - 1) * q.strideA + p.entries * es),
                              (q.rhs, (q.problems - 1) * q.strideV + p.rows * es)]
                   flags := outs.foldl (fun f y => f ||| y.2) (v1.2 ||| v2.2) })
        | _, _ => (r2.1, { poison := some (((asmWin c desc (if r1.2.isNone then 1 else 2)).map (·.tensor)).getD 0) })

/-- Uncorrectable data that a DMA owes to an assembly's descriptor or records. -/
def asmOwes (c : Core) (ra : BitVec 64) : Option (Nat × Nat) :=
  let desc := memRead c.mem ra.toNat 64
  [(ra.toNat, 64), (fieldLe desc 32 4, 16 * fieldLe desc 4 4)].findSome? (fun r => (cmPoison c r.1 r.2).map (fun t => (t, r.1)))

/-- ASM (08 R250). -/
def execAsm (l : Nat) (w : BitVec 64) (s : State) : Res :=
  eff (coreRow l w (wMajor w == 0x1C && wFunc w == 0) (fun d c =>
    let ra := rdS c (wRA w)
    if c.slvJob.isSome || c.asmJob.isSome || !c.outJobs.isEmpty then .stall
    else match asmOwes c ra with
      | some t => .memory t.1 t.2 d
      | none =>
        let r := asmJobOf d c ra
        done r.1 { c with asmJob := some r.2 })) s

/-! ### Completion -/

/-- Byte addresses of the 16 slots from ACC_BASE are at +0 (08 R247). -/
def clearSlots (acc : Mem) (base : Nat) : Mem :=
  acc.filter (fun x => decide (x.1 < base * 4096) || decide ((base + 16) * 4096 ≤ x.1))

/-- A unit of a core finishes: its fault or poison waits for SLVW or SEGEND, else what it computed stands. -/
def jobDone (j : Job) (isSolve : Bool) (c : Core) : Core :=
  match j.poison, j.fault with
  | some t, _ => { c with slvPoison := c.slvPoison.or (some t) }
  | none, some k =>
    if c.slvFault.isSome then c else { c with slvFault := some k, slvFaultAddr := BitVec.ofNat 64 j.faultAddr }
  | none, none =>
    let c := raise j.flags { c with mem := j.stores.foldl (fun m x => memWrite m x.1 x.2) c.mem }
    if isSolve then
      { c with slvStatus := j.status, slvSummary := slvSummaryOf j.status, slvFactors := j.factors
               slvPrev := j.prev, slvWork := j.work, acc := clearSlots c.acc j.acc }
    else c

/-- SOLVER_COMPLETE: the assembly stage or the solver unit of a core goes idle. -/
def execSolverComplete (l : Nat) (s : State) : Res :=
  eff (fun d => match coreRuns d l with
    | none => d
    | some c =>
      match c.asmJob, c.slvJob with
      | some j, _ => setCore l (jobDone j false { c with asmJob := none }) d
      | none, some j => setCore l (jobDone j true { c with slvJob := none }) d
      | none, none => d) s

/-- SLVW (08 R280, R281). -/
def execSlvw (l : Nat) (w : BitVec 64) (s : State) : Res :=
  eff (coreRow l w (wMajor w == 0x1C && wFunc w == 2) (fun d c =>
    if c.slvJob.isSome || c.asmJob.isSome then .stall
    else match c.slvPoison, c.slvFault with
      | some t, _ => .memory t c.slvFaultAddr.toNat d
      | none, some k => .fault k c.slvFaultAddr.toNat d
      | none, none => done d (wrS (wRD w) c.slvSummary c))) s

/-- SLVQ (08 R280). -/
def execSlvq (l : Nat) (w : BitVec 64) (s : State) : Res :=
  eff (coreRow l w (wMajor w == 0x1C && wFunc w == 3) (fun d c =>
    let q := (rdS c (wRB w)).toNat
    match c.slvStatus[q]? with
    | some v => done d (wrS (wRD w) v c)
    | none => done d (wrS (wRD w) (Config.slvqBeyond c.slvStatus (rdS c (wRB w))) c))) s

end Sys2Proof.Machine
end

