-- ==== Sys2Proof/Machine/SolverItems.lean ====
section
/-! DEFINITION. Solver items (08 R245, R246, R268 to R285): the argument record, its checks at admission, and the rows
SOLVE, ADJOINT, TANGENT and ASSEMBLE. A row gives one problem on its held core some completed work units; the problem's
values stand when its last unit completes (log 15). -/
namespace Sys2Proof.Machine
open Sys2Proof

/-! ### Reads that may meet uncorrectable data -/

/-- A value read, or the tensor whose data could not be read. -/
inductive Rd (α : Type) where
  | ok (d : Dev) (a : α)
  | bad (d : Dev) (tensor : Nat)

def Rd.then {α β : Type} (x : Rd α) (f : Dev → α → Rd β) : Rd β :=
  match x with
  | .ok d a => f d a
  | .bad d t => .bad d t

/-- `n` elements of a tensor from element `e`, as bits. -/
def readVals (h : BitVec 64) (e n : Nat) (d : Dev) : Rd (List Nat) :=
  let es := fmtBytes (((aGet d.tensors (hIdx h)).map (·.fmt)).getD 16)
  let r := readTensor (hIdx h) (e * es) (n * es) d
  match r.2 with
  | some b => .ok r.1 ((List.range n).map (fun i => fieldLe b (es * i) es))
  | none => .bad r.1 (hIdx h)

/-- Listed elements of a slice, each converted to FP64 (08 R251). -/
def readSources (h : BitVec 64) (base : Nat) (idx : List Nat) (d : Dev) : Rd (Fl (Assoc Nat)) :=
  let fmt := ((aGet d.tensors (hIdx h)).map (·.fmt)).getD 1
  idx.foldl (fun (st : Rd (Fl (Assoc Nat))) j => st.then (fun d a =>
    (readVals h (base + j) 1 d).then (fun d v =>
      let x := convert fmt 1 .rn false true ((v.head?).getD 0)
      .ok d (aSet a.1 j x.1, a.2 ||| x.2)))) (.ok d ([], 0))

/-- Store bits into consecutive elements; false where 10 R330 discarded one. -/
def storeVals (h : BitVec 64) (e : Nat) (vals : List Nat) (d : Dev) : Dev × Bool :=
  let es := fmtBytes (((aGet d.tensors (hIdx h)).map (·.fmt)).getD 16)
  writeTensor (hIdx h) (e * es) ((vals.map (toLe es)).flatten) d

/-! ### The argument record (08 Table 8-14) -/

def slvFirst (it : Item) : Nat := it.arg3.toNat % 2 ^ 32
def slvCount (it : Item) : Nat := it.arg3.toNat / 2 ^ 32
def recH (it : Item) (off : Nat) : BitVec 64 := BitVec.ofNat 64 (fieldLe it.upd off 8)
def itemPlan (d : Dev) (it : Item) : Plan := (aGet d.plans (hIdx it.object)).getD {}
def slvWarmBase (it : Item) : Nat := fieldLe it.upd 56 4
def planTerms (pl : Plan) : List AsmTerm := (asmTerms (planOfObj pl) pl.asm (pl.asm.drop 64)).filterMap id
def planHasAsm (pl : Plan) : Bool := !pl.asm.isEmpty
def asmRhs (pl : Plan) : Bool := planHasAsm pl && bitOf (fieldLe pl.asm 2 2) 0
def asmSize (pl : Plan) : Nat := (planOfObj pl).entries + (if asmRhs pl then (planOfObj pl).rows else 0)

/-- The assembled targets of problem `q`; a tangent keeps the parameter terms only (08 R270). -/
def assembled (it : Item) (pl : Plan) (q : Nat) (tangent : Bool) (d : Dev) : Rd (Fl (List Nat)) :=
  let ts := if tangent then (planTerms pl).filter (fun t => t.kind == 1) else planTerms pl
  let idx := fun k => ((ts.filter (fun t => t.kind == k)).map (·.index)).eraseDups
  (readSources (recH it 0) (q * fieldLe pl.asm 16 8) (idx 1) d).then (fun d p =>
    (readSources (recH it 8) (q * fieldLe pl.asm 24 8) (idx 2) d).then (fun d m =>
      let r := asmRun ts (asmSize pl) (planOfObj pl).fmt (fun j => (aGet p.1 j).getD 0) (fun j => (aGet m.1 j).getD 0) true
      .ok d (r.1, p.2 ||| m.2 ||| r.2)))

/-! ### Checks at admission (08 R271, R285; log 24) -/

/-- What an admission check comes to. -/
inductive AdmRes where
  | taken (d : Dev) (it : Item)
  | wait (d : Dev)
  | refuse (reason off : Nat)
  | fail (d : Dev) (status detail : Nat)

/-- Why a record's tensor does not serve: a dead handle, a lost tensor, or a wrong format or size. -/
def tensorBad (d : Dev) (h : BitVec 64) (need : Nat) (okT : Tensor → Bool) : Option Nat :=
  if !handleOk d 2 h then some rBadHandle
  else match aGet d.tensors (hIdx h) with
    | none => some rBadHandle
    | some t => if t.lost then some rTensorLost else if okT t && decide (need ≤ tElems t) then none else some rBadField

/-- Highest source index of a kind, plus one. -/
def srcSpan (pl : Plan) (kind : Nat) : Nat :=
  ((planTerms pl).filter (fun t => t.kind == kind)).foldl (fun m t => max m (t.index + 1)) 0

/-- The tensors that an operation needs: field, elements, test. -/
def slvNeeds (it : Item) (pl : Plan) : List (Nat × Nat × (Tensor → Bool)) :=
  let p := planOfObj pl
  let top := slvFirst it + slvCount it
  let slices := fun (stride span : Nat) => if span = 0 then 0 else (top - 1) * stride + span
  let fm := fun (t : Tensor) => t.fmt == p.fmt
  let out := fun (t : Tensor) => t.fmt == p.fmt && !tSecured t
  let st := fun (t : Tensor) => t.fmt == 0x12 && !tSecured t
  let rs := fun (t : Tensor) => t.fmt == 1 && !tSecured t
  let any := fun (_ : Tensor) => true
  let meas := if recH it 8 = 0 ∧ srcSpan pl 2 = 0 then [] else [(8, slices (fieldLe pl.asm 24 8) (srcSpan pl 2), any)]
  let par := [(0, slices (fieldLe pl.asm 16 8) (srcSpan pl 1), any)]
  let resid := if p.residOut then [(48, top, rs)] else []
  match it.op with
  | 1 =>
    (if planHasAsm pl then (if srcSpan pl 1 = 0 && recH it 0 == 0 then [] else par) ++ meas else [(16, top * p.entries, fm)])
    ++ (if asmRhs pl then [] else [(24, top * p.rows, fm)]) ++ [(32, top * p.n, out), (40, top, st)] ++ resid
  | 2 =>
    [(24, top * p.n, fm), (32, top * p.rows, out), (40, top, st)] ++ resid ++
    (if recH it 56 = 0 then [] else
      [(56, if planHasAsm pl then (top - 1) * fieldLe pl.asm 16 8 + srcSpan pl 1 else 0,
        fun t => decide (t.fmt ≤ 6) && !tSecured t && planHasAsm pl)])
  | 3 => par ++ [(32, top * p.n, out), (40, top, st)] ++ resid
  | _ =>
    (if srcSpan pl 1 = 0 && recH it 0 == 0 then [] else par) ++ meas ++ [(16, top * p.entries, out)] ++
    (if recH it 24 = 0 then [] else [(24, top * p.rows, fun t => out t && asmRhs pl)]) ++ [(40, top, st)]

/-- Firmware's checks of a solver item once its record is read. -/
def solverCheck (d : Dev) (it : Item) : Option (Nat × Nat) :=
  let pl := itemPlan d it
  let p := planOfObj pl
  let top := slvFirst it + slvCount it
  let badT := (slvNeeds it pl).findSome? (fun x => tensorBad d (recH it x.1) x.2.1 x.2.2)
  let fs := aGet d.factors (hIdx it.arg1)
  let ws := aGet d.warms (hIdx it.arg2)
  let wantsF := (it.op == 1 && p.retain) || it.op == 2 || it.op == 3
  let wantsW := it.op == 1 && p.warm
  if badT.isSome then some (badT.getD 0, 24)
  else if (it.op = 3 ∨ it.op = 4) ∧ planHasAsm pl = false then some (rBadField, 16)
  else if wantsF && it.arg1 == 0 then some (rBadField, 32)
  else if wantsF && !(fs.any (fun f => f.plan == it.object && decide (top ≤ f.problems))) then some (rBadField, 32)
  else if wantsW && it.arg2 == 0 then some (rBadField, 40)
  else if wantsW && !(ws.any (fun w => w.n == p.n && decide (slvWarmBase it + slvCount it ≤ w.slots))) then some (rBadField, 40)
  else if (it.op = 2 ∨ it.op = 3) ∧ (fs.bind (·.step)) ≠ some it.step then some (rDepFailed, 32)
  else none

/-- The argument record of a solver item: the copy of an admitted one, else as its tensor holds it now. -/
def recNow (d : Dev) (it : Item) : Bytes :=
  if it.upd.isEmpty then
    let t := (aGet d.tensors (hIdx it.arg0)).getD {}
    memRead (tBuf t (tCommitted t)) 0 64
  else it.upd

/-- An item that reads, or that fills, its factor set. -/
def factorReads (it : Item) : Bool := it.op == 2 || it.op == 3
def factorWrites (d : Dev) (it : Item) : Bool := it.op == 1 && (planOfObj (itemPlan d it)).retain

/-- An earlier-consumed item that has not ended. -/
def slvBefore (it o : Item) : Bool := decide (o.order < it.order) && o.kind == 2 && (o.stage == .consumed || o.stage == .admitted)

/-- An earlier user of the factor set holds this item back (08 R271). -/
def solverWaits (d : Dev) (it : Item) : Bool :=
  d.items.any (fun x => slvBefore it x.2 && it.arg1 != 0 && x.2.arg1 == it.arg1 &&
    ((factorReads it && factorWrites d x.2) || (factorWrites d it && factorReads x.2)))

/-- Slots of the warm-start set that an item uses: first and number. -/
def warmUse (d : Dev) (it : Item) : Option (Nat × Nat) :=
  if it.op = 1 ∧ it.arg2 ≠ 0 ∧ (planOfObj (itemPlan d it)).warm = true then some (fieldLe (recNow d it) 56 4, slvCount it) else none

/-- An earlier-consumed item uses the same warm-start slots (08 R285). -/
def warmWaits (d : Dev) (it : Item) : Bool :=
  d.items.any (fun x => slvBefore it x.2 && x.2.arg2 == it.arg2 &&
    (match warmUse d it, warmUse d x.2 with
      | some u, some v => decide (u.1 < v.1 + v.2) && decide (v.1 < u.1 + u.2)
      | _, _ => false))

/-- A solver item is admitted: its record is copied, its problems are set up, and a SOLVE with RETAIN empties the places
that it is going to fill (08 R268). -/
def solverAdmit (d : Dev) (it : Item) : AdmRes :=
  match aGet d.tensors (hIdx it.arg0) with
  | none => .refuse rBadHandle 24
  | some t =>
    if t.role ≠ 8 ∨ tBytes t < 64 then .refuse rBadField 24
    else
      let r := readTensor (hIdx it.arg0) 0 64 d
      match r.2 with
      | none => .fail r.1 0x12 (hIdx it.arg0)
      | some b =>
        let it := { it with upd := b }
        match solverCheck r.1 it with
        | some x => .refuse x.1 x.2
        | none =>
          if warmWaits r.1 it then .wait r.1
          else
            let it := { it with probs := (List.range (slvCount it)).map (fun k => (k, ({} : Prob))) }
            let gone := fun (f : FactorSet) =>
              { f with data := f.data.filter (fun x => !(decide (slvFirst it ≤ x.1) && decide (x.1 < slvFirst it + slvCount it))) }
            let d := if factorWrites r.1 it then { r.1 with factors := aMod r.1.factors (hIdx it.arg1) gone } else r.1
            .taken d it

/-! ### Warm-start slots (08 R272, R274) -/

def warmCommitted (w : WarmSet) : Assoc WarmSlot := if w.sel then w.ep1 else w.ep0
def warmNew (w : WarmSet) : Assoc WarmSlot := if w.sel then w.ep0 else w.ep1
def setWarmNew (w : WarmSet) (l : Assoc WarmSlot) : WarmSet := if w.sel then { w with ep0 := l } else { w with ep1 := l }
def setWarmCommitted (w : WarmSet) (l : Assoc WarmSlot) : WarmSet := if w.sel then { w with ep1 := l } else { w with ep0 := l }

/-- The bytes of a slot in an epoch of a warm-start set: its key, where they begin, and how many they are (log 26). -/
def warmSpot (i : Nat) (w : WarmSet) (other : Bool) (slot : Nat) : SectorKey × Nat × Nat :=
  ({ kind := 2, obj := i }, (if w.sel != other then warmSpan w else 0) + slot * (8 * (w.n + 1)), 8 * (w.n + 1))

/-- The start of a problem, where its plan is WARM, and its notes (08 R274). -/
def warmStart (d : Dev) (it : Item) (pl : Plan) (k : Nat) : Rd (Option (List Nat) × Nat) :=
  let p := planOfObj pl
  let cold := List.replicate p.n 0
  let i := hIdx it.arg2
  if !p.warm then .ok d (none, 0)
  else match aGet d.warms i with
    | none => .ok d (some cold, 0)
    | some w =>
      let at_ := warmSpot i w false (slvWarmBase it + k)
      let r := touchBytes at_.1 at_.2.1 at_.2.2 d
      if !r.2 then .bad r.1 i
      else match aGet (warmCommitted w) (slvWarmBase it + k) with
        | none => .ok r.1 (some cold, 0)
        | some s =>
          if s.sig = pl.signature then .ok r.1 (some (s.x.map (fun v => (convert 1 p.fmt .rn false true v.toNat).1)), 0)
          else .ok r.1 (some cold, noteWarm)

/-- A step's item writes a slot of the new epoch, which starts as the committed contents; the write is ferried. False where a
sector of it was discarded (10 R330). -/
def warmWrite (step i slot : Nat) (s : WarmSlot) (d : Dev) : Dev × Bool :=
  match aGet d.warms i with
  | none => (d, true)
  | some w =>
    let base := if d.step.writtenWarm.contains i then warmNew w else warmCommitted w
    let at_ := warmSpot i w true slot
    let r := writeBytes at_.1 at_.2.1 at_.2.2 d
    (ferryData step i 2 (slot * (8 * (w.n + 1))) (warmSlotBytes s)
      { r.1 with warms := aSet r.1.warms i (setWarmNew w (aSet base slot s))
                 step := { r.1.step with writtenWarm := addNew r.1.step.writtenWarm i } }, r.2.2.isEmpty)

/-- A step-free item's slots become committed when it ends. -/
def warmCommit (i : Nat) (l : List (Nat × WarmSlot)) (d : Dev) : Dev :=
  match aGet d.warms i with
  | none => d
  | some w =>
    let d := l.foldl (fun d s => [false, true].foldl (fun d e =>
      let at_ := warmSpot i w e s.1
      (writeBytes at_.1 at_.2.1 at_.2.2 d).1) d) d
    { d with warms := aMod d.warms i (fun w =>
        let put := fun (m : Assoc WarmSlot) => l.foldl (fun m s => aSet m s.1 s.2) m
        setWarmNew (setWarmCommitted w (put (warmCommitted w))) (put (warmNew w))) }

/-! ### One problem -/

/-- What a problem comes to, from reads alone, with the work units it takes. -/
def solveWork (d : Dev) (it : Item) (k : Nat) : Rd (SlvOut × Nat) :=
  let pl := itemPlan d it
  let p := planOfObj pl
  let q := slvFirst it + k
  let asm : Rd (Fl (List Nat)) := if planHasAsm pl then assembled it pl q false d
    else (readVals (recH it 16) (q * p.entries) p.entries d).then (fun d a => .ok d (a, 0))
  asm.then (fun d a =>
    let rhs : Rd (List Nat) := if asmRhs pl then .ok d (a.1.drop p.entries) else readVals (recH it 24) (q * p.rows) p.rows d
    rhs.then (fun d b =>
      (warmStart d it pl k).then (fun d w =>
        let o := solveFresh p (a.1.take p.entries) b w.1 w.2
        .ok d ({ o with flags := o.flags ||| a.2 }, (solveUnits p (planHasAsm pl) true o.iters).2))))

def keptData (d : Dev) (it : Item) (q : Nat) : Option FactorData :=
  (aGet d.factors (hIdx it.arg1)).bind (fun f => aGet f.data q)

/-- The bytes of a problem in a factor set: their key, where they begin, and how many they are. -/
def factorSpot (d : Dev) (it : Item) (q : Nat) : SectorKey × Nat × Nat :=
  let n := Config.factorBytes (itemPlan d it).desc
  ({ kind := 1, obj := hIdx it.arg1 }, q * n, n)

/-- Read what a factor set retains of a problem. -/
def keptRead (it : Item) (q : Nat) (d : Dev) : Rd (Option FactorData) :=
  let at_ := factorSpot d it q
  match keptData d it q with
  | none => .ok d none
  | some fd =>
    let r := touchBytes at_.1 at_.2.1 at_.2.2 d
    if r.2 then .ok r.1 (some fd) else .bad r.1 (hIdx it.arg1)

/-- Retain a problem's data; false where a sector of it was discarded (10 R330). -/
def keptWrite (it : Item) (q : Nat) (fd : FactorData) (d : Dev) : Dev × Bool :=
  let at_ := factorSpot d it q
  let r := writeBytes at_.1 at_.2.1 at_.2.2 d
  ({ r.1 with factors := aMod r.1.factors (hIdx it.arg1) (fun f => { f with data := aSet f.data q fd, step := some it.step }) },
   r.2.2.isEmpty)

def adjointWork (d : Dev) (it : Item) (k : Nat) : Rd (SlvOut × Nat) :=
  let pl := itemPlan d it
  let p := planOfObj pl
  let q := slvFirst it + k
  (readVals (recH it 24) (q * p.n) p.n d).then (fun d g =>
    (keptRead it q d).then (fun d kept =>
      match kept with
      | none => .ok d (noFactorOut p.f p.rows, 1)
      | some fd =>
        let o := solveKept p fd true g
        let o := if o.state = 3 then { o with x := List.replicate p.rows p.f.nan } else o
        .ok d (o, (solveUnits p false false o.iters).2)))

def tangentWork (d : Dev) (it : Item) (k : Nat) : Rd (SlvOut × Nat) :=
  let pl := itemPlan d it
  let p := planOfObj pl
  let q := slvFirst it + k
  (keptRead it q d).then (fun d kept =>
  match kept with
  | none => .ok d (noFactorOut p.f p.n, 1)
  | some fd =>
    (assembled it pl q true d).then (fun d a =>
      let db := if asmRhs pl then a.1.drop p.entries else List.replicate p.rows 0
      let x := (ofW fd.x).map (fun v => (convert 1 p.fmt .rn false true v).1)
      let r := residTrue p (a.1.take p.entries) false db x
      let o := match r.val with
        | some v => solveKept p fd false v
        | none => nonfiniteOut p.f p.n (dataFact fd).regs (if fd.regs.isEmpty then 0 else noteReg) 0 0
      .ok d ({ o with flags := o.flags ||| a.2 ||| r.fl }, (solveUnits p true false o.iters).2)))

/-- ē of a target: −λᵢ xⱼ or λᵢ, in FP64 with one rounding (08 R269). -/
def adjointBar (p : SlvPlan) (lam x : List Nat) (t : Nat) : Fl Nat :=
  if t < p.entries then
    let ij := entryPos p t
    fpMul fp64 (fpNeg fp64 ((lam[ij.1]?).getD 0)) ((x[ij.2]?).getD 0)
  else ((lam[t - p.entries]?).getD 0, 0)

/-- The parameter derivatives of a problem into the gradient tensor (08 R253). -/
def adjointGrad (d : Dev) (it : Item) (q : Nat) (lam : List Nat) : Dev × Bool × BitVec 4 :=
  let pl := itemPlan d it
  let p := planOfObj pl
  let h := recH it 56
  let g := (aGet d.tensors (hIdx h)).getD {}
  let x := ((keptData d it q).map (fun f => ofW f.x)).getD []
  let l64 := lam.map (to64 p.fmt)
  let bars := flSeq ((List.range p.entries).map (adjointBar p l64 x))
  let stride := fieldLe pl.asm 16 8
  let slice := if stride = 0 then tElems g else min stride (tElems g - q * stride)
  let r := asmTranspose (planTerms pl) slice (fun t => if t < p.entries then (bars.1[t]?).getD 0 else (adjointBar p l64 x t).1)
  let out := flSeq (((List.range slice).zip r.1).map (fun e =>
    let el := q * stride + e.1
    let rnd : Rnd := if g.role = 5 then .sr (srValue it.step (hIdx h) el 0xF001) else .rn
    let v := pairRound e.2 g.fmt rnd false false
    (storeForm g.fmt v.1, v.2)))
  let w := storeVals h (q * stride) out.1 d
  (w.1, w.2, bars.2 ||| r.2 ||| out.2)

/-- Release the core that held a problem (08 R245). -/
def releaseCore (l o k : Nat) (d : Dev) : Dev :=
  { d with cores := aMod d.cores l (fun c => { c with heldBy := c.heldBy.filter (fun h => decide (h ≠ (o, k))) }) }

/-- Uncorrectable data reached the item: DETAIL names the tensor or the set, and no segment (03 R99; 10 Table 10-2). -/
def solverMemory (it : Item) (l k t : Nat) (d : Dev) : Dev := failItem it.order 0x12 t 0 0xFF (releaseCore l it.order k d)

/-- A problem of an item reached its final state. -/
def endProblem (it : Item) (k l : Nat) (o : SlvOut) (fl : BitVec 4) (bad : Option Nat) (d : Dev) : Dev :=
  let p := planOfObj (itemPlan d it)
  let warm : Option (Nat × WarmSlot) := if it.op = 1 ∧ p.warm = true ∧ (o.state = 1 ∨ o.state = 2) then
      some (slvWarmBase it + k, { sig := (itemPlan d it).signature, x := o.x.map (fun v => BitVec.ofNat 64 (to64 p.fmt v)) })
    else none
  let r := match warm with
    | some w => if it.step ≠ 0 then warmWrite it.step (hIdx it.arg2) w.1 w.2 d else (d, true)
    | none => (d, true)
  let d := { r.1 with items := aMod r.1.items it.order (fun i =>
      let ps := aMod i.probs k (fun pr => { pr with word := some o.word, warm := warm, core := none, run := none })
      { i with probs := ps, flags := i.flags ||| o.flags ||| fl, work := ps.all (fun x => x.2.word.isSome) }) }
  match bad.or (if r.2 then none else some (hIdx it.arg2)) with
  | some t => solverMemory it l k t d
  | none => releaseCore l it.order k d

def storeSolve (d : Dev) (it : Item) (k : Nat) (o : SlvOut) : Dev × Option Nat × BitVec 4 :=
  let p := planOfObj (itemPlan d it)
  let q := slvFirst it + k
  let len := if it.op = 2 then p.rows else p.n
  let w := storeVals (recH it 32) (q * len) ((o.x.take len).map (storeForm p.fmt)) d
  let r := if p.residOut then storeVals (recH it 48) q [storeForm 1 o.resid] w.1 else (w.1, true)
  let bad := if !w.2 then some (hIdx (recH it 32)) else if !r.2 then some (hIdx (recH it 48)) else none
  if it.op = 1 ∧ p.retain = true ∧ (o.state = 1 ∨ o.state = 2) then
    let f := keptWrite it q o.fd r.1
    (f.1, bad.or (if f.2 then none else some (hIdx it.arg1)), 0)
  else if it.op = 2 ∧ recH it 56 ≠ 0 ∧ o.state ≠ 6 then
    let g := adjointGrad r.1 it q (o.x.take len)
    (g.1, if bad.isNone && !g.2.1 then some (hIdx (recH it 56)) else bad, g.2.2)
  else (r.1, bad, 0)

/-- Work units that one problem of an item completed. Its inputs are read when it begins and stay on its core across slacks
(08 R245, R246); its outputs are stored when the last unit completes. -/
def solverRow (slot seq op k iters : Nat) (f : Dev → Item → Nat → Rd (SlvOut × Nat)) (d : Dev) : Dev :=
  match findItem d slot seq with
  | none => d
  | some it =>
    if !itemWorks d it 2 op then d
    else match aGet it.probs k with
      | none => d
      | some pr =>
        match pr.core, pr.word with
        | some l, none =>
          let begun : Rd (SlvOut × Nat) := match pr.run with
            | some r => .ok d r
            | none => f d it k
          match begun with
          | .bad d' t => solverMemory it l k t d'
          | .ok d' r =>
            if pr.iters + iters < r.2 then
              setItem { it with probs := aSet it.probs k { pr with run := some r, iters := pr.iters + iters } } d'
            else
              let st := storeSolve d' it k r.1
              endProblem it k l r.1 st.2.2 st.2.1 st.1
        | _, _ => d

def execSolve (slot seq p iters : Nat) (s : State) : Res := eff (solverRow slot seq 1 p iters solveWork) s
def execAdjoint (slot seq p iters : Nat) (s : State) : Res := eff (solverRow slot seq 2 p iters adjointWork) s
def execTangent (slot seq p iters : Nat) (s : State) : Res := eff (solverRow slot seq 3 p iters tangentWork) s

/-- ASSEMBLE writes the matrix and the right-hand side and solves nothing (08 R284). -/
def execAssemble (slot seq p : Nat) (s : State) : Res :=
  eff (fun d =>
    match findItem d slot seq with
    | none => d
    | some it =>
      if !itemWorks d it 2 4 then d
      else match aGet it.probs p with
        | none => d
        | some pr =>
          match pr.core, pr.word with
          | some l, none =>
            let pl := itemPlan d it
            let n := (planOfObj pl).entries
            let q := slvFirst it + p
            match assembled it pl q false d with
            | .bad d' t => solverMemory it l p t d'
            | .ok d' a =>
              let w := storeVals (recH it 16) (q * n) (a.1.take n) d'
              let r := if recH it 24 ≠ 0 then storeVals (recH it 24) (q * (planOfObj pl).rows) (a.1.drop n) w.1 else (w.1, true)
              let bad := if !w.2 then some (hIdx (recH it 16)) else if !r.2 then some (hIdx (recH it 24)) else none
              let o : SlvOut := { state := b2n (Config.assembleState pl.desc q) }
              endProblem it p l o a.2 bad r.1
          | _, _ => d) s

/-! ### The end of a solver item (08 R275, R278, R279) -/

/-- Status word of a problem when its item ends. -/
def probWord (d : Dev) (it : Item) (pr : Prob) : BitVec 64 :=
  let p := planOfObj (itemPlan d it)
  let setup := (solveUnits p (planHasAsm (itemPlan d it) && it.op != 2) (it.op == 1) 0).1
  match pr.word with
  | some w => w
  | none => statusWord 5 0 0 0xFFFFFF (pr.iters - setup)

/-- Firmware writes every problem's status word and releases the cores still held. -/
def solverClose (it : Item) (d : Dev) : Dev :=
  let d := it.probs.foldl (fun d x => match x.2.core with | some l => releaseCore l it.order x.1 d | none => d) d
  let d := it.probs.foldl (fun d x => (storeVals (recH it 40) (slvFirst it + x.1) [(probWord d it x.2).toNat] d).1) d
  if it.step = 0 then warmCommit (hIdx it.arg2) (it.probs.filterMap (fun x => x.2.warm)) d else d

/-- Outcome of an item whose problems all reached a final state (08 R279). -/
def solverOutcome (it : Item) : Nat × Nat :=
  let ws := it.probs.filterMap (·.2.word)
  let capped := (ws.filter (fun w => w.toNat % 16 == 2)).length
  let notes := ws.foldl (fun n w => n ||| bitsOf w.toNat 8 8) 0
  if 0 < capped then (2, capped)
  else if notes ≠ 0 ∨ flFlagged it.flags = true then (1, notes * 256 + it.flags.toNat)
  else (0, it.flags.toNat &&& 4)

end Sys2Proof.Machine
end

