-- ==== Sys2Proof/Machine/Coll.lean ====
section
/-! DEFINITION. Collective launches (12 R404 to R429): the launch record and its checks, chunks, the trees and rings by which
values combine, conversions, and what a member sends. The device's reduction buffers are one pool of chunk slots (log 30). -/
namespace Sys2Proof.Machine
open Sys2Proof

/-! ### The launch record (12 Table 12-3) -/

def launchOf (b : Bytes) (group : Nat) : Launch :=
  { mode := fieldLe b 0 1, redop := fieldLe b 1 1, lflags := BitVec.ofNat 8 (fieldLe b 2 1), split := fieldLe b 3 1
    num := BitVec.ofNat 32 (fieldLe b 4 4), src := BitVec.ofNat 64 (fieldLe b 8 8), dst := BitVec.ofNat 64 (fieldLe b 16 8)
    srcOff := fieldLe b 24 8, dstOff := fieldLe b 32 8, count := fieldLe b 40 8, peer := fieldLe b 48 4
    expect := fieldLe b 52 2, joinLimit := if fieldLe b 54 2 = 0 then 64 else fieldLe b 54 2, group := group }

def Launch.streamed (l : Launch) : Bool := l.lflags.getLsbD 0
def Launch.reverse (l : Launch) : Bool := l.lflags.getLsbD 1
def Launch.srcPair (l : Launch) : Bool := l.lflags.getLsbD 2
def Launch.dstPair (l : Launch) : Bool := l.lflags.getLsbD 3

/-- A reducing operation. -/
def isReduce (op : Nat) : Bool := op == 1 || op == 2

/-- Source and destination elements on this member: none where the tensor must be 0 (12 Table 12-2). -/
def srcNeed (op : Nat) (l : Launch) (n rank : Nat) : Option Nat :=
  match op with
  | 2 => some (n * l.count)
  | 4 => if l.peer = rank then some l.count else none
  | 5 => some (n * l.count)
  | 7 => none
  | _ => some l.count
def dstNeed (op : Nat) (l : Launch) (n : Nat) : Option Nat :=
  match op with
  | 3 => some (n * l.count)
  | 5 => some (n * l.count)
  | 6 => none
  | _ => some l.count

/-- Tensor elements of launch elements. -/
def pairScale (pair : Bool) (n : Nat) : Nat := if pair then 2 * n else n

/-- Formats of 12 Table 12-4 and R407. -/
def launchFmtBad (op : Nat) (l : Launch) (s t : Option Nat) : Bool :=
  if isReduce op then
    match s, t with
    | some s, some t =>
      if s = 0x11 ∨ s = 0x12 then t != 0x12 || l.srcPair || l.dstPair
      else if s = 1 then !(decide (1 ≤ t) && decide (t ≤ 4)) || l.mode == 1 || (l.dstPair && t != 1)
      else if s ≤ 6 then !(decide (1 ≤ t) && decide (t ≤ 4)) || l.srcPair || l.dstPair
      else true
    | _, _ => true
  else
    (match s, t with | some s, some t => s != t || l.srcPair != l.dstPair | _, _ => false) ||
    (l.srcPair && s.any (· != 1)) || (l.dstPair && t.any (· != 1))

/-- The group holds a lost position (13 R448). -/
def groupLost (d : Dev) (g : Group) : Bool := d.lnk.lostPos.any (fun p => g.members.contains p)

/-- Checks of a launch record: reason and offset in the record (12 R405). -/
def launchCheck (d : Dev) (it : Item) (b : Bytes) (g : Group) : Option (Nat × Nat) :=
  let l := launchOf b (hIdx it.object)
  let n := g.members.length
  let red := isReduce it.op
  let alive := fun h => h == 0 || handleOk d 2 h
  let st := if l.src = 0 then none else some (tensorAt' d l.src)
  let dt := if l.dst = 0 then none else some (tensorAt' d l.dst)
  let sn := srcNeed it.op l n g.rank
  let dn := dstNeed it.op l n
  let sEnd := l.srcOff + sn.getD 0
  let dEnd := l.dstOff + dn.getD 0
  let past := fun (t : Option Tensor) (pair : Bool) (e : Nat) => t.any (fun t => decide (tElems t < pairScale pair e))
  let two := it.op == 6 || it.op == 7
  let peerBad := if it.op = 4 then decide (n ≤ l.peer) else if two then decide (n ≤ l.peer) || l.peer == g.rank else l.peer != 0
  ([ (0, rBadField, decide (2 < l.mode) || (!red && l.mode != 0)),
     (1, rBadField, decide (2 < l.redop) || (!red && l.redop != 0)),
     (2, rBadField, decide (16 ≤ l.lflags.toNat) || (l.streamed && (it.step == 0 || decide (4 ≤ it.op)))),
     (3, rBadField, !(l.split == 0 || l.split == 1 || l.split == 2 || l.split == 4 || l.split == 8)),
     (8, rBadHandle, !alive l.src),
     (16, rBadHandle, !alive l.dst),
     (8, rTensorLost, st.any (·.lost)),
     (16, rTensorLost, dt.any (·.lost)),
     (8, rBadField, st.isSome != sn.isSome),
     (16, rBadField, dt.isSome != dn.isSome),
     (16, rNotAllowed, dt.any tSecured),
     (40, rBadField, l.count == 0 || decide (2 ^ 32 ≤ l.count)),
     (48, rBadField, peerBad),
     (52, rBadField, !l.streamed && l.expect != 0),
     (54, rBadField, decide (4096 < l.joinLimit)),
     (56, rBadField, !allZero (slice b 56 8)),
     (16, rBadField, launchFmtBad it.op l (st.map (·.fmt)) (dt.map (·.fmt))),
     (24, rBadField, past st l.srcPair sEnd),
     (32, rBadField, past dt l.dstPair dEnd),
     (32, rBadField, l.src == l.dst && l.src != 0 && decide (l.srcOff < dEnd) && decide (l.dstOff < sEnd)),
     (4, rInUse, d.items.any (fun x => x.2.stage == .admitted && x.2.kind == 4 && x.2.object == it.object &&
       x.2.launch.any (fun k => k.num == l.num))) ].find? (·.2.2)).map (fun x => (x.2.1, x.1))
where
  tensorAt' (d : Dev) (h : BitVec 64) : Tensor := (aGet d.tensors (hIdx h)).getD {}

/-- Admission of a collective item (12 R404, R405; 13 R448). -/
def launchAdmit (d : Dev) (it : Item) : AdmRes :=
  match aGet d.groups (hIdx it.object), aGet d.tensors (hIdx it.arg0) with
  | some g, some t =>
    if groupLost d g then .refuse rNotAllowed 16
    else if t.role ≠ 8 then .refuse rBadField 24
    else if it.arg1.toNat % 64 ≠ 0 ∨ tBytes t < it.arg1.toNat + 64 then .refuse rBadField 32
    else
      let r := readTensor (hIdx it.arg0) it.arg1.toNat 64 d
      match r.2 with
      | none => .fail r.1 0x12 (hIdx it.arg0)
      | some b =>
        match launchCheck r.1 it b g with
        | some x => .refuse x.1 x.2
        | none => .taken r.1 { it with launch := some (launchOf b (hIdx it.object)) }
  | _, _ => .refuse rBadHandle 16

/-! ### Formats and chunks (12 R407, R412) -/

def srcFmt (d : Dev) (l : Launch) : Nat := ((aGet d.tensors (hIdx l.src)).map (·.fmt)).getD 1
def dstTensor (d : Dev) (l : Launch) : Tensor := (aGet d.tensors (hIdx l.dst)).getD {}

/-- How values combine: 0 FP32, 1 pair, 2 INT64, 3 ASSOC, 4 data movement. -/
def combKind (d : Dev) (op : Nat) (l : Launch) : Nat :=
  if !isReduce op then 4
  else
    let f := srcFmt d l
    if f = 0x11 ∨ f = 0x12 then 2
    else if f = 1 then 1
    else if l.mode = 1 ∧ l.redop = 0 then 3 else 0

/-- Bytes of one launch element on the wire. -/
def wireWidth (d : Dev) (op : Nat) (l : Launch) : Nat :=
  match combKind d op l with
  | 0 => 4
  | 1 => 16
  | 2 => 8
  | 3 => 8
  | _ => if l.src = 0 then pairScale l.dstPair (fmtBytes (dstTensor d l).fmt) else pairScale l.srcPair (fmtBytes (srcFmt d l))

/-- Launch elements: the source elements of one producing member. -/
def launchElems (op : Nat) (l : Launch) (n : Nat) : Nat := if op = 2 ∨ op = 5 then n * l.count else l.count
def chunkElems (w : Nat) : Nat := 262144 / max w 1
def numChunks (d : Dev) (op : Nat) (l : Launch) (n : Nat) : Nat := ceilDiv (launchElems op l n) (chunkElems (wireWidth d op l))

/-- Elements [first, past) of a chunk. -/
def chunkRange (d : Dev) (op : Nat) (l : Launch) (n c : Nat) : Nat × Nat :=
  let e := chunkElems (wireWidth d op l)
  (c * e, min ((c + 1) * e) (launchElems op l n))

/-- Destination element of element g of the producing rank's launch, where this rank receives it. -/
def dstElem (op : Nat) (l : Launch) (rank from_ g : Nat) : Option Nat :=
  match op with
  | 2 => if g / max l.count 1 = rank then some (l.dstOff + g % max l.count 1) else none
  | 3 => some (l.dstOff + from_ * l.count + g)
  | 5 => if g / max l.count 1 = rank then some (l.dstOff + from_ * l.count + g % max l.count 1) else none
  | 6 => none
  | _ => some (l.dstOff + g)

/-- Some element of the range goes to the rank. -/
def rankGets (op : Nat) (l : Launch) (rank lo hi : Nat) : Bool :=
  if op = 2 ∨ op = 5 then decide (lo < (rank + 1) * l.count) && decide (rank * l.count < hi)
  else op != 6

/-! ### Parts, trees and rings (12 R416, R418, R419; log 30) -/

def partCount (l : Launch) (n : Nat) : Nat := let q := ceilDiv n (max l.split 1); ceilDiv n (max q 1)
def partSize (l : Launch) (n : Nat) : Nat := ceilDiv n (max l.split 1)
/-- First rank and size of the part of a rank. -/
def partOf (l : Launch) (n r : Nat) : Nat × Nat :=
  let q := max (partSize l n) 1
  (r / q * q, min q (n - r / q * q))

/-- A node of the reduction: lowest rank, and level; level 32 + j stands over 2^j parts. -/
abbrev Node := Nat × Nat

/-- The nodes above a rank at which two values are combined, from its leaf upward. -/
def pathOf (l : Launch) (n r : Nat) : List Node :=
  let p := partOf l n r
  let q := max (partSize l n) 1
  let k := partCount l n
  let inner := if l.mode = 2 then [] else
    ((List.range 19).filter (fun s => decide (0 < s))).filterMap (fun s =>
      let lo := (r - p.1) / 2 ^ s * 2 ^ s
      if lo + 2 ^ (s - 1) < p.2 then some (p.1 + lo, s) else none)
  let outer := ((List.range 4).filter (fun s => decide (0 < s))).filterMap (fun s =>
      let i := r / q / 2 ^ s * 2 ^ s
      if i + 2 ^ (s - 1) < k then some (i * q, 32 + s) else none)
  (if l.mode = 2 then [(p.1, 32)] else [(r, 0)]) ++ inner ++ outer

/-- The rank that computes a node for a chunk (12 R416). -/
def ownerOf (l : Launch) (n c : Nat) (v : Node) : Nat :=
  let p := partOf l n v.1
  if v.2 = 0 then v.1
  else if v.2 < 32 then
    let o := v.1 + c % 2 ^ v.2
    if o < p.1 + p.2 then o else v.1
  else
    let o := v.1 + c % (2 ^ (v.2 - 32) * max (partSize l n) 1)
    if o < n ∧ (v.2 ≠ 32 ∨ o < p.1 + p.2) then o else v.1

/-- The node into which a node's value goes. -/
def parentOf (l : Launch) (n : Nat) (v : Node) : Option Node :=
  let p := pathOf l n v.1
  match p.findIdx? (· == v) with
  | some i => p[i + 1]?
  | none => none

def rootOf (l : Launch) (n : Nat) : Node := ((pathOf l n 0).getLast?).getD (0, 0)

/-- The node of a rank's path just below a node. -/
def childOf (l : Launch) (n : Nat) (v : Node) (r : Nat) : Option Node :=
  let p := pathOf l n r
  match p.findIdx? (· == v) with
  | some (i + 1) => p[i]?
  | _ => none

/-- The highest node of its path that a rank computes for a chunk. -/
def topOf (l : Launch) (n c r : Nat) : Node :=
  (((pathOf l n r).filter (fun v => ownerOf l n c v == r)).getLast?).getD (r, 0)

/-- Ranks under a node. -/
def ranksUnder (l : Launch) (n : Nat) (v : Node) : List Nat :=
  let q := max (partSize l n) 1
  let p := partOf l n v.1
  if v.2 < 32 then (List.range (min (2 ^ v.2) (p.1 + p.2 - v.1))).map (v.1 + ·)
  else (List.range (min (2 ^ (v.2 - 32) * q) (n - v.1))).map (v.1 + ·)

/-- Position after a rank in the ring of its part. -/
def ringNext (l : Launch) (n r : Nat) : Nat :=
  let p := partOf l n r
  if l.reverse then p.1 + (r - p.1 + p.2 - 1) % max p.2 1 else p.1 + (r - p.1 + 1) % max p.2 1

/-- Elements of ring segment j of a part within a range. -/
def ringPiece (d : Dev) (op : Nat) (l : Launch) (n c base j : Nat) : Nat × Nat :=
  let s := ceilDiv (launchElems op l n) (max (partOf l n base).2 1)
  let r := chunkRange d op l n c
  (max r.1 (j * s), min r.2 ((j + 1) * s))

/-! ### Leaves and combinations (12 R407, R416, R417) -/

def pairVal (h lo : Nat) : Nat := h + lo * 2 ^ 64
def pairHi (v : Nat) : Nat := v % 2 ^ 64
def pairLo (v : Nat) : Nat := v / 2 ^ 64

/-- Bits of source elements [lo, hi). -/
def srcBits (l : Launch) (lo hi : Nat) (d : Dev) : Rd (List Nat) :=
  readVals l.src (pairScale l.srcPair (l.srcOff + lo)) (pairScale l.srcPair (hi - lo)) d

/-- A source value of FP32 or narrower as an exact FP32 value; FP8 by its scale record (12 R407). -/
def srcFp32 (d : Dev) (it : Item) (l : Launch) (x : Nat) : Fl Nat :=
  let f := srcFmt d l
  cvtScaled f 2 (if isFp8 f then -(scaleExpFor d it (hIdx l.src)) else 0) .rn false true x

/-- ⌊log₂|x|⌋ of a finite nonzero FP32 value. -/
def expOf32 (x : Nat) : Int := let v := unpack fp32 x; (v.m.log2 : Int) + v.e

/-- The mark of an element: NaN 1, +∞ 2, −∞ 4, signaling NaN 8. -/
def markOf (x : Nat) : Nat :=
  let v := unpack fp32 x
  if v.isNan then 1 else if v.isInf then (if v.sign then 4 else 2) else 0

/-- The leaf of this rank for elements [lo, hi), in the combine format. -/
def leafVals (it : Item) (op : Nat) (l : Launch) (lo hi : Nat) (d : Dev) : Rd (Fl (List Nat)) :=
  (srcBits l lo hi d).then (fun d bs =>
    match combKind d op l with
    | 0 => .ok d (flSeq (bs.map (srcFp32 d it l)))
    | 1 =>
      if l.srcPair then .ok d ((List.range (hi - lo)).map (fun i => pairVal ((bs[2 * i]?).getD 0) ((bs[2 * i + 1]?).getD 0)), 0)
      else .ok d (bs, 0)
    | 2 => .ok d (bs.map (fun b => wrapBits 64 (signExt (8 * fmtBytes (srcFmt d l)) b)), 0)
    | 3 =>
      let f := flSeq (bs.map (srcFp32 d it l))
      .ok d (((List.range (hi - lo)).zip f.1).map (fun e =>
        let v := unpack fp32 e.2
        let E := (aGet l.blockExp ((lo + e.1) / 256)).getD (-149)
        let q := roundAt .rn v.m (v.e + (44 - E)) 0
        if v.finite then wrapBits 64 (if v.sign then -(q.1 : Int) else q.1) else 0), 0)
    | _ =>
      let f := srcFmt d l
      let xs := bs.map (storeForm f)
      if l.srcPair then .ok d ((List.range (hi - lo)).map (fun i => pairVal ((xs[2 * i]?).getD 0) ((xs[2 * i + 1]?).getD 0)), 0)
      else .ok d (xs, 0))

/-- The pre-pass leaf of a chunk: block exponents offset by 32,768, then the marks (12 R417; log 30). -/
def preLeaf (it : Item) (l : Launch) (lo hi : Nat) (d : Dev) : Rd (List Nat) :=
  (srcBits l lo hi d).then (fun d bs =>
    let xs := bs.map (fun b => (srcFp32 d it l b).1)
    let ex := (List.range (ceilDiv (hi - lo) 256)).map (fun k =>
      (((xs.drop (256 * k)).take 256).filter (fun x => (unpack fp32 x).cls == .fin)).foldl (fun m x => max m (expOf32 x + 32768).toNat) (32768 - 149))
    let sn := bs.map (fun b => match fpOf (srcFmt d l) with | some f => (unpack f b).isSnan | none => false)
    .ok d (ex ++ (xs.zip sn).map (fun x => markOf x.1 + 8 * b2n x.2)))

/-- The larger or smaller of two signed 64-bit values. -/
def intPick (mx : Bool) (a b : Nat) : Nat := if decide (signExt 64 a < signExt 64 b) == mx then b else a

/-- MAX or MIN of two pairs: by the high part, then by the low part. -/
def pairPick (mx : Bool) (a b : Nat) : Fl Nat :=
  let h := if mx then fpMax fp64 (pairHi a) (pairHi b) else fpMin fp64 (pairHi a) (pairHi b)
  if (unpack fp64 h.1).isNan then (h.1, h.2)
  else if ordKeyZ fp64 (pairHi a) = ordKeyZ fp64 (pairHi b) then
    let lo := if mx then fpMax fp64 (pairLo a) (pairLo b) else fpMin fp64 (pairLo a) (pairLo b)
    (pairVal h.1 lo.1, h.2 ||| lo.2)
  else (if h.1 = pairHi a then a else b, h.2)

/-- comb of 12 R416, the left operand from the lower ranks. -/
def comb (kind redop a b : Nat) : Fl Nat :=
  match kind, redop with
  | 0, 0 => fpAdd fp32 a b
  | 0, 1 => fpMax fp32 a b
  | 0, _ => fpMin fp32 a b
  | 1, 0 => let r := pairAdd (pairHi a, pairLo a) (pairHi b, pairLo b); (pairVal r.1.1 r.1.2, r.2)
  | 1, r => pairPick (r == 1) a b
  | 2, 1 => (intPick true a b, 0)
  | 2, 2 => (intPick false a b, 0)
  | _, _ => ((a + b) % 2 ^ 64, 0)

/-- Values of a chunk combined; a pre-pass takes the larger exponents and joins the marks. -/
def combVals (kind redop : Nat) (pre : Bool) (blocks : Nat) (a b : List Nat) : Fl (List Nat) :=
  if pre then
    (((List.range a.length).zip (a.zip b)).map (fun e => if e.1 < blocks then max e.2.1 e.2.2 else e.2.1 ||| e.2.2), 0)
  else flSeq (a.zipWith (comb kind redop) b)

/-- Values as wire bytes, and back. -/
def wireBytes (w : Nat) (pre : Bool) (blocks : Nat) (vals : List Nat) : Bytes :=
  if pre then ((List.range vals.length).zip vals).flatMap (fun e => toLe (if e.1 < blocks then 2 else 1) e.2)
  else vals.flatMap (toLe w)
def wireVals (w : Nat) (pre : Bool) (blocks n : Nat) (b : Bytes) : List Nat :=
  if pre then (List.range blocks).map (fun i => fieldLe b (2 * i) 2) ++ (List.range n).map (fun i => fieldLe b (2 * blocks + i) 1)
  else (List.range n).map (fun i => fieldLe b (w * i) w)

/-! ### Results (12 R407, R408, R417) -/

/-- A result converted into the destination: the bits of its tensor elements. -/
def resultBits (d : Dev) (it : Item) (op : Nat) (l : Launch) (g v dstE : Nat) : Fl (List Nat) :=
  let t := dstTensor d l
  let rnd : Rnd := if t.role = 5 then .sr (srValue it.step (hIdx l.dst) dstE 0xF000) else .rn
  let one := fun (x : Fl Nat) => ([storeForm t.fmt x.1], x.2)
  match combKind d op l with
  | 0 => one (convert 2 t.fmt (if t.fmt = 2 then .rn else rnd) false true v)
  | 1 => if l.dstPair then ([storeForm 1 (pairHi v), storeForm 1 (pairLo v)], 0)
         else one (pairRound (pairHi v, pairLo v) t.fmt rnd false true)
  | 2 => ([v], 0)
  | 3 =>
    let E := (aGet l.blockExp (g / 256)).getD (-149)
    let m := (aGet l.marks g).getD 0
    match fpOf t.fmt with
    | none => ([v], 0)
    | some f =>
      let nv : BitVec 4 := if (bitOf m 1 && bitOf m 2) || bitOf m 3 then flNV else 0
      if bitOf m 0 || (bitOf m 1 && bitOf m 2) then ([f.nan], nv)
      else if bitOf m 1 || bitOf m 2 then ([(packInf f true (bitOf m 2)).1], nv)
      else
        let i := signExt 64 v
        let x := if i = 0 then ((0 : Nat), (0 : BitVec 4)) else roundPack f rnd true (decide (i < 0)) i.natAbs (E - 44)
        ([storeForm t.fmt x.1], x.2)
  | _ => if l.dstPair then ([pairHi v, pairLo v], 0) else ([v], 0)

/-- Write elements [lo, …) of the producing rank's launch into this member's destination. -/
def putResults (d : Dev) (it : Item) (op : Nat) (l : Launch) (rank from_ lo : Nat) (vals : List Nat) : Dev × Bool × BitVec 4 :=
  ((List.range vals.length).zip vals).foldl (fun (st : Dev × Bool × BitVec 4) e =>
    match dstElem op l rank from_ (lo + e.1) with
    | none => st
    | some t =>
      let r := resultBits st.1 it op l (lo + e.1) e.2 t
      let w := storeVals l.dst (pairScale l.dstPair t) r.1 st.1
      (w.1, st.2.1 && w.2, st.2.2 ||| r.2)) (d, true, 0)

/-! ### Members and control packets (12 R409, R421 to R425) -/

/-- The ranks that take part. -/
def launchRanks (op : Nat) (l : Launch) (g : Group) : List Nat :=
  if op = 6 ∨ op = 7 then (if g.rank < l.peer then [g.rank, l.peer] else [l.peer, g.rank]) else List.range g.members.length

/-- The rank with rank 0's duties. -/
def leadRank (op : Nat) (l : Launch) (g : Group) : Nat := ((launchRanks op l g).head?).getD 0

def collHead (l : Launch) (g : Group) : CollHeader := { gid := g.gid, launch := l.num, digest := g.digest }

/-- A packet of the collective lane to a rank. -/
def collSend (g : Group) (r use : Nat) (h : CollHeader) (bytes : Bytes) (d : Dev) : Dev :=
  send (.coll ((g.members[r]?).getD {}) use h bytes) d

def setLaunch (it : Item) (l : Launch) (d : Dev) : Dev :=
  { d with items := aMod d.items it.order (fun i => { i with launch := some l }) }

/-- A launch ends on this member by an ABORT's cause and rank (12 R421, R425, R428). -/
def endByAbort (it : Item) (cause rank : Nat) (d : Dev) : Dev :=
  let st : Nat × Nat := match cause with
    | 1 => (0x14, 65536 + rank % 65536)
    | 3 => (0x13, rank / 256 % 256 * 2 ^ 24 + rank % 256 * 65536)
    | _ => (0x14, 2 * 65536 + rank % 65536)
  if it.work then d
  else
    let d := finishItem it.order st.1 st.2 { d with items := aMod d.items it.order (fun i =>
      { i with launch := i.launch.map (fun l => { l with abort := some (cause, rank, d.tide.count) }) }) }
    if cause = 1 then
      let d := logRec { sev := 1, cls := 0x501, status := 0x14, step := it.step, code := BitVec.ofNat 32 st.2 } d
      if it.step ≠ 0 then { d with step := { d.step with checkFail := true } } else d
    else d

/-- Rank 0 sends its one verdict as an ABORT and ends its own item by it (12 R423). -/
def leadAbort (it : Item) (op : Nat) (l : Launch) (g : Group) (cause rank : Nat) (d : Dev) : Dev :=
  if l.verdictSent then d
  else
    let d := setLaunch it { l with verdictSent := true } d
    let d := ((launchRanks op l g).filter (· != g.rank)).foldl (fun d r =>
      collSend g r 7 { collHead l g with rank := rank, cause := cause } [] d) d
    endByAbort it cause rank d

/-- A member whose item ended for a reason of its own leaves (12 R425). -/
def leaveLaunch (it : Item) (cause : Nat) (d : Dev) : Dev :=
  match it.launch with
  | none => d
  | some l =>
    match aGet d.groups l.group with
    | none => d
    | some g =>
      if l.left || l.endTide.isSome || l.abort.isSome then d
      else
        let l := { l with left := true }
        let d := setLaunch it l d
        if leadRank it.op l g = g.rank then leadAbort it it.op l g cause g.rank d
        else collSend g (leadRank it.op l g) 8 { collHead l g with rank := g.rank, cause := cause } [] d

/-- Uncorrectable source data (12 Table 12-7). -/
def collMemory (it : Item) (t : Nat) (d : Dev) : Dev := leaveLaunch it 4 (finishItem it.order 0x12 t d)

/-- The packet leaves before the notice cutoff: a free value within the working window, never later (12 R409; log 30). -/
def early (d : Dev) : Bool := d.tide.phase == .work && Config.beforeCutoff d.free

/-! ### Joining and the plan (12 R409 to R411) -/

/-- Straits lost at a member, of the own records and those received (11 R394). -/
def lostCount (b : BitVec 6) : Nat := (bitList 6 b.toNat).length
def ownLost (d : Dev) : BitVec 6 := BitVec.ofNat 6 (bitMask ((List.range 6).filter (fun s =>
  ((d.lnk.straits[s]?).map (·.lost)).getD true && (neighbourOf d d.lnk.pos s).isSome)))
def maxLost (d : Dev) (g : Group) : Nat :=
  (d.lnk.recs.filter (fun r => g.members.contains r.pos)).foldl (fun m r => max m (lostCount r.lost)) (lostCount (ownLost d))

/-- Working window in ns as a fraction over the rate code (02 R35). -/
def windowNs (d : Dev) : Nat × Nat := (2000000 - 500 * d.tide.slack * d.tide.rate, d.tide.rate)

/-- Largest hop count between ranks adjacent in ring order. -/
def ringHops (d : Dev) (l : Launch) (g : Group) : Nat :=
  (List.range g.members.length).foldl (fun m r =>
    max m (hops d ((g.members[r]?).getD {}) ((g.members[ringNext l g.members.length r]?).getD {}))) 0

/-- T_lat in ns (12 Table 12-5). -/
def latNs (d : Dev) (op : Nat) (l : Launch) (g : Group) : Nat :=
  if isReduce op then
    match l.mode with
    | 2 => 2000 + 2 * (g.members.length - 1) * 300 * ringHops d l g
    | 1 => 2000 + 1200 * g.dg + 600 * g.dg
    | _ => 2000 + 1200 * g.dg
  else 2000 + 600 * g.dg

/-- n of 12 R410: working windows that the launch takes. -/
def planTides (d : Dev) (op : Nat) (l : Launch) (g : Group) : Nat :=
  let p := g.members.length
  let w := wireWidth d op l
  let v : Nat × Nat := match op with
    | 1 => (2 * l.count * w * (p - 1), p)
    | 2 => (l.count * w * (p - 1), 1)
    | 3 => (l.count * w * (p - 1), 1)
    | 5 => (l.count * w * (p - 1) * max 4 g.dg, 4)
    | _ => (l.count * w, 1)
  let rate := if isReduce op && l.mode == 2 then 1200 else 3200
  let miss := (List.range 6).foldl (fun m k => max m ((d.units.ruDown.filter (fun u => u.1 == k)).length - 4)) 0
  let den := max 1 (v.2 * rate * (6 - maxLost d g) * (32 - miss))
  let num := v.1 * 192 + latNs d op l g * den
  max 1 (ceilDiv (num * (windowNs d).2) (den * max (windowNs d).1 1))

/-- Rank 0 sends START once it holds JOINs from every member. -/
def maybeStart (order : Nat) (d : Dev) : Dev :=
  match aGet d.items order with
  | none => d
  | some it =>
    match it.launch with
    | none => d
    | some l =>
      match aGet d.groups l.group with
      | none => d
      | some g =>
        let rs := launchRanks it.op l g
        if leadRank it.op l g = g.rank ∧ l.plan = none ∧ l.verdictSent = false ∧ (rs.all (fun r => l.joins.contains r)) = true then
          let a := d.tide.count + (if early d then 1 else 2)
          let t := a + l.expect + planTides d it.op l g - 1
          let d := setLaunch it { l with plan := some (a, t) } (takeFree 1 d)
          (rs.filter (· != g.rank)).foldl (fun d r =>
            collSend g r 2 { collHead l g with rank := g.rank, tides := BitVec.ofNat 64 (a % 2 ^ 32 + t % 2 ^ 32 * 2 ^ 32) } [] d) d
        else d

/-- In the slack of admission each member sends JOIN to rank 0 (12 R409). -/
def sendJoin (it : Item) (d : Dev) : Dev :=
  match it.launch with
  | none => d
  | some l =>
    match aGet d.groups l.group with
    | none => d
    | some g =>
      if leadRank it.op l g = g.rank then
        let early' := (d.earlyJoins.filter (fun j => j.1 == g.gid && j.2.1 == l.num)).map (·.2.2)
        let d := { d with earlyJoins := d.earlyJoins.filter (fun j => !(j.1 == g.gid && j.2.1 == l.num)) }
        maybeStart it.order (setLaunch it { l with joins := early'.foldl addNew (addNew l.joins g.rank) } d)
      else collSend g (leadRank it.op l g) 1 { collHead l g with rank := g.rank } [] d

end Sys2Proof.Machine
end

