-- ==== Sys2Proof/Machine/CollRows.lean ====
section
/-! DEFINITION. The collective items and packets as rows (12 R409 to R430): how values climb the tree or go round the ring,
how results return, checks and acknowledgements, completion, and every way in which a launch ends early (log 30). -/
namespace Sys2Proof.Machine
open Sys2Proof

/-! ### Finding a launch -/

/-- The group that a packet names (12 R430). -/
def groupFor (d : Dev) (h : CollHeader) : Option (Nat × Group) :=
  d.groups.find? (fun g => g.2.gid == h.gid && g.2.digest == h.digest)

/-- The admitted item of a launch of a group. -/
def launchItem (d : Dev) (gi : Nat) (num : BitVec 32) : Option Item :=
  (d.items.find? (fun i => i.2.stage == .admitted && i.2.kind == 4 &&
    i.2.launch.any (fun l => l.group == gi && l.num == num))).map (·.2)

/-- A packet that matches no live group is counted in LNK_DROP and discarded (12 R430). -/
def dropColl (d : Dev) : Dev := { d with lnk := { d.lnk with drop := satInc 0xFFFFFFFF d.lnk.drop } }

/-- An item's launch with its group, as they stand now. -/
def withLaunch (order : Nat) (d : Dev) (f : Item → Launch → Group → Dev) : Dev :=
  match aGet d.items order with
  | none => d
  | some it =>
    match it.launch with
    | none => d
    | some l =>
      match aGet d.groups l.group with
      | some g => if it.work || it.stage != .admitted then d else f it l g
      | none => d

/-- A packet for an admitted launch. -/
def collPacket (h : CollHeader) (d : Dev) (f : Item → Launch → Group → Dev) : Dev :=
  if !(serves d) then d
  else match groupFor d h with
    | none => dropColl d
    | some (gi, _) =>
      match launchItem d gi h.launch with
      | some it => withLaunch it.order d f
      | none => d

/-- A 64-bit tide from its low half: the one nearest to the current tide. -/
def extendTide (now low : Nat) : Nat :=
  let m := 2 ^ 32
  let b := now / m * m + low % m
  if b + 2 ^ 31 < now then b + m else if now + 2 ^ 31 < b ∧ m ≤ b then b - m else b

/-! ### What a member must write (12 R422) -/

/-- Single-part rings pass their pieces round (12 R418). -/
def isRing (l : Launch) (n : Nat) : Bool := l.mode == 2 && partCount l n == 1

/-- Ranks that produce source data. -/
def producers (op : Nat) (l : Launch) (g : Group) : List Nat :=
  match op with
  | 4 => [l.peer]
  | 6 => [g.rank]
  | 7 => [l.peer]
  | _ => List.range g.members.length

/-- Keys of the destination chunks of this member. -/
def needWritten (d : Dev) (op : Nat) (l : Launch) (g : Group) : List Nat :=
  let n := g.members.length
  let cs := List.range (numChunks d op l n)
  let gets := fun c => let r := chunkRange d op l n c; rankGets op l g.rank r.1 r.2
  if isReduce op then
    if isRing l n then
      cs.flatMap (fun c => (List.range n).filterMap (fun j =>
        let r := ringPiece d op l n c 0 j
        if r.1 < r.2 ∧ rankGets op l g.rank r.1 r.2 = true then some (c * n + j) else none))
    else cs.filter gets
  else if op = 6 then []
  else (producers op l g).flatMap (fun i => (cs.filter gets).map (fun c => i * cs.length + c))

/-- Chunks that this member starts. -/
def ownChunks (d : Dev) (op : Nat) (l : Launch) (g : Group) : List Nat :=
  if isReduce op || (producers op l g).contains g.rank && op != 7 then List.range (numChunks d op l g.members.length) else []

/-! ### Completion (12 R422, R423) -/

/-- Rank 0 sends GROUP_DONE once every member is complete, unless END_TIDE would fall after t + 1. -/
def maybeDone (order : Nat) (d : Dev) : Dev :=
  withLaunch order d (fun it l g =>
    let rs := launchRanks it.op l g
    let e := d.tide.count + (if early d then 0 else 1)
    let inTime := l.plan.any (fun p => decide (e ≤ p.2 + 1))
    if leadRank it.op l g = g.rank ∧ l.verdictSent = false ∧ inTime = true ∧ (rs.all (fun r => l.completes.contains r)) = true then
      let d := setLaunch it { l with verdictSent := true, endTide := some e } (takeFree 1 d)
      (rs.filter (· != g.rank)).foldl (fun d r =>
        collSend g r 6 { collHead l g with rank := g.rank, tides := BitVec.ofNat 64 (e % 2 ^ 32) } [] d) d
    else d)

/-- A member that is complete says so, once. -/
def checkComplete (order : Nat) (d : Dev) : Dev :=
  withLaunch order d (fun it l g =>
    if !l.completeSent && l.running && l.unacked.isEmpty && (ownChunks d it.op l g).all (fun c => l.started.contains c) &&
       (needWritten d it.op l g).all (fun k => l.written.contains k) then
      let lead := leadRank it.op l g
      if lead = g.rank then
        maybeDone order (setLaunch it { l with completeSent := true, completes := addNew l.completes g.rank } d)
      else collSend g lead 5 { collHead l g with rank := g.rank } [] (setLaunch it { l with completeSent := true } d)
    else d)

/-! ### Sending and storing chunk contents -/

/-- The key under which a sent chunk waits for its acknowledgement. -/
def ackKey (n c rank level phase : Nat) : Nat := ((c * n + rank) * 64 + level % 64) * 8 + phase % 8

/-- Blocks of a chunk in the pre-pass. -/
def chunkBlocks (d : Dev) (op : Nat) (l : Launch) (n c : Nat) : Nat :=
  let r := chunkRange d op l n c
  ceilDiv (r.2 - r.1) 256

/-- Send a chunk's values in packets of up to 4,032 bytes, with the CRC in the last (12 R420, R430). -/
def sendChunk (order c rank level phase dst : Nat) (vals : List Nat) (fl : BitVec 4) (d : Dev) : Dev :=
  withLaunch order d (fun it l g =>
    let pre := phase == 4
    let bytes := wireBytes (wireWidth d it.op l) pre (chunkBlocks d it.op l g.members.length c) vals
    let k := max 1 (ceilDiv bytes.length 4032)
    let h := { collHead l g with chunk := c, rank := rank, level := level, phase := phase, packets := k, flags := fl }
    let d := setLaunch it { l with unacked := addNew l.unacked (ackKey g.members.length c rank level phase, dst) } d
    (List.range k).foldl (fun d i =>
      let h : CollHeader := { h with packet := i, check := if i + 1 = k then crc64 bytes else 0 }
      collSend g dst (if pre then 11 else 3) h ((bytes.drop (4032 * i)).take 4032) d) d)

def samePart (a b : Partial) : Bool := a.chunk == b.chunk && a.lo == b.lo && a.level == b.level && a.phase == b.phase
def putPart (p : Partial) (l : Launch) : Launch := { l with parts := l.parts.filter (fun q => !samePart p q) ++ [p] }
def dropPart (p : Partial) (l : Launch) : Launch := { l with parts := l.parts.filter (fun q => !samePart p q) }

/-- Values as a Partial holds them. -/
def heldVals (v : List Nat) : List (BitVec 128) := v.map (BitVec.ofNat 128)
def valsOf (p : Partial) : List Nat := p.vals.map (·.toNat)

/-- Flags of a launch, for the outcome (12 R408). -/
def addLaunchFlags (order : Nat) (fl : BitVec 4) (d : Dev) : Dev :=
  withLaunch order d (fun it l _ => setLaunch it { l with flags := l.flags ||| fl } d)

/-- Write results into this member's destination and note the chunk as written. -/
def writeResult (order key from_ lo : Nat) (vals : List Nat) (fl : BitVec 4) (good : Bool) (d : Dev) : Dev :=
  withLaunch order d (fun it l g =>
    let r := putResults d it it.op l g.rank from_ lo vals
    if r.2.1 then
      setLaunch it { l with flags := l.flags ||| fl ||| r.2.2, written := if good then addNew l.written key else l.written } r.1
    else collMemory it (hIdx l.dst) r.1)

/-! ### The tree (12 R416, R417) -/

/-- Ranks to which this rank passes a result down the tree: they compute the highest node of their own path whose parent
this rank computes, and some rank under it receives the chunk. -/
def downTo (d : Dev) (op : Nat) (l : Launch) (g : Group) (c : Nat) (pre : Bool) : List Nat :=
  let n := g.members.length
  let r := chunkRange d op l n c
  (List.range n).filter (fun h =>
    let t := topOf l n c h
    h != g.rank && (match parentOf l n t with | some v => ownerOf l n c v == g.rank | none => false) &&
    (pre || (ranksUnder l n t).any (fun q => rankGets op l q r.1 r.2)))

/-- Ranks to which the owner of the root of a split ring sends the result. -/
def fanTo (d : Dev) (op : Nat) (l : Launch) (g : Group) (c : Nat) : List Nat :=
  let n := g.members.length
  let r := chunkRange d op l n c
  (List.range n).filter (fun q => q != g.rank && rankGets op l q r.1 r.2)

/-- A result stands on this member: write its share and pass it on. -/
def resultHere (order c : Nat) (vals : List Nat) (fl : BitVec 4) (good isOwner : Bool) (d : Dev) : Dev :=
  withLaunch order d (fun it l g =>
    let n := g.members.length
    let r := chunkRange d it.op l n c
    let d := if rankGets it.op l g.rank r.1 r.2 then writeResult order c g.rank r.1 vals fl good d else addLaunchFlags order fl d
    let root := rootOf l n
    let dests := if l.mode = 2 then (if isOwner then fanTo d it.op l g c else []) else downTo d it.op l g c false
    if good then dests.foldl (fun d q => sendChunk order c root.1 root.2 2 q vals fl d) d else d)

/-- A value of a node stands on the member that computes it: combine upward while this member computes the parents, else
send it to the parent's owner. `top` takes the value of the root. -/
def nodeUp (order c : Nat) (pre : Bool) (top : List Nat → BitVec 4 → Dev → Dev) :
    Nat → Node → List Nat → BitVec 4 → Dev → Dev
  | 0, _, _, _, d => d
  | k + 1, v, vals, fl, d =>
    match (aGet d.items order).bind (fun it => it.launch.bind (fun l => (aGet d.groups l.group).map (fun g => (it, l, g)))) with
    | none => d
    | some (it, l, g) =>
      let n := g.members.length
      match parentOf l n v with
      | none => top vals fl d
      | some u =>
        let o := ownerOf l n c u
        if o ≠ g.rank then sendChunk order c v.1 v.2 (if pre then 4 else if v.2 = 0 then 0 else 1) o vals fl d
        else
          let ph := if pre then 4 else 1
          let sib := l.parts.find? (fun p => p.full && p.chunk == c && p.phase == ph && p.level != 31 &&
            decide ((p.lo, p.level) ≠ v) && parentOf l n (p.lo, p.level) == some u)
          match sib with
          | none => setLaunch it (putPart { chunk := c, lo := v.1, level := v.2, phase := ph, vals := heldVals vals
                                            flags := fl, full := true } l) d
          | some p =>
            let a := if p.lo < v.1 then valsOf p else vals
            let b := if p.lo < v.1 then vals else valsOf p
            let x := combVals (combKind d it.op l) l.redop pre (chunkBlocks d it.op l n c) a b
            let d := setLaunch it (dropPart p l) d
            nodeUp order c pre top k u x.1 (fl ||| p.flags ||| x.2) d

/-- The data leaf of this rank goes into the tree. -/
def dataLeaf (order c : Nat) (d : Dev) : Dev :=
  withLaunch order d (fun it l g =>
    let r := chunkRange d it.op l g.members.length c
    match leafVals it it.op l r.1 r.2 d with
    | .bad d t => collMemory it t d
    | .ok d x => nodeUp order c false (fun v fl d => resultHere order c v fl true true d) 40 (g.rank, 0) x.1 x.2 d)

/-- A pre-pass result: block exponents and marks take their places, it goes down the tree, and the data leaf starts. -/
def preHere (order c : Nat) (vals : List Nat) (d : Dev) : Dev :=
  withLaunch order d (fun it l g =>
    let n := g.members.length
    let r := chunkRange d it.op l n c
    let bl := chunkBlocks d it.op l n c
    let be := ((List.range bl).zip vals).foldl (fun t e => aSet t (r.1 / 256 + e.1) ((e.2 : Int) - 32768)) l.blockExp
    let mk := ((List.range (r.2 - r.1)).zip (vals.drop bl)).foldl (fun t e => if e.2 = 0 then t else aSet t (r.1 + e.1) e.2) l.marks
    let d := setLaunch it { l with blockExp := be, marks := mk } d
    let root := rootOf l n
    let d := (downTo d it.op l g c true).foldl (fun d q => sendChunk order c root.1 root.2 4 q vals 0 d) d
    if l.started.contains c then dataLeaf order c d else d)

/-! ### Rings (12 R418) -/

/-- The owner of a part assembles the pieces of a chunk, then its value climbs over the parts. -/
def partPiece (order c : Nat) (d : Dev) : Dev :=
  withLaunch order d (fun it l g =>
    let n := g.members.length
    let p := partOf l n g.rank
    let js := (List.range p.2).filter (fun j => let r := ringPiece d it.op l n c p.1 j; decide (r.1 < r.2))
    let held := js.map (fun j => l.parts.find? (fun q => q.full && q.chunk == c && q.lo == p.1 + j && q.level == 31))
    if held.all (·.isSome) then
      let ps := held.filterMap id
      let l' := ps.foldl (fun l q => dropPart q l) l
      nodeUp order c false (fun v fl d => resultHere order c v fl true true d) 8 (p.1, 32)
        (ps.map valsOf).flatten (ps.foldl (fun f q => f ||| q.flags) 0) (setLaunch it l' d)
    else d)

/-- A piece is final at rank j of its part: pass it round, or hand it to the part's owner. -/
def pieceFinal (order c j : Nat) (vals : List Nat) (fl : BitVec 4) (d : Dev) : Dev :=
  withLaunch order d (fun it l g =>
    let n := g.members.length
    let p := partOf l n g.rank
    let r := ringPiece d it.op l n c p.1 j
    if isRing l n then
      let d := if rankGets it.op l g.rank r.1 r.2 then writeResult order (c * n + j) g.rank r.1 vals fl true d
               else addLaunchFlags order fl d
      let nx := ringNext l n g.rank
      if it.op = 1 ∧ nx ≠ p.1 + j then sendChunk order c (p.1 + j) 0 2 nx vals fl d else d
    else
      let o := ownerOf l n c (p.1, 32)
      if o = g.rank then
        partPiece order c (setLaunch it (putPart { chunk := c, lo := p.1 + j, level := 31, phase := 1, vals := heldVals vals
                                                   flags := fl, full := true } l) d)
      else sendChunk order c (p.1 + j) 31 1 o vals fl d)

/-- One step of a piece at this rank: `acc` is what arrived, none where the piece starts here. -/
def pieceStep (order c j : Nat) (acc : Option (List Nat × BitVec 4)) (d : Dev) : Dev :=
  withLaunch order d (fun it l g =>
    let n := g.members.length
    let p := partOf l n g.rank
    let r := ringPiece d it.op l n c p.1 j
    match leafVals it it.op l r.1 r.2 d with
    | .bad d t => collMemory it t d
    | .ok d x =>
      let y : Fl (List Nat) := match acc with
        | none => x
        | some a => let z := combVals (combKind d it.op l) l.redop false 0 a.1 x.1; (z.1, a.2 ||| x.2 ||| z.2)
      if g.rank = p.1 + j then pieceFinal order c j y.1 y.2 d
      else sendChunk order c (p.1 + j) 0 3 (ringNext l n g.rank) y.1 y.2 d)

/-- A chunk of a ring starts here: the pieces that begin at this rank, and those that arrived before. -/
def ringStart (order c : Nat) (d : Dev) : Dev :=
  withLaunch order d (fun it l g =>
    let n := g.members.length
    let p := partOf l n g.rank
    (List.range p.2).foldl (fun d j =>
      let r := ringPiece d it.op l n c p.1 j
      if r.1 < r.2 then
        if ringNext l n (p.1 + j) = g.rank then pieceStep order c j none d
        else match l.parts.find? (fun q => q.full && q.chunk == c && q.lo == p.1 + j && q.phase == 3) with
          | some q =>
            let d := withLaunch order d (fun it l _ => setLaunch it (dropPart q l) d)
            pieceStep order c j (some (valsOf q, q.flags)) d
          | none => d
      else d) d)

/-! ### Starting a chunk (12 R412, R414) -/

/-- Ready notices cover the source elements of a chunk. -/
def chunkReady (d : Dev) (it : Item) (l : Launch) (lo hi : Nat) : Bool :=
  let a := pairScale l.srcPair (l.srcOff + lo)
  let b := pairScale l.srcPair (l.srcOff + hi)
  let got := d.step.readyMaps.foldl (fun s m =>
    if m.1 = hIdx l.src then s + (min b (m.2.1 + m.2.2) - max a m.2.1) else s) 0
  !l.streamed || (d.step.num == it.step && decide (b - a ≤ got))

/-- A chunk slot is free: two are the stream's own, the rest are shared. -/
def slotFree (d : Dev) (l : Launch) : Bool :=
  decide (l.parts.length < 2) || decide ((d.items.foldl (fun s i => s + ((i.2.launch.map (·.parts.length)).getD 0)) 0) < 768)

/-- Movement: the chunk goes to every member that receives part of it, this one included. -/
def moveChunk (order c : Nat) (only : Option Nat) (d : Dev) : Dev :=
  withLaunch order d (fun it l g =>
    let n := g.members.length
    let r := chunkRange d it.op l n c
    match leafVals it it.op l r.1 r.2 d with
    | .bad d t => collMemory it t d
    | .ok d x =>
      let dests := if it.op = 6 then [l.peer] else (List.range n).filter (fun q => rankGets it.op l q r.1 r.2)
      let dests := match only with | some q => dests.filter (· == q) | none => dests
      dests.foldl (fun d q =>
        if q = g.rank then writeResult order (g.rank * numChunks d it.op l n + c) g.rank r.1 x.1 x.2 true d
        else sendChunk order c g.rank 0 0 q x.1 x.2 d) d)

/-- The leaf of a chunk starts. -/
def leafStart (order c : Nat) (d : Dev) : Dev :=
  withLaunch order d (fun it l g =>
    if !isReduce it.op then moveChunk order c none d
    else if l.mode = 2 then ringStart order c d
    else if combKind d it.op l = 3 then
      let r := chunkRange d it.op l g.members.length c
      match preLeaf it l r.1 r.2 d with
      | .bad d t => collMemory it t d
      | .ok d v => nodeUp order c true (fun v _ d => preHere order c v d) 40 (g.rank, 0) v 0 d
    else dataLeaf order c d)

/-- CHUNK_START: a link die starts a chunk once its slot and its ready notices allow it. -/
def execChunkStart (slot seq chunk : Nat) (s : State) : Res :=
  eff (fun d =>
    match findItem d slot seq with
    | none => d
    | some it =>
      if clocksRun d && d.tide.phase == .work then
        withLaunch it.order d (fun it l g =>
          let r := chunkRange d it.op l g.members.length chunk
          if l.running && (ownChunks d it.op l g).contains chunk && !l.started.contains chunk && slotFree d l &&
             chunkReady d it l r.1 r.2 then
            checkComplete it.order (leafStart it.order chunk (setLaunch it { l with started := l.started ++ [chunk] } d))
          else d)
      else d) s

/-! ### Data packets (12 R420 to R422) -/

/-- A failed check goes to rank 0 (12 R421, R428). -/
def reportFail (it : Item) (l : Launch) (g : Group) (cause rank : Nat) (d : Dev) : Dev :=
  let lead := leadRank it.op l g
  if lead = g.rank then leadAbort it it.op l g cause rank d
  else collSend g lead 12 { collHead l g with rank := rank, cause := cause } [] d

/-- What a whole chunk does on arrival. -/
def chunkArrived (order : Nat) (from_ : Nat) (p : Partial) (good : Bool) (d : Dev) : Dev :=
  withLaunch order d (fun it l g =>
    let n := g.members.length
    let c := p.chunk
    let r := chunkRange d it.op l n c
    let pre := p.phase == 4
    let whole := memRead p.bytes 0 (p.bytes.foldl (fun m x => max m (x.1 + 1)) 0)
    let w := wireWidth d it.op l
    let val := fun k => wireVals w pre (chunkBlocks d it.op l n c) k (slice whole 0 (if pre then 2 * chunkBlocks d it.op l n c + k else w * k))
    let lone := partOf l n from_
    let rp := ringPiece d it.op l n c lone.1 (p.lo - lone.1)
    if !isReduce it.op then writeResult order (p.lo * numChunks d it.op l n + c) p.lo r.1 (val (r.2 - r.1)) p.flags good d
    else if pre then
      if !good then d
      else if ownerOf l n c (p.lo, p.level) = from_ ∧ (p.lo, p.level) ≠ rootOf l n then
        nodeUp order c true (fun v _ d => preHere order c v d) 40 (p.lo, p.level) (val (r.2 - r.1)) 0 d
      else preHere order c (val (r.2 - r.1)) d
    else if p.phase = 3 then
      if !good then d
      else if l.started.contains c then pieceStep order c (p.lo - lone.1) (some (val (rp.2 - rp.1), p.flags)) d
      else setLaunch it (putPart { p with vals := heldVals (val (rp.2 - rp.1)), bytes := [], full := true } l) d
    else if p.phase = 2 then
      if isRing l n then
        let d := writeResult order (c * n + p.lo) g.rank rp.1 (val (rp.2 - rp.1)) p.flags good d
        let nx := ringNext l n g.rank
        if good && nx != p.lo then sendChunk order c p.lo 0 2 nx (val (rp.2 - rp.1)) p.flags d else d
      else resultHere order c (val (r.2 - r.1)) p.flags good false d
    else if p.level = 31 then
      if good then partPiece order c (setLaunch it (putPart { p with vals := heldVals (val (rp.2 - rp.1)), bytes := [], full := true } l) d)
      else d
    else if good then
      nodeUp order c false (fun v fl d => resultHere order c v fl true true d) 40 (p.lo, p.level) (val (r.2 - r.1)) p.flags d
    else d)

/-- A data or pre-pass packet: its bytes join the chunk's; the last one brings the check. -/
def collData (src : Pos) (h : CollHeader) (bytes : Bytes) (d : Dev) : Dev :=
  collPacket h d (fun it l g =>
    let from_ := (g.members.findIdx? (· == src)).getD 0
    let p0 : Partial := { chunk := h.chunk, lo := h.rank, level := h.level, phase := h.phase, packets := h.packets }
    let p := (l.parts.find? (fun q => samePart p0 q && !q.full)).getD p0
    let p : Partial := { p with
      flags := p.flags ||| h.flags, got := addNew p.got h.packet, bytes := memWrite p.bytes (4032 * h.packet) bytes
      packets := h.packets, check := if h.packet + 1 = h.packets then h.check else p.check }
    if p.got.length < p.packets then setLaunch it { l with parts := l.parts.filter (fun q => !(samePart p q && !q.full)) ++ [p] } d
    else
      let n := g.members.length
      let r := chunkRange d it.op l n h.chunk
      let lone := partOf l n from_
      let rp := ringPiece d it.op l n h.chunk lone.1 (h.rank - lone.1)
      let pieces := l.mode == 2 && isReduce it.op && (h.phase == 3 || h.level == 31 || isRing l n)
      let k := if pieces then rp.2 - rp.1 else r.2 - r.1
      let len := if h.phase = 4 then 2 * chunkBlocks d it.op l n h.chunk + k else wireWidth d it.op l * k
      let good := crc64 (memRead p.bytes 0 len) == p.check
      let d := setLaunch it { l with parts := l.parts.filter (fun q => !(samePart p q && !q.full)) } d
      let d := chunkArrived it.order from_ p good d
      if good then
        let d := collSend g from_ 4 { collHead l g with chunk := h.chunk, rank := h.rank, level := h.level, phase := h.phase } [] d
        checkComplete it.order d
      else withLaunch it.order d (fun it l g => reportFail it l g 1 from_ d))

def execData (src : Pos) (h : CollHeader) (bytes : Bytes) (s : State) : Res := eff (fun d => collData src h bytes d) s

/-- PREPASS: ASSOC block exponents and marks. -/
def execPrepass (src : Pos) (h : CollHeader) (bytes : Bytes) (s : State) : Res :=
  eff (fun d => collData src { h with phase := 4 } bytes d) s

/-- ACK: the consumer checked the chunk. -/
def ackD (src : Pos) (h : CollHeader) (d : Dev) : Dev :=
  collPacket h d (fun it l g =>
  let key := (ackKey g.members.length h.chunk h.rank h.level h.phase, (g.members.findIdx? (· == src)).getD 0)
  checkComplete it.order (setLaunch it { l with unacked := l.unacked.filter (fun k => decide (k ≠ key)) } d))

def execAck (src : Pos) (h : CollHeader) (s : State) : Res := eff (fun d => ackD src h d) s

/-! ### Joining and ending (12 R409 to R411, R422 to R425) -/

/-- A launch that this rank 0 abandoned within the last 256 tides. -/
def wasAbandoned (d : Dev) (h : CollHeader) : Bool :=
  d.abandoned.any (fun a => a.1 == h.gid && a.2.1 == h.launch && decide (d.tide.count < a.2.2 + 256))

def joinD (src : Pos) (h : CollHeader) (d : Dev) : Dev :=
  if !serves d then d
  else match groupFor d h with
    | none => dropColl d
    | some (gi, _) =>
      match launchItem d gi h.launch with
      | some it => withLaunch it.order d (fun it l _ =>
          maybeStart it.order (setLaunch it { l with joins := addNew l.joins h.rank } d))
      | none =>
        if wasAbandoned d h then
          send (.coll src 7 { gid := h.gid, launch := h.launch, digest := h.digest, rank := h.rank, cause := 2 } []) d
        else { d with earlyJoins := addNew d.earlyJoins (h.gid, h.launch, h.rank) }

def execJoin (src : Pos) (h : CollHeader) (s : State) : Res := eff (fun d => joinD src h d) s

def startD (_src : Pos) (h : CollHeader) (d : Dev) : Dev :=
  collPacket h d (fun it l _ =>
  if l.plan = none then
    let x := fun v => extendTide d.tide.count v
    setLaunch it { l with plan := some (x (h.tides.toNat % 2 ^ 32), x (h.tides.toNat / 2 ^ 32)) } d
  else d)

def execStart (src : Pos) (h : CollHeader) (s : State) : Res := eff (fun d => startD src h d) s

def completeD (_src : Pos) (h : CollHeader) (d : Dev) : Dev :=
  collPacket h d (fun it l g =>
  if leadRank it.op l g = g.rank then
    maybeDone it.order (setLaunch it { l with completes := addNew l.completes h.rank } d)
  else d)

def execComplete (src : Pos) (h : CollHeader) (s : State) : Res := eff (fun d => completeD src h d) s

def groupDoneD (_src : Pos) (h : CollHeader) (d : Dev) : Dev :=
  collPacket h d (fun it l _ =>
  if l.endTide = none then setLaunch it { l with endTide := some (extendTide d.tide.count (h.tides.toNat % 2 ^ 32)) } d else d)

def execGroupDone (src : Pos) (h : CollHeader) (s : State) : Res := eff (fun d => groupDoneD src h d) s

def abortD (_src : Pos) (h : CollHeader) (d : Dev) : Dev :=
  collPacket h d (fun it l _ =>
  if l.endTide = none then endByAbort it h.cause h.rank d else d)

def execAbort (src : Pos) (h : CollHeader) (s : State) : Res := eff (fun d => abortD src h d) s

def leaveD (_src : Pos) (h : CollHeader) (d : Dev) : Dev :=
  collPacket h d (fun it l g =>
  if leadRank it.op l g = g.rank then leadAbort it it.op l g h.cause h.rank d else d)

def execLeave (src : Pos) (h : CollHeader) (s : State) : Res := eff (fun d => leaveD src h d) s

/-- FAIL: rank 0 learns of a failed check or of a packet that no detour carries. -/
def failD (_src : Pos) (h : CollHeader) (d : Dev) : Dev :=
  collPacket h d (fun it l g =>
  if leadRank it.op l g = g.rank then leadAbort it it.op l g h.cause h.rank d else d)

def execFail (src : Pos) (h : CollHeader) (s : State) : Res := eff (fun d => failD src h d) s

/-! ### Re-issue (12 R427, R428) -/

/-- This rank sends again what it put under the lost node. -/
def reissueHere (order : Nat) (h : CollHeader) (asker : Nat) (d : Dev) : Dev :=
  withLaunch order d (fun it l g =>
    let n := g.members.length
    let p := partOf l n g.rank
    if !l.started.contains h.chunk then d
    else if !isReduce it.op then moveChunk order h.chunk (some asker) d
    else if l.mode = 2 then
      (List.range p.2).foldl (fun d j =>
        let r := ringPiece d it.op l n h.chunk p.1 j
        let one := h.level == 31 || h.phase == 3 || isRing l n
        if r.1 < r.2 ∧ ringNext l n (p.1 + j) = g.rank ∧ (!one || h.rank == p.1 + j) = true then pieceStep order h.chunk j none d
        else d) d
    else if h.phase = 4 then leafStart order h.chunk d
    else dataLeaf order h.chunk d)

/-- Ranks that must send again for a lost packet. -/
def reissueTo (op : Nat) (l : Launch) (g : Group) (h : CollHeader) : List Nat :=
  let n := g.members.length
  if !isReduce op then [h.rank]
  else if l.mode = 2 ∧ (h.level = 31 ∨ h.phase = 3 ∨ isRing l n = true) then [ringNext l n h.rank]
  else ranksUnder l n (h.rank, h.level)

/-- LOST at the packet's destination: REISSUE to every rank under the node, or FAIL with cause LINK. -/
def lostD (_src : Pos) (h : CollHeader) (d : Dev) : Dev :=
  collPacket h d (fun it l g =>
  if h.cause = 3 then reportFail it l g 3 h.rank d
  else
    (reissueTo it.op l g h).foldl (fun d r =>
      if r = g.rank then reissueHere it.order h g.rank d
      else collSend g r 10 { h with check := 0, cause := 0 } [] d) d)

def execLost (src : Pos) (h : CollHeader) (s : State) : Res := eff (fun d => lostD src h d) s

def reissueD (src : Pos) (h : CollHeader) (d : Dev) : Dev :=
  collPacket h d (fun it _ g => reissueHere it.order h ((g.members.findIdx? (· == src)).getD 0) d)

def execReissue (src : Pos) (h : CollHeader) (s : State) : Res := eff (fun d => reissueD src h d) s

/-- A packet of the collective lane by its USE (12 Table 12-8): none for an unassigned one. -/
def collDeliver (src : Pos) (use : Nat) (h : CollHeader) (bytes : Bytes) (d : Dev) : Option Dev :=
  match use with
  | 1 => some (joinD src h d)
  | 2 => some (startD src h d)
  | 3 => some (collData src h bytes d)
  | 4 => some (ackD src h d)
  | 5 => some (completeD src h d)
  | 6 => some (groupDoneD src h d)
  | 7 => some (abortD src h d)
  | 8 => some (leaveD src h d)
  | 9 => some (lostD src h d)
  | 10 => some (reissueD src h d)
  | 11 => some (collData src { h with phase := 4 } bytes d)
  | 12 => some (failD src h d)
  | _ => none

/-! ### The items' rows and their limits -/

/-- GROUP_DONE's END_TIDE has come: the item's work is over, with the flags of R408. -/
def collEnded (it : Item) (d : Dev) : Dev :=
  match it.launch with
  | some l =>
    if !it.work && l.endTide.any (fun e => decide (e ≤ d.tide.count)) then
      finishItem it.order 0 0 { d with items := aMod d.items it.order (fun i => { i with flags := i.flags ||| l.flags }) }
    else d
  | none => d

/-- A collective item's row: its work is set up once the plan's start tide has come; it ends in the slack of END_TIDE. -/
def collRow (slot seq op : Nat) (d : Dev) : Dev :=
  match findItem d slot seq with
  | none => d
  | some it =>
    if itemWorks d it 4 op then
      match it.launch with
      | none => d
      | some l =>
        let d := if !l.running && l.plan.any (fun p => decide (p.1 ≤ d.tide.count)) then setLaunch it { l with running := true } d else d
        let d := checkComplete it.order d
        match aGet d.items it.order with
        | some it => collEnded it d
        | none => d
    else d

def execAllReduce (slot seq : Nat) (s : State) : Res := eff (fun d => collRow slot seq 1 d) s
def execReduceScatter (slot seq : Nat) (s : State) : Res := eff (fun d => collRow slot seq 2 d) s
def execAllGather (slot seq : Nat) (s : State) : Res := eff (fun d => collRow slot seq 3 d) s
def execBroadcast (slot seq : Nat) (s : State) : Res := eff (fun d => collRow slot seq 4 d) s
def execAllToAll (slot seq : Nat) (s : State) : Res := eff (fun d => collRow slot seq 5 d) s
def execSend (slot seq : Nat) (s : State) : Res := eff (fun d => collRow slot seq 6 d) s
def execRecv (slot seq : Nat) (s : State) : Res := eff (fun d => collRow slot seq 7 d) s

/-- The grace tide t + 1 has come and the item has not ended (12 R424). -/
def graceOver (d : Dev) (it : Item) : Bool :=
  !it.work && it.launch.any (fun l => l.plan.any (fun p => decide (p.2 + 1 ≤ d.tide.count)) &&
    !l.endTide.any (fun e => decide (e ≤ d.tide.count)))
def expireGrace (it : Item) (d : Dev) : Dev :=
  if graceOver d it then finishItem it.order 0x11 (3 * 65536 + 0xFFFF) d else d

/-- COLLECTIVE_GRACE_EXPIRY: not before the slack of t + 1, in whose working window the item may still end (02 R49). -/
def execCollectiveGraceExpiry (slot seq : Nat) (s : State) : Res :=
  eff (fun d =>
    match findItem d slot seq with
    | none => d
    | some it => if clocksRun d && serves d && d.tide.phase != .work then expireGrace it d else d) s

/-- JOIN_LIMIT tides have passed since admission without START or all JOINs (12 R411). -/
def expireJoin (it : Item) (d : Dev) : Dev :=
  match it.launch with
  | none => d
  | some l =>
    match aGet d.groups l.group with
    | none => d
    | some g =>
      if it.work || l.plan.isSome || decide (d.tide.count < it.admTide + l.joinLimit) then d
      else
        let lead := leadRank it.op l g
        if lead = g.rank then
          let lacks := ((launchRanks it.op l g).find? (fun r => !l.joins.contains r)).getD 0
          let kept := d.abandoned.filter (fun a => decide (d.tide.count < a.2.2 + 256))
          leadAbort it it.op l g 2 lacks { d with abandoned := kept ++ [(g.gid, l.num, d.tide.count)] }
        else finishItem it.order 0x14 (2 * 65536 + lead) d

def execJoinLimitExpiry (slot seq : Nat) (s : State) : Res :=
  eff (fun d =>
    match findItem d slot seq with
    | none => d
    | some it => if clocksRun d && serves d then expireJoin it d else d) s

/-- A position is announced lost: every member that has not ended ends by it (12 R426). -/
def memberLost (p : Pos) (d : Dev) : Dev :=
  d.items.foldl (fun d i =>
    match i.2.launch with
    | some l =>
      match aGet d.groups l.group with
      | some g =>
        match g.members.findIdx? (· == p) with
        | some r =>
          if i.2.stage == .admitted && !i.2.work && (launchRanks i.2.op l g).contains r then
            finishItem i.1 0x14 (2 * 65536 + r % 65536) d
          else d
        | none => d
      | none => d
    | none => d) d

end Sys2Proof.Machine
end

