-- ==== Sys2Proof/Machine/Outcome.lean ====
section
/-! DEFINITION. Outcome records (03 Table 3-15), and the entries by which the reset ledger (15 Table 15-8) and the channel ledger
(13 R455) hold them. -/
namespace Sys2Proof.Machine
open Sys2Proof

/-- AUX: the tides in which the item could work (03 Table 3-15). -/
def auxOf (it : Item) : Nat := if it.admTide = 0 ∨ it.endTide < it.admTide then 0 else it.endTide - it.admTide + 1

/-- The pair is correlated, or was until the partner was lost (13 R434; 03 Table 3-15). -/
def correlated (d : Dev) : Bool := d.pair.state == 3 || (d.pair.state == 6 && d.pair.partnerFeed == d.tel.feedId)

/-- The outcome record of an item. -/
def recordBytes (d : Dev) (it : Item) (phase : Bool) : Bytes :=
  toLe 8 it.seq.toNat ++ toLe 1 it.status.toNat
    ++ toLe 1 (b2n phase + 2 * b2n (it.step != 0 && correlated d) + 4 * b2n it.held)
    ++ toLe 1 it.cluster.toNat ++ zeros 1 ++ toLe 4 it.detail.toNat ++ toLe 8 it.endTide ++ toLe 4 it.step ++ toLe 4 (auxOf it)

/-- A ledger entry of an item: `mark` is 0 in the reset ledger; in the channel ledger 0 consumed, 1 ended, 2 recorded (log 26). -/
def ledgerItem (d : Dev) (it : Item) (flr : Nat) (draining : Bool) (mark : Nat) : Bytes :=
  toLe 8 it.chan.toNat ++ toLe 2 it.slot ++ toLe 1 0 ++ toLe 1 flr ++ toLe 1 it.kind ++ toLe 1 (b2n draining) ++ toLe 1 mark
    ++ zeros 17 ++ recordBytes d it false

/-- Channel, SEQ and mark of an entry. -/
def entryChan (e : Bytes) : BitVec 64 := BitVec.ofNat 64 (fieldLe e 0 8)
def entrySeq (e : Bytes) : Nat := fieldLe e 32 8
def entryMark (e : Bytes) : Nat := fieldLe e 14 1

/-- Entries into a ledger: one per item; a recorded item's entry leaves it. -/
def ledgerPut (l : List Bytes) (e : Bytes) : List Bytes :=
  let same := fun x => entryChan x == entryChan e && entrySeq x == entrySeq e
  if entryMark e = 2 then l.filter (fun x => !same x)
  else if l.any same then l.map (fun x => if same x then e else x)
  else l ++ [e]

end Sys2Proof.Machine
end

