-- ==== Sys2Proof/Machine/Links.lean ====
section
/-! DEFINITION. Links and straits (11 R349 to R388): training and qualification, IDENT and discovery, replay and failover, lane
moves, loss of links, and the causeways of the package (01 R17, R18). -/
namespace Sys2Proof.Machine
open Sys2Proof

/-- A record that waits for the next slack (11 R375). -/
def logLater (r : RasRec) (d : Dev) : Dev := { d with ras := { d.ras with due := d.ras.due ++ [r] } }

/-- Note whether the strait still has an ACTIVE link (11 R394). -/
def refreshStrait (st : Nat) (d : Dev) : Dev :=
  let x := straitOf d st
  let gone := (activeLinks d st).isEmpty
  if x.lost = gone then d
  else
    let d := setStrait st { x with lost := gone, changed := true } d
    { d with tide := { d.tide with treeStale := true } }

/-- The link's flow of flits starts afresh. -/
def freshLink (k : Link) : Link :=
  { k with replayBuf := [], txq := [], heads := [], partials := [], rxSlots := [], txSeq := 0, rxSeq := 0, sameReplays := 0
           nakDue := false, moves := [], asking := none }

/-- The unit name of a link (13 Table 13-9). -/
def linkUnit (st ln : Nat) : Nat := st * 256 + ln

/-! ### Lost packets (11 R372, R396) -/

/-- The consumer of a lost packet is told: a data packet of a collective by LOST to its destination, with the cause LINK where
no sidestep qualifies; the module's own ferry fails by such a packet (13 R439). -/
def lostPacket (h : PacketHeader) (first : Bytes) (link : Option Nat) (d : Dev) : Dev :=
  if h.vl = 2 ∧ (h.use = 3 ∨ h.use = 11) then
    let c := collHeadOf first
    let c : CollHeader := { c with packet := 0, packets := 1, check := 0, tides := 0, flags := 0
                                   phase := if h.use = 11 then 4 else c.phase }
    send (.coll h.dst 9 (match link with | some u => { c with cause := 3, rank := u } | none => c) []) d
  else if h.vl = 3 ∧ h.use ≠ 2 ∧ h.src = d.lnk.pos ∧ link.isSome = true then { d with step := { d.step with ferryFail := true } }
  else d

/-- Packets whose first flit is in a list of flits: header and payload bytes present. -/
def packetsIn (fs : List Flit) : List (PacketHeader × Bytes) :=
  (fs.filter (·.sop)).map (fun f =>
    let rest := ((fs.filter (fun g => g.ch == f.ch)).dropWhile (fun g => decide (g ≠ f)))
    let mine := f :: (rest.drop 1).takeWhile (fun g => !g.sop)
    let all := (mine.map (·.payload)).flatten
    (packetOf all f.ch, all.drop 16))

/-! ### A link goes down (11 R371, R372, R376, R377) -/

/-- A link leaves service: survivors take its flits over, else its packets are lost and unsent ones wait. -/
def linkDown (st ln cause : Nat) (d : Dev) : Dev :=
  let k := linkOf d st ln
  let others := (activeLinks d st).filter (· != ln)
  let base : Link := { k with state := if d.lnk.run then 1 else 0, cause := cause, delay := k.delay, identGood := false, ident := none }
  match (if k.state = 7 then others.head? else none) with
  | some t =>
    let d := setLink st ln { base with partials := [], asking := some 7 } d
    let kt := linkOf d st t
    let d := setLink st t { kt with partials := kt.partials ++ k.partials } d
    refreshStrait st (send (.control 7 st t ln (k.rxSeq - 1) 0 0) d)
  | none =>
    let lost := packetsIn k.replayBuf ++ k.heads.map (fun x => (packetOf x.2 x.1, x.2.drop 16))
    let unsent := packetsIn k.txq
    let d := refreshStrait st (setLink st ln { freshLink base with state := base.state } d)
    let d := unsent.foldl (fun d p => waitAt st p.1 p.2 d) d
    lost.foldl (fun d p => lostPacket p.1 p.2 none d) d

/-- A link fails in training. -/
def linkFailed (st ln cause : Nat) (d : Dev) : Dev :=
  refreshStrait st (setLink st ln { freshLink (linkOf d st ln) with state := 10, cause := cause } d)

/-! ### IDENT and discovery (11 R384 to R387) -/

/-- What this module says of itself. -/
def myIdent (d : Dev) (st ln : Nat) : IdentPayload :=
  { serial := d.serial, pos := if d.lnk.assigned then some d.lnk.pos else none, strait := st, link := ln
    numv := BitVec.ofNat 8 idNumv, wrap := d.lnk.wrap, partId := d.lnk.partId, dim := d.lnk.dim }

def sendIdent (st ln : Nat) (d : Dev) : Dev :=
  send (.ident st ln (myIdent d st ln)) d

/-- The link enters IDENT. -/
def enterIdent (st ln : Nat) (d : Dev) : Dev :=
  sendIdent st ln (setLink st ln { freshLink (linkOf d st ln) with state := 6, cause := 0 } d)

/-- 0 match, 1 unassigned, 2 wrong, 3 no neighbour expected (11 Table 11-8). -/
def identKind (d : Dev) (st ln : Nat) (id : IdentPayload) : Nat :=
  match neighbourOf d d.lnk.pos st with
  | none => 3
  | some n =>
    match id.pos with
    | none => 1
    | some p =>
      if p = n ∧ id.partId = d.lnk.partId ∧ id.dim = d.lnk.dim ∧ id.wrap = d.lnk.wrap ∧ id.strait = oppStrait st ∧ id.link = ln
      then 0 else 2

def darken (st ln : Nat) (d : Dev) : Dev :=
  refreshStrait st (setLink st ln { linkOf d st ln with state := 8, identGood := false } d)

/-- Judge the IDENT that a link holds against the plan; `changed` says that the strait's serial differs from the last. -/
def judgeLink (st ln : Nat) (changed : Bool) (d : Dev) : Dev :=
  let k := linkOf d st ln
  match k.ident with
  | none => d
  | some id =>
    if !d.lnk.planLoaded || !(decide (6 ≤ k.state) && decide (k.state ≤ 8)) then d
    else
      let kind := identKind d st ln id
      let wrong := kind == 2 || (kind == 0 && changed && d.lnk.strictSerial)
      if kind = 3 then
        logUnit 15 0x406 9 (linkUnit st ln) (linkUnit st ln)
          (darken st ln { d with lnk := { d.lnk with extra := d.lnk.extra ||| BitVec.ofNat 6 (2 ^ st) } })
      else if wrong then
        let d := darken st ln { d with lnk := { d.lnk with wrong := d.lnk.wrong ||| BitVec.ofNat 6 (2 ^ st) } }
        if d.brg.firstReady then logUnit 15 0x408 9 (linkUnit st ln) (linkUnit st ln) d else d
      else if kind = 1 then darken st ln d
      else if (straitOf d st).accepted then darken st ln d
      else
        let d := if changed then logUnit 15 0x407 10 st st d else d
        if k.state = 7 then d
        else if d.brg.firstReady then setLink st ln { linkOf d st ln with identGood := true } d
        else refreshStrait st (setLink st ln { linkOf d st ln with state := 7 } d)

/-- IDENT: a neighbour's identity. -/
def identD (st ln : Nat) (id : IdentPayload) (d : Dev) : Dev :=
  let k := linkOf d st ln
  if decide (st < 6) && decide (ln < 4) && decide (6 ≤ k.state) && decide (k.state ≤ 8) then
    let x := straitOf d st
    let changed := x.neighValid && x.serial != id.serial
    let d := setStrait st { x with neighValid := true, neigh := id.pos.getD { x := 63, y := 63, z := 63 }, serial := id.serial
                                   wrap := id.wrap, numv := id.numv, partId := id.partId } d
    judgeLink st ln changed (setLink st ln { k with ident := some id } d)
  else d
def execIdent (st ln : Nat) (id : IdentPayload) (s : State) : Res :=
  eff (fun d => if clocksRun d then identD st ln id d else d) s

/-- All links. -/
def eachLink (d : Dev) (f : Nat → Nat → Dev → Dev) : Dev :=
  (List.range 24).foldl (fun d i => f (i / 4) (i % 4) d) d

/-- IDENT again on every link that has reached it. -/
def identAll (d : Dev) : Dev :=
  eachLink d (fun st ln d => let k := linkOf d st ln
    if 6 ≤ k.state ∧ k.state ≤ 8 then sendIdent st ln d else d)

def execIdentPeriod (s : State) : Res := eff (fun d => if clocksRun d then identAll d else d) s

/-- Straits on which a neighbour is expected (11 R382). -/
def expects (d : Dev) (st : Nat) : Bool := (neighbourOf d d.lnk.pos st).isSome

/-- Every strait is judged at the discovery deadline (11 R385). -/
def judgeStraits (d : Dev) : Dev :=
  let bad := (List.range 6).filter (fun s => expects d s && (activeLinks d s).isEmpty)
  let miss := bad.filter (fun s => !d.lnk.wrong.getLsbD s)
  let d := { d with lnk := { d.lnk with missing := BitVec.ofNat 6 (bitMask miss), planState := if bad.isEmpty then 3 else 4 } }
  eachLink d (fun st ln d =>
    if expects d st && !(activeLinks d st).isEmpty && (linkOf d st ln).state != 7 then
      logUnit 3 0x405 9 (linkUnit st ln) (linkUnit st ln) d
    else d)

/-! ### Training (11 Table 11-7) -/

def setLinkState (st ln n : Nat) (d : Dev) : Dev := setLink st ln { linkOf d st ln with state := n } d

/-- A link row: acts in the states listed. -/
def linkRow (st ln : Nat) (inState : Nat → Bool) (f : Link → Dev → Dev) (d : Dev) : Dev :=
  if clocksRun d && d.lnk.run && decide (st < 6) && decide (ln < 4) && inState (linkOf d st ln).state then f (linkOf d st ln) d else d

def lanesUp (v : BitVec 18) : Nat := (bitList 18 v.toNat).length

def execLinkSignalDetected (st ln : Nat) (lanes : BitVec 18) (s : State) : Res :=
  eff (linkRow st ln (· == 1) (fun k d =>
    if 16 ≤ lanesUp lanes then setLink st ln { k with state := 2, lanesSeen := lanes, cause := 0 } d
    else setLink st ln { k with lanesSeen := lanes } d)) s

def execLinkNoSignalTimer (st ln : Nat) (s : State) : Res :=
  eff (linkRow st ln (· == 1) (fun k d => setLink st ln { k with cause := 1 } d)) s

/-- Equalisation ends: the provisional map takes the lowest 16 trained lanes. -/
def execEqualiseDone (st ln : Nat) (lanes : BitVec 18) (s : State) : Res :=
  eff (linkRow st ln (· == 2) (fun k d =>
    if 16 ≤ lanesUp lanes then
      let m := (bitList 18 lanes.toNat).take 16
      setLink st ln { k with state := 3, lanesSeen := lanes, rxMap := m, txMap := m } d
    else d)) s

/-- FEC lock and deskew: the delay is measured next. -/
def execAlignDone (st ln : Nat) (s : State) : Res :=
  eff (linkRow st ln (· == 3) (fun k d =>
    send (.delay 5 st ln 0) (setLink st ln { k with state := 4, asking := some 5 } d))) s

/-- DELAY_PROBE is answered. -/
def execDelayProbe (st ln : Nat) (stamp : BitVec 64) (s : State) : Res :=
  eff (linkRow st ln (fun n => decide (4 ≤ n) && n != 10) (fun _ d => send (.delay 6 st ln stamp) d)) s

/-- DELAY_REPLY gives the one-way delay; more than 150 ns is too long. -/
def execDelayReply (st ln roundTrip turnaround : Nat) (s : State) : Res :=
  eff (linkRow st ln (fun n => n == 4 || n == 9) (fun k d =>
    let one := (roundTrip - turnaround) / 2
    if k.state = 9 then setLink st ln { k with delay := one, asking := none } d
    else if 1500 < one then linkFailed st ln 4 (setLink st ln { k with delay := one } d)
    else setLink st ln { k with state := 5, delay := one, asking := none, bits := 0, laneErr := List.replicate 18 0 } d)) s

def execLinkStateTimeout (st ln : Nat) (s : State) : Res :=
  eff (linkRow st ln (fun n => n == 2 || n == 3 || n == 4 || n == 9) (fun k d =>
    linkFailed st ln (match k.state with | 2 => 2 | 3 => 3 | 4 => 4 | _ => 6) d)) s

/-- Class of a lane: good, marginal, failed (11 R378). -/
def laneClass (trained : Bool) (errs bits : Nat) : Nat :=
  if !trained then 2 else if errs * 10 ^ 6 ≤ bits then 0 else if errs * 10 ^ 5 ≤ bits then 1 else 2

/-- Positions onto good lanes in ascending order, then onto marginal ones (11 R379). -/
def laneMap (cls : List Nat) : List Nat :=
  let pick := fun c => (List.range 18).filter (fun i => (cls[i]?).getD 2 == c)
  (pick 0 ++ pick 1).take 16

/-- Bits of the window of QUALIFY: the long one before the device first declares itself ready (11 R378). -/
def qualBits (d : Dev) : Nat := if d.brg.firstReady then 10 ^ 11 else max 10 d.lnk.qualWindow * 10 ^ 11

/-- The qualification window ends: lanes are classed and mapped. Before the window's bits have passed it has not ended. -/
def execQualifyWindowEnd (st ln bits : Nat) (errs : List Nat) (s : State) : Res :=
  eff (linkRow st ln (· == 5) (fun k d => if bits < qualBits d then d else
    let es := (List.range 18).map (fun i => (errs[i]?).getD 0)
    let cls := (List.range 18).map (fun i => laneClass (k.lanesSeen.getLsbD i) ((es[i]?).getD 0) bits)
    let m := laneMap cls
    let d := setLink st ln { k with cls := cls, laneErr := es, bits := bits } d
    if m.length < 16 then linkFailed st ln 5 d
    else enterIdent st ln (setLink st ln { linkOf d st ln with rxMap := m } d))) s

def execRetrainDone (st ln : Nat) (s : State) : Res :=
  eff (linkRow st ln (· == 9) (fun k d =>
    refreshStrait st (setLink st ln { k with state := 7, sameReplays := 0, asking := none } d))) s

def execLinkLossOfSignal (st ln : Nat) (s : State) : Res :=
  eff (linkRow st ln (fun n => n == 6 || n == 7 || n == 8) (fun _ d => linkDown st ln 0 d)) s

/-- RETRY returns a FAILED link to DOWN, and training starts again while RUN is 1. -/
def linkRetry (st ln : Nat) (d : Dev) : Dev :=
  if decide (st < 6) && decide (ln < 4) && (linkOf d st ln).state == 10 then
    setLink st ln { freshLink (linkOf d st ln) with state := if d.lnk.run then 1 else 0, cause := 0 } d
  else d
def execLnkLinkRetry (st ln : Nat) (s : State) : Res := eff (fun d => if pf1Open d then linkRetry st ln d else d) s

/-- LNK_CTL.RUN = 1 starts training on every link. -/
def startLinks (d : Dev) : Dev :=
  eachLink { d with lnk := { d.lnk with run := true } } (fun st ln d =>
    if (linkOf d st ln).state = 0 then setLinkState st ln 1 d else d)

/-- LNK_CTL.RUN = 0 takes every link DOWN. -/
def stopLinks (d : Dev) : Dev :=
  let d := eachLink { d with lnk := { d.lnk with run := false, planState := 0 } } (fun st ln d =>
    setLink st ln { freshLink (linkOf d st ln) with state := 0, cause := 0, ident := none, identGood := false } d)
  (List.range 6).foldl (fun d st => refreshStrait st (setStrait st { straitOf d st with accepted := false } d)) d

/-- An RWS field in a running block: the write is rejected and logged when it would change it (02 R64). -/
def rejectLnk (off : Nat) (d : Dev) : Dev := logInfo 0x0001 off { d with lnk := { d.lnk with writeRejected := true } }

/-- A write of LNK_CTL (11 Table 11-9). -/
def lnkCtlWrite (v : BitVec 32) (d : Dev) : Dev :=
  let d := if v.getLsbD 31 then { d with lnk := { d.lnk with writeRejected := false } } else d
  let d := if v.getLsbD 1 = d.lnk.strictSerial then d
    else if d.lnk.run then rejectLnk 0x20000 d else { d with lnk := { d.lnk with strictSerial := v.getLsbD 1 } }
  if v.getLsbD 0 && !d.lnk.run then startLinks d
  else if !v.getLsbD 0 && d.lnk.run && !d.tide.run then stopLinks d
  else d

def execLnkCtlRunStart (v : BitVec 32) (s : State) : Res :=
  eff (fun d => if pf1Open d && v.getLsbD 0 then lnkCtlWrite v d else d) s
def execLnkCtlRunStop (v : BitVec 32) (s : State) : Res :=
  eff (fun d => if pf1Open d && !v.getLsbD 0 then lnkCtlWrite v d else d) s

/-! ### Replay and failover (11 R368 to R371) -/

/-- Resend the flits of a link from a point on. -/
def resendFrom (st ln : Nat) (from_ : Nat) (d : Dev) : Dev :=
  let k := linkOf d st ln
  let again := k.replayBuf.drop from_
  again.foldl (fun d f => send (.flit st ln (stampFlit k f)) d)
    (setLink st ln { k with replays := satInc 0xFFFFFFFF k.replays, sameReplays := k.sameReplays + 1 } d)

def execNak (st ln : Nat) (seq : BitVec 12) (s : State) : Res :=
  eff (linkRow st ln (· == 7) (fun k d =>
    let k := ackLink (seq - 1) k
    let d := setLink st ln k d
    match k.replayBuf.findIdx? (fun f => f.seq == seq) with
    | some i => resendFrom st ln i d
    | none => d)) s

def execReplayTimeout (st ln : Nat) (s : State) : Res :=
  eff (linkRow st ln (· == 7) (fun k d => if k.replayBuf.isEmpty then d else resendFrom st ln 0 d)) s

/-- Eight replays in a row of one SEQ: the link retrains. -/
def execReplayLimit (st ln : Nat) (s : State) : Res :=
  eff (linkRow st ln (· == 7) (fun k d =>
    if 8 ≤ k.sameReplays then refreshStrait st (setLink st ln { k with state := 9, asking := none } d) else d)) s

/-- FAILOVER names the last flit that the far end received on a lost link: the flits after it go over the surviving link. -/
def execFailover (st ln lostLn : Nat) (seq : BitVec 12) (s : State) : Res :=
  eff (linkRow st ln (· == 7) (fun k d =>
    if 4 ≤ lostLn ∨ lostLn = ln then d
    else
      let lost := ackLink seq (linkOf d st lostLn)
      let moved := lost.replayBuf
      let d := setLink st lostLn { lost with replayBuf := [], txq := [], heads := [], asking := none } d
      let k' := pumpLink d (moved ++ lost.txq ++ k.txq) { k with heads := k.heads ++ lost.heads }
      (k'.replayBuf.drop k.replayBuf.length).foldl (fun d f => send (.flit st ln (stampFlit k' f)) d) (setLink st ln k' d))) s

/-- The answer to a control flit did not come: it is sent again. -/
def execControlRepeatTimer (st ln : Nat) (s : State) : Res :=
  eff (fun d =>
    if clocksRun d && d.lnk.run && decide (st < 6) && decide (ln < 4) then
      let k := linkOf d st ln
      match k.asking with
      | some 5 => send (.delay 5 st ln 0) d
      | some 2 => match k.moves.head? with
        | some m => send (.control 2 st ln ln k.rxSeq m.1 m.2) d
        | none => d
      | some 7 => match (activeLinks d st).head? with
        | some t => send (.control 7 st t ln (k.rxSeq - 1) 0 0) d
        | none => d
      | _ => d
    else d) s

/-! ### Lane moves (11 R373 to R376) -/

/-- Holm lanes of the receive direction that are usable: good ones first. -/
def holmLanes (k : Link) : List Nat :=
  let free := (List.range 18).filter (fun i => !k.rxMap.contains i && !(k.moves.any (fun m => m.2 == i)))
  free.filter (fun i => (k.cls[i]?).getD 3 == 0) ++ free.filter (fun i => (k.cls[i]?).getD 3 == 1)

/-- A position needs another lane: the move starts, waits its turn, or the link goes DOWN for want of a holm. -/
def moveLane (st ln pos : Nat) (d : Dev) : Dev :=
  let k := linkOf d st ln
  if k.moves.any (fun m => m.1 == pos) then d
  else match (holmLanes k).head? with
    | some lane =>
      let first := k.moves.isEmpty
      let d := setLink st ln { k with moves := k.moves ++ [(pos, lane)], asking := if first then some 2 else k.asking } d
      if first then send (.control 2 st ln ln k.rxSeq pos lane) d else d
    | none => logUnit 3 0x404 9 (linkUnit st ln) (linkUnit st ln) (linkDown st ln 5 d)

/-- A lane's error rate passes its threshold or it loses lock. -/
def execLaneFault (st ln lane : Nat) (s : State) : Res :=
  eff (linkRow st ln (· == 7) (fun k d =>
    match k.rxMap.findIdx? (· == lane) with
    | some pos => moveLane st ln pos d
    | none => if lane < 18 then setLink st ln { k with cls := k.cls.set lane 2 } d else d)) s

/-- SPARE_REQ: this transmitter answers, switches its map and resends on it. -/
def execSpareReq (st ln pos lane : Nat) (seq : BitVec 12) (s : State) : Res :=
  eff (linkRow st ln (· == 7) (fun k d =>
    let k := ackLink (seq - 1) { k with txMap := k.txMap.set pos lane }
    let d := send (.control 3 st ln ln seq pos lane) (setLink st ln k d)
    match k.replayBuf.findIdx? (fun f => f.seq == seq) with
    | some i => (k.replayBuf.drop i).foldl (fun d f => send (.flit st ln (stampFlit k f)) d) d
    | none => d)) s

/-- SPARE_ACK: this receiver switches its map; the lane left behind is failed; the next move starts. -/
def execSpareAck (st ln pos lane : Nat) (_seq : BitVec 12) (s : State) : Res :=
  eff (linkRow st ln (· == 7) (fun k d =>
    match k.moves with
    | m :: t =>
      if m = (pos, lane) then
        let old := (k.rxMap[pos]?).getD 0
        let k' : Link := { k with rxMap := k.rxMap.set pos lane, cls := k.cls.set old 2, moves := t
                                  asking := if t.isEmpty then none else some 2 }
        let d := setLink st ln k' d
        let d := logLater { sev := 2, cls := 0x403, unitKind := 5, logical := BitVec.ofNat 32 (st * 2 ^ 24 + ln * 65536 + pos)
                            physical := BitVec.ofNat 32 lane, detail := BitVec.ofNat 128 old } d
        match t.head? with
        | some n => send (.control 2 st ln ln k.rxSeq n.1 n.2) d
        | none => d
      else d
    | [] => d)) s

/-- LANE_MOVE: a receive position moves at the host's request (14 Table 14-12). -/
def execLaneMove (m : Nat) (s : State) : Res :=
  eff (mbxRow m 0x0F06 (fun d c =>
    let st := fieldLe c 16 1
    let ln := fieldLe c 17 1
    let pos := fieldLe c 18 1
    if 6 ≤ st then .no rBadField 16
    else if 4 ≤ ln then .no rBadField 17
    else if 16 ≤ pos then .no rBadField 18
    else if (linkOf d st ln).state ≠ 7 ∨ (holmLanes (linkOf d st ln)).isEmpty = true then .no rNotAllowed (Config.noField 0x0F06 rNotAllowed)
    else .ok (moveLane st ln pos d) [])) s

/-- A packet's EOP did not come in 10 µs: the packet is discarded (11 R359). -/
def execPacketEopTimeout (st ln ch : Nat) (s : State) : Res :=
  eff (linkRow st ln (· == 7) (fun k d => setLink st ln { k with partials := k.partials.filter (fun p => p.1 != ch) } d)) s

/-! ### Causeways (01 R17, R18) -/

/-- The spare lane of the lane's group of 32 is free. -/
def cwSpareFree (d : Dev) (cw lane : Nat) : Bool :=
  !(d.units.cwSpare.any (fun x => x.1 == cw && x.2 / 32 == lane / 32))

/-- Causeways of the package (01 Table 1-2). -/
def numCauseways : Nat := 44

/-- What firmware saw of a causeway lane waits for the next slack. -/
def causewayDue (cw lane : Nat) (failed : Bool) (d : Dev) : Dev :=
  if firmwareRuns d && decide (cw < numCauseways) then { d with units := { d.units with cwDue := addNew d.units.cwDue (cw, lane, failed) } } else d

/-- The traffic of a lane moves to its group's spare lane (01 R17); where none remains, or the lane's own spare fails, a failure
halves its causeway (R18). -/
def causewayMove (cw lane : Nat) (failed : Bool) (d : Dev) : Dev :=
  let r : RasRec := { unitKind := 6, logical := BitVec.ofNat 32 (cw * 256 + lane), physical := BitVec.ofNat 32 (cw * 256 + lane) }
  let moved := d.units.cwSpare.contains (cw, lane)
  if d.units.cwHalf.contains (cw, lane) || (moved && !failed) then d
  else if !moved && cwSpareFree d cw lane then
    logRec { r with sev := 2, cls := 0x401 } { d with units := { d.units with cwSpare := d.units.cwSpare ++ [(cw, lane)] } }
  else if failed then logRec { r with sev := 3, cls := 0x402 } { d with units := { d.units with cwHalf := d.units.cwHalf ++ [(cw, lane)] } }
  else d

/-- The slack moves the lanes that wait for it. -/
def causewaySlack (d : Dev) : Dev :=
  d.units.cwDue.foldl (fun d x => causewayMove x.1 x.2.1 x.2.2 d) { d with units := { d.units with cwDue := [] } }

def execCausewayLaneThreshold (cw lane : Nat) (s : State) : Res := eff (causewayDue cw lane false) s
def execCausewayLaneFail (cw lane : Nat) (s : State) : Res := eff (causewayDue cw lane true) s

end Sys2Proof.Machine
end

