-- ==== Sys2Proof/Machine/TideOps.lean ====
section
/-! DEFINITION. The partition's plan and the marker tree (02 R37, R57, R59; 11 R381): depth, distances, the close time, the tree
after a change of the plan or of the live links, and the checks of a plan. -/
namespace Sys2Proof.Machine
open Sys2Proof

/-- Hops to the far end of an axis from coordinate m. -/
def axisDepth (wrap : Bool) (n m : Nat) : Nat := if wrap then n / 2 else max m (n - 1 - m)

/-- D of a partition with its master (11 R381). -/
def depthOf (wrap : BitVec 3) (dim m : Pos) : Nat :=
  axisDepth (wrap.getLsbD 0) dim.x m.x + axisDepth (wrap.getLsbD 1) dim.y m.y + axisDepth (wrap.getLsbD 2) dim.z m.z

/-- Close time in ns (02 R57). -/
def closeNs (depth : Nat) : Nat := 200 + 500 * depth

/-- The close time fits the working window P − S of a setting (02 R59). -/
def closeFits (depth rate slack : Nat) : Bool := decide (closeNs depth * rate + 500 * slack * rate ≤ 2000000)

/-- A rate code and a slack code are in range (02 R35). -/
def settingOk (rate slack : Nat) : Bool := decide (4 ≤ rate) && decide (rate ≤ 40) && decide (2 ≤ slack) && decide (slack ≤ 16)

/-- Why a plan is refused: 0 none, 1 POSITION, 2 PART_ID, 3 MASTER, 4 DEPTH, 5 VOTE_CLOSE (11 R381, Table 11-10). -/
def planRefuse (d : Dev) (pos : Pos) (wrap : BitVec 3) (dim : Pos) (part : BitVec 16) (m b : Pos) : Nat :=
  if !posOk dim pos then 1
  else if part = 0 then 2
  else if !posOk dim m || !posOk dim b then 3
  else if 186 < depthOf wrap dim m then 4
  else if !closeFits (depthOf wrap dim m) d.tide.rate d.tide.slack then 5
  else 0

/-! ### The marker tree (02 R37; log 31) -/

/-- Strait of position p toward the root on the tree ordered Z, Y, X from the root: its last hop undone. -/
def towardRoot (d : Dev) (root p : Pos) : Option Nat :=
  match (List.range 3).find? (fun a => posAxis p a != posAxis root a) with
  | none => none
  | some a =>
    let n := axisDim d a
    let x := posAxis root a
    let y := posAxis p a
    let up := (y + n - x) % n
    let plus := if wrapped d a then decide (up ≤ n - up) else decide (x < y)
    some (2 * a + (if plus then 1 else 0))

/-- Parent strait of a position: the plan's where it is live, else the first live strait whose neighbour is nearer to the
root, else the first live strait. -/
def parentStrait (d : Dev) (root p : Pos) : Option Nat :=
  match towardRoot d root p with
  | none => none
  | some s =>
    if (neighbourOf d p s).isSome && !lostAt d p s then some s
    else
      let live := (List.range 6).filter (fun t => (neighbourOf d p t).isSome && !lostAt d p t)
      match live.find? (fun t => (neighbourOf d p t).any (fun q => decide (hops d root q < hops d root p))) with
      | some t => some t
      | none => live.head?

/-- Straits over which children of this module lie. -/
def childStraits (d : Dev) (root : Pos) : List Nat :=
  (List.range 6).filter (fun t => !lostAt d d.lnk.pos t &&
    (match neighbourOf d d.lnk.pos t with
      | some q => parentStrait d root q == some (oppStrait t)
      | none => false))

/-- Hops from a position up the tree to the root: none where the tree does not reach it. -/
def treeHops (d : Dev) (root : Pos) : Nat → Pos → Option Nat
  | 0, p => if p = root then some 0 else none
  | n + 1, p =>
    if p = root then some 0
    else match (parentStrait d root p).bind (neighbourOf d p) with
      | some q => (treeHops d root n q).map (· + 1)
      | none => none

/-- A strait of the partition is lost, as this module knows. -/
def anyLost (d : Dev) : Bool :=
  (List.range 6).any (fun t => (neighbourOf d d.lnk.pos t).isSome && lostAt d d.lnk.pos t) || d.lnk.recs.any (fun r => r.lost != 0)

/-- D and this module's distance: the plan's, and the tree's own while a strait is lost (02 R37, Table 2-10). -/
def treeSize (d : Dev) (root : Pos) : Nat × Nat :=
  if anyLost d then
    let n := d.lnk.dim.x * d.lnk.dim.y * d.lnk.dim.z
    let at_ := fun i => treeHops d root (min n 512) ⟨i % d.lnk.dim.x, i / d.lnk.dim.x % d.lnk.dim.y, i / (d.lnk.dim.x * d.lnk.dim.y)⟩
    ((List.range n).foldl (fun m i => match at_ i with | some h => max m h | none => m) 0,
     (treeHops d root (min n 512) d.lnk.pos).getD 0)
  else (depthOf d.lnk.wrap d.lnk.dim root, hops d root d.lnk.pos)

/-- Compute the tree and D anew (02 R37). -/
def remakeTree (d : Dev) : Dev :=
  { d with tide := { d.tide with
      depth := (treeSize d d.tide.acting).1
      dist := (treeSize d d.tide.acting).2
      parent := parentStrait d d.tide.acting d.lnk.pos
      children := childStraits d d.tide.acting
      treeStale := false } }

/-- The plan of the registers is in force: IDENT carries the position, and discovery begins (11 R381, R384; 14 R472). -/
def adoptPlan (d : Dev) : Dev :=
  let training := (List.range 24).any (fun i => let n := (linkOf d (i / 4) (i % 4)).state; decide (1 ≤ n) && decide (n ≤ 5))
  let d := { d with
    lnk := { d.lnk with planLoaded := true, assigned := true, refuse := 0, extra := 0, wrong := 0, missing := 0
                        planState := if training then 1 else 2 }
    tide := { d.tide with acting := d.tide.master } }
  let d := identAll (remakeTree d)
  eachLink d (fun st ln d => judgeLink st ln false d)

/-! ### Configuration events (16 R532) -/

/-- A configuration event waits for the slack, which chains it into M3: its kind and 24 bytes of data. -/
def noteEvent (kind : Nat) (data : Bytes) (d : Dev) : Dev :=
  { d with sec := { d.sec with queued := d.sec.queued ++ [(kind, slice data 0 24)] } }

/-- Data of the event that a plan is loaded. -/
def planEvent (d : Dev) : Bytes :=
  posBytes d.lnk.pos ++ posBytes d.lnk.dim ++ toLe 1 d.lnk.wrap.toNat ++ toLe 2 d.lnk.partId.toNat ++ posBytes d.tide.master ++ posBytes d.tide.backup

/-- Data of a pairing event. -/
def pairEvent (d : Dev) : Bytes :=
  posBytes d.pair.partner ++ toLe 1 (b2n d.pair.feedOverride) ++ toLe 8 d.pair.ownBudget ++ toLe 8 d.pair.partnerBudget

/-! ### The management lane (14 R490) -/

/-- A broadcast of this module's own: its sequence number rises. -/
def mgmtSend (f : Nat → Sent) (d : Dev) : Dev :=
  let n := d.lnk.mgmtSeq
  send (f n) { d with lnk := { d.lnk with mgmtSeq := n + 1 } }

/-- This module's own strait-state record (11 R394). -/
def ownRecord (d : Dev) : StraitRec :=
  { pos := d.lnk.pos
    lost := BitVec.ofNat 6 (bitMask ((List.range 6).filter (fun s => (activeLinks d s).isEmpty && (neighbourOf d d.lnk.pos s).isSome)))
    active := BitVec.ofNat 24 (bitMask ((List.range 24).filter (fun i => (linkOf d (i / 4) (i % 4)).state == 7)))
    tide := d.tide.count }

def sendStraitState (d : Dev) : Dev :=
  let r := ownRecord d
  mgmtSend (fun n => .straitState none n r.pos r.lost r.active r.tide) d

/-- Announce that this module's position is lost (13 R447). -/
def announceFailed (cls : Nat) (d : Dev) : Dev :=
  mgmtSend (fun n => .deviceFailed none n d.lnk.pos (BitVec.ofNat 16 cls) d.tide.count)
    { d with lnk := { d.lnk with announced := addNew d.lnk.announced d.lnk.pos } }

end Sys2Proof.Machine
end

