-- ==== Sys2Proof/Machine/Pair.lean ====
section
/-! DEFINITION. Partners, the lagoon, the receiving side of the ferry (13 R431 to R440), the step commands (R441, R442), lost
positions (R447, R448) and STATE_LOAD (R565). Byte layouts of records and table entries are the model's own (log 26). -/
namespace Sys2Proof.Machine
open Sys2Proof

/-! ### Object-table entries as bytes (13 R431, R436; log 26) -/

def oneMore (o : Option Nat) : Nat := match o with | some i => i + 1 | none => 0
def lessOne (n : Nat) : Option Nat := if n = 0 then none else some (n - 1)

def tensorRec (t : Tensor) : Bytes :=
  toLe 1 t.fmt ++ toLe 1 t.role ++ toLe 1 (b2n t.parity) ++ toLe 1 t.rank
    ++ ((List.range 8).map (fun i => toLe 4 ((t.dims[i]?).getD 0))).flatten ++ toLe 1 (b2n t.retain) ++ toLe 1 t.master ++ toLe 1 t.workFmt
    ++ toLe 1 (b2n t.lost) ++ toLe 4 (oneMore t.working) ++ toLe 4 (oneMore t.workingOf)

def tensorOf (gen : Nat) (b : Bytes) : Tensor :=
  { gen := gen, fmt := fieldLe b 0 1, role := fieldLe b 1 1, parity := fieldLe b 2 1 == 1, rank := fieldLe b 3 1
    dims := (List.range (min (fieldLe b 3 1) 8)).map (fun i => fieldLe b (4 + 4 * i) 4), retain := fieldLe b 36 1 == 1
    master := fieldLe b 37 1, workFmt := fieldLe b 38 1, working := lessOne (fieldLe b 40 4), workingOf := lessOne (fieldLe b 44 4)
    scale := if isFp8 (fieldLe b 0 1) then some {} else none }

def list4 (l : List Nat) : Bytes := toLe 4 l.length ++ (l.map (toLe 4)).flatten
def bytes4 (b : Bytes) : Bytes := toLe 4 b.length ++ b

def programRec (p : Program) : Bytes :=
  toLe 4 p.entry ++ toLe 4 p.coreMem ++ toLe 1 p.numv ++ toLe 4 p.imageLen ++ bytes4 p.const ++ toLe 4 p.segs.length
    ++ (p.segs.map (fun s => toLe 4 s.bound ++ toLe 4 s.code.length ++ (s.code.map (fun w => toLe 8 w.toNat)).flatten)).flatten

/-- Segments one after another. -/
def segsOf : Nat → Bytes → List Segment
  | 0, _ => []
  | n + 1, b =>
    let k := fieldLe b 4 4
    { bound := fieldLe b 0 4, code := (List.range k).map (fun i => BitVec.ofNat 64 (fieldLe b (8 + 8 * i) 8)) } :: segsOf n (b.drop (8 + 8 * k))

def programOf (gen : Nat) (b : Bytes) : Program :=
  let k := fieldLe b 13 4
  { gen := gen, entry := fieldLe b 0 4, coreMem := fieldLe b 4 4, numv := fieldLe b 8 1, imageLen := fieldLe b 9 4
    const := slice b 17 k, segs := segsOf (fieldLe b (17 + k) 4) (b.drop (21 + k)) }

def planRec (p : Plan) : Bytes :=
  toLe 8 p.signature.toNat ++ toLe 4 p.workBytes ++ bytes4 p.desc ++ bytes4 p.asm ++ list4 p.rowptr ++ list4 p.colidx

def planOfRec (gen : Nat) (b : Bytes) : Plan :=
  let dl := fieldLe b 12 4
  let al := fieldLe b (16 + dl) 4
  let o := 20 + dl + al
  let rl := fieldLe b o 4
  let cl := fieldLe b (o + 4 + 4 * rl) 4
  { gen := gen, signature := BitVec.ofNat 64 (fieldLe b 0 8), workBytes := fieldLe b 8 4, desc := slice b 16 dl, asm := slice b (20 + dl) al
    rowptr := (List.range rl).map (fun i => fieldLe b (o + 4 + 4 * i) 4)
    colidx := (List.range cl).map (fun i => fieldLe b (o + 8 + 4 * rl + 4 * i) 4) }

def groupRec (g : Group) : Bytes := toLe 4 g.gid.toNat ++ toLe 2 g.dg ++ toLe 4 g.members.length ++ (g.members.map posBytes).flatten

def groupOf (me : Pos) (gen : Nat) (b : Bytes) : Group :=
  let ms := (List.range (fieldLe b 6 4)).map (fun i => posAt b (10 + 3 * i))
  { gen := gen, gid := BitVec.ofNat 32 (fieldLe b 0 4), members := ms, rank := (ms.findIdx? (· == me)).getD 0, dg := fieldLe b 4 2
    digest := groupDigest (BitVec.ofNat 32 (fieldLe b 0 4)) ms }

/-- The bytes of an object's entry after its handle: empty for an object that is gone. -/
def objectRec (d : Dev) (h : BitVec 64) : Bytes :=
  let i := hIdx h
  match hKind h with
  | 2 => ((aGet d.tensors i).map tensorRec).getD []
  | 3 => ((aGet d.programs i).map programRec).getD []
  | 4 => ((aGet d.plans i).map planRec).getD []
  | 5 => ((aGet d.groups i).map groupRec).getD []
  | 6 => ((aGet d.factors i).map (fun f => toLe 8 f.plan.toNat ++ toLe 4 f.problems)).getD []
  | 7 => ((aGet d.warms i).map (fun w => toLe 4 w.n ++ toLe 4 w.slots)).getD []
  | _ => []

/-- Handles of every object of the table. -/
def allHandles (d : Dev) : List (BitVec 64) :=
  d.tensors.map (fun x => mkHandle 2 x.2.gen x.1) ++ d.programs.map (fun x => mkHandle 3 x.2.gen x.1)
    ++ d.plans.map (fun x => mkHandle 4 x.2.gen x.1) ++ d.groups.map (fun x => mkHandle 5 x.2.gen x.1)
    ++ d.factors.map (fun x => mkHandle 6 x.2.gen x.1) ++ d.warms.map (fun x => mkHandle 7 x.2.gen x.1)

/-- A strait-state record as a table entry: its handle field has kind 0xFE. -/
def straitEntry (d : Dev) (r : StraitRec) : Bytes :=
  toLe 8 (0xFE * 2 ^ 56 + posIndex d r.pos) ++ posBytes r.pos ++ toLe 1 r.lost.toNat ++ toLe 3 r.active.toNat ++ toLe 8 r.tide
def straitOfEntry (b : Bytes) : StraitRec :=
  { pos := posAt b 8, lost := BitVec.ofNat 6 (fieldLe b 11 1), active := BitVec.ofNat 24 (fieldLe b 12 3), tide := fieldLe b 15 8 }

/-- The loss-scale record as the entry of handle 0 that closes the table returned to a filling spare; no other packet carries
the record (09 R309). -/
def lossEntry (l : LossScale) : Bytes :=
  zeros 8 ++ toLe 1 (wrapBits 8 l.exp) ++ toLe 1 (wrapBits 8 l.lo) ++ toLe 1 (wrapBits 8 l.hi) ++ toLe 4 l.interval ++ toLe 4 l.clean
    ++ toLe 4 l.skipped ++ toLe 8 l.tensor.toNat ++ toLe 4 l.lastStep
def lossOfEntry (b : Bytes) : LossScale :=
  { exp := signExt 8 (fieldLe b 8 1), lo := signExt 8 (fieldLe b 9 1), hi := signExt 8 (fieldLe b 10 1), interval := fieldLe b 11 4
    clean := fieldLe b 15 4, skipped := fieldLe b 19 4, tensor := BitVec.ofNat 64 (fieldLe b 23 8), lastStep := fieldLe b 31 4 }

/-- One entry on the ferry; PART 1 marks what goes back to a filling spare. -/
def ferryEntry (part : Nat) (e : Bytes) (d : Dev) : Dev :=
  (List.range (max 1 (ceilDiv e.length 4032))).foldl (fun d i =>
    ferryOne 3 0 (fieldLe e 0 4) part (4032 * i) ((e.drop (4032 * i)).take 4032) d) d

/-- The change of an object, to the partner (13 R436), with the scale record of an FP8 tensor (09 R313). -/
def ferryChange (h : BitVec 64) (d : Dev) : Dev :=
  if paired d then
    let d := ferryEntry 0 (toLe 8 h.toNat ++ objectRec d h) d
    match (if hKind h = 2 then aGet d.tensors (hIdx h) else none).bind (·.scale) with
    | some r => ferry 5 0 (hIdx h) 3 0 (scaleBytes r) d
    | none => d
  else d

/-! ### The reseed (13 R435) -/

/-- Committed bytes of a secured tensor and of its low plane; its scale record goes with its entry. -/
def reseedTensor (i : Nat) (t : Tensor) (d : Dev) : Dev :=
  if tSecured t && t.workingOf.isNone then
    let d := ferry 5 0 i 0 0 (memRead (tBuf t (tCommitted t)) 0 (tBytes t)) d
    if t.master = 1 then ferry 5 0 i 1 0 (memRead (tBuf t (tCommitted t + 2)) 0 (2 * tElems t)) d else d
  else d

def reseedWarm (i : Nat) (w : WarmSet) (d : Dev) : Dev :=
  (warmCommitted w).foldl (fun d s => ferry 5 0 i 2 (s.1 * (8 * (w.n + 1))) (warmSlotBytes s.2) d) d

/-- Copy all committed secured state into the partner's lagoon; an entry of handle 0 closes it (log 26). -/
def reseed (d : Dev) : Dev :=
  let d := { d with pair := { d.pair with exposed := true, changes := [] } }
  let d := (allHandles d).foldl (fun d h => ferryChange h d) d
  let d := d.tensors.foldl (fun d t => reseedTensor t.1 t.2 d) d
  let d := d.warms.foldl (fun d w => reseedWarm w.1 w.2 d) d
  let d := d.lnk.recs.foldl (fun d r => ferryEntry 0 (straitEntry d r) d) d
  let open_ := d.items.filter (fun i => i.2.stage != .recorded)
  let d := open_.foldl (fun d i => ferry 4 0 0 0 0 (ledgerItem d i.2 0 false (if i.2.stage == .consumed || i.2.stage == .admitted then 0 else 1)) d) d
  ferryEntry 0 (zeros 8) d

/-! ### Pairing (13 R433, R434) -/

/-- Data bytes of one region of the width that new regions have. -/
def regionData (d : Dev) (r : Nat) : Nat := rowsPerRegion * 256 * dataUnits (region d r)

/-- Take whole protected regions for `left` bytes: their numbers, or none. -/
def takeLagoon : Nat → Nat → List Nat → Dev → Option (List Nat × Dev)
  | 0, left, acc, d => if left = 0 then some (acc, d) else none
  | k + 1, left, acc, d =>
    if left = 0 then some (acc, d)
    else match newRegion true d with
      | none => none
      | some (r, d) =>
        let per := 256 * dataUnits (region d r)
        let rows := min rowsPerRegion (ceilDiv left (max per 1))
        let d := { d with mem := { d.mem with regions := aMod d.mem.regions r (fun g => { g with lagoon := true, rows := rows }) } }
        takeLagoon k (left - rows * per) (acc ++ [r]) d

/-- Device memory that the lagoon takes (10 R345). -/
def lagoonSize (d : Dev) (rs : List Nat) : Nat := rs.foldl (fun a r => a + (region d r).rows * 256 * (region d r).width) 0

/-- Free the lagoon. -/
def freeLagoon (d : Dev) : Dev :=
  { d with mem := { d.mem with regions := d.mem.regions.filter (fun r => !d.pair.lagoonRegions.contains r.1) }
           pair := { d.pair with lagoonRegions := [], lagoonBytes := 0 }, lagoon := {} }

/-- The step is open or scheduled (13 R466). -/
def stepBusy (d : Dev) : Bool := d.step.state != .none

def maxBudget : Nat := 206158430208

/-- Unpaired: never paired, or refused (13 R433). -/
def unpaired (d : Dev) : Bool := d.pair.state == 0 || d.pair.state == 4 || d.pair.state == 5

/-- This module's own PAIR payload. -/
def ownPair (d : Dev) : PairPayload :=
  { pos := d.lnk.pos, feedId := d.tel.feedId, ownBudget := d.pair.ownBudget, partnerBudget := d.pair.partnerBudget
    feedOverride := d.pair.feedOverride }

def execPairSet (m : Nat) (s : State) : Res :=
  eff (mbxRow m 0x0601 (fun d c =>
    let p := posAt c 16
    let own := fieldLe c 20 8
    let other := fieldLe c 28 8
    if !inPart d p || p == d.lnk.pos then .no rBadField 16
    else if maxBudget < own ∨ own < securedBytes d then .no rBadField 20
    else if maxBudget < other then .no rBadField 28
    else if !unpaired d || stepBusy d then .no rInUse 16
    else match takeLagoon (2 * other / 2 ^ 25 + 1) (2 * other) [] d with
      | none => .no rNoRoom 28
      | some (rs, d) =>
        let d := { d with pair := { d.pair with
          state := 1, partner := p, feedOverride := bitOf (fieldLe c 19 1) 0, ownBudget := own, partnerBudget := other
          lagoonRegions := rs, lagoonBytes := lagoonSize d rs, exposed := false, partnerExposed := false, unacked := [] } }
        .ok (send (.pair p (ownPair d)) (noteEvent 3 (pairEvent d) d)) (toLe 8 d.pair.lagoonBytes))) s

def execPairQuery (m : Nat) (s : State) : Res :=
  eff (mbxRow m 0x0602 (fun d _ =>
    .ok d (toLe 1 d.pair.state ++ toLe 1 d.tel.feedId.toNat ++ toLe 1 d.pair.partnerFeed.toNat ++ toLe 1 (b2n d.pair.exposed)
      ++ posBytes d.pair.partner ++ zeros 1 ++ toLe 8 d.pair.lagoonBytes ++ toLe 8 (securedBytes d)))) s

def execPairClear (m : Nat) (s : State) : Res :=
  eff (mbxRow m 0x0603 (fun d _ =>
    if unpaired d then .no rNotAllowed (Config.noField 0x0603 rNotAllowed)
    else if stepBusy d then .no rInUse (Config.noField 0x0603 rInUse)
    else
      let d := freeLagoon (noteEvent 3 (pairEvent d) d)
      .ok { d with pair := { d.pair with
        state := 0, partner := {}, feedOverride := false, partnerOverride := false, partnerFeed := 0, partnerSerial := 0
        ownBudget := maxBudget, partnerBudget := 0, exposed := false, partnerExposed := false, unacked := [] } } [])) s

/-- What this side makes of the other's PAIR: the state it takes; none while the two do not name each other. -/
def pairVerdict (d : Dev) (src : Pos) (p : PairPayload) : Option Nat :=
  if d.pair.state ≠ 1 ∨ d.pair.partner ≠ src ∨ p.pos ≠ src then none
  else if p.ownBudget ≠ d.pair.partnerBudget ∨ p.partnerBudget ≠ d.pair.ownBudget then some 5
  else if p.feedId = d.tel.feedId then (if p.feedOverride || d.pair.feedOverride then some 3 else some 4)
  else some 2

/-- Serial number that the straits report for a position. -/
def serialOf (d : Dev) (p : Pos) : BitVec 64 :=
  ((d.lnk.straits.find? (fun x => x.neighValid && x.neigh == p)).map (·.serial)).getD 0

/-- The pairing is settled on this side. -/
def pairSettle (v : Nat) (p : PairPayload) (d : Dev) : Dev :=
  let d := { d with pair := { d.pair with partnerFeed := p.feedId, partnerOverride := p.feedOverride } }
  if v = 4 ∨ v = 5 then
    let d := freeLagoon d
    { d with pair := { d.pair with state := v } }
  else
    let d := { d with pair := { d.pair with state := v, partnerExposed := true, partnerSerial := serialOf d d.pair.partner } }
    let d := if v = 3 then logRec (ofModule d d.pair.partner { sev := 15, cls := 0x607, flags := 2 }) d else d
    reseed d

def pairD (src : Pos) (p : PairPayload) (d : Dev) : Dev :=
  if !serves d then d
  else match pairVerdict d src p with
    | some v => pairSettle v p (send (.pairReply src (ownPair d) v) d)
    | none => send (.pairReply src (ownPair d) 0) d
def execPair (src : Pos) (p : PairPayload) (s : State) : Res := eff (fun d => pairD src p d) s

/-- PAIR_REPLY: verdict 0 says that the other side has not named this one. -/
def pairReplyD (src : Pos) (p : PairPayload) (verdict : Nat) (d : Dev) : Dev :=
  if !serves d || verdict == 0 then d
  else match pairVerdict d src p with
    | some v => pairSettle v p d
    | none => d
def execPairReply (src : Pos) (p : PairPayload) (verdict : Nat) (s : State) : Res := eff (fun d => pairReplyD src p verdict d) s

/-! ### The lagoon (13 R438) -/

def lagoonGet (l : List LagoonObj) (obj part : Nat) : LagoonObj :=
  (l.find? (fun o => o.obj == obj && o.part == part)).getD { obj := obj, part := part }
def lagoonPut (l : List LagoonObj) (o : LagoonObj) : List LagoonObj :=
  l.filter (fun x => !(x.obj == o.obj && x.part == o.part)) ++ [o]
def lagoonCommitted (o : LagoonObj) : Mem := if o.sel then o.buf1 else o.buf0

/-- Write into the committed buffer (reseed) or into the other one, whose object takes its mark. -/
def lagoonWrite (committed : Bool) (h : FerryHeader) (bytes : Bytes) (l : List LagoonObj) : List LagoonObj :=
  let o := lagoonGet l h.obj h.part
  let first := !committed && o.mark != some h.step
  let o := if first && h.part == 2 then (if o.sel then { o with buf0 := o.buf1 } else { o with buf1 := o.buf0 }) else o
  let put := fun m => memWrite m h.off bytes
  let o := if committed == o.sel then { o with buf1 := put o.buf1 } else { o with buf0 := put o.buf0 }
  lagoonPut l (if committed then o else { o with mark := some h.step })

/-- The key of a buffer of a lagoon object's part (log 13). -/
def lagoonKey (obj part buf : Nat) : SectorKey := { kind := 3, obj := obj, buf := 2 * part + buf }

/-- A packet's write into the lagoon, with its parity (13 R437): false where a sector of it was discarded (10 R330). -/
def lagoonStore (committed : Bool) (h : FerryHeader) (bytes : Bytes) (d : Dev) : Dev × Bool :=
  let o := lagoonGet d.lagoon.objs h.obj h.part
  let r := writeBytes (lagoonKey h.obj h.part (b2n (committed == o.sel))) h.off bytes.length d
  let whole := r.2.2.isEmpty
  let share := fun (l : List LagoonObj) (n : Nat) =>
    let lo := max h.off (64 * n)
    let hi := min (h.off + bytes.length) (64 * n + 64)
    lagoonWrite committed { h with off := lo } (slice bytes (lo - h.off) (hi - lo)) l
  let objs := if whole then lagoonWrite committed h bytes r.1.lagoon.objs
    else r.2.1.foldl share (lagoonWrite committed h [] r.1.lagoon.objs)
  ({ r.1 with lagoon := { r.1.lagoon with objs := objs } }, whole)

/-- Format of a tensor of the partner, from its table entry. -/
def lagoonFmt (d : Dev) (obj : Nat) : Nat :=
  match d.lagoon.records.find? (fun r => hKind (BitVec.ofNat 64 r.1) == 2 && hIdx (BitVec.ofNat 64 r.1) == obj) with
  | some r => fieldLe r.2 8 1
  | none => 0

/-- The YES decision of a step takes effect: marked objects flip, and scale records take the step's amax (13 R438, 09 R314). -/
def lagoonFlip (step : Nat) (d : Dev) : Dev :=
  { d with lagoon := { d.lagoon with
      flipStep := none
      objs := d.lagoon.objs.map (fun o =>
        if o.mark = some step then
          if o.part = 3 then
            let r := scaleOf (memRead (lagoonCommitted o) 0 520)
            let p := if o.sel then o.buf0 else o.buf1
            let pend := if fieldLe (memRead p 0 16) 9 1 = 1 then some (BitVec.ofNat 64 (fieldLe (memRead p 0 16) 0 8)) else none
            let r' := scaleApply (lagoonFmt d o.obj) { r with pending := pend, pendingOf := fieldLe (memRead p 0 16) 8 1 == 1 }
            { o with buf0 := memWrite [] 0 (scaleBytes r'), buf1 := [], sel := false, mark := none }
          else { o with sel := !o.sel, mark := none }
        else { o with mark := none }) } }

/-- A NO decision clears the marks. -/
def lagoonClear (d : Dev) : Dev :=
  { d with lagoon := { d.lagoon with flipStep := none, objs := d.lagoon.objs.map (fun o => { o with mark := none }) } }

/-! ### Ferry packets that arrive (13 R437, R440) -/

/-- The bytes of an entry that came in parts. -/
def entryJoin (l : List (Nat × Bytes)) (key off : Nat) (bytes : Bytes) : List (Nat × Bytes) :=
  if off = 0 then l.filter (fun r => r.1 != key) ++ [(key, bytes)]
  else match l.getLast? with
    | some r => l.dropLast ++ [(r.1, r.2 ++ bytes)]
    | none => l

/-- A record or table change of the partner. -/
def recordIn (h : FerryHeader) (bytes : Bytes) (d : Dev) : Dev :=
  let key := fieldLe bytes 0 8
  if h.off = 0 ∧ key = 0 then { d with pair := { d.pair with partnerExposed := false } }
  else
    let l := entryJoin d.lagoon.records key h.off bytes
    let l := if h.off = 0 ∧ bytes.length ≤ 8 then l.filter (fun r => r.1 != key) else l
    { d with lagoon := { d.lagoon with records := l } }

/-- Entries of the partner's channel ledger. -/
def ledgerIn (bytes : Bytes) (d : Dev) : Dev :=
  { d with lagoon := { d.lagoon with ledger :=
      (List.range (bytes.length / 64)).foldl (fun l i => ledgerPut l (slice bytes (64 * i) 64)) d.lagoon.ledger } }

/-! ### The step commands (13 R441, R442) -/

/-- Is this partition one with a lost position that nobody has adopted (13 R448)? -/
def partitionLost (d : Dev) : Bool := !d.lnk.lostPos.isEmpty

def execStepOpen (m : Nat) (s : State) : Res :=
  eff (mbxRow m 0x0611 (fun d c =>
    let n := fieldLe c 16 4
    let t := fieldLe c 24 8
    if n = 0 ∨ n ≤ d.step.lastCommitted then .no rBadField 16
    else if t < d.tide.count + 2 ∨ d.tide.count + 65536 < t then .no rBadField 24
    else if !paired d || d.pair.exposed || d.pair.partnerExposed || partitionLost d || d.tide.holdover then .no rNotAllowed 16
    else if stepBusy d then .no rInUse 16
    else
      let l := d.step
      .ok { d with step := { state := .scheduled, num := n, startTide := t, lastCommitted := l.lastCommitted, lastDecision := l.lastDecision
                             flipTide := l.flipTide, flip := l.flip, written := l.written, writtenWarm := l.writtenWarm } } [])) s

/-- STATE, VOTE and CAUSE of STEP_QUERY. -/
def stepView (d : Dev) : Nat × Nat × Nat :=
  let st := match d.step.state with
    | .none => 0
    | .scheduled => 1
    | .running => if d.step.ready || d.step.no then 4 else if d.step.isSealed then 3 else 2
  (st, if d.step.no then 2 else if d.step.ready then 1 else 0, d.step.cause.toNat)

def execStepQuery (m : Nat) (s : State) : Res :=
  eff (mbxRow m 0x0612 (fun d _ =>
    let v := stepView d
    .ok d (toLe 1 v.1 ++ toLe 1 v.2.1 ++ toLe 1 v.2.2 ++ zeros 1 ++ toLe 4 (if d.step.state = .none then 0 else d.step.num) ++ toLe 8 d.step.startTide
      ++ toLe 4 d.step.lastCommitted ++ toLe 4 d.step.lastDecision.toNat))) s

def execStepAbort (m : Nat) (s : State) : Res :=
  eff (mbxRow m 0x0613 (fun d c =>
    if d.step.state = .none ∨ fieldLe c 16 4 ≠ d.step.num then .no rBadField 16
    else .ok { d with step := { d.step with abortReq := true } } [])) s

/-- The scheduled step opens at the edge that begins its START_TIDE, with a clear summary. -/
def openStep (d : Dev) : Dev :=
  { d with step := { d.step with state := .running, summary := 0, openFseq := d.pair.fseq } }

def execStepStartTide (s : State) : Res :=
  eff (fun d => if clocksRun d && d.step.state == .scheduled && !d.tide.holdover && decide (d.step.startTide ≤ d.tide.count) then openStep d else d) s

/-! ### Lost positions (13 R439, R447, R448, R458) -/

/-- The ferry of the open step fails. -/
def ferryFails (d : Dev) : Dev :=
  if d.step.state == .running then { d with step := { d.step with ferryFail := true } } else d

/-- A position is declared lost (13 R447). -/
def declareLost (p : Pos) (d : Dev) : Dev :=
  if d.lnk.lostPos.contains p || !inPart d p then d
  else
    let mine := (paired d || d.pair.state == 1) && p == d.pair.partner
    let d := { d with lnk := { d.lnk with lostPos := d.lnk.lostPos ++ [p], mgmtSeen := d.lnk.mgmtSeen.filter (fun s => s.1 != p) }
                      spare := { d.spare with adoptedBy := d.spare.adoptedBy.filter (fun a => a.1 != p) } }
    let d := logRec (ofModule d p { sev := if mine then 3 else 15, cls := if mine then 0x602 else 0x601 }) d
    let d := if mine then ferryFails { d with pair := { d.pair with state := 6, unacked := [] } } else d
    let fillBroken := p == d.pair.partner && (d.spare.state == 1 || d.spare.state == 2)
    let d := if fillBroken then
        let lost1 := fun q (d : Dev) => logRec (ofModule d q { sev := 4, cls := 0x608 }) d
        lost1 d.lnk.pos (lost1 p { d with spare := { d.spare with state := 5 } })
      else d
    memberLost p d

/-- Positions all of whose expected neighbours report their strait toward them lost (13 R447). -/
def silentPositions (d : Dev) : List Pos :=
  let cand := (d.lnk.recs.flatMap (fun r => (List.range 6).filterMap (fun s =>
    if r.lost.getLsbD s then neighbourOf d r.pos s else none))).eraseDups
  cand.filter (fun p => p != d.lnk.pos && (List.range 6).all (fun s =>
    match neighbourOf d p s with
    | none => true
    | some q => if q = d.lnk.pos then (activeLinks d (oppStrait s)).isEmpty
                else d.lnk.recs.any (fun r => r.pos == q && r.lost.getLsbD (oppStrait s))))

/-! ### STATE_LOAD (13 R565) -/

def stateLoadCheck (d : Dev) (c : Bytes) (t : Tensor) : Option (Nat × Nat) :=
  let size := if t.master = 1 then 4 else fmtBytes t.fmt
  let off := fieldLe c 32 8
  let len := fieldLe c 40 8
  if !tSecured t || t.workingOf.isSome then some (rNotAllowed, 16)
  else if fieldLe c 24 8 % 64 ≠ 0 then some (rBadAddress, 24)
  else if off % size ≠ 0 ∨ tElems t * size ≤ off then some (rBadField, 32)
  else if len % size ≠ 0 ∨ tElems t * size < off + len then some (rBadField, 40)
  else if stepBusy d then some (rInUse, 16)
  else none

/-- Write the loaded bytes into the committed epoch and ferry them: the device, and the sectors left unwritten with their buffer. -/
def stateLoadWrite (i : Nat) (t : Tensor) (off : Nat) (bytes : Bytes) (d : Dev) : Dev × List SectorKey :=
  let b := tCommitted t
  if t.master = 1 then
    let k := bytes.length / 4
    let hi := (List.range k).flatMap (fun j => slice bytes (4 * j + 2) 2)
    let lo := (List.range k).flatMap (fun j => slice bytes (4 * j) 2)
    let r := storeBuf i b (off / 2) hi d
    let q := storeBuf i (b + 2) (off / 2) lo r.1
    (ferry 5 0 i 1 (off / 2) lo (ferry 5 0 i 0 (off / 2) hi q.1), r.2.map (dataKey i b) ++ q.2.map (dataKey i (b + 2)))
  else
    let r := storeBuf i b off bytes d
    (ferry 5 0 i 0 off bytes r.1, r.2.map (dataKey i b))

def execStateLoad (m : Nat) (s : State) : Res :=
  eff (mbxRow m 0x0621 (fun d c =>
    withTensor d c 16 (fun i t =>
      match stateLoadCheck d c t with
      | some x => .no x.1 x.2
      | none =>
        if !pf0Requests d then .busy d
        else
          let off := fieldLe c 32 8
          let len := fieldLe c 40 8
          let r := stateLoadWrite i t off (hostRead d (fieldLe c 24 8) len) d
          let d := r.2.foldl (fun d k => logSector 1 0x303 3 k d) r.1
          let size := max (fmtBytes t.fmt) 1
          let cur := ((t.working.bind (aGet d.tensors)).bind (·.scale)).any (fun x => x.mode == 1)
          let d := if cur then regenWorking i [tCommitted t] d else regenRange i (off / size) ((off + len) / size) d
          .ok d (toLe 4 r.2.length ++ zeros 4)))) s

end Sys2Proof.Machine
end

