-- ==== Sys2Proof/Machine/Spare.lean ====
section
/-! DEFINITION. Hot spares: arming and adoption, the partner's side of a fill, the ferry packets that arrive, the channel
ledger of a lost module, re-entry after a lost decision (13 R437 to R440, R449 to R459), and the packets of the management
lane (14 R490, 11 R394). -/
namespace Sys2Proof.Machine
open Sys2Proof

/-! ### The spare's commands (13 Table 13-12) -/

def execSpareArm (m : Nat) (s : State) : Res :=
  eff (mbxRow m 0x0631 (fun d _ =>
    if d.lnk.planLoaded then .no rNotAllowed (Config.noField 0x0631 rNotAllowed)
    else .ok (identAll { noteEvent 4 (posBytes d.lnk.pos) d with spare := { d.spare with armed := true, state := 0 }, lnk := { d.lnk with assigned := false } }) [])) s

/-- Offset of the field by which R381 refuses a plan in SPARE_ADOPT (log 24). -/
def adoptField (dim m : Pos) : Nat → Nat
  | 1 => 16
  | 2 => 24
  | 3 => if posOk dim m then 32 else 28
  | _ => 28

/-- The ADOPT_REQ of a spare whose route to the partner is ACTIVE (13 R450 step 2). -/
def tryAdoptReq (d : Dev) : Dev :=
  let h : PacketHeader := { dst := d.pair.partner, src := d.lnk.pos, partId := d.lnk.partId, use := 3, vl := 0 }
  if d.spare.state == 1 && !d.spare.reqSent && !d.spare.reentry then
    match wayOf d none h with
    | .out _ _ _ => send (.adoptReq d.pair.partner d.serial d.tel.feedId d.lnk.pos) { d with spare := { d.spare with reqSent := true } }
    | _ => d
  else d

def execSpareAdopt (m : Nat) (s : State) : Res :=
  eff (mbxRow m 0x0632 (fun d c =>
    let pos := posAt c 16
    let wrap := BitVec.ofNat 3 (fieldLe c 19 1)
    let dim := posAt c 20
    let part := BitVec.ofNat 16 (fieldLe c 24 2)
    let ma := posAt c 28
    let ba := posAt c 32
    let pa := posAt c 36
    let why := planRefuse d pos wrap dim part ma ba
    if !d.spare.armed then .no rNotAllowed (Config.noField 0x0632 rNotAllowed)
    else if why ≠ 0 then .no rBadField (adoptField dim ma why)
    else if !posOk dim pa || pa == pos then .no rBadField 36
    else
      let d := { d with
        lnk := { d.lnk with pos := pos, wrap := wrap, dim := dim, partId := part }
        tide := { d.tide with master := ma, backup := ba }
        pair := { d.pair with partner := pa, feedOverride := bitOf (fieldLe c 39 1) 0, state := 0 }
        spare := { state := 1, adoptedBy := d.spare.adoptedBy } }
      let d := adoptPlan (noteEvent 4 (posBytes pos) d)
      let backupActs := pos == ma
      .ok (tryAdoptReq (if backupActs then remakeTree { d with tide := { d.tide with acting := ba } } else d)) [])) s

def execAdoptQuery (m : Nat) (s : State) : Res :=
  eff (mbxRow m 0x0633 (fun d _ =>
    .ok d (toLe 1 d.spare.state ++ toLe 1 d.spare.cause ++ zeros 6 ++ toLe 8 d.spare.filled ++ toLe 8 d.spare.total))) s

/-- The outcome record that LEDGER_READ gives for an entry (13 R456). -/
def ledgerOutcome (e : Bytes) : Bytes :=
  if entryMark e = 1 then slice e 32 32
  else
    let step := fieldLe e 56 4
    let st := if step ≠ 0 then 0x16 else 0x15
    let detail := if step ≠ 0 then 8 else 12 * 65536
    slice e 32 8 ++ toLe 1 st ++ slice e 41 3 ++ toLe 4 detail ++ slice e 48 16

def execLedgerRead (m : Nat) (s : State) : Res :=
  eff (mbxRow m 0x0634 (fun d c =>
    let es := sortByKey entrySeq (d.spare.ledger.filter (fun e => (entryChan e).toNat == fieldLe c 16 8))
    let i := fieldLe c 24 4
    if d.spare.state ≠ 4 then .no rNotAllowed (Config.noField 0x0634 rNotAllowed)
    else if es.isEmpty then .no rBadField 16
    else if es.length < i then .no rBadField 24
    else
      let out := (es.drop i).take 511
      .ok d (toLe 4 out.length ++ toLe 4 es.length ++ toLe 8 ((es.getLast?.map entrySeq).getD 0) ++ (out.map ledgerOutcome).flatten))) s

/-! ### The partner's side (13 R451, R450 steps 3 to 7) -/

/-- The answer to ADOPT_REQ. -/
def adoptAnswer (d : Dev) (src : Pos) (serial : BitVec 64) (feed : BitVec 4) (pos : Pos) : Nat :=
  if src ≠ pos ∨ d.pair.partner ≠ pos ∨ unpaired d = true ∨ d.pair.state = 1 then 1
  else if !d.lnk.lostPos.contains pos then 2
  else if feed = d.tel.feedId ∧ d.pair.feedOverride = false ∧ d.pair.partnerOverride = false then 3
  else if d.spare.adoptedBy.any (fun a => a.1 == pos && a.2 != serial) then 4
  else 0

/-- What goes back to the spare: the partner's table, its ledger, the loss-scale record with both budgets, then the reseed. -/
def giveBack (d : Dev) : Dev :=
  let d := d.lagoon.records.foldl (fun d r => ferryEntry 1 r.2 d) d
  let d := d.lagoon.ledger.foldl (fun d e => ferryOne 4 0 0 1 0 e d) d
  reseed (ferryEntry 1 (lossEntry d.loss ++ toLe 8 d.pair.ownBudget ++ toLe 8 d.pair.partnerBudget) d)

def adoptReqD (src : Pos) (serial : BitVec 64) (feed : BitVec 4) (pos : Pos) (d : Dev) : Dev :=
  let a := adoptAnswer d src serial feed pos
  if !serves d then d
  else if a ≠ 0 then send (.adoptReply src a) d
  else
    let d := send (.adoptReply src 0) { d with
      spare := { d.spare with adoptedBy := d.spare.adoptedBy.filter (fun x => x.1 != pos) ++ [(pos, serial)] }
      pair := { d.pair with state := if feed = d.tel.feedId then 3 else 2, partnerFeed := feed, partnerSerial := serial
                            exposed := true, partnerExposed := true, unacked := [] } }
    giveBack d
def execAdoptReq (src : Pos) (serial : BitVec 64) (feedId : BitVec 4) (pos : Pos) (s : State) : Res :=
  eff (fun d => adoptReqD src serial feedId pos d) s

/-- FILL_READ is answered from the committed buffers of the lagoon; bytes that cannot be read are not sent (log 34). -/
def fillReadD (src : Pos) (r : FillRead) (d : Dev) : Dev :=
  if serves d && src == d.pair.partner && decide (r.len ≤ 4032) then
    let o := lagoonGet d.lagoon.objs r.obj r.part
    let second := o.sel != (r.buf != 0)
    let t := touchBytes (lagoonKey r.obj r.part (b2n second)) r.off r.len d
    let bytes := memRead (if second then o.buf1 else o.buf0) r.off r.len
    let h : FerryHeader := { obj := r.obj, part := r.part, off := r.off }
    if t.2 then send (.fillData src { h with check := ferryCheck h bytes } bytes) t.1 else t.1
  else d
def execFillRead (src : Pos) (r : FillRead) (s : State) : Res := eff (fun d => fillReadD src r d) s

/-! ### The spare's side -/

/-- The adoption fails with a cause. -/
def adoptFailed (cause : Nat) (d : Dev) : Dev :=
  logRec (ofModule d d.lnk.pos { sev := 15, cls := 0x604, code := BitVec.ofNat 32 cause }) { d with spare := { d.spare with state := 5, cause := cause } }

def adoptReplyD (src : Pos) (code : Nat) (d : Dev) : Dev :=
  if serves d && src == d.pair.partner && d.spare.state == 1 then
    if code = 0 then { d with spare := { d.spare with state := 2, cause := 0 } } else adoptFailed code d
  else d
def execAdoptReply (src : Pos) (code : Nat) (s : State) : Res := eff (fun d => adoptReplyD src code d) s

/-- Reads that fetch `n` bytes of a part. -/
def fillReads (obj part n : Nat) : List FillRead :=
  (List.range (ceilDiv n 4032)).map (fun i => { obj := obj, part := part, off := 4032 * i, len := min 4032 (n - 4032 * i) })

/-- What the fill reads for an entry of the table. -/
def fillOf (e : Bytes) : List FillRead :=
  let h := BitVec.ofNat 64 (fieldLe e 0 8)
  let b := e.drop 8
  match hKind h with
  | 2 =>
    let t := tensorOf 0 b
    (if tSecured t && t.workingOf.isNone then fillReads (hIdx h) 0 (tBytes t) ++ (if t.master = 1 then fillReads (hIdx h) 1 (2 * tElems t) else [])
     else []) ++ (if isFp8 t.fmt then fillReads (hIdx h) 3 520 else [])
  | 7 => fillReads (hIdx h) 2 (fieldLe b 4 4 * (8 * (fieldLe b 0 4 + 1)))
  | _ => []

/-- Nothing is left to read: the spare reseeds. -/
def fillDone (d : Dev) : Dev :=
  if d.spare.state == 2 && d.spare.fillLeft.isEmpty then { d with spare := { d.spare with state := 3 } } else d

/-- The returned table is complete: the loss-scale record is taken, the lagoon is allocated and the fill begins. -/
def tableDone (e : Bytes) (d : Dev) : Dev :=
  let own := fieldLe e 43 8
  let other := fieldLe e 35 8
  let d := { d with loss := lossOfEntry e, pair := { d.pair with ownBudget := own, partnerBudget := other } }
  let d := if d.pair.lagoonRegions.isEmpty then
      match takeLagoon (2 * other / 2 ^ 25 + 1) (2 * other) [] d with
      | some (rs, d) => { d with pair := { d.pair with lagoonRegions := rs, lagoonBytes := lagoonSize d rs } }
      | none => d
    else d
  let reads := d.spare.table.flatMap fillOf
  let d := { d with spare := { d.spare with fillLeft := reads, total := reads.foldl (fun a r => a + r.len) 0, filled := 0 } }
  fillDone (reads.foldl (fun d r => send (.fillRead d.pair.partner r) d) d)

/-- An entry of the returned table. -/
def tableIn (h : FerryHeader) (bytes : Bytes) (d : Dev) : Dev :=
  if h.off = 0 ∧ fieldLe bytes 0 8 = 0 then tableDone bytes d
  else
    let t := d.spare.table
    let t := if h.off = 0 then t ++ [bytes]
      else match t.getLast? with
        | some e => t.dropLast ++ [e ++ bytes]
        | none => t
    { d with spare := { d.spare with table := t } }

def fillDataD (src : Pos) (h : FerryHeader) (bytes : Bytes) (d : Dev) : Dev :=
  let mine := fun (r : FillRead) => r.obj == h.obj && r.part == h.part && r.off == h.off && r.len == bytes.length
  if serves d && src == d.pair.partner && d.spare.state == 2 && h.check == ferryCheck h bytes && d.spare.fillLeft.any mine then
    let o := lagoonGet d.spare.objs h.obj h.part
    fillDone { d with spare := { d.spare with
      objs := lagoonPut d.spare.objs { o with buf0 := memWrite o.buf0 h.off bytes }
      fillLeft := d.spare.fillLeft.filter (fun r => !mine r), filled := d.spare.filled + bytes.length } }
  else d
def execFillData (src : Pos) (h : FerryHeader) (bytes : List (BitVec 8)) (s : State) : Res := eff (fun d => fillDataD src h bytes d) s

/-! ### Recreating the object table (13 R450 steps 5 and 6, R452) -/

/-- Rows for a tensor and its low planes: those that it holds, or new ones. -/
def spareRows (i : Nat) (t : Tensor) (d : Dev) : Tensor × Dev :=
  match aGet d.tensors i with
  | some o => ({ t with place0 := o.place0, place1 := o.place1, placeLow := o.placeLow }, d)
  | none =>
    match placeTensor t d with
    | none => (t, d)
    | some (t, d) =>
      if t.master = 1 then
        match alloc true (2 * tElems t) { d with tensors := aSet d.tensors i t } with
        | none => (t, d)
        | some (p, d) =>
          let t := { t with placeLow := [p] }
          match alloc true (2 * tElems t) { d with tensors := aSet d.tensors i t } with
          | none => (t, d)
          | some (q, d) => ({ t with placeLow := [p, q] }, d)
      else (t, d)

def recreateTensor (gen i : Nat) (b : Bytes) (d : Dev) : Dev :=
  let t := tensorOf gen b
  let data := fun p => (lagoonGet d.spare.objs i p).buf0
  let sec := tSecured t && t.workingOf.isNone
  let t : Tensor := { t with lost := false, sel := false, ep0 := if sec then data 0 else [], low0 := if t.master = 1 then data 1 else []
                             scale := if isFp8 t.fmt then some (scaleOf (memRead (data 3) 0 520)) else none }
  let r := spareRows i t (dropObjErrs 0 i d)
  { r.2 with tensors := aSet r.2.tensors i r.1 }

/-- Slots of a warm-start set from the fill: a slot with a signature is filled. -/
def warmSlotsOf (n slots : Nat) (m : Mem) : Assoc WarmSlot :=
  (List.range slots).filterMap (fun k =>
    let w := warmSlotOf (memRead m (k * (8 * (n + 1))) (8 * (n + 1))) n
    if w.sig = 0 then none else some (k, w))

def recreateObject (e : Bytes) (d : Dev) : Dev :=
  let h := BitVec.ofNat 64 (fieldLe e 0 8)
  let b := e.drop 8
  let i := hIdx h
  let rows := fun (old : Option Placement) (n : Nat) (d : Dev) =>
    match old with
    | some p => (p, d)
    | none => (alloc true n d).getD (({} : Placement), d)
  let d := match hKind h with
    | 2 => recreateTensor (hGen h) i b d
    | 3 => { d with programs := aSet d.programs i (programOf (hGen h) b) }
    | 4 => { d with plans := aSet d.plans i (planOfRec (hGen h) b) }
    | 5 => { d with groups := aSet d.groups i (groupOf d.lnk.pos (hGen h) b) }
    | 6 =>
      let plan := BitVec.ofNat 64 (fieldLe b 0 8)
      let desc := ((aGet d.plans (hIdx plan)).map (·.desc)).getD []
      let r := rows ((aGet d.factors i).map (·.place)) (Config.factorBytes desc * fieldLe b 8 4) d
      { r.2 with factors := aSet r.2.factors i { gen := hGen h, plan := plan, problems := fieldLe b 8 4, place := r.1 } }
    | 7 =>
      let w : WarmSet := { gen := hGen h, n := fieldLe b 0 4, slots := fieldLe b 4 4 }
      let r := rows ((aGet d.warms i).map (·.place)) (2 * warmSpan w) d
      { r.2 with warms := aSet r.2.warms i { w with ep0 := warmSlotsOf w.n w.slots (lagoonGet d.spare.objs i 2).buf0, place := r.1 } }
    | 0xFE =>
      let r := straitOfEntry e
      if d.lnk.recs.any (fun x => x.pos == r.pos) then d else { d with lnk := { d.lnk with recs := d.lnk.recs ++ [r] } }
    | _ => d
  if 2 ≤ hKind h ∧ hKind h ≤ 7 then
    { d with idx := modAt d.idx (hKind h) (fun x => { x with next := max x.next (i + 1) }) }
  else d

/-- Announce ADOPTED for this module's position (13 R450 step 8). -/
def announceAdopted (d : Dev) : Dev :=
  let d := logRec (ofModule d d.lnk.pos { sev := 15, cls := 0x603 })
    { d with spare := { d.spare with state := 4, reentry := false, objs := [], table := [] }
             lnk := { d.lnk with adopted := d.lnk.adopted ++ [(d.lnk.pos, d.serial)] } }
  mgmtSend (fun n => .adopted none n d.lnk.pos d.serial d.tide.count) d

/-- SPARE_FILL_COMPLETE: fill and reseed are complete. -/
def execSpareFillComplete (s : State) : Res :=
  eff (fun d =>
    if serves d && d.spare.state == 3 && !d.pair.partnerExposed then
      let order := fun (k : Nat) => d.spare.table.filter (fun e => (hKind (BitVec.ofNat 64 (fieldLe e 0 8)) == 4) == (k == 0))
      let d := (order 0 ++ order 1).foldl (fun d e => recreateObject e d) d
      let d := d.tensors.foldl (fun d t => if t.2.master = 2 then regenRange t.1 0 (tElems t.2) d else d) d
      let d := writeLossTensor { d with pair := { d.pair with
        state := if d.pair.partnerFeed == d.tel.feedId then 3 else 2, exposed := false, changes := [] } }
      announceAdopted d
    else d) s

/-! ### Ferry packets that arrive (13 R437, R440, R455) -/

/-- A packet of the ferry from the partner: written, then acknowledged; one whose CHECK fails is discarded, and one that was not
written whole is not acknowledged (log 13). -/
def ferryIn (src : Pos) (h : FerryHeader) (bytes : Bytes) (f : Dev → Dev × Bool) (d : Dev) : Dev :=
  if clocksRun d && src == d.pair.partner && (paired d || d.spare.state == 2 || d.spare.state == 3) && h.check == ferryCheck h bytes then
    let r := f d
    if r.2 then send (.ferryAck src h.step h.fseq) r.1 else r.1
  else d

def ferryDataD (src : Pos) (h : FerryHeader) (bytes : Bytes) (d : Dev) : Dev := ferryIn src h bytes (lagoonStore false h bytes) d
def execFerryData (src : Pos) (h : FerryHeader) (bytes : List (BitVec 8)) (s : State) : Res := eff (fun d => ferryDataD src h bytes d) s

def reseedD (src : Pos) (h : FerryHeader) (bytes : Bytes) (d : Dev) : Dev := ferryIn src h bytes (lagoonStore true h bytes) d
def execReseed (src : Pos) (h : FerryHeader) (bytes : List (BitVec 8)) (s : State) : Res := eff (fun d => reseedD src h bytes d) s

def recordD (src : Pos) (h : FerryHeader) (bytes : Bytes) (d : Dev) : Dev :=
  ferryIn src h bytes (fun d => (if h.part = 1 then tableIn h bytes d else recordIn h bytes d, true)) d
def execRecord (src : Pos) (h : FerryHeader) (bytes : List (BitVec 8)) (s : State) : Res := eff (fun d => recordD src h bytes d) s

def ledgerD (src : Pos) (h : FerryHeader) (bytes : Bytes) (d : Dev) : Dev :=
  ferryIn src h bytes (fun d =>
    (if h.part = 1 then
      let es := (List.range (bytes.length / 64)).map (fun i => slice bytes (64 * i) 64)
      { d with spare := { d.spare with ledger := es.foldl ledgerPut d.spare.ledger } }
    else ledgerIn bytes d, true)) d
def execLedger (src : Pos) (h : FerryHeader) (bytes : List (BitVec 8)) (s : State) : Res := eff (fun d => ledgerD src h bytes d) s

/-- FERRY_ACK: the packet is in the lagoon; a ledger entry's item may be admitted; a reseed may be complete. -/
def ferryAckD (src : Pos) (step fseq : Nat) (d : Dev) : Dev :=
  if clocksRun d && src == d.pair.partner then
    let left := d.pair.unacked.filter (fun u => !(u.hdr.fseq == fseq && u.hdr.step == step))
    { d with
      pair := { d.pair with unacked := left, exposed := d.pair.exposed && left.any (fun u => u.hdr.step == 0) }
      items := aMap d.items (fun _ it => if it.ledgerFseq = some fseq then { it with ledgerAck := true } else it) }
  else d
def execFerryAck (src : Pos) (step fseq : Nat) (s : State) : Res := eff (fun d => ferryAckD src step fseq d) s

/-- FERRY_RESEND_TIMER: a packet 10 µs without an ACK goes again (13 R440). -/
def execFerryResendTimer (fseq : Nat) (s : State) : Res :=
  eff (fun d =>
    match d.pair.unacked.find? (fun u => u.hdr.fseq == fseq) with
    | some u => if clocksRun d && paired d then send (.ferry d.pair.partner u.use u.hdr u.bytes) d else d
    | none => d) s

/-! ### Re-entry (13 R457) -/

/-- DECISION_REQ is answered from the decisions of the last 16 steps, or with 0. -/
def decisionReqD (src : Pos) (step : Nat) (d : Dev) : Dev :=
  if clocksRun d then
    let w := ((d.vote.history.find? (fun x => x.1 == step)).map (·.2)).getD 0
    send (.decisionReply src w) d
  else d
def execDecisionReq (src : Pos) (step : Nat) (s : State) : Res := eff (fun d => decisionReqD src step d) s

/-- Selectors of what the step wrote change (09 R293): tensors with their working copies and low planes, and warm-start sets. A
scale record whose staged exponent comes into force is a change that the ferry carries (R313). -/
def flipEpochs (d : Dev) : Dev :=
  let ws := d.step.written
  let copies := ws.filterMap (fun i => (aGet d.tensors i).bind (·.working))
  let commit := fun (t : Tensor) => { t with sel := !t.sel, scale := t.scale.map (fun r => { r with exp := r.staged.getD r.exp, staged := none }) }
  let staged := copies.filter (fun i => ((aGet d.tensors i).bind (·.scale)).any (fun r => r.staged.isSome))
  let d := staged.foldl (fun d i => noteChange (tensorHandle d i) d) d
  { d with
    tensors := aMap d.tensors (fun i t => if ws.contains i || copies.contains i then commit t else t)
    warms := aMap d.warms (fun i w => if d.step.writtenWarm.contains i then { w with sel := !w.sel } else w) }

/-- Both positions' secured state is gone (13 R458). -/
def stateLost (d : Dev) : Dev :=
  let one := fun q (d : Dev) => logRec (ofModule d q { sev := 4, cls := 0x608 }) d
  one d.pair.partner (one d.lnk.pos { d with spare := { d.spare with state := 5 } })

/-- DECISION_REPLY to a re-entering module: it fills from its partner, or, where the partner is lost too and it cast READY for
the step, its own epochs serve. -/
def decisionReplyD (src : Pos) (word : BitVec 32) (d : Dev) : Dev :=
  if serves d && d.spare.reentry && d.spare.state == 1 && !d.spare.reqSent && src == d.tide.acting then
    let d := { d with spare := { d.spare with reqSent := true } }
    if d.pair.state ≠ 6 ∧ !d.lnk.lostPos.contains d.pair.partner then
      send (.adoptReq d.pair.partner d.serial d.tel.feedId d.lnk.pos) d
    else if d.step.ready ∧ word ≠ 0 then
      let yes := word.extractLsb' 0 2 == 1#2
      announceAdopted { (if yes then flipEpochs d else d) with step := { state := .none, lastCommitted := d.step.lastCommitted, lastDecision := word } }
    else stateLost d
  else d
def execDecisionReply (src : Pos) (word : BitVec 32) (s : State) : Res := eff (fun d => decisionReplyD src word d) s

/-! ### Management packets (14 R490) -/

/-- A broadcast that is new is delivered and forwarded; every other copy is discarded. -/
def floodIn (mseq : Nat) (pos : Pos) (again : Sent) (f : Dev → Dev) (d : Dev) : Dev :=
  if !clocksRun d || pos == d.lnk.pos || d.lnk.mgmtSeen.any (fun x => x.1 == pos && decide (mseq ≤ x.2)) then d
  else
    f (send again { d with lnk := { d.lnk with mgmtSeen := d.lnk.mgmtSeen.filter (fun x => x.1 != pos) ++ [(pos, mseq)] } })

/-- STRAIT_STATE: the record is kept, the routes and the marker tree are computed anew in the slack, and the partner's copy of
this knowledge follows (11 R394, 13 R436). -/
def straitStateD (arr mseq : Nat) (pos : Pos) (lost : BitVec 6) (active : BitVec 24) (tide : Nat) (d : Dev) : Dev :=
  floodIn mseq pos (.straitState (some arr) mseq pos lost active tide) (fun d =>
    let r : StraitRec := { pos := pos, lost := lost, active := active, tide := tide }
    noteChange (BitVec.ofNat 64 (0xFE * 2 ^ 56 + posIndex d pos)) { d with
      lnk := { d.lnk with recs := d.lnk.recs.filter (fun x => x.pos != pos) ++ [r] }
      tide := { d.tide with treeStale := true } }) d
def execStraitState (arr : Nat) (mseq : Nat) (pos : Pos) (lost : BitVec 6) (active : BitVec 24) (tide : Nat) (s : State) : Res :=
  eff (fun d => straitStateD arr mseq pos lost active tide d) s

/-- DEVICE_FAILED: the slack declares the position lost (13 R447); a spare that held it holds it no longer (R459); a partner
that reports its lagoon lost fails the ferry (R439). -/
def deviceFailedD (arr mseq : Nat) (pos : Pos) (cls : BitVec 16) (tide : Nat) (d : Dev) : Dev :=
  floodIn mseq pos (.deviceFailed (some arr) mseq pos cls tide) (fun d =>
    let d := { d with lnk := { d.lnk with announced := addNew d.lnk.announced pos }
                      spare := { d.spare with adoptedBy := d.spare.adoptedBy.filter (fun a => a.1 != pos) } }
    if cls = 0x305 ∧ pos = d.pair.partner then ferryFails d else d) d
def execDeviceFailed (arr : Nat) (mseq : Nat) (pos : Pos) (cls : BitVec 16) (tide : Nat) (s : State) : Res :=
  eff (fun d => deviceFailedD arr mseq pos cls tide d) s

/-- ADOPTED: the position's lost state is cleared at the next tide edge (13 R450). -/
def adoptedD (arr mseq : Nat) (pos : Pos) (serial : BitVec 64) (tide : Nat) (d : Dev) : Dev :=
  floodIn mseq pos (.adopted (some arr) mseq pos serial tide) (fun d =>
    { d with lnk := { d.lnk with adopted := d.lnk.adopted ++ [(pos, serial)] } }) d
def execAdopted (arr : Nat) (mseq : Nat) (pos : Pos) (serial : BitVec 64) (tide : Nat) (s : State) : Res :=
  eff (fun d => adoptedD arr mseq pos serial tide d) s

/-- At an edge every member clears the lost state of what has been adopted. -/
def clearAdopted (d : Dev) : Dev :=
  let ps := d.lnk.adopted.map (·.1)
  { d with lnk := { d.lnk with
      adopted := [], lostPos := d.lnk.lostPos.filter (fun p => !ps.contains p)
      announced := d.lnk.announced.filter (fun p => !ps.contains p) } }

end Sys2Proof.Machine
end

