-- ==== Sys2Proof/Machine/Deliver.lean ====
section
/-! DEFINITION. Packets and data flits that arrive: isolation (11 R397, R398), the way onward (R389 to R396), delivery to the
consumer of the virtual lane, and the receiver's side of replay (R358, R359, R366 to R368). -/
namespace Sys2Proof.Machine
open Sys2Proof

/-- A packet dropped (11 R397): counted, its source kept, the first of a tide logged. -/
def dropPacket (src : Pos) (d : Dev) : Dev :=
  let first := !d.lnk.dropLogged
  let d := { d with lnk := { d.lnk with drop := satInc 0xFFFFFFFF d.lnk.drop, dropValid := true, dropSrc := src, dropLogged := true } }
  if first then logRec { sev := 15, cls := 0x409, object := BitVec.ofNat 64 (posWord src) } d else d

/-- A packet for this module that came over strait st goes to the consumer of its virtual lane. -/
def deliver (st : Nat) (h : PacketHeader) (b : Bytes) (d : Dev) : Dev :=
  let fh := ferryHeadOf b
  let fb := b.drop 32
  match h.vl, h.use with
  | 0, 1 => pairD h.src (pairOf b) d
  | 0, 2 => fillReadD h.src { obj := fieldLe b 0 4, part := fieldLe b 4 1, buf := fieldLe b 5 1, off := fieldLe b 6 8, len := fieldLe b 14 2 } d
  | 0, 3 => adoptReqD h.src (BitVec.ofNat 64 (fieldLe b 0 8)) (BitVec.ofNat 4 (fieldLe b 8 1)) (posAt b 9) d
  | 0, 4 => decisionReqD h.src (fieldLe b 0 4) d
  | 1, 1 => pairReplyD h.src (pairOf b) (fieldLe b 21 1) d
  | 1, 2 => fillDataD h.src fh fb d
  | 1, 3 => adoptReplyD h.src (fieldLe b 0 1) d
  | 1, 4 => decisionReplyD h.src (BitVec.ofNat 32 (fieldLe b 0 4)) d
  | 2, u => (collDeliver h.src u (collHeadOf b) (b.drop 64) d).getD d
  | 3, 1 => ferryDataD h.src fh fb d
  | 3, 2 => ferryAckD h.src (fieldLe b 0 4) (fieldLe b 4 4) d
  | 3, 3 => recordD h.src fh fb d
  | 3, 4 => ledgerD h.src fh fb d
  | 3, 5 => reseedD h.src fh fb d
  | 4, 1 => straitStateD st (fieldLe b 0 4) (posAt b 4) (BitVec.ofNat 6 (fieldLe b 7 1)) (BitVec.ofNat 24 (fieldLe b 8 3)) (fieldLe b 11 8) d
  | 4, 2 => deviceFailedD st (fieldLe b 0 4) (posAt b 4) (BitVec.ofNat 16 (fieldLe b 8 2)) (fieldLe b 12 8) d
  | 4, 3 => adoptedD st (fieldLe b 0 4) (posAt b 4) (BitVec.ofNat 64 (fieldLe b 8 8)) (fieldLe b 16 8) d
  | 4, _ => dropPacket h.src d
  | _, _ => d

/-- A packet that came over strait st: dropped, delivered, sent on, made to wait, or lost. -/
def forwardD (st : Nat) (h : PacketHeader) (b : Bytes) (d : Dev) : Dev :=
  if h.partId ≠ d.lnk.partId ∨ !inPart d h.dst then dropPacket h.src d
  else match wayOf d (some st) h with
    | .here => deliver st h b d
    | .out s c det => transmit s { h with cls := c, detour := det } b d
    | .wait s => waitAt s h b d
    | .lostWay s => lostPacket h b (some (256 * s)) d

/-- PACKET_FORWARD: a packet arrives over a strait with an ACTIVE link. -/
def execPacketForward (st : Nat) (h : PacketHeader) (bytes : List (BitVec 8)) (s : State) : Res :=
  eff (fun d =>
    if clocksRun d && d.lnk.run && d.lnk.planLoaded && decide (st < 6) && !(activeLinks d st).isEmpty then forwardD st h bytes d else d) s

/-- The flit is good: its CRC holds and no codeword under it failed (11 R357, R358). -/
def flitGood (f : Flit) : Bool := !f.fecBad && f.crc == crc32c (flitBytes f)

/-- What every good flit carries for the transmit side: its ACK and its returned slots. -/
def flitBack (st ln : Nat) (f : Flit) (d : Dev) : Dev :=
  let k := creditLink f.crdCh f.crd (ackLink f.ack (linkOf d st ln))
  setLink st ln (pumpLink d k.txq k) d

/-- A flit discarded: one NAK asks for the expected SEQ. -/
def flitNak (st ln : Nat) (d : Dev) : Dev :=
  let k := linkOf d st ln
  if k.nakDue then d else send (.control 1 st ln ln k.rxSeq 0 0) (setLink st ln { k with nakDue := true } d)

/-- A flit accepted in order: its slot is given back, and its packet grows or is complete. -/
def flitTake (st ln : Nat) (f : Flit) (d : Dev) : Dev :=
  let k := linkOf d st ln
  let old := (k.partials.find? (fun p => p.1 == f.ch)).map (·.2)
  let part := f.payload.take f.valid
  let whole := if f.sop then some part else old.map (· ++ part)
  let rest := k.partials.filter (fun p => p.1 != f.ch)
  let d := send (.credit st ln f.ch 1) (setLink st ln { k with
    rxSeq := k.rxSeq + 1, nakDue := false
    partials := match whole with | some b => if f.eop then rest else rest ++ [(f.ch, b)] | none => rest } d)
  match whole with
  | some b => if f.eop then forwardD st (packetOf b f.ch) (b.drop 16) d else d
  | none => d

/-- DATA_FLIT: accepted when it is good and next in order, else discarded with a NAK (11 R368). -/
def execDataFlit (st ln : Nat) (f : Flit) (s : State) : Res :=
  eff (linkRow st ln (· == 7) (fun k d =>
    if !flitGood f then flitNak st ln (setLink st ln { k with crcErr := satInc 0xFFFFFFFF k.crcErr } d)
    else
      let d := flitBack st ln f d
      if f.seq = (linkOf d st ln).rxSeq then flitTake st ln f d else flitNak st ln d)) s

end Sys2Proof.Machine
end

