-- ==== Sys2Proof/Machine/MemCmds.lean ====
section
/-! DEFINITION. Device memory management: MEM_QUERY and MEM_LOCATE, scrubbing (10 R339 to R341), retirement of granules
(R342 to R344) with the repair log (14 R477), lost stacks and re-striping (R335 to R338) and re-salting (R325 to R327). -/
namespace Sys2Proof.Machine
open Sys2Proof

/-! ### The repair log (14 R477) -/

def repairLogFull (d : Dev) : Bool := decide (8192 ≤ d.flash.log.length)

/-- Enter a retirement; a full log keeps it in force until power-off only. -/
def repairLog (kind cause physical code : Nat) (sector : BitVec 64) (d : Dev) : Dev :=
  if repairLogFull d then logUnit 3 0x0F0A kind physical physical d
  else
    let e : LogEntry := { kind := kind, cause := cause, phys := BitVec.ofNat 32 physical, tide := tideNow d, start := d.flash.startCount.toNat
                          code := BitVec.ofNat 32 code, sector := sector }
    { d with flash := { d.flash with log := d.flash.log ++ [e] } }

/-! ### Queries (10 Table 10-3) -/

/-- Full-width regions that firmware may still create for software (10 R322). -/
def fullRegionsFree (d : Dev) : Nat :=
  (List.range 24).foldl (fun m k => min m (spareGranules d k)) granules

def execMemQuery (m : Nat) (s : State) : Res :=
  eff (mbxRow m 0x0841 (fun d _ =>
    let per := fun k => toLe 1 (stack d k).state.toNat ++ zeros 1 ++ toLe 2 (freeGranules d k) ++ toLe 2 (stack d k).retired.length ++ zeros 2
    .ok d (toLe 4 (fullRegionsFree d) ++ toLe 4 (fullRegionsFree d + d.mem.regions.length) ++ ((List.range 24).map per).flatten))) s

def execMemLocate (m : Nat) (s : State) : Res :=
  eff (mbxRow m 0x0842 (fun d c =>
    withTensor d c 16 (fun i t =>
      let off := fieldLe c 24 8
      let ep := fieldLe c 32 1
      if tBytes t ≤ off then .no rBadField 24
      else if 1 < ep ∨ (ep = 1 ∧ !tSecured t) then .no rBadField 32
      else
        let k := dataKey i (if ep = 1 then tOther t else tCommitted t) (off / 64)
        let w := keyRow d k
        let r := region d w.1
        let par := if r.parity then (r.onStacks[unitPlace r w.2.1 (r.width - 1)]?).getD 0 else 0xFF
        .ok d (toLe 8 (sectorAddr d 0 k).toNat ++ toLe 1 par ++ toLe 1 r.width ++ zeros 6)))) s

/-! ### Scrubs (10 R339 to R341) -/

def scrubOf (d : Dev) (sid : Nat) : Option Scrub := d.mem.scrubs.find? (fun x => x.sid == sid)
def setScrub (x : Scrub) (d : Dev) : Dev :=
  { d with mem := { d.mem with scrubs := d.mem.scrubs.map (fun y => if y.sid = x.sid then x else y) } }

def execScrubStart (m : Nat) (s : State) : Res :=
  eff (mbxRow m 0x0851 (fun d c =>
    let off := fieldLe c 24 8
    let len := fieldLe c 32 8
    let start := fun (t : Option Nat) (off len : Nat) =>
      if 4 ≤ (d.mem.scrubs.filter (fun x => x.state == 0)).length then .no rNoRoom (Config.noField 0x0851 rNoRoom)
      else
        let n := d.mem.nextScrub
        let keep := d.mem.scrubs.filter (fun x => decide (n < x.sid + 256))
        .ok { d with mem := { d.mem with scrubs := keep ++ [{ sid := n, tensor := t, off := off, len := len }], nextScrub := n + 1 } } (toLe 4 n)
    if fieldLe c 16 8 = 0 then start none 0 0
    else withTensor d c 16 (fun i t =>
      if tBytes t ≤ off then .no rBadField 24
      else if tBytes t < off + len then .no rBadField 32
      else start (some i) off (if len = 0 then tBytes t - off else len)))) s

def execScrubQuery (m : Nat) (s : State) : Res :=
  eff (mbxRow m 0x0852 (fun d c =>
    match scrubOf d (fieldLe c 16 4) with
    | none => .no rBadField 16
    | some x =>
      .ok d (toLe 1 x.state ++ toLe 1 x.addrs.length ++ zeros 6 ++ toLe 8 x.scanned ++ toLe 8 x.corrected ++ toLe 8 x.rebuilt
        ++ toLe 8 x.uncorr ++ toLe 8 x.mismatch ++ ((List.range 16).map (fun i => toLe 8 ((x.addrs[i]?).getD 0).toNat)).flatten))) s

def execScrubCancel (m : Nat) (s : State) : Res :=
  eff (mbxRow m 0x0853 (fun d c =>
    match scrubOf d (fieldLe c 16 4) with
    | none => .no rBadField 16
    | some x => .ok (if x.state = 0 then setScrub { x with state := 2 } d else d) [])) s

/-- The key lies in what a scrub scans: the committed buffer of its tensor's range, or everything (log 33). -/
def inScrub (d : Dev) (x : Scrub) (k : SectorKey) : Bool :=
  match x.tensor with
  | none => true
  | some i =>
    let t := (aGet d.tensors i).getD {}
    let du := dataUnits (region d (keyRow d k).1)
    k.kind == 0 && k.obj == i && k.buf == tCommitted t &&
    (if k.sector = 0 then decide (x.off / 64 ≤ k.row) && decide (k.row ≤ (x.off + x.len - 1) / 64)
     else decide (x.off / 64 < k.row + 4 * du) && decide (k.row ≤ (x.off + x.len - 1) / 64))

/-- Sectors that may not read clean: those in error, and of their rows those on a lost stack. -/
def troubleKeys (d : Dev) : List SectorKey :=
  (d.mem.errs.flatMap (fun e => e.key :: (peersOf d e.key).filter (fun j => sectorState d j == 4))).eraseDups

/-- A protected row that is clean but does not match its parity. -/
def rowMismatch (d : Dev) (k : SectorKey) : Bool :=
  let w := keyRow d k
  let du := dataUnits (region d w.1)
  (List.range 4).all (fun s => sectorState d (parityLike k w.2.2 s) == 0 &&
    (List.range du).all (fun u => sectorState d (dataLike k (w.2.2 + 4 * u + s)) == 0))

/-- Bytes that a scrub over all memory scans: every row that is held. -/
def heldBytes (d : Dev) : Nat :=
  d.tensors.foldl (fun a t => a + tensorTaken d t.2) 0 + d.factors.foldl (fun a f => a + placeBytes d f.2.place) 0
    + d.warms.foldl (fun a w => a + placeBytes d w.2.place) 0 + d.pair.lagoonBytes

/-- One sector of a scrub: the device, the summary, and the addresses of other and of corrected events. -/
def scrubStep (acc : Dev × Scrub × List (BitVec 64) × List (BitVec 64)) (k : SectorKey) : Dev × Scrub × List (BitVec 64) × List (BitVec 64) :=
  let d := acc.1
  let x := acc.2.1
  let e := readKind d k
  let a := sectorAddr d e k
  let d' := (touchSector k d).1
  match e with
  | 0 => (d', x, acc.2.2)
  | 1 => (d', { x with corrected := x.corrected + 1 }, acc.2.2.1, acc.2.2.2 ++ [a])
  | 2 => (d', { x with rebuilt := x.rebuilt + 1 }, acc.2.2.1 ++ [a], acc.2.2.2)
  | _ => (d', { x with uncorr := x.uncorr + 1 }, acc.2.2.1 ++ [a], acc.2.2.2)

/-- Place of a sector in the order of a scan (log 33). -/
def scanOrder (k : SectorKey) : Nat := (((k.kind * 2 ^ 32 + k.obj) * 4 + k.buf) * 2 ^ 40 + k.row) * 8 + k.sector

/-- SCRUB_COMPLETE: the range has been scanned. -/
def execScrubComplete (sid : Nat) (s : State) : Res :=
  eff (fun d =>
    match scrubOf d sid with
    | none => d
    | some x =>
      if !firmwareRuns d || x.state != 0 then d
      else
        let ks := sortByKey scanOrder ((troubleKeys d).filter (inScrub d x))
        let r := ks.foldl scrubStep (d, x, [], [])
        let bad := r.1.mem.parityBad.filter (fun k => inScrub d x k && rowMismatch r.1 k)
        let d1 := bad.foldl (fun d k => logSector 1 0x304 5 k (eccLog (sectorAddr d 5 k) d)) r.1
        let others := r.2.2.1 ++ bad.map (sectorAddr d1 5)
        let x := { r.2.1 with state := 1, mismatch := bad.length, scanned := match x.tensor with | some _ => x.len | none => heldBytes d
                              addrs := (others ++ r.2.2.2).take 16 }
        setScrub x d1) s

/-! ### Retirement of granules (10 R342 to R344) -/

def granuleTaken (d : Dev) (k g : Nat) : Bool :=
  (stack d k).retired.contains g || d.mem.retires.any (fun t => t.stack == k && t.todo.contains g)

/-- Sector address that names a granule. -/
def granuleAddr (k g : Nat) : BitVec 64 := BitVec.ofNat 64 (k * 2 ^ 59 + g * 2 ^ 15)

/-- Mark a granule retired, with its repair-log entry. -/
def retireGranule (k g cause : Nat) (d : Dev) : Dev :=
  repairLog 7 cause k 0 (granuleAddr k g) (onStack k (fun s => { s with retired := addNew s.retired g }) d)

/-- Checks and start of a retirement: a free granule is retired at once, a held one waits for its move. -/
def retireRow (d : Dev) (op k : Nat) (gs : List Nat) (bank : Bool) : MRes :=
  let held := gs.filter (heldGranules d k).contains
  let spare := freeGranules d k - (gs.length - held.length)
  let room := Config.noField op rNoRoom
  if (stack d k).lost || (stack d k).testing then .no rNotAllowed 16
  else if gs.any (granuleTaken d k) then .no rInUse (Config.noField op rInUse)
  else if repairLogFull d || freeGranules d k == 0 || (!held.isEmpty && decide (spare < held.length)) then .no rNoRoom room
  else
    let n := d.mem.nextTicket
    let free := gs.filter (fun g => !held.contains g)
    let d := free.foldl (fun d g => retireGranule k g (if bank then 5 else 4) d) d
    let keep := d.mem.retires.filter (fun t => decide (n < t.ticket + 256))
    .ok { d with mem := { d.mem with nextTicket := n + 1, retires := keep ++ [{ ticket := n, stack := k, todo := held, done := free.length,
                                                                                total := gs.length, bank := bank }] } } (toLe 4 n)

def execPageRetire (m : Nat) (s : State) : Res :=
  eff (mbxRow m 0x0861 (fun d c =>
    let k := fieldLe c 16 1
    let g := fieldLe c 18 2
    if 24 ≤ k then .no rBadField 16
    else if granules ≤ g then .no rBadField 18
    else retireRow d 0x0861 k [g] false)) s

def execBankRetire (m : Nat) (s : State) : Res :=
  eff (mbxRow m 0x0862 (fun d c =>
    let k := fieldLe c 16 1
    let b := fieldLe c 18 1
    if 24 ≤ k then .no rBadField 16
    else if 32 ≤ fieldLe c 17 1 then .no rBadField 17
    else if 48 ≤ b then .no rBadField 18
    else retireRow d 0x0862 k ((List.range 384).map (fun i => 48 * i + b)) true)) s

def execRetireQuery (m : Nat) (s : State) : Res :=
  eff (mbxRow m 0x0863 (fun d c =>
    match d.mem.retires.find? (fun t => t.ticket == fieldLe c 16 4) with
    | none => .no rBadField 16
    | some t => .ok d (toLe 1 (if t.todo.isEmpty then 1 else 0) ++ zeros 3 ++ toLe 2 t.done ++ toLe 2 t.total))) s

/-- Sectors in error of a region. -/
def regionErrs (d : Dev) (r : Nat) : List SectorKey := (d.mem.errs.map (·.key)).filter (fun k => (keyRow d k).1 == r)

/-- A migration carries a sector: it is corrected or rebuilt, and one that is poisoned moves as it is (10 R342, Table 10-2). -/
def carrySector (k : SectorKey) (d : Dev) : Dev := if sectorState d k = 3 then d else (touchSector k d).1

/-- Move the units of granule g of stack k: errors are corrected or rebuilt, poison goes along. -/
def moveGranule (k g : Nat) (d : Dev) : Dev :=
  match d.mem.regions.find? (fun r => (r.2.onStacks.zip r.2.granules).contains (k, g)) with
  | none => d
  | some r =>
    let d := ((regionErrs d r.1).filter (fun e => keyStack d e == k)).foldl (fun d e => carrySector e d) d
    let g' := pickGranule d k
    { takeFree 1 d with mem := { d.mem with regions := aMod d.mem.regions r.1 (fun x => { x with
        granules := (x.onStacks.zip x.granules).map (fun y => if y = (k, g) then g' else y.2) }) } }

/-- RETIREMENT_COMPLETE: the units have moved and the granules are retired. -/
def execRetirementComplete (ticket : Nat) (s : State) : Res :=
  eff (fun d =>
    match d.mem.retires.find? (fun t => t.ticket == ticket) with
    | none => d
    | some t =>
      if !firmwareRuns d || t.todo.isEmpty then d
      else
        let d := t.todo.foldl (fun d g => retireGranule t.stack g (if t.bank then 5 else 4) (moveGranule t.stack g d)) d
        { d with mem := { d.mem with retires := d.mem.retires.map (fun x =>
            if x.ticket = ticket then { x with todo := [], done := x.total } else x) } }) s

/-! ### Records about regions -/

/-- Tensors with rows in a region. -/
def regionTensors (d : Dev) (r : Nat) : List Nat := (d.tensors.filter (fun t => tensorIn t.2 r)).map (·.1)

/-- A record about a region that names its tensors: one record for each of them (log 34). -/
def logRegion (sev cls r : Nat) (d : Dev) : Dev :=
  let one := fun (h : BitVec 64) (d : Dev) =>
    logRec { sev := sev, cls := BitVec.ofNat 16 cls, detail := BitVec.ofNat 128 r, object := h } d
  match regionTensors d r with
  | [] => one 0 d
  | ts => ts.foldl (fun d i => one (tensorHandle d i) d) d

/-- One INFO record about a region, with its first tensor. -/
def regionInfo (cls r : Nat) (d : Dev) : Dev :=
  logRec { sev := 15, cls := BitVec.ofNat 16 cls, detail := BitVec.ofNat 128 r
           object := (((regionTensors d r).head?).map (tensorHandle d)).getD 0 } d

/-- Data sectors of the objects that lie in a region, within a span of its rows. -/
def regionKeys (d : Dev) (r lo hi : Nat) : List SectorKey :=
  let of := fun (k : SectorKey) (bytes : Nat) (p : Placement) =>
    if (placeRegions p).contains r then
      ((List.range (ceilDiv bytes 64)).map (dataLike k)).filter (fun j => let w := keyRow d j; w.1 == r && decide (lo ≤ w.2.1) && decide (w.2.1 < hi))
    else []
  d.tensors.flatMap (fun t => (List.range 4).flatMap (fun b =>
    of (dataKey t.1 b 0) (if b < 2 then tBytes t.2 else 2 * tElems t.2) (tPlace t.2 b))) ++
  d.factors.flatMap (fun f => of { kind := 1, obj := f.1 }
    (Config.factorBytes (((aGet d.plans (hIdx f.2.plan)).map (·.desc)).getD []) * f.2.problems) f.2.place) ++
  d.warms.flatMap (fun w => of { kind := 2, obj := w.1 } (2 * warmSpan w.2) w.2.place)

/-- A migration writes the sectors of a span of rows: an armed flip mask may meet one (10 R348). -/
def flipRows (r lo hi : Nat) (d : Dev) : Dev :=
  if d.mem.flipArm then
    let data := regionKeys d r lo hi
    let par := (data.filterMap (fun k => if keyProtected d k then some (parityLike k (keyRow d k).2.2 (keySub d k)) else none)).eraseDups
    flipOn (flipOrder d data par) d
  else d

/-- Change a region. -/
def onRegion (r : Nat) (f : Region → Region) (d : Dev) : Dev :=
  { d with mem := { d.mem with regions := aMod d.mem.regions r f } }

/-! ### Re-striping (10 R336, R337; 14 R487) -/

/-- A stack that regions leave: lost, or taken out by STACK_TEST. -/
def leaving (d : Dev) (k : Nat) : Bool := (stack d k).lost || ((stack d k).testing && !d.mem.returning.contains k)

/-- Where a region of the re-striping queue goes: off the stacks that it leaves, else onto one that STACK_RETURN gives back. -/
def restripeTo (d : Dev) (r : Nat) : List Nat :=
  let on := (region d r).onStacks
  let off := on.filter (fun k => !leaving d k)
  if off.length < on.length then off else sortByKey id (on ++ (d.mem.returning.filter (fun k => !on.contains k)).take 1)

/-- Rows that a run of rows takes where a row holds another number of data units. -/
def rowsAs (n old new : Nat) : Nat := ceilDiv (n * old) (max new 1)

/-- Where the runs of a region go, one after another: (first row, new first row, new rows); rows from 8,192 on overflow. -/
def repack (d : Dev) (r old new : Nat) : List (Nat × Nat × Nat) :=
  ((sortByKey (·.1) (usedRows d r)).foldl (fun (acc : List (Nat × Nat × Nat) × Nat) x =>
    (acc.1 ++ [(x.1, acc.2, rowsAs x.2 old new)], acc.2 + rowsAs x.2 old new)) ([], 0)).1

/-- A run that overflows goes on in another region `x`, from row `at0` on. -/
def splitRun (r x at0 row rows : Nat) : List (Nat × Nat × Nat) :=
  if row + rows ≤ rowsPerRegion then [(r, row, rows)]
  else if rowsPerRegion ≤ row then [(x, at0 + (row - rowsPerRegion), rows)]
  else [(r, row, rowsPerRegion - row), (x, at0, row + rows - rowsPerRegion)]

def repackPlace (r x at0 : Nat) (m : List (Nat × Nat × Nat)) (p : Placement) : Placement :=
  let one := fun (y : Nat × Nat × Nat) =>
    if y.1 = r ∧ 0 < y.2.2 then
      match m.find? (fun z => z.1 == y.2.1) with
      | some z => splitRun r x at0 z.2.1 z.2.2
      | none => [y]
    else [y]
  match (pieces p).flatMap one with
  | [] => p
  | a :: t => { region := a.1, row := a.2.1, rows := a.2.2, more := t }

/-- A region more, on given stacks: none where a stack has no free granule. -/
def freshRegion (on : List Nat) (lagoon : Bool) (rows : Nat) (d : Dev) : Option (Nat × Dev) :=
  if on.any (fun k => freeGranules d k == 0) then none
  else
    let n := d.mem.nextRegion
    let reg : Region := { width := on.length, onStacks := on, granules := on.map (pickGranule d), salt := Config.salt d.free
                          lagoon := lagoon, rows := rows }
    some (n, { takeFree 1 d with mem := { d.mem with regions := aSet d.mem.regions n reg, nextRegion := n + 1 } })

/-- Room for the rows that overflow a re-striped region: free rows of another region of its new width, else a new region. -/
def overflowRoom (r : Nat) (on : List Nat) (rows : Nat) (d : Dev) : Option (Nat × Nat × Dev) :=
  if rows = 0 then some (r, 0, d)
  else
    match (gaps d true).find? (fun g => g.1 != r && (region d g.1).width == on.length && decide (rows ≤ g.2.2)) with
    | some g => some (g.1, g.2.1, d)
    | none => (freshRegion on false 0 d).map (fun x => (x.1, 0, x.2))

/-- Errors after a region's rows changed: parity of its own rows is formed anew, sectors that were on a lost stack read clean, and
parity of an object's rows elsewhere keeps its row. -/
def rekey (d d' : Dev) (r : Nat) (ks : List SectorKey) : List (SectorKey × SectorKey) :=
  ks.filterMap (fun k =>
    if k.sector = 0 then some (k, k)
    else if (keyRow d k).1 = r then none
    else some (k, parityLike k (keyRow d' k).2.2 (k.sector - 1)))

/-- The region lies on its new stacks, its objects in their rows there; none where rows that overflow find no room. -/
def rebuildRegion (r : Nat) (m : List Nat × List Nat × BitVec 64) (d : Dev) : Option Dev :=
  let old := region d r
  let new : Region := { old with width := m.1.length, onStacks := m.1, granules := m.2.1, salt := m.2.2, moving := none, moved := 0
                                 unplaced := false }
  let errs := d.mem.errs.filter (fun e => e.poison || !((keyRow d e.key).1 == r && (stack d (keyStack d e.key)).lost))
  let d0 := setErrs errs d
  let put := fun (d1 : Dev) (rows : Nat) (f : Placement → Placement) =>
    let d2 := { d1 with
      mem := { d1.mem with regions := aSet d1.mem.regions r { new with rows := rows } }
      tensors := aMap d1.tensors (fun _ t => { t with place0 := f t.place0, place1 := t.place1.map f, placeLow := t.placeLow.map f })
      factors := aMap d1.factors (fun _ t => { t with place := f t.place })
      warms := aMap d1.warms (fun _ t => { t with place := f t.place }) }
    let es := d2.mem.errs.filterMap (fun e => ((rekey d d2 r [e.key]).head?).map (fun k => { e with key := k.2 }))
    let bad := (rekey d d2 r d2.mem.parityBad).map (·.2)
    { d2 with mem := { d2.mem with errs := es, parityBad := bad } }
  if old.lagoon then
    let rows := rowsAs old.rows (dataUnits old) (dataUnits new)
    if rows ≤ rowsPerRegion then some (put d0 rows id)
    else match freshRegion m.1 true (rows - rowsPerRegion) d0 with
      | none => none
      | some (x, d1) =>
        let d2 := put d1 rowsPerRegion id
        some { d2 with pair := { d2.pair with lagoonRegions := d2.pair.lagoonRegions.flatMap (fun q => if q = r then [r, x] else [q]) } }
  else
    let mv := repack d r (dataUnits old) (dataUnits new)
    let total := mv.foldl (fun a x => max a (x.2.1 + x.2.2)) 0
    match overflowRoom r m.1 (total - rowsPerRegion) d0 with
    | none => none
    | some (x, at0, d1) => some (put d1 old.rows (repackPlace r x at0 mv))

/-- The region holds secured tensors, their planes or their working copies. -/
def regionSecured (d : Dev) (r : Nat) : Bool := d.tensors.any (fun t => tSecured t.2 && tensorIn t.2 r)

/-- Regions in the order in which firmware re-stripes them. -/
def restripeOrder (d : Dev) (rs : List Nat) : List Nat :=
  sortByKey (fun r => if (region d r).lagoon then 0 else if regionSecured d r then 1 else 2) rs

/-- A region that finds no room stays readable by rebuild, and a DEGRADED record names its tensors, once (10 R337). -/
def leaveUnplaced (r : Nat) (d : Dev) : Dev :=
  let d' := onRegion r (fun x => { x with unplaced := true, moving := none, moved := 0 }) d
  if (region d r).unplaced then d' else logRegion 3 0x306 r d'

/-- A region's copy begins, where its new stacks have granules. -/
def restripeBegin (r : Nat) (d : Dev) : Dev :=
  let on := restripeTo d r
  if (region d r).moving.isSome then d
  else if on.length < 2 ∨ on.any (fun j => freeGranules d j == 0) = true then leaveUnplaced r d
  else
    onRegion r (fun x => { x with moving := some (on, on.map (pickGranule d), Config.salt d.free), moved := 0, unplaced := false }) (takeFree 1 d)

/-- What the copy of a region meets: errors are corrected or rebuilt, and a sector of a lost stack that its row cannot rebuild is
poisoned (10 R334, R336). -/
def carryRegion (r : Nat) (d : Dev) : Dev :=
  (regionErrs d r).foldl (fun d k =>
    let d := carrySector k d
    ((peersOf d k).filter (fun j => j.sector == 0 && sectorState d j == 4 && !canRebuild d j)).foldl (fun d j => (touchSector j d).1) d) d

/-- A region's copy is complete: its old granules are free. -/
def restripeEnd (r : Nat) (d : Dev) : Dev :=
  match (region d r).moving with
  | none => d
  | some m =>
    let d := carryRegion r d
    match rebuildRegion r m d with
    | none => leaveUnplaced r d
    | some d =>
      let d := flipRows r 0 rowsPerRegion { d with mem := { d.mem with restripes := d.mem.restripes.filter (· != r) } }
      sweepRegions (if restripeTo d r = (region d r).onStacks then d else { d with mem := { d.mem with restripes := d.mem.restripes ++ [r] } })

/-- A region is being re-striped. -/
def restriping (d : Dev) (r : Nat) : Bool := let x := region d r; x.moving.isSome && !moveIsResalt x

/-- State of a lost stack while regions lie on it: halted where one of them finds no room. -/
def showHalted (d : Dev) : Dev :=
  (List.range 24).foldl (fun d k =>
    if leaving d k && (stack d k).state != 3 then
      let halted := d.mem.regions.any (fun r => r.2.unplaced && r.2.onStacks.contains k)
      onStack k (fun x => { x with state := if halted then 2 else 1 }) d
    else d) d

/-- Re-striping at the slack: each of up to four regions has copied 1,024 rows more; the next ones begin (10 R336, R337). -/
def restripeSlack (d : Dev) : Dev :=
  if d.mem.restripes.isEmpty then d
  else
    let d := d.mem.restripes.foldl (fun d r =>
      if restriping d r then
        let d := onRegion r (fun x => { x with moved := x.moved + 1024 }) d
        if rowsPerRegion ≤ (region d r).moved then restripeEnd r d else d
      else d) d
    showHalted (d.mem.restripes.foldl (fun d r =>
      if (d.mem.restripes.filter (restriping d)).length < 4 then restripeBegin r d else d) d)

/-- Protected regions on a stack that can still be re-striped off it. -/
def restripable (d : Dev) (k : Nat) : List Nat :=
  (d.mem.regions.filter (fun r => r.2.parity && r.2.onStacks.contains k && r.2.onStacks.all (fun j => j == k || !(stack d j).lost))).map (·.1)

/-- RESTRIPE_COMPLETE: no protected region includes the stack any more, and it becomes RESTRIPED. -/
def execRestripeComplete (k : Nat) (s : State) : Res :=
  eff (fun d =>
    if firmwareRuns d && decide (k < 24) && leaving d k && !d.mem.regions.any (fun r => r.2.onStacks.contains k && r.2.parity) then
      onStack k (fun x => { x with state := 3 }) d
    else d) s

/-! ### A stack is lost (10 R335, R336, R338) -/

/-- Everything in a region is LOST. -/
def regionLost (r : Nat) (d : Dev) : Dev :=
  { d with
    tensors := aMap d.tensors (fun _ t => if tensorIn t r then { t with lost := true } else t)
    factors := aMap d.factors (fun _ t => if (placeRegions t.place).contains r then { t with lost := true } else t)
    warms := aMap d.warms (fun _ t => if (placeRegions t.place).contains r then { t with lost := true } else t)
    lagoon := if (region d r).lagoon then {} else d.lagoon }

/-- A stack is lost in the middle of a migration: a re-striping onto it starts over; a re-salt goes on, and the region's
re-striping follows it. -/
def stopMoves (k : Nat) (d : Dev) : Dev :=
  { d with mem := { d.mem with
      regions := aMap d.mem.regions (fun _ r =>
        if !moveIsResalt r && r.moving.any (fun m => m.1.contains k) then { r with moving := none, moved := 0 } else r)
      returning := d.mem.returning.filter (· != k) } }

def stackLost (k : Nat) (d : Dev) : Dev :=
  if 24 ≤ k ∨ (stack d k).lost = true then d
  else
    let d := stopMoves k (onStack k (fun x => { x with lost := true, state := 1, testing := false, passed := false }) d)
    let on := d.mem.regions.filter (fun r => r.2.onStacks.contains k)
    let double := on.filter (fun r => r.2.parity && r.2.onStacks.any (fun j => j != k && (stack d j).lost))
    let bare := on.filter (fun r => !r.2.parity)
    let grave := double.any (fun r => r.2.lagoon || regionSecured d r.1 || d.warms.any (fun w => (placeRegions w.2.place).contains r.1))
    let wait := (on.filter (fun r => r.2.parity && !double.any (fun x => x.1 == r.1))).map (·.1)
    let d := (double ++ bare).foldl (fun d r => regionLost r.1 d) d
    let d := { d with mem := { d.mem with restripes := restripeOrder d (d.mem.restripes ++ wait).eraseDups } }
    let d := onStack k (fun x => { x with state := if wait.isEmpty && double.isEmpty then 3 else 1 }) d
    let d := logUnit (if grave then 4 else 3) 0x305 7 k k d
    if grave then announceFailed 0x305 d else d

def execStackLost (k : Nat) (s : State) : Res :=
  eff (fun d => if firmwareRuns d then stackLost k d else d) s

/-! ### Re-salting (10 R325 to R327) -/

/-- A test of a memory-side die runs: re-salting skips regions (14 R488). -/
def mdTesting (d : Dev) : Bool := d.units.tickets.any (fun t => t.state == 0 && t.md.isSome)

/-- HOT_CFG.RUN, at least 4. -/
def hotRunCfg (d : Dev) : Nat := max 4 (bitsOf d.mem.hotCfg.active.toNat 8 6)

/-- Begin the migration of a region under a new salt into free granules of its stacks; without them it waits. -/
def beginResalt (r : Nat) (d : Dev) : Dev :=
  let on := (region d r).onStacks
  if on.any (fun j => freeGranules d j == 0) then { d with mem := { d.mem with resaltQueue := addNew d.mem.resaltQueue r } }
  else
    let gs := on.map (pickGranule d)
    let d := onRegion r (fun x => { x with moving := some (on, gs, Config.salt d.free), moved := 0 }) (takeFree 1 d)
    { d with mem := { d.mem with resalts := d.mem.resalts ++ [r], resaltQueue := d.mem.resaltQueue.filter (· != r) } }

/-- Waiting re-salts start, in order of detection, in the tide after running ones end. -/
def startWaitingResalts (d : Dev) : Dev :=
  d.mem.resaltQueue.foldl (fun d r =>
    if (aGet d.mem.regions r).isNone then { d with mem := { d.mem with resaltQueue := d.mem.resaltQueue.filter (· != r) } }
    else if d.mem.resalts.length < 2 ∧ mdTesting d = false ∧ (region d r).moving = none then beginResalt r d else d) d

/-- A region hot for RUN tides is re-salted, or waits. -/
def resaltHot (r : Nat) (d : Dev) : Dev :=
  let x := region d r
  if d.mem.ctl.active.getLsbD 0 = false ∨ x.hotRun < hotRunCfg d ∨ d.tide.count < x.holdUntil ∨ x.moving.isSome = true
      ∨ d.mem.resaltQueue.contains r = true ∨ mdTesting d = true then d
  else if d.mem.resalts.length < 2 then beginResalt r d
  else
    let many := decide (4 ≤ d.mem.resalts.length + d.mem.resaltQueue.length)
    let d := { d with mem := { d.mem with resaltQueue := d.mem.resaltQueue ++ [r] } }
    if many then regionInfo 0x308 r d else d

def execResaltStart (region_ : Nat) (s : State) : Res :=
  eff (fun d => if firmwareRuns d && (aGet d.mem.regions region_).isSome then resaltHot region_ d else d) s

/-- Re-salting at the slack: each running one has switched 256 rows more (10 R326, R328). -/
def resaltSlack (d : Dev) : Dev :=
  if mdTesting d then d
  else d.mem.resalts.foldl (fun d r =>
    let lo := (region d r).moved
    let rows := (regionErrs d r).filter (fun k => decide (lo ≤ (keyRow d k).2.1) && decide ((keyRow d k).2.1 < lo + 256))
    let d := rows.foldl (fun d k => carrySector k d) d
    flipRows r lo (lo + 256) (onRegion r (fun x => { x with moved := min rowsPerRegion (lo + 256) }) d)) d

/-- RESALT_COMPLETE: every row lies under the new salt, and the old granules are free. -/
def execResaltComplete (region_ : Nat) (s : State) : Res :=
  eff (fun d =>
    if !firmwareRuns d || !d.mem.resalts.contains region_ then d
    else match (region d region_).moving with
      | none => { d with mem := { d.mem with resalts := d.mem.resalts.filter (· != region_) } }
      | some m =>
        if (region d region_).moved < rowsPerRegion then d
        else
          let d := onRegion region_ (fun x => { x with
            onStacks := m.1, granules := m.2.1, salt := m.2.2, moving := none, moved := 0, hotRun := 0, lastResalt := some d.tide.count }) d
          sweepRegions (logRegion 15 0x307 region_ { d with mem := { d.mem with resalts := d.mem.resalts.filter (· != region_) } })) s

/-- A region is hot in a tide by the accesses counted in it (10 R325). -/
def regionHot (d : Dev) (r : Region) : Bool :=
  let share := min 5 (max 2 (bitsOf d.mem.hotCfg.active.toNat 0 3))
  let least := bitsOf d.mem.hotCfg.active.toNat 16 16
  let total := r.hits.foldl (fun a h => a + h.2) 0
  let most := r.hits.foldl (fun a h => max a h.2) 0
  decide (least ≤ total) && decide (total < most * 2 ^ share)

/-- A region that was re-salted is marked hot again within 256 tides: it is left alone for 4,096 tides (10 R327). -/
def holdHot (r : Nat) (d : Dev) : Dev :=
  let x := region d r
  if regionHot d x && decide (x.holdUntil ≤ d.tide.count) && x.lastResalt.any (fun t => decide (d.tide.count ≤ t + 256)) then
    regionInfo 0x309 r (onRegion r (fun x => { x with holdUntil := d.tide.count + 4096 }) d)
  else d

/-- The slack combines the counts of the tide and marks regions hot (10 R325). -/
def markHot (d : Dev) : Dev :=
  let on := d.mem.ctl.active.getLsbD 0
  let d := if on then (d.mem.regions.map (·.1)).foldl (fun d r => holdHot r d) d else d
  { d with mem := { d.mem with regions := aMap d.mem.regions (fun _ x =>
      { x with hotRun := if on && regionHot d x then x.hotRun + 1 else 0, hits := [] }) } }

/-- What the migrations of a tide and its counts come to at its slack. -/
def memSlack (d : Dev) : Dev := restripeSlack (resaltSlack (markHot d))

end Sys2Proof.Machine
end

