-- ==== Sys2Proof/Machine/Units.lean ====
section
/-! DEFINITION. Physical units, holms and logical numbers (01 R19 to R22, 05 R156 and R157, 12 R429, 14 R478 to R485), testing and
retiring units in service (14 R486 to R489) and the repair log's commands (R477). -/
namespace Sys2Proof.Machine
open Sys2Proof

def numCores : Nat := 1152
def physPerCluster : Nat := 208
def corePhys (cl p : Nat) : Nat := cl * 65536 + p

/-! ### Bindings of cores (01 R19 to R22) -/

/-- The physical core behind a logical one. -/
def physOf (d : Dev) (l : Nat) : Option (Nat × Nat) := aGet d.units.bind l
/-- Logical cores that a physical core serves. -/
def servedBy (d : Dev) (u : Nat × Nat) : List Nat := (d.units.bind.filter (fun b => b.2 == u)).map (·.1)
/-- Holms of a cluster in ascending order, without those that fills are bringing into service. -/
def freeHolms (d : Dev) (cl : Nat) : List Nat :=
  sortByKey id ((d.units.holms.filter (fun h => h.1 == cl && !d.units.fills.any (fun f => f.cl == cl && f.p == h.2))).map (·.2))
/-- A fill that has no holm yet waits for the one before it. -/
def fillWaits : Nat := physPerCluster
/-- Holms of a cluster that no waiting fill will take. -/
def sparesOf (d : Dev) (cl : Nat) : Nat := (freeHolms d cl).length - (d.units.fills.filter (fun f => f.cl == cl && f.p == fillWaits)).length
/-- The cluster with the most holms, the lowest on a tie. -/
def richestCluster (d : Dev) : Option Nat :=
  (List.range 6).foldl (fun b c => if 0 < sparesOf d c ∧ b.all (fun x => decide (sparesOf d x < sparesOf d c)) then some c else b) none
/-- The core of a cluster that serves the fewest logical cores, the lowest on a tie. -/
def leastLoaded (d : Dev) (cls : List Nat) : Option (Nat × Nat) :=
  let us := (d.units.bind.map (·.2)).eraseDups.filter (fun u => cls.contains u.1)
  us.foldl (fun b u =>
    match b with
    | none => some u
    | some v =>
      let nu := (servedBy d u).length
      let nv := (servedBy d v).length
      if nu < nv ∨ (nu = nv ∧ corePhys u.1 u.2 < corePhys v.1 v.2) then some u else b) none

def retirePhys (cl p cause code : Nat) (d : Dev) : Dev :=
  repairLog 1 cause (corePhys cl p) code 0 { d with units := { d.units with
    retired := addNew d.units.retired (cl, p), holms := d.units.holms.filter (fun h => h != (cl, p)) } }

/-- A core stops with nothing of its segment counted: the segment is replayed (05 R157, 14 R481). -/
def coreDrop (c : Core) : Core :=
  { coreStop c with ended := c.ended, flagsSince := c.flagsSince, segCount := c.segCount, plan := [], redo := [] }

/-- The segments that a logical core has to run again: its running one, those planned on it, those that wait for it. -/
def replayOf (c : Core) : List (Nat × Nat × Nat) := (if c.run then [(c.item, c.inst, c.seg)] else []) ++ c.plan ++ c.redo

/-- Items with a segment on a lost core fail; their DETAIL names the core and no segment (14 R481, 03 R99). -/
def failReplays (l : Nat) (rs : List (Nat × Nat × Nat)) (d : Dev) : Dev :=
  rs.foldl (fun d r => failItem r.1 0x15 (65536 + l) r.2.1 0xFF d) d

/-- The solver problems of a lost core stop; each begins again on what takes the core's number over (08 R276). -/
def problemsLost (l : Nat) (d : Dev) : Dev :=
  (((aGet d.cores l).map (·.heldBy)).getD []).foldl (fun d h =>
    { d with items := aMod d.items h.1 (fun i => { i with probs := aMod i.probs h.2 (fun p => { p with core := none, lost := some l, iters := 0 }) }) }) d

/-- The problems of a core that a holm now serves begin again (08 R276). -/
def problemsBack (l : Nat) (d : Dev) : Dev :=
  (((aGet d.cores l).map (·.heldBy)).getD []).foldl (fun d h =>
    { d with items := aMod d.items h.1 (fun i => { i with probs := aMod i.probs h.2 (fun p =>
        if p.lost = some l then { p with core := some l, lost := none } else p) }) }) d

/-- Give the number of a lost core to a unit: a holm of its cluster, of the richest cluster, or time-sharing (14 R479). -/
def adoptCore (l cl p : Nat) (rs : List (Nat × Nat × Nat)) (d : Dev) : Dev :=
  let begin := fun (h : Nat) (d : Dev) =>
    let first := !d.units.fills.any (fun f => f.cl == h)
    let q := if first then ((freeHolms d h).head?).getD fillWaits else fillWaits
    { d with units := { d.units with fills := d.units.fills ++ [{ l := l, p := q, cl := h, replay := rs }] } }
  if 0 < sparesOf d cl then logUnit 2 0x0F04 1 l (corePhys cl p) (begin cl d)
  else match richestCluster d with
    | some h => logUnit 2 0x0F05 1 l (corePhys cl p) (begin h d)
    | none =>
      let u := match leastLoaded d [clusterOf l] with
        | some u => some u
        | none => leastLoaded d (List.range 6)
      let d := failReplays l rs (logUnit 3 0x0F06 1 l (corePhys cl p) { d with cores := aMod d.cores l (fun c => { c with heldBy := [] }) })
      match u with
      | some u => { d with units := { d.units with bind := aSet d.units.bind l u, shared := addNew d.units.shared l } }
      | none => d

/-- Firmware declares a physical core lost (14 R478). -/
def coreLost (cl p cause : Nat) (d : Dev) : Dev :=
  if d.units.retired.contains (cl, p) then d
  else
    let ls := servedBy d (cl, p)
    let filling := d.units.fills.filter (fun f => f.cl == cl && f.p == p)
    let d := retirePhys cl p 2 cause d
    let d := { d with units := { d.units with bind := d.units.bind.filter (fun b => b.2 != (cl, p))
                                              fills := d.units.fills.map (fun f => if f.cl = cl ∧ f.p = p then { f with p := fillWaits } else f) } }
    let d := ls.foldl (fun d l =>
      let c := (aGet d.cores l).getD {}
      adoptCore l cl p (replayOf c) (problemsLost l (setCore l (coreDrop c) d))) d
    if filling.isEmpty then d
    else
      let next := ((freeHolms d cl).head?).getD fillWaits
      match d.units.fills.find? (fun f => f.cl == cl) with
      | some f => { d with units := { d.units with fills := d.units.fills.map (fun g => if g = f then { f with p := next } else g) } }
      | none => d

def execCoreLost (cl p cause : Nat) (s : State) : Res :=
  eff (fun d => if firmwareRuns d && decide (cl < 6) && decide (p < physPerCluster) then coreLost cl p cause d else d) s

/-- Segments that fit what remains of the working window, in order (02 R46). -/
def fitSegs (d : Dev) : Nat → List (Nat × Nat × Nat) → List (Nat × Nat × Nat)
  | _, [] => []
  | left, x :: t =>
    let prog := ((aGet d.items x.1).map (fun i => hIdx i.object)).getD 0
    let bound := ((((aGet d.programs prog).getD {}).segs[x.2.2]?).getD {}).bound
    if bound ≤ left then x :: fitSegs d (left - bound) t else []

/-- The next waiting fill of a cluster starts on the next holm. -/
def nextFill (cl : Nat) (d : Dev) : Dev :=
  match d.units.fills.find? (fun f => f.cl == cl) with
  | some f =>
    match (freeHolms d cl).head? with
    | some q => { d with units := { d.units with fills := d.units.fills.map (fun g => if g = f then { f with p := q } else g) } }
    | none =>
      let d := { d with units := { d.units with fills := d.units.fills.filter (fun g => g != f) } }
      adoptCore f.l cl fillWaits f.replay d
  | none => d

/-- CORE_FILL_COMPLETE: the running fill of a cluster ends; the segments that fit are placed in this tide, the rest before
anything new in the next (14 R480, R481). -/
def execCoreFillComplete (cl : Nat) (ok : Bool) (remaining : Nat) (s : State) : Res :=
  eff (fun d =>
    match d.units.fills.find? (fun f => f.cl == cl && f.p != fillWaits) with
    | none => d
    | some f =>
      if !firmwareRuns d then d
      else if !ok then
        let d := retirePhys cl f.p 2 0 { d with units := { d.units with fills := d.units.fills.map (fun g => if g = f then { f with p := fillWaits } else g) } }
        nextFill cl d
      else
        let run := if d.tide.phase = .work then fitSegs d remaining f.replay else []
        let c := (aGet d.cores f.l).getD {}
        let d := { d with units := { d.units with
          bind := aSet d.units.bind f.l (cl, f.p), fills := d.units.fills.filter (fun g => g != f), holms := d.units.holms.filter (fun h => h != (cl, f.p)) } }
        nextFill cl (setCore f.l { c with plan := run ++ c.plan, redo := f.replay.drop run.length ++ c.redo } d)) s

/-- Fills that are not complete at the slack fail the items of their segments (14 R481); the problems of the others begin again in
the next tide (08 R276). -/
def fillsAtSlack (d : Dev) : Dev :=
  let d := d.units.fills.foldl (fun d f => failReplays f.l f.replay d) d
  let d := { d with units := { d.units with fills := d.units.fills.map (fun (f : Fill) => { f with replay := [] }) } }
  let ls := d.cores.map (·.1)
  ls.foldl (fun d l => if d.units.fills.any (fun f => f.l == l) then d else problemsBack l d) d

/-! ### Control cores (14 R485) -/

def controlCoreLost (ccp : Nat) (d : Dev) : Dev :=
  let u := d.units
  let drop := fun (d : Dev) => repairLog 2 2 ccp 0 0 { d with units := { d.units with
    ccRetired := addNew d.units.ccRetired ccp, ccHolms := d.units.ccHolms.filter (· != ccp) } }
  if u.ccHolms.contains ccp then drop d
  else match u.ccIn.findIdx? (· == ccp) with
    | none => d
    | some i =>
      match (sortByKey id u.ccHolms).head? with
      | some h =>
        logUnit 2 0x0F07 2 i ccp (drop { d with units := { u with ccIn := setAt u.ccIn i h, ccHolms := u.ccHolms.filter (· != h) } })
      | none =>
        let d := drop { d with units := { u with ccIn := setAt u.ccIn i 16 } }
        if (d.units.ccIn.filter (fun p => decide (p < 16))).length < 8 then announceFailed 0x0F07 (logUnit 4 0x0F07 2 i ccp d) else logUnit 3 0x0F07 2 i ccp d

def execControlCoreLost (ccp : Nat) (s : State) : Res := eff (fun d => if firmwareRuns d then controlCoreLost ccp d else d) s

/-! ### Reduction units (12 R429) -/

/-- The physical unit behind a logical reduction unit. -/
def ruPhys (d : Dev) (ld k : Nat) : Nat := ((d.units.ruMap.find? (fun x => x.1 == ld && x.2.1 == k)).map (·.2.2)).getD k
/-- Physical units of a link die that neither serve nor are down or under test. -/
def ruHolms (d : Dev) (ld : Nat) : List Nat :=
  (List.range 36).filter (fun p => !d.units.ruDown.contains (ld, p) && !(List.range 32).any (fun k => ruPhys d ld k == p) &&
    !d.units.testing.contains (4, BitVec.ofNat 32 (ld * 256 + p)))
def ruMove (ld k p : Nat) (d : Dev) : Dev :=
  { d with units := { d.units with ruMap := d.units.ruMap.filter (fun x => !(x.1 == ld && x.2.1 == k)) ++ [(ld, k, p)] } }

def ruFails (ld p : Nat) (d : Dev) : Dev :=
  if d.units.ruDown.contains (ld, p) then d
  else
    let k := (List.range 32).find? (fun k => ruPhys d ld k == p)
    let h := (ruHolms d ld).head?
    let d := repairLog 4 2 (ld * 256 + p) 0 0 { d with units := { d.units with ruDown := d.units.ruDown ++ [(ld, p)] } }
    let rec1 : RasRec := { cls := 0x502, unitKind := 4, logical := BitVec.ofNat 32 (ld * 256 + k.getD 0xFF), physical := BitVec.ofNat 32 (ld * 256 + p) }
    match k, h with
    | none, _ => d
    | some k, some q => if q = p then logLater { rec1 with sev := 3 } d else logLater { rec1 with sev := 2 } (ruMove ld k q d)
    | some _, none => logLater { rec1 with sev := 3 } d

def execReductionUnitFailure (ld ru : Nat) (s : State) : Res :=
  eff (fun d => if firmwareRuns d && decide (ld < 2) && decide (ru < 36) then ruFails ld ru d else d) s

/-! ### Accumulator banks (05 R156, R157) -/

/-- Physical bank behind a logical bank of an engine (05 R156). -/
def bankPhys (d : Dev) (u : Nat × Nat) (b : Nat) : Nat :=
  ((d.units.banks.find? (fun x => (x.1, x.2.1) == u && x.2.2.1 == b)).map (·.2.2.2)).getD b
/-- The physical bank that serves none of the engine's logical banks. -/
def bankHolm (d : Dev) (u : Nat × Nat) : Nat := ((List.range 9).find? (fun p => !(List.range 8).any (fun b => bankPhys d u b == p))).getD 8

/-- The engine's holm takes a logical bank over. -/
def bankMove (u : Nat × Nat) (b : Nat) (d : Dev) : Dev :=
  { d with units := { d.units with
      banksUsed := addNew d.units.banksUsed u
      banks := d.units.banks.filter (fun x => !((x.1, x.2.1) == u && x.2.2.1 == b)) ++ [(u.1, u.2, b, bankHolm d u)] } }

/-- A bank that has to leave service, in the slack: its holm takes the logical bank over, or the core is lost (05 R156, R157). -/
def bankFails (u : Nat × Nat) (b l : Nat) (d : Dev) : Dev :=
  if (servedBy d u).isEmpty then d
  else if d.units.banksUsed.contains u then coreLost u.1 u.2 0 d
  else
    let phys := u.1 * 2 ^ 24 + u.2 * 256 + bankPhys d u b
    logRec { sev := 2, cls := 0x202, unitKind := 3, logical := BitVec.ofNat 32 (l * 256 + b), physical := BitVec.ofNat 32 phys }
      (repairLog 3 2 phys 0 0 (bankMove u b d))

/-- The slack brings bank holms into service. -/
def banksAtSlack (d : Dev) : Dev :=
  d.units.bankDue.foldl (fun d x => bankFails (x.1, x.2.1) x.2.2.1 x.2.2.2 d) { d with units := { d.units with bankDue := [] } }

/-- The engine stops: what its logical cores have to run again is placed before anything new, from the next tide on (05 R157). -/
def engineStops (u : Nat × Nat) (d : Dev) : Dev :=
  (servedBy d u).foldl (fun d l =>
    match aGet d.cores l with
    | some c => setCore l { coreDrop c with pastFall := true, redo := replayOf c } d
    | none => d) d

/-- ACC_BANK_THRESHOLD: a bank has corrected more than 64 errors within 10,000 tides, or returned an uncorrectable word, which
stops the engine at once; its holm enters service in the next slack. -/
def execAccBankThreshold (l bank : Nat) (uncorrectable : Bool) (s : State) : Res :=
  eff (fun d =>
    match physOf d l with
    | none => d
    | some u =>
      if firmwareRuns d && decide (l < numCores) && decide (bank < 8) then
        let d := { d with units := { d.units with bankDue := addNew d.units.bankDue (u.1, u.2, bank, l) } }
        if uncorrectable then engineStops u d else d
      else d) s

/-! ### Idle holms (14 R484) -/

def execHolmBistPeriod (badCores : List (Nat × Nat)) (badCc : List Nat) (s : State) : Res :=
  eff (fun d =>
    if !firmwareRuns d then d
    else
      let d := (badCores.filter d.units.holms.contains).foldl (fun d u =>
        logUnit 3 0x0F08 1 0xFFFFFFFF (corePhys u.1 u.2) (retirePhys u.1 u.2 2 0 d)) d
      (badCc.filter d.units.ccHolms.contains).foldl (fun d p => logUnit 3 0x0F08 2 0xFFFFFFFF p (controlCoreLost p d)) d) s

/-! ### UNIT_QUERY and CORE_FLAGS (14 Table 14-12) -/

def isTesting (d : Dev) (kind phys : Nat) : Bool := d.units.testing.contains (kind, BitVec.ofNat 32 phys)

/-- Answer of UNIT_QUERY: physical identity, state, share, holms left, fuse-bad; none for an unknown logical number. -/
def unitView (f : Fuses) (d : Dev) (kind l : Nat) : Option (Nat × Nat × Nat × Nat × Bool) :=
  match kind with
  | 1 =>
    if numCores ≤ l then none
    else match physOf d l with
      | none => some (0xFFFFFFFF, 2, 0, sparesOf d (clusterOf l), false)
      | some u =>
        let st := if isTesting d 1 (corePhys u.1 u.2) then 4 else if d.units.shared.contains l then 3 else 0
        some (corePhys u.1 u.2, st, (servedBy d u).length, sparesOf d u.1, f.coreBad.contains u)
  | 2 =>
    if 12 ≤ l then none
    else match (d.units.ccIn[l]?).filter (fun p => decide (p < 16)) with
      | none => some (0xFFFFFFFF, 2, 0, d.units.ccHolms.length, false)
      | some p => some (p, if isTesting d 2 p then 4 else 0, 1, d.units.ccHolms.length, f.ccBad.getLsbD p)
  | 3 =>
    let c := l / 256
    if numCores ≤ c ∨ 8 ≤ l % 256 then none
    else match physOf d c with
      | none => some (0xFFFFFFFF, 2, 0, 0, false)
      | some u =>
        let b := bankPhys d u (l % 256)
        let phys := u.1 * 2 ^ 24 + u.2 * 256 + b
        some (phys, if isTesting d 3 phys then 4 else 0, 1, if d.units.banksUsed.contains u then 0 else 1, f.bankBad.contains (u.1, u.2, b))
  | 4 =>
    let ld := l / 256
    let k := l % 256
    if 2 ≤ ld ∨ 32 ≤ k then none
    else
      let p := ruPhys d ld k
      let bad := if ld = 0 then f.ruBad0.getLsbD p else f.ruBad1.getLsbD p
      some (ld * 256 + p, if d.units.ruDown.contains (ld, p) then 2 else if isTesting d 4 (ld * 256 + p) then 4 else 0, 1, (ruHolms d ld).length, bad)
  | 5 =>
    let st := l / 2 ^ 24
    let ln := l / 65536 % 256
    let tx := bitOf l 8
    let pos := l % 256
    if 6 ≤ st ∨ 4 ≤ ln ∨ 16 ≤ pos then none
    else
      let k := linkOf d st ln
      let lane := ((if tx then k.txMap else k.rxMap)[pos]?).getD pos
      some (lane, if isTesting d 5 (l - pos + lane) then 4 else 0, 1, (holmLanes k).length, false)
  | _ =>
    let cw := l / 256
    if numCauseways ≤ cw then none
    else
      some (l, if isTesting d 6 l then 4 else if d.units.cwHalf.contains (cw, l % 256) then 2 else 0, 1, if cwSpareFree d cw (l % 256) then 1 else 0, f.cwBad.contains (cw, l % 256))

def kindOk (k : Nat) : Bool := decide (1 ≤ k) && decide (k ≤ 6)

def execUnitQuery (m : Nat) (s : State) : Res :=
  eff (mbxRow m 0x0F01 (fun d c =>
    let kind := fieldLe c 16 1
    if !kindOk kind then .no rBadField 16
    else match unitView s.fuses d kind (fieldLe c 20 4) with
      | none => .no rBadField 20
      | some v => .ok d (toLe 4 v.1 ++ toLe 1 v.2.1 ++ toLe 1 v.2.2.1 ++ toLe 2 v.2.2.2.1 ++ toLe 1 (b2n v.2.2.2.2) ++ zeros 7))) s

def execCoreFlags (m : Nat) (s : State) : Res :=
  eff (mbxRow m 0x0F02 (fun d c =>
    let l := fieldLe c 16 4
    if numCores ≤ l then .no rBadField 16
    else
      let k := (aGet d.cores l).getD {}
      .ok d (toLe 4 k.flagsSince.toNat ++ toLe 4 k.segCount))) s

/-! ### Tests and retirements (14 R486 to R489) -/

/-- A unit by its kind and physical identity: none for an identity that names no unit; else whether it serves a logical number,
whether a holm can take that over, and whether it is out of use. -/
def unitUse (d : Dev) (kind phys : Nat) : Option (Bool × Bool × Bool) :=
  match kind with
  | 1 =>
    let u := (phys / 65536, phys % 65536)
    if 6 ≤ u.1 ∨ physPerCluster ≤ u.2 then none
    else some (!(servedBy d u).isEmpty, (List.range 6).any (fun c => decide (0 < sparesOf d c)), d.units.retired.contains u)
  | 2 => if 16 ≤ phys then none else some (d.units.ccIn.contains phys, !d.units.ccHolms.isEmpty, d.units.ccRetired.contains phys)
  | 3 =>
    let u := (phys / 2 ^ 24, phys / 256 % 65536)
    let b := phys % 256
    if 6 ≤ u.1 ∨ physPerCluster ≤ u.2 ∨ 9 ≤ b then none
    else if (servedBy d u).isEmpty then some (false, true, d.units.retired.contains u)
    else
      let serves_ := (List.range 8).any (fun k => bankPhys d u k == b)
      some (serves_, !d.units.banksUsed.contains u, !serves_ && d.units.banksUsed.contains u)
  | 4 =>
    let ld := phys / 256
    let p := phys % 256
    if 2 ≤ ld ∨ 36 ≤ p then none
    else some ((List.range 32).any (fun k => ruPhys d ld k == p), !(ruHolms d ld).isEmpty, d.units.ruDown.contains (ld, p))
  | 5 =>
    let st := phys / 2 ^ 24
    let ln := phys / 65536 % 256
    let lane := phys % 256
    if 6 ≤ st ∨ 4 ≤ ln ∨ 18 ≤ lane ∨ bitOf phys 8 then none
    else
      let k := linkOf d st ln
      some (k.state == 7 && k.rxMap.contains lane, !(holmLanes k).isEmpty, (k.cls[lane]?).getD 3 == 2)
  | _ =>
    let cw := phys / 256
    if numCauseways ≤ cw then none
    else some (!d.units.cwSpare.contains (cw, phys % 256), cwSpareFree d cw (phys % 256), d.units.cwHalf.contains (cw, phys % 256))

/-- Move a unit's logical number to a holm, without replay. -/
def moveOff (kind phys : Nat) (d : Dev) : Dev :=
  match kind with
  | 1 =>
    let u := (phys / 65536, phys % 65536)
    (servedBy d u).foldl (fun d l =>
      let h := if 0 < sparesOf d u.1 then some u.1 else richestCluster d
      match h with
      | some cl =>
        match (freeHolms d cl).head? with
        | some p => logUnit 2 (if cl = u.1 then 0x0F04 else 0x0F05) 1 l phys { d with units := { d.units with
            bind := aSet d.units.bind l (cl, p), holms := d.units.holms.filter (fun x => x != (cl, p)) } }
        | none => d
      | none => d) d
  | 2 =>
    match d.units.ccIn.findIdx? (· == phys), (sortByKey id d.units.ccHolms).head? with
    | some i, some h => { d with units := { d.units with ccIn := setAt d.units.ccIn i h, ccHolms := d.units.ccHolms.filter (· != h) } }
    | _, _ => { d with units := { d.units with ccHolms := d.units.ccHolms.filter (· != phys) } }
  | 3 =>
    let u := (phys / 2 ^ 24, phys / 256 % 65536)
    match (List.range 8).find? (fun k => bankPhys d u k == phys % 256) with
    | some b => bankMove u b d
    | none => d
  | 4 =>
    match (List.range 32).find? (fun k => ruPhys d (phys / 256) k == phys % 256), (ruHolms d (phys / 256)).head? with
    | some k, some q => ruMove (phys / 256) k q d
    | _, _ => d
  | 5 =>
    let st := phys / 2 ^ 24
    let ln := phys / 65536 % 256
    match (linkOf d st ln).rxMap.findIdx? (· == phys % 256) with
    | some pos => moveLane st ln pos d
    | none => d
  | _ => { d with units := { d.units with cwSpare := addNew d.units.cwSpare (phys / 256, phys % 256) } }

/-- A unit under test no longer serves: its holm list leaves it out while it is tested. -/
def takeOut (kind phys : Nat) (d : Dev) : Dev :=
  match kind with
  | 1 => { d with units := { d.units with holms := d.units.holms.filter (fun h => h != (phys / 65536, phys % 65536)) } }
  | 2 => { d with units := { d.units with ccHolms := d.units.ccHolms.filter (· != phys) } }
  | _ => d

def runningTickets (d : Dev) : Nat := (d.units.tickets.filter (fun t => t.state == 0)).length

/-- Issue a ticket. -/
def newTicket (t : Ticket) (d : Dev) : MRes :=
  let n := d.units.nextTicket
  let keep := d.units.tickets.filter (fun x => decide (n < x.id + 256))
  .ok { d with units := { d.units with nextTicket := n + 1, tickets := keep ++ [{ t with id := n }] } } (toLe 4 n)

/-- UNIT_TEST and UNIT_RETIRE: checks, then a ticket; the number moves at the next slack. -/
def unitRow (d : Dev) (op kind phys : Nat) (retire : Bool) : MRes :=
  match unitUse d kind phys with
  | none => if kind = 5 ∧ bitOf phys 8 = true then .no rNotAllowed (Config.noField op rNotAllowed) else .no rBadField 20
  | some u =>
    if u.2.2 then .no rNotAllowed (Config.noField op rNotAllowed)
    else if isTesting d kind phys || (u.1 && !u.2.1) then .no rInUse (Config.noField op rInUse)
    else if 8 ≤ runningTickets d then .no rNoRoom (Config.noField op rNoRoom)
    else newTicket { kind := kind, phys := BitVec.ofNat 32 phys, retire := retire }
      { d with units := { d.units with testing := d.units.testing ++ [(kind, BitVec.ofNat 32 phys)] } }

def execUnitTest (m : Nat) (s : State) : Res :=
  eff (mbxRow m 0x0F03 (fun d c =>
    if !kindOk (fieldLe c 16 1) then .no rBadField 16
    else if fieldLe c 17 1 = 0 ∨ 3 < fieldLe c 17 1 then .no rBadField 17
    else unitRow d 0x0F03 (fieldLe c 16 1) (fieldLe c 20 4) false)) s

def execUnitRetire (m : Nat) (s : State) : Res :=
  eff (mbxRow m 0x0F04 (fun d c =>
    if !kindOk (fieldLe c 16 1) then .no rBadField 16 else unitRow d 0x0F04 (fieldLe c 16 1) (fieldLe c 20 4) true)) s

def execTestQuery (m : Nat) (s : State) : Res :=
  eff (mbxRow m 0x0F05 (fun d c =>
    match d.units.tickets.find? (fun t => t.id == fieldLe c 16 4) with
    | none => .no rBadField 16
    | some t => .ok d (toLe 1 t.state ++ zeros 7 ++ toLe 8 t.res.logicAct.toNat ++ toLe 8 t.res.logicExp.toNat ++ toLe 8 t.res.memAct.toNat
        ++ toLe 8 t.res.memExp.toNat ++ toLe 4 t.res.failCount ++ toLe 4 t.res.firstFail))) s

/-- Conditions of MD_TEST and STACK_TEST (14 R487, R488). -/
def dieTestBad (d : Dev) (op : Nat) : Option MRes :=
  if d.mem.hbm.any (fun x => x.lost || x.testing) || mdTesting d then some (.no rInUse (Config.noField op rInUse))
  else if d.tensors.any (fun t => !t.2.parity) then some (.no rNotAllowed (Config.noField op rNotAllowed))
  else if 8 ≤ runningTickets d then some (.no rNoRoom (Config.noField op rNoRoom))
  else none

def execMdTest (m : Nat) (s : State) : Res :=
  eff (mbxRow m 0x0F07 (fun d c =>
    let k := fieldLe c 16 1
    if 6 ≤ k then .no rBadField 16
    else match dieTestBad d 0x0F07 with
      | some x => x
      | none => newTicket { kind := 8, phys := BitVec.ofNat 32 k, md := some k } d)) s

def execStackTest (m : Nat) (s : State) : Res :=
  eff (mbxRow m 0x0F08 (fun d c =>
    let k := fieldLe c 16 1
    if 24 ≤ k then .no rBadField 16
    else match dieTestBad d 0x0F08 with
      | some x => x
      | none =>
        let d := onStack k (fun x => { x with testing := true, state := 1, passed := false }) d
        newTicket { kind := 7, phys := BitVec.ofNat 32 k, stack := some k }
          { d with mem := { d.mem with restripes := restripeOrder d (restripable d k) } })) s

def execStackReturn (m : Nat) (s : State) : Res :=
  eff (mbxRow m 0x0F09 (fun d c =>
    let k := fieldLe c 16 1
    if 24 ≤ k then .no rBadField 16
    else if !(stack d k).testing || !(stack d k).passed then .no rNotAllowed 16
    else if 8 ≤ runningTickets d then .no rNoRoom (Config.noField 0x0F09 rNoRoom)
    else newTicket { kind := 7, phys := BitVec.ofNat 32 k, stack := some k, retire := true }
      { d with mem := { d.mem with
          returning := addNew d.mem.returning k
          restripes := restripeOrder d ((d.mem.regions.filter (fun r => r.2.parity && !r.2.onStacks.contains k)).map (·.1)) } })) s

/-- Every region that can lie on a returned stack does: the stack is in service again (14 R487). -/
def stackReturned (k : Nat) (d : Dev) : Dev :=
  onStack k (fun x => { x with testing := false, passed := false, state := 0 })
    { d with mem := { d.mem with returning := d.mem.returning.filter (· != k) } }

/-- Regions that STACK_RETURN still has to bring back. -/
def comingBack (d : Dev) (k : Nat) : Bool :=
  d.mem.restripes.any (fun r => !(region d r).onStacks.contains k && !(region d r).unplaced)

/-- A failed unit is retired and reported; a unit that passed becomes a holm (14 R486). -/
def unitEnds (kind phys : Nat) (ok : Bool) (cause : Nat) (d : Dev) : Dev :=
  let d := { d with units := { d.units with testing := d.units.testing.filter (fun x => x != (kind, BitVec.ofNat 32 phys)) } }
  let log := fun (d : Dev) => repairLog kind cause phys 0 0 d
  match kind with
  | 1 =>
    let u := (phys / 65536, phys % 65536)
    if ok then { d with units := { d.units with holms := addNew d.units.holms u } } else retirePhys u.1 u.2 cause 0 d
  | 2 =>
    if ok then { d with units := { d.units with ccHolms := addNew d.units.ccHolms phys } }
    else log { d with units := { d.units with ccRetired := addNew d.units.ccRetired phys } }
  | 3 =>
    let u := (phys / 2 ^ 24, phys / 256 % 65536)
    if ok then { d with units := { d.units with banksUsed := d.units.banksUsed.filter (fun x => x != u) } }
    else log { d with units := { d.units with banksUsed := addNew d.units.banksUsed u } }
  | 4 => if ok then d else log { d with units := { d.units with ruDown := addNew d.units.ruDown (phys / 256, phys % 256) } }
  | 5 =>
    let st := phys / 2 ^ 24
    let ln := phys / 65536 % 256
    let k := linkOf d st ln
    let d := setLink st ln { k with cls := k.cls.set (phys % 256) (if ok then 0 else 2) } d
    if ok then d else log d
  | _ => if ok then { d with units := { d.units with cwSpare := d.units.cwSpare.filter (fun x => x != (phys / 256, phys % 256)) } } else log d

/-- The slack moves logical numbers off the units of the tickets, and retires those of UNIT_RETIRE. -/
def ticketsAtSlack (d : Dev) : Dev :=
  d.units.tickets.foldl (fun d t =>
    if t.state != 0 || t.md.isSome || t.stack.isSome then d
    else
      let serving := ((unitUse d t.kind t.phys.toNat).map (·.1)).getD false
      let d := takeOut t.kind t.phys.toNat (if serving then moveOff t.kind t.phys.toNat d else d)
      if t.retire then
        let d := unitEnds t.kind t.phys.toNat false 3 d
        { d with units := { d.units with tickets := d.units.tickets.map (fun x => if x.id = t.id then { x with state := 1 } else x) } }
      else d) d

/-- A test's signatures are as expected. -/
def testPassed (r : TestResult) : Bool := r.logicAct == r.logicExp && r.memAct == r.memExp && r.failCount == 0

/-- The unit of a ticket still serves a logical number: its test has not begun. -/
def ticketServing (d : Dev) (t : Ticket) : Bool :=
  t.md.isNone && t.stack.isNone && ((unitUse d t.kind t.phys.toNat).map (·.1)).getD false

/-- UNIT_TEST_COMPLETE: the test of a ticket ends. -/
def execUnitTestComplete (ticket : Nat) (r : TestResult) (s : State) : Res :=
  eff (fun d =>
    match d.units.tickets.find? (fun t => t.id == ticket && t.state == 0) with
    | none => d
    | some t =>
      let ok := testPassed r
      let phys := t.phys.toNat
      let held := t.stack.any (fun k => if t.retire then comingBack d k else d.mem.regions.any (fun x => x.2.onStacks.contains k))
      if !firmwareRuns d || ticketServing d t || held then d
      else
        let d := { d with units := { d.units with tickets := d.units.tickets.map (fun x =>
          if x.id = ticket then { x with state := if ok || (t.stack.isSome && t.retire) then 1 else 2, res := r } else x) } }
        let d := match t.stack, t.md with
          | some k, _ =>
            if t.retire then stackReturned k d
            else if ok then onStack k (fun x => { x with passed := true }) d
            else logUnit 3 0x305 7 k k (onStack k (fun x => { x with lost := true, testing := false, state := 3 }) d)
          | none, some _ => d
          | none, none =>
            let d := unitEnds t.kind phys ok 2 d
            if ok then d else logUnit 3 0x0F03 t.kind 0xFFFFFFFF phys d
        logUnit 15 0x0F09 t.kind 0xFFFFFFFF phys d) s

/-! ### The repair log's commands (14 R477) -/

def logEntryBytes (e : LogEntry) : Bytes :=
  toLe 1 e.kind ++ toLe 1 e.cause ++ zeros 2 ++ toLe 4 e.phys.toNat ++ toLe 8 e.tide ++ toLe 4 e.start ++ toLe 4 e.code.toNat ++ toLe 8 e.sector.toNat

def execRepairLogRead (m : Nat) (s : State) : Res :=
  eff (mbxRow m 0x0F0A (fun d c =>
    let i := fieldLe c 16 4
    if d.flash.log.length < i then .no rBadField 16
    else
      let out := (d.flash.log.drop i).take 500
      .ok d (toLe 4 d.flash.log.length ++ toLe 4 out.length ++ (out.map logEntryBytes).flatten))) s

/-- The manufacturing lifecycle state (16 R529). -/
def manufacturing (f : Fuses) : Bool := !f.deployed && !f.returned

def execRepairLogClear (m : Nat) (s : State) : Res :=
  eff (mbxRow m 0x0F0B (fun d _ =>
    if manufacturing s.fuses then .ok { d with flash := { d.flash with log := [] } } []
    else .no rNotAllowed (Config.noField 0x0F0B rNotAllowed))) s

end Sys2Proof.Machine
end

