-- ==== Sys2Proof/Machine/Security.lean ====
section
/-! DEFINITION. Firmware authenticity, identity and attestation (16): the checks of an image, the measurements, the configuration
events, the SEC_ command interface and its commands. SLH-DSA and the random draws are constants of Config (log 35). -/
namespace Sys2Proof.Machine
open Sys2Proof

/-! ### Lifecycle, fuses, certificates (16 R529, R531, R533) -/

/-- Lifecycle state (16 Table 16-4). -/
def lifecycle (f : Fuses) : Nat := if f.returned then 3 else if f.deployed then 1 else 0

/-- Digest in a key-hash slot. -/
def keyHash (f : Fuses) (k : Nat) : Bytes := slice ((f.keyHash[k]?).getD []) 0 32

/-- Measurement i. -/
def measure (d : Dev) (i : Nat) : Bytes := slice ((d.sec.m[i]?).getD []) 0 32

def setMeasures (l : List Bytes) (d : Dev) : Dev := { d with sec := { d.sec with m := l } }

/-- The seed that key generation sees: zeros once erased (16 R530). -/
def seedOf (f : Fuses) : BitVec 384 := if f.seedErased then 0 else f.seed

/-- The fuse record of M2 (16 Table 16-6). -/
def fuseRecord (f : Fuses) (d : Dev) : Bytes :=
  toLe 8 d.serial.toNat ++ keyHash f 0 ++ keyHash f 1 ++ keyHash f 2 ++ toLe 1 f.revoked.toNat ++ toLe 1 f.floor ++ toLe 1 (lifecycle f) ++ zeros 53

/-- The identity certificate is present and names the derived key (16 R533). -/
def identityMatches (f : Fuses) (d : Dev) : Bool :=
  !d.flash.idCert.isEmpty && slice d.flash.idCert 32 32 == slice (Config.identityPublic (seedOf f)) 0 32

def attestPub (d : Dev) : Bytes :=
  match d.sec.attestKey with
  | some n => slice (Config.attestPublic n) 0 32
  | none => zeros 32

/-- The attestation certificate (16 Table 16-8). -/
def makeAttestCert (f : Fuses) (d : Dev) : Bytes :=
  let body := toLe 4 0x54524547 ++ toLe 2 1 ++ toLe 1 2 ++ zeros 1 ++ toLe 8 d.serial.toNat ++ toLe 4 d.flash.startCount.toNat ++ zeros 12
    ++ attestPub d ++ measure d 0 ++ measure d 1 ++ measure d 2
  body ++ slice (Config.identitySign (seedOf f) body) 0 7856

/-! ### Images (16 R525, R526) -/

/-- Reason of the first check that an image fails, 0 when it is accepted (16 Table 16-3). -/
def imageReason (f : Fuses) (d : Dev) : Nat :=
  let at_ := fun (o n : Nat) => ofLe (memRead d.brg.fwl o n)
  let len := at_ 12 4
  let slot := at_ 6 1
  let pub := memRead d.brg.fwl 32 64
  if at_ 0 4 ≠ 0x4D494647 ∨ at_ 4 2 ≠ 1 ∨ 1 < at_ 8 4 ∨ at_ 20 12 ≠ 0 then 1
  else if 96 + len + 29792 ≠ d.brg.fwLen.toNat then 2
  else if 2 < slot ∨ sha256 pub ≠ keyHash f slot then 3
  else if f.revoked.getLsbD slot then 4
  else if at_ 7 1 < f.floor then 5
  else if at_ 8 4 = 1 ∧ lifecycle f ≠ 0 then 6
  else if Config.slhVerify pub (memRead d.brg.fwl 0 (96 + len)) (memRead d.brg.fwl (96 + len) 29792) then 0
  else 7

/-- An accepted image: M0 to M2, the versions it serves, FWL_ locked, the payload handed over (16 R526, R531). -/
def acceptImage (f : Fuses) (d : Dev) : Dev :=
  let at_ := fun (o n : Nat) => ofLe (memRead d.brg.fwl o n)
  let m1 := sha256 (memRead d.brg.fwl 0 (96 + at_ 12 4))
  { d with
    brg := { d.brg with fwlLocked := true }
    sec := { d.sec with imageReason := 0, imageSlot := at_ 6 1, imageSvn := at_ 7 1, payload := true
                        major := BitVec.ofNat 16 (at_ 16 2), minor := BitVec.ofNat 16 (at_ 18 2)
                        m := [sha256 Config.bootRom, m1, sha256 (fuseRecord f d), zeros 32] } }

/-- The keys and the identity check of a start, when firmware begins (16 R523, R533; M3 is zeros, R531). -/
def startSecurity (f : Fuses) (d : Dev) : Dev :=
  let ok := identityMatches f d
  let d := takeFree 1 { d with sec := { d.sec with
    attestKey := some d.free, identityOk := ok, m := [measure d 0, measure d 1, measure d 2, zeros 32], nEvents := 0, events := [] } }
  if !ok && !d.flash.idCert.isEmpty then logRec { sev := 3, cls := 0x0904 } d else d

/-! ### Configuration events (16 R531, R532) -/

/-- One event into M3. -/
def chainEvent (e : Nat × Bytes) (d : Dev) : Dev :=
  let r := toLe 2 e.1 ++ zeros 2 ++ toLe 4 (tideNow d) ++ slice e.2 0 24
  let all := d.sec.events ++ [r]
  { d with sec := { d.sec with
      m := [measure d 0, measure d 1, measure d 2, sha256 (measure d 3 ++ r)]
      events := all.drop (all.length - 1024), nEvents := d.sec.nEvents + 1 } }

/-- The events of a tide, chained in the slack in the order of Table 16-7. -/
def chainEvents (d : Dev) : Dev :=
  let q := sortByKey (·.1) d.sec.queued
  q.foldl (fun d e => chainEvent e d) { d with sec := { d.sec with queued := [] } }

def fuseEvent (f : Fuses) (d : Dev) : Dev := noteEvent 6 (toLe 1 f.floor ++ toLe 1 f.revoked.toNat ++ toLe 1 (lifecycle f)) d

/-! ### The command interface (16 R535, R536) -/

/-- The response and the message of a finished command. -/
def secAnswer (reason off : Nat) (body : Bytes) (d : Dev) : Dev :=
  let b := toLe 1 (if reason = 0 then 0 else 0x30) ++ zeros 3 ++ toLe 4 (if reason = 0 then 0 else reason * 65536 + off % 65536)
    ++ toLe 4 body.length ++ zeros 4 ++ body
  let d := { d with sec := { d.sec with state := 2, rsp := memWrite d.sec.rsp 0 b } }
  if d.sec.enable then fire1 d.sec.vector.toNat d else d

def secOps : List Nat := [1, 2, 3, 4, 5, 6, 7]

/-- A write of SEC_CMD. -/
def secCmdWrite (op : BitVec 8) (d : Dev) : Dev :=
  if !(pf1Open d && clocksRun d && brgPassed d 8) then d
  else if d.sec.state = 1 then { d with sec := { d.sec with cmdLost := true } }
  else
    let d := { d with sec := { d.sec with state := 1, opcode := op } }
    if secOps.contains op.toNat then d else secAnswer rBadOpcode (Config.noField op.toNat rBadOpcode) [] d

/-- SEC_CMD: a write of an opcode. -/
def execSecCmd (op : BitVec 8) (s : State) : Res := eff (secCmdWrite op) s

/-- What a security command comes to. -/
inductive SRes where
  | done (f : Fuses) (d : Dev) (body : Bytes)
  | no (reason off : Nat)
  | wait

/-- A security command's row: it acts while it is the command in progress (log 9). -/
def secRow (op : Nat) (g : Fuses → Dev → SRes) (s : State) : Res :=
  let d := s.dev
  if clocksRun d && brgPassed d 8 && d.sec.state == 1 && d.sec.opcode.toNat == op then
    match g s.fuses d with
    | .done f d' body => .next { s with fuses := f, dev := secAnswer 0 0 body d' }
    | .no r off => .next (s.onDev (secAnswer r off []))
    | .wait => .next s
  else .next s

def notNow (op : Nat) : SRes := .no rNotAllowed (Config.noField op rNotAllowed)
def secReq (d : Dev) (off n : Nat) : Nat := ofLe (memRead d.sec.req off n)

def execGetIdentity (s : State) : Res :=
  secRow 1 (fun f d => if !d.sec.identityOk || lifecycle f == 3 then notNow 1 else .done f d (slice d.flash.idCert 0 7920)) s

def execGetAttestCert (s : State) : Res :=
  secRow 2 (fun f d => if lifecycle f == 3 then notNow 2 else if !d.sec.attestReady then .wait else .done f d d.sec.attestCert) s

/-- The report's body (16 Table 16-9). -/
def reportBody (f : Fuses) (d : Dev) : Bytes :=
  toLe 4 0x50545241 ++ toLe 2 1 ++ toLe 1 (lifecycle f) ++ zeros 1 ++ toLe 8 d.serial.toNat ++ memRead d.sec.req 0 32 ++ toLe 8 (tideNow d)
    ++ toLe 4 d.flash.startCount.toNat ++ toLe 4 d.sec.nEvents ++ toLe 1 f.floor ++ toLe 1 f.revoked.toNat ++ toLe 1 idNumv ++ toLe 1 d.sec.imageSvn
    ++ toLe 4 d.ophal.toNat ++ measure d 0 ++ measure d 1 ++ measure d 2 ++ measure d 3
    ++ toLe 8 (if d.pair.state = 0 then 0 else d.pair.partnerSerial.toNat) ++ attestPub d

def execAttest (s : State) : Res :=
  secRow 3 (fun f d =>
    if lifecycle f == 3 then notNow 3
    else if !d.sec.attestReady then .wait
    else match d.sec.attestKey with
      | none => .wait
      | some n => .done f d (reportBody f d ++ slice (Config.attestSign n (reportBody f d)) 0 17088)) s

def execConfigLog (s : State) : Res :=
  secRow 4 (fun f d =>
    let i := secReq d 0 4
    let n := d.sec.events.length
    if n < i then .no rBadField 0
    else
      let rs := (d.sec.events.drop i).take 1000
      .done f d (toLe 4 n ++ toLe 4 rs.length ++ (rs.map (fun r => slice r 0 32)).flatten)) s

/-- SVN_COMMIT: the floor rises to the running image's SVN; there are 64 counter fuses to blow (16 R524, R527). -/
def execSvnCommit (s : State) : Res :=
  secRow 5 (fun f d =>
    if min 64 d.sec.imageSvn ≤ f.floor then .done f d (toLe 1 f.floor)
    else
      let f := { f with floor := min 64 d.sec.imageSvn }
      .done f (fuseEvent f (logInfo 0x0901 f.floor d)) (toLe 1 f.floor)) s

/-- Revoking slot k would leave no unrevoked slot with a nonzero hash. -/
def lastSlot (f : Fuses) (k : Nat) : Bool :=
  !(List.range 3).any (fun j => j != k && !f.revoked.getLsbD j && !allZero (keyHash f j))

def execRevokeSlot (s : State) : Res :=
  secRow 6 (fun f d =>
    let k := secReq d 0 1
    if 2 < k then .no rBadField 0
    else if k = d.sec.imageSlot ∨ lastSlot f k = true then notNow 6
    else if f.revoked.getLsbD k then .done f d (toLe 1 f.revoked.toNat)
    else
      let f := { f with revoked := f.revoked ||| BitVec.ofNat 3 (2 ^ k) }
      .done f (fuseEvent f (logInfo 0x0902 k d)) (toLe 1 f.revoked.toNat)) s

def execLifecycleSet (s : State) : Res :=
  secRow 7 (fun f d =>
    let n := secReq d 0 1
    if !(n == 1 && lifecycle f == 0) && !(n == 3 && lifecycle f == 1) then .no rBadField 0
    else if n = 3 ∧ secReq d 4 4 ≠ d.serial.toNat % 2 ^ 32 then .no rBadField 4
    else if n = 1 ∧ d.sec.identityOk = false then notNow 7
    else if n = 1 then
      let f := { f with deployed := true }
      .done f (fuseEvent f (logInfo 0x0903 n d)) (toLe 1 (lifecycle f))
    else
      let f := { f with returned := true, seedErased := true }
      .done f (fuseEvent f (logInfo 0x0903 n { d with sec := { d.sec with attestKey := none } })) (toLe 1 (lifecycle f))) s

/-- The security engine has signed the attestation certificate after step 11 (16 R533). -/
def execAttestCertReady (s : State) : Res :=
  eff (fun d =>
    if clocksRun d && d.brg.ready && !d.sec.attestReady && d.sec.attestKey.isSome then
      { d with sec := { d.sec with attestReady := true, attestCert := makeAttestCert s.fuses d } }
    else d) s

end Sys2Proof.Machine
end

