-- ==== Sys2Proof/Machine/Bringup.lean ====
section
/-! DEFINITION. Bring-up (14): the power domains (R467 to R469), the steps of Table 14-4 (R470 to R477, 01 R20), the plan's load and
discovery (11 R381, R385, R386). What a step found in the hardware comes with the row that ends it (log 37). -/
namespace Sys2Proof.Machine
open Sys2Proof

/-! ### Power domains (14 R467 to R469) -/

/-- Group of a domain (14 Table 14-1). -/
def pdGroup (k : Nat) : Nat :=
  if k = 14 then 1 else if k = 16 then 2 else if k = 15 then 3 else if 6 ≤ k ∧ k ≤ 11 then 4 else if 17 ≤ k then 5 else if 12 ≤ k then 6 else 7

def pdGood (d : Dev) (k : Nat) : Bool := d.power.good.getLsbD k

/-- Every domain of the earlier groups reads GOOD. -/
def pdReady (d : Dev) (k : Nat) : Bool := (List.range 20).all (fun j => decide (pdGroup k ≤ pdGroup j) || pdGood d j)

/-- The next requested domain ramps, in group order and ascending number (14 R467). -/
def nextRamp (d : Dev) : Dev :=
  if d.power.ramping.isSome then d
  else
    let want := (List.range 20).filter (fun k => d.power.on.getLsbD k && !pdGood d k && pdReady d k && !d.power.fault.getLsbD k)
    match (sortByKey (fun k => pdGroup k * 32 + k) want).head? with
    | some k => { d with power := { d.power with ramping := some k } }
    | none => d

def setStep (n : Nat) (b : BringStep) (d : Dev) : Dev := { d with brg := { d.brg with steps := setAt d.brg.steps (n - 1) b } }

/-- A bring-up step begins. -/
def beginStep (n : Nat) (d : Dev) : Dev := setStep n { state := 1 } { d with brg := { d.brg with current := n } }

/-- A bring-up record: at once where firmware runs, else when it starts in step 8 (14 R471). -/
def brgRec (r : RasRec) (d : Dev) : Dev :=
  if brgPassed d 8 then logRec r d else { d with brg := { d.brg with waitRecs := d.brg.waitRecs ++ [r] } }

/-- Stacks whose die or stack I/O a power domain feeds (01 Table 1-1). -/
def domainStacks (k : Nat) : List Nat :=
  if 6 ≤ k ∧ k ≤ 11 then (List.range 4).map (4 * (k - 6) + ·)
  else if 17 ≤ k ∧ k ≤ 19 then (List.range 8).map (8 * (k - 17) + ·) else []

/-- A domain goes down before the module is ready: once step 6 has passed, its stacks are lost and reported (01 R14, 10 R335). -/
def stacksDown (k : Nat) (d : Dev) : Dev :=
  if brgPassed d 6 then
    ((domainStacks k).filter (fun j => !(stack d j).lost)).foldl (fun d j =>
      brgRec { sev := 3, cls := 0x305, unitKind := 7, logical := BitVec.ofNat 32 j, physical := BitVec.ofNat 32 j }
        (onStack j (fun x => { x with lost := true, state := 3 }) d)) d
  else d

/-- A write of PWR_CTL (14 R467, R468). -/
def pwrWrite (v : BitVec 32) (d : Dev) : Dev :=
  let on := (v.truncate 20) ||| 0x4000#20
  let set := (List.range 20).filter (fun k => on.getLsbD k && !d.power.on.getLsbD k)
  let clear := (List.range 20).filter (fun k => !on.getLsbD k && d.power.on.getLsbD k)
  if set.any (fun k => !pdReady d k) || (d.brg.ready && !clear.isEmpty) then { d with power := { d.power with orderErr := true } }
  else
    let off := BitVec.ofNat 20 (bitMask clear)
    let d := { d with power := { d.power with on := on, good := d.power.good &&& ~~~off
                                              ramping := if d.power.ramping.any clear.contains then none else d.power.ramping } }
    let d := clear.foldl (fun d k => stacksDown k d) d
    let d := if !set.isEmpty && brgState d 2 == 0 then beginStep 2 d else d
    nextRamp d

def execPwrCtlOn (v : BitVec 32) (s : State) : Res := eff (fun d => if pf1Up d then pwrWrite v d else d) s

def execPowerDomainGood (k : Nat) (s : State) : Res :=
  eff (fun d =>
    if isOn d && d.power.ramping == some k then
      nextRamp { d with power := { d.power with ramping := none, good := d.power.good ||| BitVec.ofNat 20 (2 ^ k) } }
    else d) s

/-! ### Steps (14 R470, R471) -/

/-- A step ends; a pass of step 10 starts step 11 (14 Table 14-4). -/
def endStep (n state cause detail elapsed : Nat) (d : Dev) : Dev :=
  let d := setStep n { state := state, cause := BitVec.ofNat 8 cause, elapsed := min elapsed 0xFFFF, detail := BitVec.ofNat 32 detail } d
  let ok := state = 2 ∨ state = 3
  let d := { d with brg := { d.brg with current := if d.brg.current = n then 0 else d.brg.current
                                        lastPassed := if ok then max d.brg.lastPassed n else d.brg.lastPassed } }
  let d := if state = 3 then brgRec { sev := 3, cls := 0x0F02, code := BitVec.ofNat 32 (n * 256 + cause) } d
    else if state = 4 then brgRec { sev := 4, cls := 0x0F01, code := BitVec.ofNat 32 (n * 256 + cause) } d else d
  if n = 10 ∧ ok then beginStep 11 d else d

def passStep (n elapsed : Nat) (d : Dev) : Dev := endStep n 2 0 0 elapsed d
def failStep (n cause detail elapsed : Nat) (d : Dev) : Dev := endStep n 4 cause detail elapsed d
def degradeStep (n cause elapsed : Nat) (d : Dev) : Dev := endStep n 3 cause 0 elapsed d

/-- A GO breaks R470. -/
def goBad (n : Nat) (d : Dev) : Bool :=
  !brgPassed d (n - 1) || (brgState d n != 0 && !(n == 7 && brgState d 7 == 4 && decide (d.brg.tries < 3)))

/-- A GO of step n. -/
def goStep (n : Nat) (f : Dev → Dev) (d : Dev) : Dev :=
  if !(pf1Up d && clocksRun d) then d
  else if goBad n d then { d with brg := { d.brg with orderErr := true } }
  else f (beginStep n d)

def goFuseLoad : Dev → Dev := goStep 3 id
/-- GO 4: every tested domain runs its BIST. -/
def tested : List Nat := List.range 14 ++ [15, 16]
def goBist : Dev → Dev :=
  goStep 4 (fun d => { d with brg := { d.brg with bstState := tested.foldl (fun l k => setAt l k 1) d.brg.bstState } })
def goImageVerify : Dev → Dev := goStep 7 (fun d => { d with brg := { d.brg with tries := d.brg.tries + 1 } })
def goLinkTraining : Dev → Dev := goStep 9 startLinks

def execBrgGoFuseLoad (s : State) : Res := eff goFuseLoad s
def execBrgGoBist (s : State) : Res := eff goBist s
def execBrgGoReconcile (s : State) : Res := eff (goStep 5 id) s
def execBrgGoHbmTraining (s : State) : Res := eff (goStep 6 id) s
def execBrgGoImageVerify (s : State) : Res := eff goImageVerify s
def execBrgGoControlCores (s : State) : Res := eff (goStep 8 id) s
def execBrgGoLinkTraining (s : State) : Res := eff goLinkTraining s

/-! ### Plan load (11 R381; 14 R472) -/

/-- The plan of the registers is checked and comes into force; the answer says why it was refused. -/
def loadPlan (d : Dev) : Dev × Nat :=
  let r := planRefuse d d.lnk.pos d.lnk.wrap d.lnk.dim d.lnk.partId d.tide.master d.tide.backup
  if r = 0 then (noteEvent 1 (planEvent d) (adoptPlan d), 0)
  else ({ d with lnk := { d.lnk with refuse := r, planState := 6 } }, r)

def step10Load (d : Dev) : Dev :=
  let x := loadPlan d
  if x.2 = 0 then x.1 else failStep 10 0x0A x.2 0 x.1

def goPlan : Dev → Dev := goStep 10 step10Load
/-- The spare path: step 10 passes without a plan (14 R472). -/
def goSpare : Dev → Dev := goStep 10 (fun d => passStep 10 0 { d with brg := { d.brg with sparePath := true } })

def execBrgGoPlan (s : State) : Res := eff goPlan s
def execBrgGoSpare (s : State) : Res := eff goSpare s

/-- A write of BRG_GO (14 Table 14-5). -/
def brgGoWrite (v : BitVec 32) (d : Dev) : Dev :=
  match v.toNat % 16 with
  | 3 => goFuseLoad d
  | 4 => goBist d
  | 5 => goStep 5 id d
  | 6 => goStep 6 id d
  | 7 => goImageVerify d
  | 8 => goStep 8 id d
  | 9 => goLinkTraining d
  | 10 => if v.getLsbD 8 then goSpare d else goPlan d
  | _ => d

/-- LNK_PLAN_CTL.LOAD: starts step 10, or loads in service (11 R383; 14 R470). -/
def planLoad (d : Dev) : Dev :=
  if !(pf1Open d && clocksRun d) then d
  else if brgState d 10 = 0 then goStep 10 step10Load d
  else if brgState d 10 = 4 ∨ (d.brg.sparePath && !d.lnk.planLoaded) = true then d
  else (loadPlan d).1

def execLnkPlanLoad (s : State) : Res := eff planLoad s

/-- The discovery deadline (11 R385; 14 R472). -/
def execDiscoveryDeadline (s : State) : Res :=
  eff (fun d =>
    if !(firmwareRuns d && d.lnk.planLoaded && (d.lnk.planState == 1 || d.lnk.planState == 2)) then d
    else
      let d := judgeStraits d
      if d.lnk.planState = 4 then
        let d := logUnit 15 0x408 12 (posWord d.lnk.pos) d.serial.toNat d
        if brgState d 10 = 1 then setStep 10 { state := 5 } d else d
      else d) s

/-- Straits in PLAN_MISMATCH. -/
def mismatched (d : Dev) : List Nat := (List.range 6).filter (fun s => d.lnk.missing.getLsbD s || d.lnk.wrong.getLsbD s)

/-- ACCEPT_DEGRADED (11 R386). -/
def acceptDegraded (d : Dev) : Dev :=
  if !(pf1Open d && firmwareRuns d && d.lnk.planState == 4) then d
  else
    let ss := mismatched d
    let d := ss.foldl (fun d st =>
      let d := setStrait st { straitOf d st with accepted := true, changed := true } d
      (List.range 4).foldl (fun d ln => if (linkOf d st ln).state = 6 ∨ (linkOf d st ln).state = 7 then darken st ln d else d) d) d
    let d := noteEvent 2 (toLe 1 (bitMask ss)) { d with lnk := { d.lnk with planState := 5 }, tide := { d.tide with treeStale := true } }
    if brgState d 10 = 5 then setStep 10 { state := 1 } { d with brg := { d.brg with current := 10 } } else d

def execAcceptDegraded (s : State) : Res := eff acceptDegraded s

/-! ### Reconciliation and binding (14 R474, R475; 01 R20) -/

def inLog (d : Dev) (kind phys : Nat) : Bool := d.flash.log.any (fun e => e.kind == kind && e.phys.toNat == phys)

/-- A unit that passed until now and fails its BIST: a new entry and a record (14 Table 14-6). -/
def newlyBad (kind phys : Nat) (d : Dev) : Dev :=
  brgRec { sev := 3, cls := 0x0F03, unitKind := kind, physical := BitVec.ofNat 32 phys } (repairLog kind 1 phys 0 0 d)

/-- Units of one kind that are good, in ascending order, with the new retirements entered. -/
def reconcile (kind : Nat) (all : List Nat) (fuseBad bistBad : Nat → Bool) (d : Dev) : Dev × List Nat × Bool :=
  let was := all.filter (fun p => !fuseBad p && !inLog d kind p)
  let fresh := was.filter bistBad
  (fresh.foldl (fun d p => newlyBad kind p d) d, was.filter (fun p => !bistBad p), !fresh.isEmpty)

/-- Logical cores bound to the lowest good cores of their clusters, then as R479 says; the flag says that one crossed. -/
def bindAll (good : List (Nat × Nat)) (d : Dev) : Dev × Bool :=
  let own := ((List.range 6).map (fun c =>
    let g := (good.filter (fun u => u.1 == c)).take 192
    (List.range g.length).filterMap (fun i => (g[i]?).map (fun u => (192 * c + i, u))))).flatten
  let used := own.map (·.2)
  let d := { d with units := { d.units with bind := own, holms := good.filter (fun u => !used.contains u), shared := [], fills := [] } }
  let left := (List.range numCores).filter (fun l => (aGet own l).isNone)
  (left.foldl (fun d l =>
    match richestCluster d with
    | some c =>
      match (freeHolms d c).head? with
      | some p => brgRec { sev := 2, cls := 0x0F05, unitKind := 1, logical := BitVec.ofNat 32 l, physical := BitVec.ofNat 32 (corePhys c p) }
          { d with units := { d.units with bind := aSet d.units.bind l (c, p), holms := d.units.holms.filter (fun h => h != (c, p)) } }
      | none => d
    | none =>
      let u := match leastLoaded d [clusterOf l] with
        | some u => some u
        | none => leastLoaded d (List.range 6)
      match u with
      | some u => brgRec { sev := 3, cls := 0x0F06, unitKind := 1, logical := BitVec.ofNat 32 l, physical := BitVec.ofNat 32 (corePhys u.1 u.2) }
          { d with units := { d.units with bind := aSet d.units.bind l u, shared := addNew d.units.shared l } }
      | none => d) d, !left.isEmpty)

/-- The bank that takes over a logical bank whose own is bad, in every engine with one: the ninth (05 R156). -/
def bindBanks (bad : List (Nat × Nat × Nat)) (d : Dev) : Dev :=
  { d with units := { d.units with
      banks := (bad.filter (fun x => decide (x.2.2 < 8))).map (fun x => (x.1, x.2.1, x.2.2, 8))
      bankDue := [], banksUsed := (bad.map (fun x => (x.1, x.2.1))).eraseDups } }

/-- Reduction units of a link die: bad ones give their numbers to the good ones above 31. -/
def bindRus (ld : Nat) (good : List Nat) (d : Dev) : Dev :=
  let need := (List.range 32).filter (fun k => !good.contains k)
  let have_ := good.filter (fun p => decide (32 ≤ p))
  { d with units := { d.units with
      ruDown := d.units.ruDown ++ ((List.range 36).filter (fun p => !good.contains p)).map (fun p => (ld, p))
      ruMap := d.units.ruMap ++ (need.zip have_).map (fun x => (ld, x.1, x.2)) } }

/-- Granules that the log retires stay retired (14 R474; 10 R342). -/
def retireLogged (d : Dev) : Dev :=
  (d.flash.log.filter (fun e => e.kind == 7 && (e.cause == 4 || e.cause == 5))).foldl (fun d e =>
    onStack e.phys.toNat (fun x => { x with retired := addNew x.retired (bitsOf e.sector.toNat 15 44) }) d) d

/-- Torus lanes of the log are failed lanes. -/
def retireLanes (d : Dev) : Dev :=
  (d.flash.log.filter (fun e => e.kind == 5)).foldl (fun d e =>
    let p := e.phys.toNat
    let st := p / 2 ^ 24
    let ln := p / 65536 % 256
    if 6 ≤ st ∨ 4 ≤ ln then d
    else setLink st ln { linkOf d st ln with cls := (linkOf d st ln).cls.set (p % 256) 2 } d) d

/-- A causeway lane that is bad at a start uses its group's spare, or halves its causeway (01 R17, R18). -/
def bindLanes (bad : List (Nat × Nat)) (d : Dev) : Dev :=
  bad.foldl (fun d x =>
    if d.units.cwSpare.contains x then d
    else if cwSpareFree d x.1 x.2 then { d with units := { d.units with cwSpare := d.units.cwSpare ++ [x] } }
    else { d with units := { d.units with cwHalf := addNew d.units.cwHalf x } }) d

def bankOf (p : Nat) : Nat × Nat × Nat := (p / 2 ^ 24, p / 256 % 65536, p % 256)
def coreOf (p : Nat) : Nat × Nat := (p / 65536, p % 65536)

/-- Step 5. -/
def step5 (f : Fuses) (rep : StepReport) (d : Dev) : Dev :=
  let b := d.brg
  match tested.find? (fun k => !((b.bstLogicOk[k]?).getD false && (b.bstMemOk[k]?).getD false)) with
  | some k => failStep 5 4 k rep.elapsed d
  | none =>
    if rep.logBad then failStep 5 6 0 rep.elapsed d
    else
      let old := f.bankBad ++ (d.flash.log.filter (fun e => e.kind == 3)).map (fun e => bankOf e.phys.toNat)
      let freshBanks := (b.bstBank.filter (fun x => !old.contains x)).eraseDups
      let d := freshBanks.foldl (fun d x => newlyBad 3 (x.1 * 2 ^ 24 + x.2.1 * 256 + x.2.2) d) d
      let bad := (old ++ freshBanks).eraseDups
      let all := ((List.range 6).map (fun c => (List.range physPerCluster).map (corePhys c))).flatten
      let cs := reconcile 1 all (fun p => f.coreBad.contains (coreOf p)) (fun p => b.bstCore.contains (coreOf p)) d
      let cores := (cs.2.1.map coreOf).filter (fun u => decide ((bad.filter (fun x => x.1 == u.1 && x.2.1 == u.2)).length ≤ 1))
      let ccs := reconcile 2 (List.range 16) (fun p => f.ccBad.getLsbD p) b.bstCc.contains cs.1
      let r0 := reconcile 4 (List.range 36) (fun p => f.ruBad0.getLsbD p) (fun p => b.bstRu.contains (0, p)) ccs.1
      let r1 := reconcile 4 ((List.range 36).map (256 + ·)) (fun p => f.ruBad1.getLsbD (p - 256)) (fun p => b.bstRu.contains (1, p - 256)) r0.1
      let d := r1.1
      if ccs.2.1.length < 8 then failStep 5 5 2 rep.elapsed d
      else
        let d := { d with units := { d.units with
          retired := (all.map coreOf).filter (fun u => !cores.contains u), ccIn := ccs.2.1.take 12, ccHolms := ccs.2.1.drop 12
          ccRetired := (List.range 16).filter (fun p => !ccs.2.1.contains p), ruDown := [], ruMap := [], cwSpare := [], cwHalf := [], cwDue := [] } }
        let x := bindAll cores d
        let d := bindRus 1 (r1.2.1.map (· - 256)) (bindRus 0 r0.2.1 (bindBanks bad x.1))
        let d := bindLanes (f.cwBad ++ (d.flash.log.filter (fun e => e.kind == 6)).map (fun e => (e.phys.toNat / 256, e.phys.toNat % 256))) d
        let d := retireLanes (retireLogged d)
        if x.2 then degradeStep 5 0x22 rep.elapsed d
        else if !freshBanks.isEmpty || cs.2.2 || ccs.2.2 || r0.2.2 || r1.2.2 then degradeStep 5 0x20 rep.elapsed d
        else passStep 5 rep.elapsed d

/-! ### The ends of the steps (14 Table 14-4) -/

/-- Step 3. -/
def step3 (f : Fuses) (rep : StepReport) (d : Dev) : Dev :=
  match rep.fuseBad with
  | some w => failStep 3 3 w rep.elapsed { d with brg := { d.brg with fusFailed := true } }
  | none => passStep 3 rep.elapsed { d with
      serial := f.serial, fuseIds := BitVec.ofNat 32 (f.subId.toNat * 65536 + f.subVendor.toNat)
      brg := { d.brg with fusLoaded := true, fusCorrected := rep.fuseCorrected } }

/-- Units of a domain that failed their BIST. -/
def unitsFailed (rep : StepReport) (k : Nat) : Nat :=
  if k < 6 then (rep.coreFail.filter (fun u => u.1 == k)).length + (rep.bankFail.filter (fun x => x.1 == k)).length
  else if k = 12 ∨ k = 13 then (rep.ruFail.filter (fun x => x.1 + 12 == k)).length
  else if k = 15 then rep.ccFail.length else 0

/-- Step 4. -/
def step4 (rep : StepReport) (d : Dev) : Dev :=
  let sig := fun (k : Nat) => (rep.sigs.find? (fun x => x.1 == k)).map (·.2)
  let on := tested.contains
  passStep 4 rep.elapsed { d with brg := { d.brg with
    bstState := (List.range 20).map (fun k => if on k then 2 else 0)
    bstLogicOk := (List.range 20).map (fun k => on k && (sig k).all (fun s => s.1 == s.2.1))
    bstMemOk := (List.range 20).map (fun k => on k && (sig k).all (fun s => s.2.2.1 == s.2.2.2))
    bstFailed := (List.range 20).map (unitsFailed rep)
    bstSigs := rep.sigs.foldl (fun l x => aSet l x.1 x.2) []
    bstCore := rep.coreFail, bstCc := rep.ccFail, bstRu := rep.ruFail, bstBank := rep.bankFail } }

/-- Step 6: at most one stack lost (10 R335); the stacks of a domain that is down are (01 R14). -/
def step6 (rep : StepReport) (d : Dev) : Dev :=
  let down := ((List.range 20).filter (fun k => !pdGood d k)).flatMap domainStacks
  let bad := sortByKey id (((rep.stacksBad ++ down).filter (fun k => decide (k < 24))).eraseDups)
  match bad with
  | [] => passStep 6 rep.elapsed d
  | [k] =>
    let d := onStack k (fun x => { x with lost := true, state := 3 }) d
    degradeStep 6 0x21 rep.elapsed (brgRec { sev := 3, cls := 0x305, unitKind := 7, logical := BitVec.ofNat 32 k, physical := BitVec.ofNat 32 k } d)
  | _ => failStep 6 7 (bitMask bad) rep.elapsed d

/-- Step 7 (16 R525, R526). -/
def step7 (f : Fuses) (rep : StepReport) (d : Dev) : Dev :=
  let r := imageReason f d
  if r = 0 then passStep 7 rep.elapsed (acceptImage f d)
  else failStep 7 8 r rep.elapsed { d with sec := { d.sec with imageReason := r } }

/-- Step 8: firmware starts, and writes the records of steps 1 to 7 (14 R471). -/
def step8 (f : Fuses) (rep : StepReport) (d : Dev) : Dev :=
  let run := (d.units.ccIn ++ d.units.ccHolms).filter (fun p => !rep.ccLoadFail.contains p)
  if run.length < 8 then failStep 8 9 run.length rep.elapsed d
  else
    let lost := (d.units.ccIn ++ d.units.ccHolms).filter rep.ccLoadFail.contains
    let waits := d.brg.waitRecs
    let d := { d with units := { d.units with ccIn := run.take 12, ccHolms := run.drop 12, ccRetired := d.units.ccRetired ++ lost }
                      brg := { d.brg with waitRecs := [] } }
    let d := lost.foldl (fun d p => repairLog 2 2 p 0 0 d) d
    let bad := rep.coreLoadFail.filter (fun u => decide (u.1 < 6) && decide (u.2 < physPerCluster) && !d.units.retired.contains u)
    let d := startSecurity f (waits.foldl (fun d r => logRec r d) d)
    let d := bad.foldl (fun d u => coreLost u.1 u.2 0 d) d
    if bad.isEmpty then passStep 8 rep.elapsed d else degradeStep 8 0x20 rep.elapsed d

def linkSettled (n : Nat) : Bool := n == 6 || n == 7 || n == 8 || n == 10
def allSettled (d : Dev) : Bool := (List.range 24).all (fun i => linkSettled (linkOf d (i / 4) (i % 4)).state)

/-- Step 10: the plan is in force and the tide is locked, or runs on the master. -/
def step10 (rep : StepReport) (d : Dev) : Dev :=
  let locked := d.tide.locked || (d.tide.run && d.tide.roleNow == 1)
  if !locked then d
  else if d.lnk.planState = 3 then passStep 10 rep.elapsed d
  else if d.lnk.planState = 5 then degradeStep 10 0x23 rep.elapsed d
  else d

/-- Step 11: the device is ready (01 R27). -/
def step11 (rep : StepReport) (d : Dev) : Dev :=
  passStep 11 rep.elapsed { d with
    ophal := BitVec.ofNat 32 (d.sec.major.toNat * 65536 + d.sec.minor.toNat), brg := { d.brg with ready := true, firstReady := true } }

/-- BRINGUP_STEP_DONE: a running step finishes its work; a step whose condition of Table 14-4 does not hold goes on. -/
def stepDone (f : Fuses) (n : Nat) (rep : StepReport) (d : Dev) : Dev :=
  if !(clocksRun d && brgState d n == 1) then d
  else match n with
    | 2 => if d.power.good = 0xFFFFF#20 then passStep 2 rep.elapsed d else d
    | 3 => step3 f rep d
    | 4 => step4 rep d
    | 5 => step5 f rep d
    | 6 => step6 rep d
    | 7 => step7 f rep d
    | 8 => step8 f rep d
    | 9 => if allSettled d then passStep 9 rep.elapsed d else d
    | 10 => step10 rep d
    | 11 => step11 rep d
    | _ => d

def execBringupStepDone (n : Nat) (rep : StepReport) (s : State) : Res := eff (stepDone s.fuses n rep) s

/-- Links of the first strait that is late in step 9. -/
def lateLinks (d : Dev) : Nat :=
  let late := fun (st : Nat) => (List.range 4).filter (fun ln => !linkSettled (linkOf d st ln).state)
  match (List.range 6).find? (fun st => !(late st).isEmpty) with
  | some st => bitMask (late st)
  | none => 0

/-- Milliseconds after which a step times out (14 Table 14-4). -/
def stepLimit (n : Nat) : Nat :=
  match n with
  | 2 => 5 | 3 => 10 | 4 => 3000 | 5 => 200 | 6 => 1500 | 7 => 2000 | 8 => 500 | 9 => 15000 | _ => 1000

/-- BRINGUP_STEP_TIMEOUT. -/
def stepTimeout (n : Nat) (mask : BitVec 32) (d : Dev) : Dev :=
  if !(isOn d && brgState d n == 1) then d
  else match n with
    | 2 => failStep 2 2 mask.toNat (stepLimit 2) { d with power := { d.power with fault := d.power.fault ||| mask.truncate 20, ramping := none } }
    | 4 =>
      let ks := tested.filter (fun k => mask.getLsbD k)
      failStep 4 1 mask.toNat (stepLimit 4) { d with brg := { d.brg with bstState := ks.foldl (fun l k => setAt l k 3) d.brg.bstState } }
    | 9 => failStep 9 1 (lateLinks d) (stepLimit 9) d
    | 10 => if d.lnk.planState = 3 ∨ d.lnk.planState = 5 then failStep 10 0x0B 0 (stepLimit 10) d else d
    | _ => failStep n 1 mask.toNat (stepLimit n) d

def execBringupStepTimeout (n : Nat) (mask : BitVec 32) (s : State) : Res := eff (stepTimeout n mask) s

/-- A write of the firmware window: whole words, until step 7 passes (14 R473; 15 R501). -/
def writeFwl (off : Nat) (bytes : Bytes) (d : Dev) : Dev :=
  if pf1Open d && !d.brg.fwlLocked && decide (off % 4 = 0) && decide (bytes.length % 4 = 0) && decide (off + bytes.length ≤ 16777216) then
    { d with brg := { d.brg with fwl := memWrite d.brg.fwl off bytes } }
  else d

/-- FWL_WRITE. -/
def execFwlWrite (off : Nat) (bytes : List (BitVec 8)) (s : State) : Res := eff (writeFwl off bytes) s

/-! ### Loss of a domain in service (14 R469) -/

/-- What a lost domain takes with it (14 Table 14-2). -/
def domainLost (k : Nat) (d : Dev) : Dev :=
  if k < 6 then
    let idle := (List.range physPerCluster).filter (fun p => d.units.holms.contains (k, p))
    let all := idle ++ (List.range physPerCluster).filter (fun p => !idle.contains p)
    all.foldl (fun d p => coreLost k p 0 d) d
  else if 6 ≤ k ∧ k ≤ 11 ∨ 17 ≤ k then
    let d := (domainStacks k).foldl (fun d j => stackLost j d) d
    if d.lnk.announced.contains d.lnk.pos then d else announceFailed 0x0F0B d
  else if k = 12 ∨ k = 13 then
    let ld := k - 12
    let d := { d with units := { d.units with ruDown := ((List.range 36).map (fun p => (ld, p))).foldl addNew d.units.ruDown } }
    [ld, ld + 2, ld + 4].foldl (fun d st => (List.range 4).foldl (fun d ln => linkFailed st ln 1 (linkDown st ln 1 d)) d) d
  else d

def execPowerDomainFault (k : Nat) (s : State) : Res :=
  eff (fun d =>
    if !(isOn d && decide (k < 20) && pdGood d k) then d
    else
      let bit := BitVec.ofNat 20 (2 ^ k)
      let cut := fun (d : Dev) => { d with power := { d.power with fault := d.power.fault ||| bit, good := d.power.good &&& ~~~bit } }
      if !(d.brg.ready && firmwareRuns d) then stacksDown k (cut d)
      else
        let sev := if k < 6 ∨ k = 12 ∨ k = 13 then 3 else 4
        let rec_ : RasRec := { sev := sev, cls := 0x0F0B, code := BitVec.ofNat 32 k }
        let unit_ := if k < 6 then { rec_ with unitKind := 11, logical := BitVec.ofNat 32 k, physical := BitVec.ofNat 32 k }
          else if 6 ≤ k ∧ k ≤ 11 then { rec_ with unitKind := 8, logical := BitVec.ofNat 32 (k - 6), physical := BitVec.ofNat 32 (k - 6) } else rec_
        cut (domainLost k (logRec unit_ d))) s

end Sys2Proof.Machine
end

