-- ==== Sys2Proof/Machine/ItemRows.lean ====
section
/-! DEFINITION. Compute and transfer items (03 R96 to R98, Table 3-14; 06 R185; 10 Table 10-2) and the expiry of an item's
budget (03 R96, 08 R275). A transfer's row moves its whole length in the working window in which it stands (log 29). -/
namespace Sys2Proof.Machine
open Sys2Proof

/-! ### Compute items -/

/-- The instances of a RUN item at its admission (03 R97, 06 R185). -/
def runSetup (d : Dev) (it : Item) : Item :=
  let p := (aGet d.programs (hIdx it.object)).getD {}
  { it with insts := (List.range (it.arg1.toNat % 2 ^ 32)).map (fun i => (i, ({ next := p.entry, fresh := it.admTide } : Inst))) }

/-- Every instance has ended. -/
def runOver (it : Item) : Bool := it.insts.all (fun i => i.2.next == 0xFFFF)

/-- RUN: the item's work is over when its last instance ends. -/
def execRun (slot seq : Nat) (s : State) : Res :=
  eff (fun d =>
    match findItem d slot seq with
    | none => d
    | some it => if itemWorks d it 1 1 && runOver it then setItem { it with work := true } d else d) s

/-! ### Transfers -/

/-- Range checks of a tensor side: offset field, offset, length (03 after R96). -/
def rangeBad (d : Dev) (h : BitVec 64) (offAt off len : Nat) : Option (Nat × Nat) :=
  let t := (aGet d.tensors (hIdx h)).getD {}
  let es := max (fmtBytes t.fmt) 1
  if off % es ≠ 0 ∨ tBytes t ≤ off then some (rBadField, offAt)
  else if len % es ≠ 0 then some (rBadField, 40)
  else if tBytes t < off + len then some (rBadField, 40)
  else none

/-- The tensor is a working copy, which every transfer is refused on (09 R291). -/
def isWorking (d : Dev) (h : BitVec 64) : Bool := ((aGet d.tensors (hIdx h)).map (·.workingOf.isSome)).getD false

/-- Checks of a transfer's operation fields (03 R98, Table 3-14; 09 R291). -/
def transferBad (d : Dev) (it : Item) : Option (Nat × Nat) :=
  let secured := fun h => ((aGet d.tensors (hIdx h)).map tSecured).getD false
  if isWorking d it.object then some (rNotAllowed, 16)
  else if it.op = 3 then
    if isWorking d it.arg0 || secured it.arg0 then some (rNotAllowed, 24)
    else match rangeBad d it.object 32 it.arg1.toNat it.arg2.toNat with
      | some x => some x
      | none => rangeBad d it.arg0 48 it.arg3.toNat it.arg2.toNat
  else if it.op = 1 ∧ secured it.object = true then some (rNotAllowed, 16)
  else if it.arg0.toNat % 64 ≠ 0 then some (rBadAddress, 24)
  else rangeBad d it.object 32 it.arg1.toNat it.arg2.toNat

/-- A transfer row: `f` moves the bytes and names the tensor that failed. -/
def transferRow (slot seq op : Nat) (f : Dev → Item → Dev × Option Nat) (d : Dev) : Dev :=
  match findItem d slot seq with
  | none => d
  | some it =>
    if itemWorks d it 3 op && (op == 3 || pf0Requests d) then
      let r := f d it
      match r.2 with
      | some t => finishItem it.order 0x12 t r.1
      | none => finishItem it.order 0 0 { r.1 with items := aMod r.1.items it.order (fun i => { i with progress := it.arg2.toNat }) }
    else d

/-- Bytes of a tensor's committed epoch, or none on a bus error. -/
def execHostToTensor (slot seq : Nat) (s : State) : Res :=
  eff (transferRow slot seq 1 (fun d it =>
    let w := writeTensor (hIdx it.object) it.arg1.toNat (hostRead d it.arg0.toNat it.arg2.toNat) d
    (w.1, if w.2 then none else some (hIdx it.object)))) s

def execTensorToHost (slot seq : Nat) (s : State) : Res :=
  eff (transferRow slot seq 2 (fun d it =>
    let r := readTensor (hIdx it.object) it.arg1.toNat it.arg2.toNat d
    match r.2 with
    | some b => (hostWrite it.arg0.toNat b r.1, none)
    | none => (r.1, some (hIdx it.object)))) s

def execTensorToTensor (slot seq : Nat) (s : State) : Res :=
  eff (transferRow slot seq 3 (fun d it =>
    let r := readTensor (hIdx it.object) it.arg1.toNat it.arg2.toNat d
    match r.2 with
    | some b =>
      let w := writeTensor (hIdx it.arg0) it.arg3.toNat b r.1
      (w.1, if w.2 then none else some (hIdx it.arg0))
    | none => (r.1, some (hIdx it.object)))) s

/-! ### Budgets -/

/-- The budget of an item: a solver item takes its plan's where its own is 0 (03 R96, 08 R275). -/
def itemBudget (d : Dev) (it : Item) : Nat :=
  if it.kind = 2 ∧ it.budget = 0 then (planOfObj (itemPlan d it)).budget else it.budget

/-- The item's last tide has come. -/
def budgetDue (d : Dev) (it : Item) : Bool :=
  it.stage == .admitted && itemBudget d it != 0 && decide (it.admTide + itemBudget d it ≤ d.tide.count + 1)

/-- Cause of the expiry: BUDGET, or THROTTLED where a throttle acted on a cluster that held an unfinished problem (08 R275). -/
def budgetCause (it : Item) : Nat := if it.probs.any (fun p => p.2.word.isNone && p.2.throttled) then 2 else 4

/-- The core whose loss stopped a problem that no holm took over (08 R276). -/
def lostProblem (it : Item) : Option Nat := it.probs.findSome? (fun p => if p.2.word.isNone then p.2.lost else none)

/-- The item fails by its budget unless its work is over: FAILED_UNIT where no holm took a problem over (08 R276). -/
def expireBudget (it : Item) (d : Dev) : Dev :=
  if budgetDue d it && !it.work then
    match lostProblem it with
    | some l => finishItem it.order 0x15 (65536 + l) d
    | none => finishItem it.order 0x11 (budgetCause it * 65536 + 0xFFFF) d
  else d

def execItemBudgetExpiry (slot seq : Nat) (s : State) : Res :=
  eff (fun d =>
    match findItem d slot seq with
    | none => d
    | some it => if clocksRun d && serves d && d.tide.phase != .work then expireBudget it d else d) s

end Sys2Proof.Machine
end

