-- ==== Sys2Proof/Machine/Freeze.lean ====
section
/-! DEFINITION. Freeze and readout (14 R491 to R495, Tables 14-14 to 14-16), the JTAG instructions, and how markers leave the module
(11 R361, Table 11-4). -/
namespace Sys2Proof.Machine
open Sys2Proof

/-! ### Markers (11 R361) -/

/-- The fields that every marker of this module carries (11 Table 11-4). -/
def bareMarker (d : Dev) : Marker :=
  { dist := d.tide.dist, partId := d.lnk.partId, src := d.lnk.pos, role := d.tide.roleNow, tide := d.tide.count }

/-- A marker on every ACTIVE link of the straits. -/
def sendMarker (kind : Nat) (mk : Marker) (sts : List Nat) (d : Dev) : Dev :=
  sts.foldl (fun d st => (activeLinks d st).foldl (fun d ln => send (.marker kind st ln mk) d) d) d

/-! ### Freezing (14 R491, R492) -/

/-- Every clock that a freeze stops is stopped. -/
def freezeNow (source : Nat) (late partition : Bool) (d : Dev) : Dev :=
  takeFree 1 { d with frz := { d.frz with
    frozen := true, source := source, late := late, tide := BitVec.ofNat 64 (tideNow d), due := none, partition := partition, holdEdge := false } }

/-- FREEZE markers with FREEZE_TIDE two tides ahead. -/
def freezeMarkers (d : Dev) : Dev :=
  let t := d.tide.count + 2
  sendMarker 4 { bareMarker d with freezeTide := t } (List.range 6) { d with lnk := { d.lnk with freezeSeen := addNew d.lnk.freezeSeen t } }

/-- A release (14 R493, R494): the acting master resumes at once; a member of a partition freeze holds for its parent's EDGE; a
module frozen alone holds for good. -/
def release (d : Dev) : Dev :=
  let master := d.frz.partition && (d.tide.roleNow == 1 || d.tide.roleNow == 3)
  logRec { sev := 15, cls := 0x0F0C } { d with frz := { d.frz with
    frozen := false, holdEdge := !master, partition := d.frz.partition && !master } }

/-- A write of FRZ_CTL (14 Table 14-16). -/
def frzCtlWrite (v : BitVec 32) (d : Dev) : Dev :=
  let d := if v.getLsbD 4 = d.frz.jtagEn then d else noteEvent 5 (toLe 1 (b2n (v.getLsbD 4))) d
  let d := { d with frz := { d.frz with
    jtagEn := v.getLsbD 4, pinEnable := v.getLsbD 3, pinPropagate := v.getLsbD 2, propagate := v.getLsbD 1 } }
  if d.frz.frozen then (if v.getLsbD 8 then release d else d)
  else if !v.getLsbD 0 then d
  else if d.frz.propagate && d.tide.run then
    let d := freezeMarkers d
    { d with frz := { d.frz with due := some (d.tide.count + 2), dueSource := 2, partition := true } }
  else freezeNow 2 false false d

def execFrzFreezeWrite (v : BitVec 32) (s : State) : Res := eff (fun d => if pf1Up d && v.getLsbD 0 then frzCtlWrite v d else d) s
def execFrzRelease (v : BitVec 32) (s : State) : Res := eff (fun d => if pf1Up d && v.getLsbD 8 then frzCtlWrite v d else d) s

/-- FREEZE_N falls: the module stops at once, and the partition follows where PIN_PROPAGATE is set. -/
def execFreezeNFall (s : State) : Res :=
  eff (fun d =>
    if !(isOn d && d.frz.pinEnable && !d.frz.frozen) then d
    else if d.frz.pinPropagate && d.tide.run then freezeNow 1 false true (freezeMarkers d)
    else freezeNow 1 false false d) s

/-- A FREEZE marker with an unseen FREEZE_TIDE: relayed, and obeyed at its edge or at once when that has passed (14 R492). -/
def execFreezeMarker (st ln : Nat) (mk : Marker) (s : State) : Res :=
  eff (fun d =>
    if !(clocksRun d && decide (st < 6) && decide (ln < 4) && (linkOf d st ln).state == 7 && mk.partId == d.lnk.partId)
      || d.lnk.freezeSeen.contains mk.freezeTide then d
    else
      let d := { d with lnk := { d.lnk with freezeSeen := addNew d.lnk.freezeSeen mk.freezeTide } }
      let d := sendMarker 4 { bareMarker d with freezeTide := mk.freezeTide } (List.range 6) d
      if mk.freezeTide ≤ d.tide.count then freezeNow 3 true true d
      else { d with frz := { d.frz with due := some mk.freezeTide, dueSource := 3, partition := true } }) s

/-- The edge that begins FREEZE_TIDE is reached. -/
def execFreezeTideReached (s : State) : Res :=
  eff (fun d =>
    match d.frz.due with
    | some t => if clocksRun d && decide (t ≤ d.tide.count) then freezeNow d.frz.dueSource false true d else d
    | none => d) s

/-! ### Readout (14 R495; log 36) -/

/-- A byte of FRZ_DATA: of the frozen state, 0 beyond LEN and while the device runs. -/
def frzData (d : Dev) (sel off : BitVec 32) (i : Nat) : BitVec 8 :=
  let o := off.toNat / 32768 * 32768 + i
  if d.frz.frozen && decide (o < Config.frozenLen sel) then Config.frozenByte d.free sel o else 0

/-- FRZ_ACCESS and FRZ_FREEZE are available (14 Table 14-15). -/
def jtagOpen (f : Fuses) (d : Dev) : Bool := manufacturing f || f.returned || d.frz.jtagEn

/-- A JTAG instruction with the data it shifts out. -/
def jtag (code : BitVec 8) (bs : Bytes) (d : Dev) : Dev := { d with out := { d.out with ir := code, rdBytes := bs } }

def execFrzAccess (sel off : BitVec 32) (s : State) : Res :=
  eff (fun d =>
    if !d.tel.powered then d
    else if jtagOpen s.fuses d then
      jtag 0x10 (toLe 4 sel.toNat ++ toLe 4 off.toNat ++ (List.range 32768).map (frzData d sel off)) { d with frz := { d.frz with sel := sel, off := off } }
    else jtag 0xFF [] d) s

def execFrzFreeze (s : State) : Res :=
  eff (fun d =>
    if !d.tel.powered then d
    else if !jtagOpen s.fuses d then jtag 0xFF [] d
    else if isOn d && !d.frz.frozen then jtag 0x11 [] (freezeNow 2 false false d)
    else jtag 0x11 [] d) s

def execIdcode (s : State) : Res := eff (fun d => if d.tel.powered then jtag 0x01 (toLe 4 0xA47182A7) d else d) s
def execSample (s : State) : Res :=
  eff (fun d => if d.tel.powered then takeFree 1 (jtag 0x02 (Config.boundary d.free) d) else d) s
def execBypass (_code : BitVec 8) (s : State) : Res := eff (fun d => if d.tel.powered then jtag 0xFF [] d else d) s

end Sys2Proof.Machine
end

