-- ==== Sys2Proof/Machine/Tide.lean ====
section
/-! DEFINITION. The tide generator (02): its control registers' rows, markers and their tree (R37 to R42), the vote wave and its
decision (R55 to R60), rate changes and replans (R65, R66), the latch guard and the tide edge (R43, R62). -/
namespace Sys2Proof.Machine
open Sys2Proof

/-! ### Registers (02 Tables 2-6 to 2-17) -/

/-- TID_COUNT_LO: the read captures the high word (02 R68). -/
def execTidCountLoRead (s : State) : Res :=
  eff (fun d =>
    if pf0Up d then
      { d with tide := { d.tide with countHi := BitVec.ofNat 32 (d.tide.count / 2 ^ 32) }
               out := { d.out with rd := BitVec.ofNat 64 (d.tide.count % 2 ^ 32), cpl := 1 } }
    else { d with out := { d.out with cpl := 0 } }) s

/-- The module sets the tide: master, or backup acting as master. -/
def acts (d : Dev) : Bool := d.tide.roleNow == 1 || d.tide.roleNow == 3

/-- EDGE markers of this tide: the setting in force, or the one announced in this tide (02 R65, 11 Table 11-4). -/
def edgeMarkers (d : Dev) : Dev :=
  let m := bareMarker d
  let m : Marker := match d.tide.announced with
    | some a => if a.tide = d.tide.count + 2 then { m with rate := a.rate, slack := a.slack, announce := true }
                else { m with rate := d.tide.rate, slack := d.tide.slack }
    | none => { m with rate := d.tide.rate, slack := d.tide.slack }
  sendMarker 1 m (List.range 6) d

/-- The tide generator starts (02 Tables 2-11 and 2-13); ROLE 0b11, to which the table gives no meaning, is taken as follower
(log 49). -/
def tideStart (d : Dev) : Dev :=
  let role : BitVec 2 := if d.tide.roleCtl = 3 then 0 else d.tide.roleCtl
  let d := { d with tide := { d.tide with
    run := true, phase := .work, roleNow := role, acting := d.tide.master, missed := 0, markerSeen := false, edgeTaken := false
    count := if role = 1 then d.tide.start.toNat else d.tide.count } }
  let d := remakeTree d
  if acts d then edgeMarkers d else d

/-- What an RWL register holds once the generator stops (02 R63). -/
def rwlStop (r : RwlReg) : RwlReg := let v := r.late.getD r.staged; { active := v, staged := v, late := none }

/-- Every RWL register of the device. -/
def eachRwl (f : RwlReg → RwlReg) (d : Dev) : Dev :=
  { d with
    tide := { d.tide with voteCfg := f d.tide.voteCfg }
    mem := { d.mem with ctl := f d.mem.ctl, scrubRate := f d.mem.scrubRate, hotCfg := f d.mem.hotCfg }
    tel := { d.tel with cap := f d.tel.cap } }

/-- PF0 answers again at the end of the slack that applied its reset (15 R512). -/
def edgeAnswer (d : Dev) : Dev := if d.rst.applied then { d with rst := { d.rst with pending := false, applied := false } } else d

/-- The tide generator stops. -/
def tideStop (d : Dev) : Dev :=
  edgeAnswer <| eachRwl rwlStop { d with tide := { d.tide with
    run := false, phase := .work, locked := false, holdover := false, announced := none, ratePending := false
    adoptCount := none, replanNew := none, missed := 0 } }

/-- An RWS write in the running TID_ block is rejected (02 R64). -/
def rejectTid (off : Nat) (d : Dev) : Dev := logInfo 0x0001 (0x28000 + off) { d with tide := { d.tide with writeRejected := true } }

/-- A write of TID_CTL (02 Table 2-11). -/
def tidCtlWrite (v : BitVec 32) (d : Dev) : Dev :=
  let d := if v.getLsbD 31 then { d with tide := { d.tide with writeRejected := false } } else d
  let ref := v.getLsbD 3
  let role := v.extractLsb' 1 2
  let d := if ref = d.tide.refSel ∧ role = d.tide.roleCtl then d
    else if d.tide.run then rejectTid 0 d
    else { d with tide := { d.tide with refSel := ref, roleCtl := role } }
  if v.getLsbD 0 && !d.tide.run then tideStart d
  else if !v.getLsbD 0 && d.tide.run && d.chans.isEmpty then tideStop d
  else d

def execTidCtlRunStart (v : BitVec 32) (s : State) : Res :=
  eff (fun d => if pf1Open d && clocksRun d && v.getLsbD 0 then tidCtlWrite v d else d) s
def execTidCtlRunStop (v : BitVec 32) (s : State) : Res :=
  eff (fun d => if pf1Open d && clocksRun d && !v.getLsbD 0 then tidCtlWrite v d else d) s

/-! ### Rate changes (02 R65) -/

/-- Working window in core cycles at `mhz` under a setting (02 R36). -/
def windowAt (mhz rate slack : Nat) : Nat := mhz * (2000000 - 500 * slack * rate) / (1000 * rate)

/-- Why a tide setting is refused: 3 range, 4 segment, 5 vote; 0 where it is taken. -/
def rateRefuse (d : Dev) (rate slack : Nat) : Nat :=
  if !settingOk rate slack then 3
  else if d.programs.any (fun p => p.2.segs.any (fun g => decide (windowAt 1750 rate slack < g.bound))) then 4
  else if !closeFits d.tide.depth rate slack then 5
  else 0

/-- A write of TID_RATE_REQ (02 Table 2-14): refused whole on a module that is not the acting master. A second GO while a
change is pending replaces the master's announcement (log 49). -/
def rateReqWrite (v : BitVec 32) (d : Dev) : Dev :=
  let rate := (v.extractLsb' 0 6).toNat
  let slack := (v.extractLsb' 8 5).toNat
  if !acts d then { d with tide := { d.tide with rateState := 6 } }
  else if !v.getLsbD 31 then { d with tide := { d.tide with reqRate := rate, reqSlack := slack } }
  else
    let d := { d with tide := { d.tide with reqRate := rate, reqSlack := slack } }
    let r := rateRefuse d rate slack
    if r ≠ 0 then { d with tide := { d.tide with rateState := r } }
    else
      let t := d.tide.count + 2
      edgeMarkers { d with tide := { d.tide with
        announced := some { rate := rate, slack := slack, tide := t }, ratePending := true, rateState := 1
        applyTide := BitVec.ofNat 24 t } }

def execTidRateReqGo (v : BitVec 32) (s : State) : Res :=
  eff (fun d => if pf1Open d && clocksRun d && v.getLsbD 31 then rateReqWrite v d else d) s

/-- The announced setting applies from the edge that starts tide a + 2 (02 R65). -/
def applyRate (d : Dev) : Dev :=
  match d.tide.announced with
  | some a =>
    if a.tide ≤ d.tide.count then
      noteEvent 7 (toLe 1 a.rate ++ toLe 1 a.slack) { d with tide := { d.tide with
        rate := a.rate, slack := a.slack, announced := none, ratePending := false
        rateState := if d.tide.rateState = 1 then 2 else d.tide.rateState } }
    else d
  | none => d

/-- RATE_CHANGE_APPLY: TIDE_EDGE applies the same where the edge comes first. -/
def execRateChangeApply (s : State) : Res :=
  eff (fun d => if clocksRun d && d.tide.run then applyRate d else d) s

/-! ### Replans (02 R66) -/

/-- Why a replan is refused: 3 POSITION, 4 TIDE, 5 DEPTH, 6 VOTE; 1 where it is taken. -/
def replanRefuse (d : Dev) : Nat :=
  let m := d.tide.replanMaster
  let t := d.tide.replanTide.toNat
  if !inPart d m || !inPart d d.tide.replanBackup || m == d.tide.replanBackup then 3
  else if t < d.tide.count + 2 ∨ d.tide.count + 65536 < t then 4
  else if 186 < depthOf d.lnk.wrap d.lnk.dim m then 5
  else if !closeFits (depthOf d.lnk.wrap d.lnk.dim m) d.tide.rate d.tide.slack then 6
  else 1

/-- A write of TID_REPLAN_CTL with GO: an accepted request is latched whole; a refused one leaves an earlier one in force
(log 49). -/
def replanGo (d : Dev) : Dev :=
  if !d.tide.run then d
  else
    let r := replanRefuse d
    { d with tide := { d.tide with
      replanState := r
      replanNew := if r = 1 then some (d.tide.replanMaster, d.tide.replanBackup, d.tide.replanTide.toNat) else d.tide.replanNew } }
def execTidReplanGo (s : State) : Res := eff (fun d => if pf1Open d && clocksRun d then replanGo d else d) s

/-- The named tide begins: the new master, backup and tree are in force, and roles change (02 R66). -/
def applyReplan (d : Dev) : Dev :=
  match d.tide.replanNew with
  | some n =>
    if n.2.2 ≤ d.tide.count then
      let role : BitVec 2 := if d.lnk.pos = n.1 then 1 else if d.lnk.pos = n.2.1 then 2 else 0
      remakeTree { d with tide := { d.tide with
        master := n.1, backup := n.2.1, acting := n.1, roleNow := role, replanNew := none, replanState := 2 } }
    else d
  | none => d

/-- REPLAN_APPLY: TIDE_EDGE applies the same where the edge comes first. -/
def execReplanApply (s : State) : Res :=
  eff (fun d => if clocksRun d && d.tide.run then applyReplan d else d) s

/-! ### Markers that arrive (02 R37 to R42, 11 R360 to R362) -/

/-- A marker on an ACTIVE link of a running generator, from this partition. -/
def markerOk (d : Dev) (st ln : Nat) (mk : Marker) : Bool :=
  isOn d && !d.frz.frozen && !isStopped d && d.tide.run && decide (st < 6) && decide (ln < 4) && (linkOf d st ln).state == 7
    && mk.partId == d.lnk.partId

/-! ### The decision of a wave (02 R58, R60; 09 R306) -/

/-- TID_LAST_DECISION (02 Table 2-9). -/
def decisionWord (step : BitVec 16) (wait : Nat) (cause : BitVec 6) (dec : Nat) : BitVec 32 :=
  BitVec.ofNat 32 (step.toNat * 65536 + min wait 255 * 256 + cause.toNat * 4 + dec)

/-- The module is out of step with its partition and re-enters (02 R60, 13 R457); the slack ends its items. -/
def loseDecision (d : Dev) : Dev :=
  if d.tide.lost = 2 then d
  else
    let d := { d with
      tide := { d.tide with decisionLost := true, lost := 2 }
      spare := { d.spare with reentry := true, state := 1, cause := 0, reqSent := false, filled := 0, total := 0, fillLeft := [] } }
    let d := logRec (ofModule d d.lnk.pos { sev := 4, cls := 0x104, step := d.step.num }) d
    send (.decisionReq d.tide.acting d.step.num) (announceFailed 0x104 d)

/-- The decisions of the last 16 steps. -/
def keepDecision (step : Nat) (w : BitVec 32) (l : List (Nat × BitVec 32)) : List (Nat × BitVec 32) :=
  let l := l.filter (fun x => x.1 != step) ++ [(step, w)]
  l.drop (l.length - 16)

/-- A decision and a verdict reach this module (02 R58, 09 R306). -/
def takeDecision (w : BitVec 32) (ver : Nat) (flags : VerdictC) (d : Dev) : Dev :=
  let dec := (w.extractLsb' 0 2).toNat
  let same := (w.extractLsb' 16 16).toNat == d.step.num % 65536
  let key := if stepIsOpen d && same then d.step.num else (w.extractLsb' 16 16).toNat
  let d := { d with
    tide := { d.tide with lastDecision := w, decisionLost := d.tide.decisionLost && d.tide.lost == 2, lost := if d.tide.lost = 2 then 2 else 0 }
    vote := { d.vote with received := true
                          history := if dec = 1 ∨ dec = 2 then keepDecision key w d.vote.history else d.vote.history } }
  if !stepIsOpen d then d
  else
    let d := if ver ≠ 0 ∧ d.step.verdict = 0 then
        { d with step := { d.step with verdict := ver, verdictOf := flags.ovf, verdictNv := flags.nv } } else d
    if dec = 2 ∨ (dec = 1 ∧ same = true) then { d with step := { d.step with decision := some w } }
    else if dec = 1 then loseDecision d
    else d

/-- No marker came after a decision that did not come: no module received it, and it counts as NO with MISSING (02 R60). -/
def lossDecided (d : Dev) : Dev :=
  if d.tide.lost = 1 then
    let d := takeDecision (decisionWord (BitVec.ofNat 16 d.step.num) 0 8 2) 0 {} { d with tide := { d.tide with lost := 0 } }
    { d with tide := { d.tide with decisionLost := true } }
  else d

/-- EDGE and DECISION markers count as received, also copies from other straits (11 R362; GATHER and FREEZE do not, log 49):
markers have returned (02 R41), and a module whose decision did not come is out of step (02 R60). -/
def markerIn (d : Dev) : Dev :=
  let d := { d with tide := { d.tide with markerSeen := true, missed := 0, holdover := false } }
  if d.tide.lost = 1 then loseDecision d else d

/-- What an EDGE marker from the parent does: phase and count, the announced setting, the relay. A member of a released
partition resumes by it (14 R494). -/
def edgeIn (mk : Marker) (d : Dev) : Dev :=
  let d := { d with
    tide := { d.tide with edgeTaken := true, locked := true, adoptCount := if mk.tide = d.tide.count then none else some mk.tide }
    frz := { d.frz with holdEdge := d.frz.holdEdge && !d.frz.partition, partition := d.frz.partition && !d.frz.holdEdge } }
  let d := if mk.announce then { d with tide := { d.tide with
      announced := some { rate := mk.rate, slack := mk.slack, tide := mk.tide + 2 }, ratePending := true } } else d
  sendMarker 1 { bareMarker d with rate := mk.rate, slack := mk.slack, announce := mk.announce, tide := mk.tide } (List.range 6) d

/-- Whose tree a marker comes down: its sender's role says so, or the distance it carries where only one root fits (02 R42;
11 Table 11-4; log 31). -/
def markerRoot (d : Dev) (mk : Marker) : Option Pos :=
  let m := mk.dist = hops d d.tide.master mk.src
  let b := mk.dist = hops d d.tide.backup mk.src
  if mk.role = 1 then some d.tide.master
  else if mk.role = 3 then some d.tide.backup
  else if m ∧ ¬ b then some d.tide.master
  else if b ∧ ¬ m then some d.tide.backup
  else none

/-- A module whose root fell silent re-roots its tree at the backup whose markers come, and at the master again once its
markers return (02 R42; log 31). -/
def reRoot (mk : Marker) (d : Dev) : Dev :=
  match (if acts d then none else markerRoot d mk) with
  | none => d
  | some p =>
    if p == d.tide.acting || d.tide.edgeTaken || (p == d.tide.backup && d.tide.missed == 0) then d
    else remakeTree (lossDecided { d with tide := { d.tide with acting := p } })

/-- EDGE: content is taken from the parent's strait alone, once a tide; an announcement is new content. -/
def execEdgeMarker (st ln : Nat) (mk : Marker) (s : State) : Res :=
  eff (fun d =>
    if !markerOk d st ln mk then d
    else
      let d := markerIn (reRoot mk d)
      if d.tide.parent == some st && !acts d && (!d.tide.edgeTaken || (mk.announce && d.tide.announced.isNone)) then edgeIn mk d else d) s

/-- GATHER: the contribution of the child over a strait, the first copy of the wave. -/
def execGatherMarker (st ln : Nat) (mk : Marker) (s : State) : Res :=
  eff (fun d =>
    if !(clocksRun d && markerOk d st ln mk) then d
    else
      if d.tide.children.contains st && !d.vote.forwarded && !d.vote.kids.any (fun k => k.strait == st) then
        { d with vote := { d.vote with kids := d.vote.kids ++ [{ strait := st, vote := mk.vote, verdict := mk.verdict }] } }
      else d) s

/-- The plan gives the module no neighbour, so no link ever carries it a marker. -/
def isAlone (d : Dev) : Bool := (List.range 6).all (fun st => (neighbourOf d d.lnk.pos st).isNone)

/-- MISS_LIMIT tides without a marker: holdover, also of an acting master; the backup takes over, and every other module
re-roots its tree at it (02 R41, R42; log 31). A module alone in its partition has no link that could bring one (log 49). -/
def execMarkerMissLimit (s : State) : Res :=
  eff (fun d =>
    if !(clocksRun d && d.tide.run) || isAlone d || decide (d.tide.missed < max 1 d.tide.missLimit) then d
    else
      let d := lossDecided (if d.tide.holdover then d
        else logRec (ofModule d d.lnk.pos { sev := 3, cls := 0x102 }) { d with tide := { d.tide with holdover := true, locked := false } })
      if acts d then d
      else
        let standby := d.tide.roleNow == 2
        let d := remakeTree { d with tide := { d.tide with
          acting := d.tide.backup, roleNow := if standby then 3 else d.tide.roleNow } }
        if standby then edgeMarkers d else d) s

/-- TIDE_REF: the master with REF_SEL locks to it (02 R39, 17 R558). -/
def execTideRefEdge (s : State) : Res :=
  eff (fun d =>
    if clocksRun d && d.tide.run && d.tide.refSel && d.tide.roleNow == 1 then
      { d with tide := { d.tide with refLocked := true, refHeld := false }, tel := { d.tel with refLost := false } }
    else d) s

/-- Three seconds without an edge of TIDE_REF: the frequency holds (17 R558). -/
def execTideRefLost (s : State) : Res :=
  eff (fun d =>
    if clocksRun d && d.tide.run && d.tide.refSel && d.tide.roleNow == 1 && d.tide.refLocked then
      logInfo 0x0A06 0 { d with
        tide := { d.tide with refLocked := false, refHeld := true }
        tel := { d.tel with refLost := true, alert := d.tel.alert || !d.tel.refLost } }
    else d) s

/-! ### The vote wave (02 R55 to R60, 09 R305) -/

/-- A subtree's contributions combined (02 R56); `missing` says that a child's did not come. -/
def combineVotes (own : Contribution) (kids : List Contribution) (missing : Bool) : Contribution :=
  let all := own :: kids
  let opens := all.filter (fun c => !c.idle)
  let first := ((opens.head?).map (·.step)).getD 0
  let mixed := !opens.isEmpty && (all.any (·.idle) || opens.any (fun c => c.step != first))
  let idle := all.any (·.idle)
  { step := if idle then 0 else first
    idle := idle
    ready := !missing && all.all (fun c => c.ready || c.idle)
    no := missing || mixed || all.any (·.no)
    cause := all.foldl (fun a c => a ||| c.cause) 0 ||| (if missing then 8 else 0) ||| (if mixed then 16 else 0) }

/-- A subtree's verdict contributions combined (09 Table 9-3). -/
def combineVerdicts (own : VerdictC) (kids : List VerdictC) (missing : Bool) : VerdictC :=
  { isSealed := !missing && own.isSealed && kids.all (·.isSealed)
    ovf := own.ovf || kids.any (·.ovf), nv := own.nv || kids.any (·.nv) }

/-- This module's subtree: its combined vote and verdict, and whether a step is open in it. -/
def subtree (d : Dev) : Contribution × VerdictC × Bool :=
  let missing := d.tide.children.any (fun st => !d.vote.kids.any (fun k => k.strait == st))
  let kids := d.vote.kids.map (·.vote)
  (combineVotes d.vote.own kids missing, combineVerdicts d.vote.ownVerdict (d.vote.kids.map (·.verdict)) missing,
   (d.vote.own :: kids).any (fun c => !c.idle))

/-- The wave of this tide is running on this module. -/
def waveRuns (d : Dev) : Bool := clocksRun d && d.tide.run && d.tide.phase == .work

/-- The combined contribution goes toward the master (02 R57). -/
def execVoteForwardDeadline (s : State) : Res :=
  eff (fun d =>
    if !waveRuns d || acts d || d.vote.forwarded then d
    else
      let c := subtree d
      match d.tide.parent with
      | some st => sendMarker 2 { bareMarker d with vote := c.1, verdict := c.2.1 } [st] { d with vote := { d.vote with forwarded := true } }
      | none => { d with vote := { d.vote with forwarded := true } }) s

/-- DECISION: taken from the parent's strait and relayed on every link. -/
def execDecisionMarker (st ln : Nat) (mk : Marker) (s : State) : Res :=
  eff (fun d =>
    if !(clocksRun d && markerOk d st ln mk) then d
    else
      let d := markerIn d
      if d.tide.parent == some st && !acts d && !d.vote.received then
        let d := sendMarker 3 { bareMarker d with decision := mk.decision, decVerdict := mk.decVerdict, verdict := mk.verdict } (List.range 6) d
        takeDecision mk.decision mk.decVerdict mk.verdict d
      else d) s

/-- The decision of a wave: the word of Table 2-9 without its STEP, and PENDING waves after it (02 R56). -/
def decide56 (c : Contribution) (isOpen : Bool) (pending limit : Nat) : Nat × BitVec 6 × Nat :=
  if c.no then (2, c.cause, 0)
  else if !isOpen then (0, c.cause, 0)
  else if c.ready then (1, c.cause, 0)
  else if max limit 1 ≤ pending + 1 then (2, c.cause ||| 32, 0)
  else (3, c.cause, pending + 1)

/-- The acting master decides and broadcasts (02 R56, R57; 09 Table 9-3). -/
def execMasterDecision (s : State) : Res :=
  eff (fun d =>
    if !waveRuns d || !acts d || d.vote.received then d
    else
      let c := subtree d
      let x := decide56 c.1 c.2.2 d.vote.pendingWaves (d.tide.voteCfg.active.extractLsb' 0 8).toNat
      let w := decisionWord c.1.step d.vote.pendingWaves x.2.1 x.1
      let v := d.vote
      let fresh := v.masterVerdict == 0 && c.2.1.isSealed && c.2.2
      let ver := if fresh then (if c.2.1.ovf || c.2.1.nv then 2 else 1) else v.masterVerdict
      let fl : VerdictC := { isSealed := ver != 0, ovf := if fresh then c.2.1.ovf else v.masterOf, nv := if fresh then c.2.1.nv else v.masterNv }
      let ends := x.1 != 3
      let d := { d with vote := { v with
        pendingWaves := x.2.2, masterVerdict := if ends then 0 else ver, masterOf := !ends && fl.ovf, masterNv := !ends && fl.nv } }
      let d := sendMarker 3 { bareMarker d with decision := w, decVerdict := ver, verdict := fl } (List.range 6) d
      takeDecision w ver fl d) s

/-- The close time passes without a decision (02 R60): the old epoch stays and DECISION_LOST is set. Whether the module is out
of step shows by the markers that come from now on (`markerIn`) or do not (`lossDecided`); without an open step it waits for
the next decision (log 49). -/
def execDecisionCloseTime (s : State) : Res :=
  eff (fun d =>
    if !waveRuns d || d.vote.received || decide (d.tide.lost = 2) then d
    else { d with tide := { d.tide with decisionLost := true, lost := if stepIsOpen d then 1 else d.tide.lost } }) s

/-! ### The latch guard and the edge (02 R43, R62) -/

/-- Compute dies whose clock an emergency throttle holds at half. -/
def throttled (d : Dev) : List Nat := if d.tel.elec then List.range 6 else (List.range 6).filter (fun c => d.tel.trips.contains c)

/-- Planned clocks take effect; a cleared trip restores the capped clock (02 R51, R53; 17 R552). -/
def edgeClocks (d : Dev) : Dev :=
  let t := throttled d
  let at0 := fun (l : List Nat) c => (l[c]?).getD 1750
  { d with
    tel := { d.tel with
      planned := (List.range 6).map (fun c => if t.contains c then at0 d.tel.next c else at0 d.tel.capped c)
      halved := t
      struck := t.filter (fun c => at0 d.tel.next c == at0 d.tel.capped c) }
    tide := { d.tide with throttleAge := if t.isEmpty then d.tide.throttleAge - 1 else 2 } }

/-- Links that discovery matched turn ACTIVE (11 R387). -/
def edgeLinks (d : Dev) : Dev :=
  eachLink d (fun st ln d =>
    let k := linkOf d st ln
    if k.identGood ∧ (k.state = 6 ∨ k.state = 8) then
      refreshStrait st (setLink st ln { freshLink k with state := 7, identGood := false } d)
    else d)

/-- A packet that waited at its strait tries again (11 R394 to R396). -/
def goAgain (st : Nat) (p : PacketHeader × Bytes) (d : Dev) : Dev :=
  let moved := posAxis p.1.src (st / 2) != posAxis d.lnk.pos (st / 2)
  match wayOf d (if moved then some st else none) p.1 with
  | .here => d
  | .out s c det => transmit s { p.1 with cls := c, detour := det } p.2 d
  | .wait s => waitAt s p.1 p.2 d
  | .lostWay s => lostPacket p.1 p.2 (some (256 * s)) d

/-- Detours computed in the slack are in force, and waiting packets go (11 R394). -/
def edgeRoutes (d : Dev) : Dev :=
  let now := d.lnk.detourTo
  let d := { d with lnk := { d.lnk with
    detourNow := now, dropLogged := false
    straits := (List.range 6).zip d.lnk.straits |>.map (fun x => { x.2 with detour := now.any (fun y => y.1 == x.1 && decide (y.2 < 6)) }) } }
  (List.range 6).foldl (fun d st =>
    let ps := (straitOf d st).waiting
    ps.foldl (fun d p => goAgain st p d) (setStrait st { straitOf d st with waiting := [] } d)) d

/-- TIDE_COUNT advances, or takes the marker's count (02 R34, R40). -/
def edgeCount (d : Dev) : Dev :=
  match d.tide.adoptCount with
  | some t =>
    let d := { d with tide := { d.tide with count := t + 1, adoptCount := none } }
    logRec { ofModule d d.lnk.pos { sev := 15, cls := 0x101 } with object := BitVec.ofNat 64 t } d
  | none => { d with tide := { d.tide with count := d.tide.count + 1 } }

/-- After a YES decision the epochs of the step, and the lagoon's, flip (09 R293, 13 R438). -/
def edgeFlip (d : Dev) : Dev :=
  let d := if d.step.flip then
      let d := flipEpochs d
      { d with step := { d.step with flip := false, written := [], writtenWarm := [] } } else d
  match d.lagoon.flipStep with
  | some n => lagoonFlip n d
  | none => d

/-- The wave, the marker count and what is kept for one tide start afresh. -/
def edgeFresh (d : Dev) : Dev :=
  { d with
    tide := { d.tide with missed := if d.tide.markerSeen then 0 else d.tide.missed + 1, markerSeen := false, edgeTaken := false, phase := .work }
    vote := { d.vote with kids := [], forwarded := false, received := false }
    ras := { d.ras with hostErr := [] }
    mem := { d.mem with corrSeen := [] }
    upd := { late := stepIsOpen d && d.step.verdict == 0 }
    chans := aMap d.chans (fun _ c => { c with tailAtEdge := c.subTail }) }

/-- A tide begins. -/
def tideEdge (d : Dev) : Dev :=
  let d := edgeAnswer (edgeFresh (edgeCount (edgeClocks (eachRwl rwlEdge d))))
  let d := startWaitingResalts (edgeFlip d)
  let back := d.lnk.adopted.any (fun a => a.1 == d.lnk.pos)
  let d := { d with tide := { d.tide with decisionLost := d.tide.decisionLost && !back, lost := if back then 0 else d.tide.lost } }
  let d := applyReplan (applyRate (tryAdoptReq (edgeRoutes (edgeLinks (clearAdopted d)))))
  if acts d then edgeMarkers d else d

def execTideEdge (s : State) : Res :=
  eff (fun d => if clocksRun d && d.tide.run && d.tide.phase == .guard then tideEdge d else d) s

end Sys2Proof.Machine
end

