-- ==== Sys2Proof/Machine/Update.lean ====
section
/-! DEFINITION. Update items (09 R286 to R308, R315): the descriptor and its checks, the update rules, the writes into new
epochs with the ferry's feed, and SEAL. A row processes the next `n` elements of an item. -/
namespace Sys2Proof.Machine
open Sys2Proof

/-! ### The update descriptor (09 Table 9-2) -/

def updH (it : Item) (off : Nat) : BitVec 64 := BitVec.ofNat 64 (fieldLe it.upd off 8)
def updF (it : Item) (off : Nat) : Nat := fieldLe it.upd off 8
def updRule (it : Item) : Nat := fieldLe it.upd 0 1
def tensorAt (d : Dev) (h : BitVec 64) : Tensor := (aGet d.tensors (hIdx h)).getD {}

/-- The first offset of an update descriptor that breaks 09 R297. -/
def updBad (d : Dev) (b : Bytes) : Option Nat :=
  let h := fun o => BitVec.ofNat 64 (fieldLe b o 8)
  let f := fun o => fieldLe b o 8
  let rule := fieldLe b 0 1
  let p := tensorAt d (h 8)
  let n := tElems p
  let wrong := fun (o role : Nat) => h o == 0 || (tensorAt d (h o)).role != role || tElems (tensorAt d (h o)) != n
  let mom := fun (o : Nat) => wrong o 3 || !(decide (1 ≤ (tensorAt d (h o)).fmt) && decide ((tensorAt d (h o)).fmt ≤ 4))
  let unit := fun x => fp64Finite x && (fpCmp fp64 5 x 0).1 && (fpCmp fp64 2 x fp64.one).1
  let ge1 := fun x => fp64Finite x && (fpCmp fp64 5 x fp64.one).1
  ([ (0, rule == 0 || decide (3 < rule)),
     (1, decide (4 ≤ fieldLe b 1 1) || (bitOf (fieldLe b 1 1) 0 && rule != 1)),
     (2, decide (40 < fieldLe b 2 1)),
     (3, !allZero (slice b 3 5)),
     (8, wrong 8 2 || (p.master == 0 && isFp8 p.fmt)),
     (16, wrong 16 5 || decide (6 < (tensorAt d (h 16)).fmt)),
     (24, mom 24),
     (32, if rule = 2 then mom 32 else h 32 != 0),
     (40, h 40 != 0 && wrong 40 4),
     (48, !fp64Finite (f 48)),
     (56, !fp64Finite (f 56)),
     (64, !unit (f 64)),
     (72, if rule = 1 then f 72 != 0 else !unit (f 72)),
     (80, if rule = 2 then !(fp64Finite (f 80) && (fpCmp fp64 4 (f 80) 0).1) else f 80 != 0),
     (88, if rule = 2 then !ge1 (f 88) else f 88 != 0),
     (96, if rule = 2 then !ge1 (f 96) else f 96 != 0),
     (104, !fp64Finite (f 104)),
     (112, !allZero (slice b 112 16)) ].find? (·.2)).map (·.1)

/-- The secured tensors that an update descriptor names. -/
def updSecured (b : Bytes) : List (BitVec 64) :=
  ([8, 24, 32, 40].map (fun o => BitVec.ofNat 64 (fieldLe b o 8))).filter (· != 0)

/-- A refusal of an UPDATE with its INFO record, which names the offset in the descriptor (09 R297). -/
def updRefuse (reason off : Nat) (d : Dev) : AdmRes :=
  .fail (logInfo 0x0701 off d) 0x30 (reason * 65536 + 16)

/-- Admission of an UPDATE (09 R295 to R297). -/
def updateAdmit (d : Dev) (it : Item) : AdmRes :=
  let t := tensorAt d it.object
  if t.role ≠ 8 ∨ it.arg0.toNat % 128 ≠ 0 ∨ tBytes t < it.arg0.toNat + 128 then .refuse rBadField (if t.role ≠ 8 then 16 else 24)
  else
    let r := readTensor (hIdx it.object) it.arg0.toNat 128 d
    match r.2 with
    | none => .fail r.1 0x12 (hIdx it.object)
    | some b =>
      let hs := ([8, 16, 24, 32, 40].map (fun o => (o, BitVec.ofNat 64 (fieldLe b o 8)))).filter (fun x => x.2 != 0)
      match hs.find? (fun x => !handleOk r.1 2 x.2) with
      | some x => updRefuse rBadHandle x.1 r.1
      | none =>
        match hs.find? (fun x => (tensorAt r.1 x.2).lost) with
        | some x => updRefuse rTensorLost x.1 r.1
        | none =>
          match updBad r.1 b with
          | some o => updRefuse rBadField o r.1
          | none =>
            if r.1.items.any (fun x => x.2.kind == 5 && x.2.op == 1 && x.2.step == it.step && x.2.order != it.order &&
                !x.2.upd.isEmpty && (updSecured x.2.upd).any (fun h => (updSecured b).contains h)) then
              .refuse rInUse 16
            else .taken r.1 { it with upd := b }

/-! ### The rules (09 R298, R299) -/

/-- FP64 arithmetic that collects flags. -/
structure UpdIn where
  p : Nat := 0
  g : Nat := 0
  m : Nat := 0
  v : Nat := 0
  rem : Nat := 0
  deriving DecidableEq, Repr

structure UpdOut where
  p : Nat := 0
  m : Nat := 0
  v : Nat := 0
  rem : Nat := 0
  flags : BitVec 4 := 0
  deriving DecidableEq, Repr

/-- sign(x) of 09 R298: a NaN gives the canonical NaN with no flag. -/
def sign64 (x : Nat) : Nat :=
  let u := unpack fp64 x
  if u.isNan then fp64.nan else if u.isZero then 0 else if u.sign then fpNeg fp64 fp64.one else fp64.one

/-- u and the new moments of a rule: (u, m_new, v_new). -/
def updRuleVals (it : Item) (x : UpdIn) (g : Nat) : Fl (Nat × Nat × Nat) :=
  let lr := fpNeg fp64 (updF it 48)
  let b1 := updF it 64
  let b2 := updF it 72
  let mul := fpMul fp64
  let add := fpAdd fp64
  let wd := mul (updF it 56) x.p
  let step := fun (d : Fl Nat) => (d.then (fun d => wd.then (fun w => add d w))).then (fun t => mul lr t)
  let lerp := fun (b m y : Nat) => (mul b m).then (fun s => ((fpSub fp64 fp64.one b).then (fun c => mul c y)).then (fun t => add s t))
  match updRule it with
  | 1 =>
    let m := (mul b1 x.m).then (fun s => add s g)
    let d := if bitOf (fieldLe it.upd 1 1) 0 then m.then (fun mn => (mul b1 mn).then (fun s => add g s)) else m
    let u := step d
    ((u.1, m.1, 0), m.2 ||| u.2)
  | 2 =>
    let m := lerp b1 x.m g
    let v := (mul g g).then (fun gg => lerp b2 x.v gg)
    let den := ((mul v.1 (updF it 96)).then (fpSqrt fp64)).then (fun s => add s (updF it 80))
    let q := (mul m.1 (updF it 88)).then (fun a => den.then (fun b => fpDiv fp64 a b))
    let u := step q
    ((u.1, m.1, v.1), m.2 ||| v.2 ||| u.2)
  | _ =>
    let c := lerp b1 x.m g
    let u := step (sign64 c.1, c.2)
    let m := lerp b2 x.m g
    ((u.1, m.1, 0), u.2 ||| m.2)

/-- One element: p_new in the master format, the moments and the remainder in FP64. -/
def updElement (it : Item) (mfmt : Nat) (x : UpdIn) : UpdOut :=
  let gs := if updF it 104 = 0 then fp64.one else updF it 104
  let g := (scaleB fp64 x.g (-it.lossExp)).then (fun g => fpMul fp64 g gs)
  let r := updRuleVals it x g.1
  let t := fpAdd fp64 r.1.1 x.rem
  let s := fpAdd fp64 x.p t.1
  let p := convert 1 mfmt .rn false true s.1
  let rem := if fp64Finite s.1 then fpSub fp64 s.1 (convert mfmt 1 .rn false true p.1).1 else (0, 0)
  { p := p.1, m := r.1.2.1, v := r.1.2.2, rem := rem.1, flags := g.2 ||| r.2 ||| t.2 ||| s.2 ||| p.2 ||| rem.2 }

/-! ### Elements -/

/-- The bits of `n` elements of a buffer, or none on a bus error. -/
def bufVals (i b es e n : Nat) (d : Dev) : Rd (List Nat) :=
  let r := readBuf i b (e * es) (n * es) d
  match r.2 with
  | some bs => .ok r.1 ((List.range n).map (fun k => fieldLe bs (es * k) es))
  | none => .bad r.1 i

/-- The operand of a field for elements [e, e + n): bits of the committed epoch. -/
def updRead (it : Item) (off e n : Nat) (d : Dev) : Rd (List Nat) :=
  let h := updH it off
  if h = 0 then .ok d (List.replicate n 0)
  else let t := tensorAt d h; bufVals (hIdx h) (tCommitted t) (fmtBytes t.fmt) e n d

/-- Master values [e, e + n): in SPLIT mode the two halves joined (09 R290). -/
def updMaster (it : Item) (e n : Nat) (d : Dev) : Rd (List Nat) :=
  let h := updH it 8
  let t := tensorAt d h
  (updRead it 8 e n d).then (fun d hi =>
    if t.master = 1 then
      (bufVals (hIdx h) (tCommitted t + 2) 2 e n d).then (fun d lo => .ok d (hi.zipWith (fun a b => a * 65536 + b) lo))
    else .ok d hi)

/-- Write elements into the new epoch of a tensor's buffer and feed the ferry where the tensor is ferried. -/
def updWrite (step i part es e : Nat) (vals : List Nat) (ferried : Bool) (d : Dev) : Dev × Bool :=
  let t := (aGet d.tensors i).getD {}
  let bs := (vals.map (toLe es)).flatten
  let w := writeBuf i (tOther t + 2 * part) (e * es) bs d
  (if ferried then ferryData step i part (e * es) bs w.1 else w.1, w.2)

/-- A converted value with −0 and NaN in stored form, and NV when it is a NaN (09 R299). -/
def updStore (fmt : Nat) (x : Fl Nat) : Fl Nat :=
  let nan := match fpOf fmt with | some f => (unpack f x.1).isNan | none => false
  (storeForm fmt x.1, if nan then x.2 ||| flNV else x.2)

/-- The working copy is made in a second pass (09 R315). -/
def twoPass (d : Dev) (p : Tensor) : Bool :=
  p.master == 2 && ((p.working.bind (aGet d.tensors)).bind (·.scale)).any (fun r => r.mode == 1)

def updTotal (d : Dev) (it : Item) : Nat :=
  let p := tensorAt d (updH it 8)
  if twoPass d p then 2 * tElems p else tElems p

/-- Converted working-copy values (09 R300). -/
def workVals (d : Dev) (it : Item) (w : Nat) (exp : Int) (mfmt : Nat) (ps : List Nat) : Fl (List Nat) :=
  let u := (aGet d.tensors w).getD {}
  flSeq (ps.map (fun x => updStore u.fmt (cvtScaled mfmt u.fmt exp .rn false (bitOf (fieldLe it.upd 1 1) 1) x)))

/-- The amax of the conversions of single elements: an infinite or NaN element records nothing (04 R147; log 49), so the value does
not depend on how the elements fall into rows. -/
def finiteAmax (l : List Nat) : Nat :=
  let fin := l.filter fp64Finite
  if fin.isEmpty && !l.isEmpty then fp64.nan else amaxOf fin

/-! ### How many elements a tide takes (09 R287, R306; 11 R393; 14 R488) -/

/-- The ferry limit in bytes per ns (09 R287, 11 R393). -/
def ferryRate (d : Dev) : Nat :=
  match dorStrait d d.lnk.pos d.pair.partner with
  | none => 1368
  | some s =>
    let n := (activeLinks d s).length
    if n = 0 then (if d.lnk.detourNow.any (fun x => x.1 == s && decide (x.2 < 6)) then 342 else 0) else min 1368 (342 * n)

/-- Bytes of one element of a pass: its ferried new-epoch writes, and what it reads and writes in device memory. -/
def updCost (d : Dev) (it : Item) (first : Bool) : Nat × Nat :=
  let p := tensorAt d (updH it 8)
  let width := fun (off : Nat) => if updH it off = 0 then 0 else fmtBytes (tensorAt d (updH it off)).fmt
  let work := match p.working with
    | some w => fmtBytes ((aGet d.tensors w).getD {}).fmt
    | none => 0
  let master := if p.master = 1 then 4 else width 8
  if first then
    let out := master + width 24 + width 32 + width 40
    (out, out + width 16 + out + (if p.master = 2 ∧ twoPass d p = false then work else 0))
  else (0, master + work)

/-- Elements of a pass that the limits of the tide still allow. Where the verdict was pending at the edge, the item may use the
window from the close time onward (09 R306); while MD_TEST runs, the unit rate is five sixths (14 R488). -/
def updRoom (d : Dev) (it : Item) (first : Bool) : Nat :=
  let ns := (windowNs d).1 / (windowNs d).2 - (if d.upd.late then closeNs d.tide.depth else 0)
  let c := updCost d it first
  let rate := if mdTesting d then 3840 else 4608
  let byCount := rate * ns / 10 - d.upd.elems
  let byMem := if c.2 = 0 then byCount else (7000 * ns - d.upd.mem) / c.2
  let byFerry := if c.1 = 0 ∨ paired d = false then byCount else (ferryRate d * ns - d.upd.ferry) / c.1
  min byCount (min byMem byFerry)

/-- The work of `k` elements is counted. -/
def updCount (c : Nat × Nat) (k : Nat) (u : UpdUnits) : UpdUnits :=
  { u with elems := u.elems + k, ferry := u.ferry + k * c.1, mem := u.mem + k * c.2 }

/-- Elements [e, e + n) of the first pass. -/
def updPass1 (it : Item) (e n : Nat) (d : Dev) : Rd (BitVec 4 × Nat) :=
  let p := tensorAt d (updH it 8)
  let mfmt := if p.master = 1 then 2 else p.fmt
  let f64 := fun (off x : Nat) => (convert (tensorAt d (updH it off)).fmt 1 .rn false true x).1
  let re : Int := (fieldLe it.upd 2 1 : Nat)
  (updMaster it e n d).then (fun d ms => (updRead it 16 e n d).then (fun d gs => (updRead it 24 e n d).then (fun d m1 =>
    (updRead it 32 e n d).then (fun d m2 => (updRead it 40 e n d).then (fun d rs =>
      let outs := (List.range n).map (fun k =>
        let at0 := fun (l : List Nat) => (l[k]?).getD 0
        updElement it mfmt
          { p := (convert mfmt 1 .rn false true (at0 ms)).1, g := f64 16 (at0 gs), m := f64 24 (at0 m1)
            v := if updH it 32 = 0 then 0 else f64 32 (at0 m2)
            rem := if updH it 40 = 0 then 0 else (scaleB fp64 (f64 40 (at0 rs)) (-re)).1 })
      let put := fun (off : Nat) (exp : Int) (sel : UpdOut → Nat) (st : (Dev × Option Nat) × BitVec 4) =>
        let h := updH it off
        if h = 0 then st else
        let t := tensorAt st.1.1 h
        let vs := flSeq (outs.map (fun o => updStore t.fmt (cvtScaled 1 t.fmt exp .rn false true (sel o))))
        let w := updWrite it.step (hIdx h) 0 (fmtBytes t.fmt) e vs.1 true st.1.1
        ((w.1, if w.2 then st.1.2 else some (hIdx h)), st.2 ||| vs.2)
      let pv := flSeq (outs.map (fun o => updStore mfmt (o.p, 0)))
      let i := hIdx (updH it 8)
      let fl := outs.foldl (fun a o => a ||| o.flags) pv.2
      let s0 : (Dev × Option Nat) × BitVec 4 :=
        if p.master = 1 then
          let a := updWrite it.step i 0 2 e (pv.1.map (fun x => x / 65536)) true d
          let b := updWrite it.step i 1 2 e (pv.1.map (fun x => x % 65536)) true a.1
          ((b.1, if a.2 && b.2 then none else some i), fl)
        else
          let a := updWrite it.step i 0 (fmtBytes p.fmt) e pv.1 true d
          ((a.1, if a.2 then none else some i), fl)
      let s1 := put 40 re (·.rem) (put 32 0 (·.v) (put 24 0 (·.m) s0))
      let s2 : (Dev × Option Nat) × BitVec 4 :=
        match p.working with
        | some w =>
          if p.master = 2 && !twoPass d p then
            let vs := workVals s1.1.1 it w (scaleExpFor s1.1.1 it w) mfmt pv.1
            let a := updWrite it.step w 0 (fmtBytes ((aGet s1.1.1.tensors w).getD {}).fmt) e vs.1 false s1.1.1
            let am := finiteAmax (pv.1.map (absFp64 mfmt))
            ((recordAmax it w am (vs.2.getLsbD 0) a.1, if a.2 then s1.1.2 else some w), s1.2 ||| vs.2)
          else s1
        | none => s1
      let am := amaxOf (pv.1.map (absFp64 mfmt))
      match s2.1.2 with
      | some t => .bad s2.1.1 t
      | none => .ok s2.1.1 (s2.2, am))))))

/-- Elements [e, e + n) of the second pass: p_new from the new epoch, with the staged exponent. -/
def updPass2 (it : Item) (e n : Nat) (d : Dev) : Rd (BitVec 4 × Nat) :=
  let h := updH it 8
  let p := tensorAt d h
  match p.working with
  | none => .ok d (0, 0)
  | some w =>
    (bufVals (hIdx h) (tOther p) (fmtBytes p.fmt) e n d).then (fun d ps =>
      let exp := (((aGet d.tensors w).bind (·.scale)).bind (·.staged)).getD 0
      let vs := workVals d it w exp p.fmt ps
      let a := updWrite it.step w 0 (fmtBytes ((aGet d.tensors w).getD {}).fmt) e vs.1 false d
      if a.2 then .ok a.1 (vs.2, 0) else .bad a.1 w)

/-- The staged exponent of a CURRENT working copy, from the exact amax of the first pass (09 R315). -/
def stageExp (it : Item) (amax : Nat) (d : Dev) : Dev :=
  match (tensorAt d (updH it 8)).working with
  | none => d
  | some w => { d with tensors := aMod d.tensors w (fun u => { u with scale := u.scale.map (fun r =>
      { r with staged := some (if fp64Finite amax then scaleExp u.fmt amax r.headroom r.exp else r.exp) }) }) }

/-- The tensors that the step's flip switches (09 R293). -/
def noteWritten (it : Item) (d : Dev) : Dev :=
  { d with step := { d.step with written := (updSecured it.upd).foldl (fun l h => addNew l (hIdx h)) d.step.written } }

/-- UPDATE: the next `n` elements, once the verdict is CLEAN (09 R306, R307): no more than the limits of the tide allow (R287) and
than its plan asks where firmware made one. -/
def execUpdate (slot seq n : Nat) (s : State) : Res :=
  eff (fun d =>
    match findItem d slot seq with
    | none => d
    | some it =>
      if !(itemWorks d it 5 1 && stepIsOpen d && it.step == d.step.num) then d
      else if d.step.verdict = 2 then
        finishItem it.order 1 (b2n d.step.verdictOf + 8 * b2n d.step.verdictNv) d
      else if d.step.verdict ≠ 1 then d
      else
        let el := tElems (tensorAt d (updH it 8))
        let e := it.progress
        let first := decide (e < el)
        let k := min (min n (if first then el - e else updTotal d it - e)) (min (updRoom d it first) ((it.goal.getD (e + n)) - e))
        let d0 := if k = 0 then d else { noteWritten it d with upd := updCount (updCost d it first) k d.upd }
        match (if first then updPass1 it e k d0 else updPass2 it (e - el) k d0) with
        | .bad d' t => finishItem it.order 0x12 t d'
        | .ok d' r =>
          let am := (fpMax fp64 it.amax.toNat r.2).1
          let d1 := if first && decide (e + k = el) && twoPass d' (tensorAt d' (updH it 8)) then stageExp it am d' else d'
          let it' := { (aGet d1.items it.order).getD it with progress := e + k, amax := BitVec.ofNat 64 am, flags := it.flags ||| r.1 }
          setItem { it' with work := decide (updTotal d1 it ≤ e + k) } d1) s

/-- Status and detail of a SEAL or of an UPDATE whose step overflowed (09 R307, R308). -/
def verdictOutcome (d : Dev) : Nat × Nat :=
  if d.step.verdict = 2 then (1, b2n d.step.verdictOf + 8 * b2n d.step.verdictNv) else (0, 0)

/-- SEAL ends once the verdict has arrived (09 R308); the slack seals the step (R303). -/
def execSeal (slot seq : Nat) (s : State) : Res :=
  eff (fun d =>
    match findItem d slot seq with
    | none => d
    | some it =>
      if itemWorks d it 5 2 && stepIsOpen d && it.step == d.step.num && d.step.verdict != 0 then
        finishItem it.order (verdictOutcome d).1 (verdictOutcome d).2 d
      else d) s

end Sys2Proof.Machine
end

