-- ==== Sys2Proof/Machine/SlackEnd.lean ====
section
/-! DEFINITION. The first part of the slack (02 Table 2-2): segments stop, sticky flags are gathered, items end, a step's decision
is carried out, channels drain, positions are declared lost, the step is sealed, votes are cast and outcome records are
written. -/
namespace Sys2Proof.Machine
open Sys2Proof

/-! ### Segments stop (02 R43, R48) -/

/-- An emergency throttle struck the cluster of the core's unit in this tide. -/
def coreStruck (d : Dev) (l : Nat) : Bool := d.tel.struck.contains (((physOf d l).map (·.1)).getD (clusterOf l))

/-- OVERRUN, or THROTTLED where a throttle struck. -/
def stopCause (d : Dev) (l : Nat) : Nat := if coreStruck d l then 2 else 1

/-- A core stops: the running segment, and those planned that did not start, overrun, each of them counted (02 R43). Where the
core's fill is not complete, what was planned on it fails with its unit instead (14 R481). -/
def stopCore (l : Nat) (d : Dev) : Dev :=
  match aGet d.cores l with
  | none => d
  | some c =>
    let cause := stopCause d l
    let d := if c.run then stopSegment l cause d c else d
    let d := if d.units.fills.any (fun f => f.l == l) then failReplays l c.plan d
      else c.plan.foldl (fun d p => countOverrun (failItem p.1 0x11 (cause * 65536 + p.2.2) p.2.1 (clusterOf l) d)) d
    let d := if coreStruck d l then c.heldBy.foldl (fun d h =>
        { d with items := aMod d.items h.1 (fun i => { i with probs := aMod i.probs h.2 (fun p => { p with throttled := true }) }) }) d else d
    { d with cores := aMod d.cores l (fun c => { c with plan := [], rowGroups := 0, pastFall := false }) }

def stopCores (d : Dev) : Dev := (d.cores.map (·.1)).foldl (fun d l => stopCore l d) d

/-! ### Sticky flags (04 R143, R144) -/

/-- Flags of the segments that ended on a core go to their items and to the core's logical cluster. -/
def gatherCore (l : Nat) (d : Dev) : Dev :=
  match aGet d.cores l with
  | none => d
  | some c =>
    c.ended.foldl (fun d e =>
      { d with
        items := aMod d.items e.1 (fun i => { i with flags := i.flags ||| e.2 })
        cluFlags := modAt d.cluFlags (clusterOf l) (fun s =>
          { flags := s.flags ||| e.2
            nvCore := if e.2.getLsbD 3 then (if l < s.nvCore.toNat then BitVec.ofNat 16 l else s.nvCore) else s.nvCore }) })
      { d with cores := aSet d.cores l { c with ended := [] } }

/-- The flags of the tide: cluster summaries, the device summary, the step summary. An item that has ended gave its flags in the slack
in which it ended, to the step that was open then. -/
def gatherFlags (d : Dev) : Dev :=
  let d := { d with cluFlags := d.cluFlags.map (fun (s : ClusterSum) => { flags := s.flags, nvCore := 0xFFFF }) }
  let d := (d.cores.map (·.1)).foldl (fun d l => gatherCore l d) d
  let mine := (d.items.filter (fun i => i.2.step != 0 && i.2.step == d.step.num && i.2.stage == .admitted)).foldl
    (fun f i => f ||| i.2.flags) (0 : BitVec 4)
  { d with
    devFlags := d.cluFlags.foldl (fun f s => f ||| s.flags) d.devFlags
    step := { d.step with summary := if stepIsOpen d then d.step.summary ||| mine else d.step.summary } }

/-! ### How an item ends (03 R99, R100, R106, R107; 13 Table 13-3) -/

/-- The item belongs to the step that is open or scheduled. -/
def ofStep (d : Dev) (it : Item) : Bool := it.step != 0 && it.step == d.step.num && d.step.state != .none

/-- A step item that ends with a failure makes the module cast NO (13 R444), unless an abort meets a READY (03 R90). -/
def noteFailure (it : Item) (status detail : Nat) (d : Dev) : Dev :=
  if !(ofStep d it && decide (16 ≤ status)) || ((status == 0x20 || status == 0x21) && d.step.ready) then d
  else
    let logged := status == 0x10 || (status == 0x12 && it.kind == 1) || (status == 0x14 && detail / 65536 == 1)
    let d := { d with step := { d.step with contained := true } }
    if logged then d
    else logRec { sev := 1, cls := 0x201, unitKind := 13, cluster := it.cluster, status := BitVec.ofNat 8 status
                  logical := BitVec.ofNat 32 it.slot, step := it.step, code := BitVec.ofNat 32 detail, object := it.object } d

/-- Records that wait for the decision (03 Table 3-17): COMMIT_BOUND and update items that ended well. -/
def holdsRecord (d : Dev) (it : Item) (status : Nat) : Bool :=
  ofStep d it && decide (status < 16) && (it.commitBound || it.kind == 5)

/-- The group's last launch (12 Table 12-1, GROUP_QUERY). -/
def noteGroup (it : Item) (status detail : Nat) (d : Dev) : Dev :=
  match it.launch with
  | none => d
  | some l =>
    let rank := match l.abort with | some a => a.2.1 | none => if status = 0x14 then detail % 65536 else 0
    { d with groups := aMod d.groups l.group (fun g => { g with lastLaunch := l.num, lastStatus := BitVec.ofNat 8 status, lastRank := rank }) }

/-- An item ends in this slack: its status, its detail, and what its end sets. -/
def endItem (it : Item) (status detail : Nat) (d : Dev) : Dev :=
  let hold := holdsRecord d it status
  let d := if it.kind = 2 ∧ it.stage = .admitted then solverClose it d else d
  let d := if it.kind = 4 ∧ it.stage = .admitted then noteGroup it status detail d else d
  let d := noteFailure it status detail d
  let d := if it.kind = 5 ∧ it.op = 2 ∧ d.step.sealReq = some it.order then { d with step := { d.step with sealEnded := decide (status < 16) } } else d
  setItem { it with
    stage := if hold then .held else .ended, status := BitVec.ofNat 8 status, detail := BitVec.ofNat 32 detail, endTide := d.tide.count
    held := hold, work := true, insts := [], probs := [], launch := it.launch.map (fun l => { l with parts := [] }) } d

/-- Status and detail of an item whose work finished (03 R100). -/
def doneStatus (d : Dev) (it : Item) : Nat × Nat :=
  if it.kind = 2 ∧ it.op ≠ 0 then solverOutcome it
  else if it.status ≠ 0 then (it.status.toNat, it.detail.toNat)
  else if it.kind = 5 ∧ it.op = 2 then verdictOutcome d
  else if flFlagged it.flags then (1, it.flags.toNat)
  else (0, it.flags.toNat &&& 4)

/-- The work of an item is over by the slack, whether or not its own row has said so. -/
def workOver (d : Dev) (it : Item) : Bool :=
  it.work || (it.kind == 1 && runOver it) || (it.kind == 5 && ofStep d it && (if it.op == 2 then d.step.verdict != 0 else d.step.verdict == 2))

/-- A member leaves its launch for a reason of its own (12 Table 12-7). -/
def leaveBy (it : Item) (status detail : Nat) (d : Dev) : Dev :=
  if it.kind ≠ 4 then d
  else if status = 0x11 ∧ detail / 65536 = 4 then leaveLaunch it 8 d
  else if status = 0x21 then leaveLaunch it 5 d
  else if status = 0x20 then leaveLaunch it 6 d
  else d

/-- A transfer or an update did less in this tide than its plan asked: its segment overruns (02 R48, 09 R288); elements whose verdict
has not come move on (R306). -/
def missedGoal (d : Dev) (it : Item) : Bool :=
  it.goal.any (fun g => decide (it.progress < g)) &&
  (it.kind == 3 || (it.kind == 5 && it.op == 1 && ofStep d it && d.step.verdict == 1))

/-- One admitted item at its slack: limits, then its end where its work is over or has failed. -/
def settleItem (o : Nat) (d : Dev) : Dev :=
  let get := fun (d : Dev) => (aGet d.items o).filter (fun i => decide (i.stage = .admitted))
  let step := fun (f : Item → Dev → Dev) (d : Dev) => match get d with | some it => f it d | none => d
  let d := step (fun it d => if it.kind = 4 then expireJoin it (collEnded it d) else d) d
  let d := step (fun it d => if it.kind = 4 then expireGrace it d else d) d
  let d := step (fun it d => if !workOver d it && missedGoal d it then countOverrun (finishItem it.order 0x11 0x1FFFF d) else d) d
  let d := step (fun it d => if workOver d it then d else expireBudget it d) d
  step (fun it d =>
    if 16 ≤ it.status.toNat then
      let d := leaveBy it it.status.toNat it.detail.toNat d
      let it := (aGet d.items o).getD it
      endItem it it.status.toNat it.detail.toNat d
    else if workOver d it then
      let skipped := it.kind == 5 && it.op == 1 && d.step.verdict == 2
      let it := if skipped then { it with status := 1, detail := BitVec.ofNat 32 (verdictOutcome d).2 } else it
      let r := doneStatus d it
      endItem it r.1 r.2 d
    else d) d

/-- STREAMED launches whose producer failed leave (12 R415). -/
def producerFails (d : Dev) : Dev :=
  let failed := d.items.any (fun i => ofStep d i.2 && decide (16 ≤ i.2.status.toNat) && decide (i.2.endTide = d.tide.count)
    && decide (i.2.stage = .ended))
  if !failed then d
  else d.items.foldl (fun d i =>
    match aGet d.items i.1 with
    | none => d
    | some it =>
      match it.launch with
      | none => d
      | some l =>
        if it.stage = .admitted ∧ ofStep d it = true ∧ l.streamed = true then
          match aGet d.groups l.group with
          | none => d
          | some g =>
            if chunkReady d it l 0 (launchElems it.op l g.members.length) then d
            else
              let d := leaveLaunch it 7 d
              endItem ((aGet d.items i.1).getD it) 0x14 (2 * 65536 + g.rank % 65536) d
        else d) d

/-- Every admitted item at the slack. -/
def settleItems (d : Dev) : Dev := producerFails ((d.items.map (·.1)).foldl (fun d o => settleItem o d) d)

/-- The step's items are rolled back: its updates name their tensors no longer, so a replay may (09 R295). -/
def forgetUpdates (d : Dev) : Dev :=
  { d with items := aMap d.items (fun _ i => if i.kind = 5 ∧ i.step = d.step.num then { i with upd := [] } else i) }

/-- After a lost decision, step items end ROLLED_BACK with MISSING and the others FAILED_UNIT (13 Table 13-6); the step closes. -/
def settleLost (d : Dev) : Dev :=
  if d.tide.lost == 2 && stepIsOpen d then
    let d := d.items.foldl (fun d i =>
      if i.2.stage = .consumed ∨ i.2.stage = .admitted then
        (if i.2.step ≠ 0 then endItem i.2 0x16 8 d else endItem i.2 0x15 (12 * 65536) d)
      else if i.2.stage = .held then setItem { i.2 with stage := .ended, status := 0x16, detail := 8 } d
      else d) d
    let d := forgetUpdates d
    lagoonClear { d with step := { state := .none, num := d.step.num, ready := d.step.ready, lastCommitted := d.step.lastCommitted
                                   lastDecision := d.step.lastDecision, flipTide := d.step.flipTide, written := d.step.written
                                   writtenWarm := d.step.writtenWarm } }
  else d

/-! ### The decision of the step (02 R58; 09 R293, R310 to R314; 13 R438, R443, R445) -/

/-- The loss-scale record at a YES decision (09 R310, R312). -/
def lossCommit (d : Dev) : Dev :=
  let r := d.loss
  let r' : LossScale :=
    if d.step.verdict = 2 then { r with exp := max (r.exp - 1) r.lo, clean := 0, skipped := (r.skipped + 1) % 2 ^ 32, lastStep := d.step.num }
    else if r.interval ≤ r.clean + 1 then { r with exp := min (r.exp + 1) r.hi, clean := 0, lastStep := d.step.num }
    else { r with clean := r.clean + 1, lastStep := d.step.num }
  writeLossTensor { d with loss := r' }

/-- Held records of the step are released, each as `f` leaves it. -/
def releaseHeld (f : Item → Item) (d : Dev) : Dev :=
  { d with items := aMap d.items (fun _ i => if i.stage = .held ∧ i.step = d.step.num then { f i with stage := .ended } else i) }

/-- The step closes; what the flip needs stays. -/
def closeStep (w : BitVec 32) (yes : Bool) (d : Dev) : Dev :=
  let l := d.step
  { d with step := { state := .none, num := l.num, lastDecision := w, lastCommitted := if yes then l.num else l.lastCommitted, flip := yes
                     flipTide := d.tide.count + 1, written := if yes then l.written else [], writtenWarm := if yes then l.writtenWarm else [] } }

def commitYes (w : BitVec 32) (d : Dev) : Dev :=
  let d := releaseHeld id (lossCommit d)
  let d := { d with
    tensors := aMap d.tensors (fun _ t => { t with scale := t.scale.map (scaleApply t.fmt) })
    lagoon := { d.lagoon with flipStep := some d.step.num } }
  closeStep w true d

def commitNo (w : BitVec 32) (d : Dev) : Dev :=
  let cause := (w.extractLsb' 2 6).toNat
  let rolled := fun (i : Item) => { i with status := 0x16, detail := BitVec.ofNat 32 cause }
  let d := d.items.foldl (fun d i =>
    match aGet d.items i.1 with
    | some it => if (it.stage = .consumed ∨ it.stage = .admitted) ∧ ofStep d it = true then endItem it 0x16 cause d else d
    | none => d) d
  let d := forgetUpdates (releaseHeld rolled d)
  let d := { d with tensors := aMap d.tensors (fun _ t => { t with scale := t.scale.map (fun r => { r with pending := none, pendingOf := false, staged := none }) }) }
  let d := logRec { sev := 15, cls := 0x606, step := d.step.num, code := BitVec.ofNat 32 cause } (lagoonClear d)
  closeStep w false d

/-- The decision that arrived in this tide is carried out. -/
def slackDecision (d : Dev) : Dev :=
  match (if stepIsOpen d then d.step.decision else none) with
  | none => d
  | some w => if w.extractLsb' 0 2 = 1#2 then commitYes w d else commitNo w d

/-! ### Ledger entries (13 R455) -/

/-- A ledger entry of an item goes to the partner. -/
def ferryLedger (it : Item) (mark : Nat) (d : Dev) : Dev :=
  if paired d then ferry 4 0 0 0 0 (ledgerItem d it 0 false mark) d else d

/-! ### Held records of reset channels (15 R513, R516) -/

/-- The reset ledger is complete: COMPLETE, and the RST_VECTOR message (15 Table 15-9). -/
def ledgerComplete (d : Dev) : Dev :=
  let d := { d with rst := { d.rst with complete := true } }
  if d.rst.enable then fire1 d.rst.vector.toNat d else d

/-- Held records of channels that an FLR freed enter the reset ledger in the slack of their decision, by slot and then SEQ. -/
def resetHeld (d : Dev) : Dev :=
  let due := (d.items.filter (fun i => i.2.resetFlr.isSome && decide (i.2.stage = .ended))).map (·.2)
  if due.isEmpty then d
  else
    let d := (sortByKey (·.slot) (sortByKey (·.seq.toNat) due)).foldl (fun d it =>
      let n := it.resetFlr.getD 0
      ferryLedger it 2 (setItem { it with stage := .recorded, resetFlr := none }
        { d with rst := { d.rst with entries := d.rst.entries ++ [ledgerItem d it (n % 256) (decide (256 ≤ n)) 0] } })) d
    if d.items.any (fun i => i.2.resetFlr.isSome) then d else ledgerComplete d

/-- The message of a channel that got a record in this slack (03 R88). -/
def fireChan (slot : Nat) (d : Dev) : Dev :=
  match aGet d.chans slot with
  | some c =>
    if c.wrote then
      let d := { d with chans := aSet d.chans slot { c with wrote := false } }
      match c.vector with
      | some v => fire0 v d
      | none => d
    else d
  | none => d

/-- One message for each channel that got a record in this slack, once its last record is written (03 R88). -/
def fireChannels (d : Dev) : Dev := (d.chans.map (·.1)).foldl (fun d x => fireChan x d) d

/-! ### Draining channels (03 R89, R90) -/

/-- Items of a draining channel that have not ended end ABORTED_DESTROY. -/
def drainItems (d : Dev) : Dev :=
  d.items.foldl (fun d i =>
    match aGet d.items i.1 with
    | none => d
    | some it =>
      if (it.stage = .consumed ∨ it.stage = .admitted) ∧ (aGet d.chans it.slot).any (fun c => c.draining && chanHandle c == it.chan) = true then
        let d := leaveBy it 0x21 0 d
        endItem ((aGet d.items i.1).getD it) 0x21 0 d
      else d) d

/-- A drained channel is freed, and its destroy answered (03 Table 3-12). -/
def freeDrained (d : Dev) : Dev :=
  d.chans.foldl (fun d x =>
    match aGet d.chans x.1 with
    | none => d
    | some c =>
      let open_ := d.items.any (fun i => i.2.chan == chanHandle c && i.2.stage != .recorded)
      if c.draining && c.subHead == c.drainTail && !open_ then
        let d := fireChan x.1 d
        let d := freeIdx 1 c.index c.gen { d with chans := aDel d.chans x.1 }
        match c.destroyBy with
        | some m => answer m 0 0 (toLe 4 c.records ++ toLe 4 c.aborted ++ toLe 4 c.outTail.toNat ++ zeros 4) d
        | none => d
      else d) d

/-! ### Lost positions (13 R447) -/

def slackLosses (d : Dev) : Dev :=
  ((d.lnk.announced ++ silentPositions d).eraseDups).foldl (fun d p => declareLost p d) d

/-! ### Seal, ferry and vote (09 R303; 13 R436 to R444; 02 R55) -/

/-- The first slack in which the SEAL and what was consumed before it allow sealing. -/
def sealStep (d : Dev) : Dev :=
  match d.step.sealReq with
  | none => d
  | some o =>
    let it := (aGet d.items o).getD {}
    let waits := d.items.any (fun i => ofStep d i.2 && i.2.kind != 5 && decide (i.1 < o)
      && (decide (i.2.stage = .consumed) || decide (i.2.stage = .admitted)))
    if stepIsOpen d && !d.step.isSealed && decide (it.consumedTide < d.tide.count) && !waits then
      { d with
        step := { d.step with isSealed := true }
        vote := { d.vote with ownVerdict := { isSealed := true, ovf := d.step.summary.getLsbD 0, nv := d.step.summary.getLsbD 3 } } }
    else d

/-- Pending amax values that changed in this tide are ferried (13 R436). -/
def ferryAmax (d : Dev) : Dev :=
  if !(stepIsOpen d && paired d) then d
  else d.tensors.foldl (fun d t =>
    match t.2.scale with
    | none => d
    | some r =>
      let v := (r.pending.getD 0, r.pendingOf)
      if r.pending.isSome && aGet d.step.sentAmax t.1 != some v then
        ferry 1 d.step.num t.1 3 0 (pendingBytes r) { d with step := { d.step with sentAmax := aSet d.step.sentAmax t.1 v } }
      else d) d

/-- Changes of the object table and of what the module knows of straits follow in their slack (13 R436). -/
def ferryChanges (d : Dev) : Dev :=
  let d := if paired d then d.pair.changes.foldl (fun d h =>
      if hKind h = 0xFE then
        match d.lnk.recs.find? (fun r => 0xFE * 2 ^ 56 + posIndex d r.pos == h.toNat) with
        | some r => ferryEntry 0 (straitEntry d r) d
        | none => d
      else ferryChange h d) d else d
  { d with pair := { d.pair with changes := [] } }

/-- The ferry of the open step is complete (13 R437). -/
def ferryComplete (d : Dev) : Bool :=
  !d.pair.unacked.any (fun u => u.hdr.step == d.step.num || (u.use == 3 && decide (u.hdr.fseq < d.step.openFseq)))

/-- Nothing of the step is outstanding on this module (01 R29, 09 R302). -/
def stepReady (d : Dev) : Bool :=
  d.step.isSealed && d.step.sealEnded && ferryComplete d &&
  !d.items.any (fun i => ofStep d i.2 && (decide (i.2.stage = .consumed) || decide (i.2.stage = .admitted)))

/-- The module's contribution to the next tide's wave, with its verdict until it has received one (09 R305). -/
def castVote (d : Dev) : Dev :=
  if !stepIsOpen d then { d with vote := { d.vote with own := {}, ownVerdict := {} } }
  else
    let cause : BitVec 6 := d.step.cause ||| BitVec.ofNat 6 (b2n d.step.checkFail + 2 * b2n d.step.ferryFail
      + 4 * b2n (d.step.contained || d.step.abortReq))
    let d := if d.step.ferryFail && !d.step.cause.getLsbD 1 then
        logRec (ofModule d d.pair.partner { sev := 3, cls := 0x605, step := d.step.num }) d else d
    let no := cause != 0
    let ready := !no && (d.step.ready || stepReady d)
    { d with
      step := { d.step with no := no, cause := cause, ready := ready || (d.step.ready && !no) }
      vote := { d.vote with own := { step := BitVec.ofNat 16 d.step.num, idle := false, ready := ready, no := no, cause := cause }
                            ownVerdict := if d.step.isSealed && d.step.verdict == 0 then d.vote.ownVerdict else {} } }

/-! ### Outcome records (02 R44; 03 R88; 13 R455; 15 R505) -/

/-- The record of an ended item at its channel's OUT_TAIL. -/
def writeRecord (it : Item) (d : Dev) : Dev :=
  match aGet d.chans it.slot with
  | none => d
  | some c =>
    if chanHandle c ≠ it.chan then d
    else
      let n := 2 ^ c.outLog2
      let t := c.outTail.toNat
      let phase := t / n % 2 == 0
      let c' : Chan := { c with
        outTail := c.outTail + 1, wrote := true, records := if c.draining then c.records + 1 else c.records
        aborted := if c.draining && it.status == 0x21 then c.aborted + 1 else c.aborted }
      let d := hostWrite (c.outBase.toNat + 32 * (t % n)) (recordBytes d it phase) d
      ferryLedger it 2 (setItem { it with stage := .recorded } { d with chans := aSet d.chans it.slot c' })

/-- Items whose records wait, oldest tide of their end first and then in order of sequence number (02 R44). -/
def recordsDue (d : Dev) : List Item :=
  sortByKey (fun it => it.endTide * 2 ^ 64 + it.seq.toNat)
    ((d.items.filter (fun i => decide (i.2.stage = .ended) && i.2.resetFlr.isNone)).map (·.2))

/-- Records that a slack has room for (02 R44). -/
def recordCap (d : Dev) : Nat := 128 * d.tide.slack

/-- Write up to `n` records; the answer is how many are left to write in this slack. -/
def writeRecords (n : Nat) (d : Dev) : Dev × Nat :=
  if pf0Requests d && !d.rst.pending then
    let rs := (recordsDue d).take n
    (rs.foldl (fun d it => writeRecord it d) d, n - rs.length)
  else (d, n)

/-- Items that ended and whose records wait are marked so in the partner's ledger (13 R455). -/
def markWaiting (d : Dev) : Dev :=
  (d.items.filter (fun i => (decide (i.2.stage = .ended) || decide (i.2.stage = .held)) && decide (i.2.endTide = d.tide.count))).foldl
    (fun d i => ferryLedger i.2 1 d) d

end Sys2Proof.Machine
end

