-- ==== Sys2Proof/Machine/Slack.lean ====
section
/-! DEFINITION. The second part of the slack (02 Table 2-2): clocks are chosen (17 R549 to R552), descriptors are consumed, checked
and admitted (03 R87, R92 to R105), the plan of the next tide is committed (02 R46), and what firmware keeps is brought up to
date. The row SLACK_START does the whole slack up to the latch guard. -/
namespace Sys2Proof.Machine
open Sys2Proof

/-! ### Power (02 R51, R52; 17 R549 to R552) -/

/-- The coolant inlet as measured: COOLANT_WARM above 40 °C, logged once per excursion (17 R549). -/
def coolant (inlet : Nat) (d : Dev) : Dev :=
  let warm := decide (400 < inlet) && inlet != 0xFFFF
  let d' := { d with tel := { d.tel with inlet := inlet, warm := warm, alert := d.tel.alert || (warm && !d.tel.warm) } }
  if warm && !d.tel.warm then logRec { sev := 3, cls := 0x0A02, code := BitVec.ofNat 32 inlet } d' else d'

/-- The effective cap in W (17 R549). -/
def effCap (d : Dev) : Nat :=
  let w := (d.tel.cap.active.extractLsb' 0 16).toNat
  let cap := max 1500 (min 4950 w)
  let excess := if d.tel.inlet = 0xFFFF then 0 else (d.tel.inlet - 400) / 10
  min cap (4950 - 100 * excess)

/-- Clock in force on a compute die, emergency throttles included. -/
def actualClock (d : Dev) (c : Nat) : Nat :=
  if d.tel.halved.contains c then ((d.tel.capped[c]?).getD 1750) / 2 else (d.tel.planned[c]?).getD 1750

/-- The prediction of 17 R550 for clocks `f` is at most num ÷ den. -/
def predictLe (d : Dev) (inp : SlackInputs) (f : List Nat) (num den : Nat) : Bool :=
  let at0 := fun (l : List Nat) (c : Nat) => (l[c]?).getD 0
  let now := fun c => max 1 (actualClock d c)
  let prod := (List.range 6).foldl (fun p c => p * now c) 1
  let base : Int := (inp.pin : Int) - ((List.range 6).foldl (fun s c => s + at0 inp.pclu c) 0 : Nat)
  let sum : Nat := (List.range 6).foldl (fun s c => s + at0 inp.pclu c * at0 f c * (prod / now c)) 0
  decide ((base * prod + sum) * den ≤ (num * prod : Nat))

/-- The grid of 02 R51, highest first. -/
def clockGrid : List Nat := (List.range 36).map (fun i => 1750 - 25 * i)

/-- Tide setting of the next tide (02 R65). -/
def nextSetting (d : Dev) : Nat × Nat :=
  match d.tide.announced with
  | some a => if a.tide ≤ d.tide.count + 1 then (a.rate, a.slack) else (d.tide.rate, d.tide.slack)
  | none => (d.tide.rate, d.tide.slack)

/-- Cluster of the core on which an instance was placed last. -/
def instCluster (d : Dev) (i : Inst) : Option Nat := (i.placed.bind (fun p => physOf d p.1)).map (·.1)

/-- Segments of a RUN item are admitted for a cluster: an instance runs there, or has been placed nowhere yet (log 49). -/
def admittedOn (d : Dev) (c : Nat) (it : Item) : Bool :=
  it.insts.any (fun x => x.2.next != 0xFFFF && (instCluster d x.2).all (· == c))

/-- The largest bound of a segment that is admitted for a cluster. -/
def largestBound (d : Dev) (c : Nat) : Nat :=
  d.items.foldl (fun m i =>
    if i.2.stage = .admitted ∧ i.2.kind = 1 ∧ admittedOn d c i.2 = true then
      (((aGet d.programs (hIdx i.2.object)).map (·.segs)).getD []).foldl (fun m g => max m g.bound) m
    else m) 0

/-- The lowest clock at which every segment admitted for a cluster fits its tide (02 R52). -/
def floorClock (d : Dev) (c : Nat) : Nat :=
  (clockGrid.reverse.find? (fun f => decide (largestBound d c ≤ windowAt f (nextSetting d).1 (nextSetting d).2))).getD 1750

/-- Clusters that capping newly holds are logged (02 R52). -/
def holdClusters (held : List Nat) (d : Dev) : Dev :=
  (held.filter (fun c => !d.tel.capHeld.contains c)).foldl (fun d c => logUnit 15 0x103 11 c c d) { d with tel := { d.tel with capHeld := held } }

/-- Firmware chooses the clocks of the next tide. -/
def powerPlan (inp : SlackInputs) (d : Dev) : Dev :=
  let cur := d.tel.capped
  let cap := effCap d
  let d :=
    if !predictLe d inp cur cap 1 then
      let want := clockGrid.find? (fun f => predictLe d inp (List.replicate 6 f) cap 1)
      let f := want.getD 875
      let d' := holdClusters ((List.range 6).filter (fun c => decide (f < floorClock d c) || want.isNone)) d
      { d' with tel := { d'.tel with
          capped := (List.range 6).map (fun c => min ((cur[c]?).getD 1750) (max f (floorClock d c))), raiseRun := 0 } }
    else
      let up := cur.map (fun x => min 1750 (x + 25))
      let d := holdClusters [] d
      if cur.all (fun x => decide (1750 ≤ x)) || !predictLe d inp up (98 * cap) 100 then { d with tel := { d.tel with raiseRun := 0 } }
      else if 16 ≤ d.tel.raiseRun + 1 then { d with tel := { d.tel with capped := up, raiseRun := 0 } }
      else { d with tel := { d.tel with raiseRun := d.tel.raiseRun + 1 } }
  let t := throttled d
  { d with tel := { d.tel with
      capping := d.tel.capped.any (fun x => decide (x < 1750))
      next := (List.range 6).map (fun c => let f := (d.tel.capped[c]?).getD 1750; if t.contains c then f / 2 else f) } }

/-- What was measured over the tide; HOT stands while a unit without a throttle is at 100 °C (17 R553). -/
def measured (inp : SlackInputs) (d : Dev) : Dev :=
  let peak := fun (old new : List Nat) => (List.range 15).map (fun i =>
    let t := (new[i]?).getD 0xFFFF
    if t = 0xFFFF then (old[i]?).getD 0 else max ((old[i]?).getD 0) t)
  coolant inp.inlet { d with tel := { d.tel with
    vin := inp.vin, iin := inp.iin, pin := inp.pin, pinPeak := max d.tel.pinPeak inp.pinPeak, pclu := inp.pclu.foldl (· + ·) 0
    temps := (List.range 15).map (fun i => (inp.temps[i]?).getD 0xFFFF), tempPeaks := peak d.tel.tempPeaks inp.temps
    hbmTemps := (List.range 24).map (fun i => (inp.hbmTemps[i]?).getD 0xFFFF), outlet := inp.outlet
    hot := d.tel.hot && (inp.temps.drop 6 ++ inp.hbmTemps).any (fun t => decide (1000 ≤ t) && t != 0xFFFF) } }

/-! ### Consumption (02 R45; 03 R87, R92; 15 R515) -/

/-- The item of a descriptor. -/
def itemOfDesc (d : Dev) (slot : Nat) (c : Chan) (b : Bytes) : Item :=
  let w := fun (o : Nat) => BitVec.ofNat 64 (fieldLe b o 8)
  let depSlot := fieldLe b 56 2
  let dep := ((d.items.reverse.find? (fun i => i.2.slot == depSlot && i.2.seq.toNat % 2 ^ 32 == fieldLe b 60 4)).map (·.1))
  { chan := chanHandle c, slot := slot, kind := c.kind, desc := b, seq := w 0, op := fieldLe b 8 1
    commitBound := bitOf (fieldLe b 9 1) 0, ordered := bitOf (fieldLe b 9 1) 1, budget := fieldLe b 10 2, step := fieldLe b 12 4
    object := w 16, arg0 := w 24, arg1 := w 32, arg2 := w 40, arg3 := w 48, order := d.nextItem, prev := c.lastOrder
    dep := if depSlot = 0xFFFF then none else some dep, consumedTide := d.tide.count }

/-- Room in the outcome ring, and in the reset ledger. -/
def mayConsume (d : Dev) (c : Chan) : Bool :=
  let left := d.items.filter (fun i => decide (i.2.stage ≠ .recorded))
  let mine := (left.filter (fun i => i.2.chan == chanHandle c)).length
  decide (mine + (c.outTail - c.outHead).toNat < 2 ^ c.outLog2) && decide (left.length + d.rst.entries.length < 131072)

/-- Firmware consumes the next descriptor of a channel and ferries its ledger entry; one whose read failed in this tide is read again
in the next slack (15 Table 15-5). -/
def consumeOne (slot : Nat) (d : Dev) : Dev :=
  match aGet d.chans slot with
  | none => d
  | some c =>
    if c.subHead == (if c.draining then c.drainTail else c.tailAtEdge) || d.ras.hostErr.contains slot || !mayConsume d c then d
    else
      let b := hostRead d (c.subBase.toNat + 64 * (c.subHead.toNat % 2 ^ c.subLog2)) 64
      let it := itemOfDesc d slot c b
      let c' : Chan := { c with subHead := c.subHead + 1, lastSeq := it.seq, lastOrder := some it.order }
      let fseq := d.pair.fseq
      let d := { d with nextItem := d.nextItem + 1, chans := aSet d.chans slot c' }
      let it := { it with ledgerFseq := if paired d then some fseq else none }
      ferryLedger it 0 (setItem it d)

/-- All channels in ascending slot, while PF0 requests are allowed. -/
def consumeAll (d : Dev) : Dev :=
  if !pf0Requests d || d.rst.pending then d
  else (d.chans.map (fun c => (c.1, ((if c.2.draining then c.2.drainTail else c.2.tailAtEdge) - c.2.subHead).toNat))).foldl
    (fun d x => (List.range x.2).foldl (fun d _ => consumeOne x.1 d) d) d

/-! ### Checks (03 R102; 09 R296, R302, R304; 13 Table 13-6) -/

/-- A handle field of a descriptor. -/
def descHandle (it : Item) (off : Nat) : BitVec 64 := BitVec.ofNat 64 (fieldLe it.desc off 8)

/-- Step 4: handles in ascending offset. -/
def badItemHandle (d : Dev) (it : Item) : Option (Nat × Nat) :=
  (itemFields it.kind it.op).findSome? (fun f =>
    let h := descHandle it f.1
    if (h == 0 && f.2.2) || handleOk d f.2.1 h then none
    else if f.1 = 16 ∧ handleLive d h = true ∧ hKind h ≠ f.2.1 ∧ 2 ≤ hKind h ∧ hKind h ≤ 5 then some (rWrongChannel, 16)
    else some (rBadHandle, f.1))

/-- Step 6: STEP. -/
def badItemStep (d : Dev) (it : Item) : Option (Nat × Nat) :=
  if it.kind = 5 ∧ it.step = 0 then some (rBadField, 12)
  else if it.step ≠ 0 ∧ ofStep d it = false then some (rBadField, 12)
  else if it.kind = 5 ∧ it.op = 2 ∧ d.step.sealReq.isSome = true then some (rInUse, 12)
  else if it.step ≠ 0 ∧ it.kind ≠ 5 ∧ d.step.isSealed = true then some (rNotAllowed, 12)
  else none

/-- The first check of R102 that an item fails: reason and offset. -/
def itemCheck (d : Dev) (it : Item) : Option (Nat × Nat) :=
  let spare := (d.spare.state == 1 || d.spare.state == 2 || d.spare.state == 3) && !d.spare.reentry
  let own := ([(9, 0xFC), (58, 0xFF), (59, 0xFF)] : List (Nat × Nat)).find? (fun x => (fieldLe it.desc x.1 1) &&& x.2 != 0)
  if spare then some (rNotAllowed, Config.noField 0 rNotAllowed)
  else match own with
    | some x => some (rReserved, x.1)
    | none =>
      if !opDefined it.kind it.op then some (rBadOpcode, 8)
      else match (itemReserved it.kind it.op).find? (fun x => (fieldLe it.desc x.1 1) &&& x.2 != 0) with
        | some x => some (rReserved, x.1)
        | none =>
          match badItemHandle d it with
          | some x => some x
          | none =>
            if (it.prev.bind (fun p => (aGet d.items p).map (·.seq))).any (fun q => decide (it.seq ≤ q)) then some (rBadSeq, 0)
            else match badItemStep d it with
              | some x => some x
              | none =>
                match it.kind with
                | 1 => if it.arg1.toNat = 0 ∨ 65536 < it.arg1.toNat then some (rBadField, 32) else none
                | 2 => if slvCount it = 0 then some (rBadField, 48) else none
                | 3 => transferBad d it
                | 4 => if it.arg1.toNat % 64 ≠ 0 then some (rBadField, 32) else none
                | _ => none

/-- A refused item ends in this slack. -/
def refuseItem (it : Item) (reason off : Nat) (d : Dev) : Dev := endItem it 0x30 (reason * 65536 + off % 65536) d

/-- The descriptors consumed in this slack are checked. -/
def checkNew (d : Dev) : Dev :=
  let new := (d.items.filter (fun i => decide (i.2.stage = .consumed) && decide (i.2.consumedTide = d.tide.count) && !i.2.work)).map (·.1)
  new.foldl (fun d o =>
    match aGet d.items o with
    | none => d
    | some it =>
      if (aGet d.chans it.slot).any (·.draining) then d
      else match itemCheck d it with
        | some x => refuseItem it x.1 x.2 d
        | none => if it.kind = 5 ∧ it.op = 2 then { d with step := { d.step with sealReq := some o } } else d) d

/-! ### Admission (03 R95, R103 to R105; 09 R294, R310, R314; 12 R406; 13 R448, R455; 14 R485; 15 R505) -/

/-- What an awaited item says: none while it has not ended. -/
def awaited (d : Dev) (o : Nat) : Option Bool :=
  match aGet d.items o with
  | some x => if x.stage = .consumed ∨ x.stage = .admitted then none else some (decide (x.status.toNat < 16))
  | none => some false

/-- The waits of 03 R95: refused at an offset, or waiting, or free. -/
def orderWait (d : Dev) (it : Item) : Option Nat × Bool :=
  let prev := if it.ordered then it.prev.map (awaited d) else none
  let dep := it.dep.map (fun x => match x with | some o => awaited d o | none => some false)
  if prev = some (some false) then (some 9, false)
  else if prev = some none then (none, true)
  else if dep = some (some false) then (some 56, false)
  else if dep = some none then (none, true)
  else (none, false)

def admittedCount (d : Dev) (coll : Bool) : Nat :=
  (d.items.filter (fun i => decide (i.2.stage = .admitted) && (!coll || i.2.kind == 4))).length

/-- Reasons to wait that are not of the item's order. -/
def mustWait (d : Dev) (it : Item) : Bool :=
  decide (d.tide.lost = 2) || d.rst.pending
  || d.items.any (fun i => decide (i.1 < it.order) && i.2.chan == it.chan && decide (i.2.stage = .consumed))
  || (ofStep d it && (decide (d.tide.count + 1 < d.step.flipTide) || (d.step.state == .scheduled && decide (d.tide.count + 1 < d.step.startTide))))
  || decide (65536 ≤ admittedCount d false)
  || (it.kind == 4 && (d.tide.holdover || decide (64 ≤ admittedCount d true)))
  || (paired d && !d.lnk.lostPos.contains d.pair.partner && it.ledgerFseq.isSome && !it.ledgerAck)
  || ((it.kind == 1 || it.kind == 2) && decide (6 ≤ d.tel.capHeld.length))
  || (it.kind == 3 && it.op != 3 && !pf0Requests d)
  || (it.kind == 2 && solverWaits d it)

/-- What a handle names is lost: a tensor (03 R103), or a factor or warm-start set, which is refused as a tensor is (log 13). -/
def handleLost (d : Dev) (kind i : Nat) : Bool :=
  match kind with
  | 2 => (aGet d.tensors i).any (·.lost)
  | 6 => (aGet d.factors i).any (·.lost)
  | 7 => (aGet d.warms i).any (·.lost)
  | _ => false

/-- Handles and lost tensors again at admission (03 R103). -/
def admitHandles (d : Dev) (it : Item) : Option (Nat × Nat) :=
  (itemFields it.kind it.op).findSome? (fun f =>
    let h := descHandle it f.1
    if h == 0 && f.2.2 then none
    else if !handleOk d f.2.1 h then some (rBadHandle, f.1)
    else if handleLost d f.2.1 (hIdx h) then some (rTensorLost, f.1)
    else none)

/-- Exponents in force (09 R314). -/
def scalesNow (d : Dev) : Assoc Int := d.tensors.filterMap (fun t => t.2.scale.map (fun r => (t.1, r.exp)))

/-- The first admission of a step captures its loss scale and its exponents (09 R310, R314). -/
def capture (it : Item) (d : Dev) : Dev :=
  if it.step ≠ 0 ∧ d.step.captured = false then
    { d with step := { d.step with captured := true, lossExp := d.loss.exp, scaleExps := scalesNow d } }
  else d

/-- The item is admitted: its first tide is the next. -/
def admitNow (it : Item) (d : Dev) : Dev :=
  let d := capture it d
  let it := { it with stage := .admitted, admTide := d.tide.count + 1
                      lossExp := if it.step ≠ 0 then d.step.lossExp else d.loss.exp
                      scaleExps := if it.step ≠ 0 then [] else scalesNow d }
  let it := if it.kind = 1 then runSetup d it else it
  let d := setItem it d
  if it.kind = 4 then sendJoin it d else d

/-- One consumed item: refused, admitted, or left to wait. -/
def admitOne (o : Nat) (d : Dev) : Dev :=
  match aGet d.items o with
  | none => d
  | some it =>
    if it.stage ≠ .consumed then d
    else
      let w := orderWait d it
      if mustWait d it then d
      else match w.1 with
        | some off => refuseItem it rDepFailed off d
        | none =>
          if w.2 then d
          else match admitHandles d it with
            | some x => refuseItem it x.1 x.2 d
            | none =>
              if it.step ≠ 0 ∧ ofStep d it = false then refuseItem it rBadField 12 d
              else
                let r := match it.kind with
                  | 2 => solverAdmit d it
                  | 4 => launchAdmit d it
                  | 5 => if it.op = 1 then updateAdmit d it else .taken d it
                  | _ => .taken d it
                match r with
                | .taken d it => admitNow it d
                | .wait d => d
                | .refuse reason off => refuseItem it reason off d
                | .fail d st det => endItem it st det d

def admitAll (d : Dev) : Dev :=
  ((d.items.filter (fun i => decide (i.2.stage = .consumed))).map (·.1)).foldl (fun d o => admitOne o d) d

/-! ### The plan of the next tide (02 R46) -/

/-- Working window of a compute die at the clock planned for it (02 R36). -/
def windowOf (d : Dev) (cl : Nat) : Nat :=
  let w := windowAt ((d.tel.capped[cl]?).getD 1750) (nextSetting d).1 (nextSetting d).2
  if (throttled d).contains cl then w / 2 else w

def boundOf (d : Dev) (o seg : Nat) : Nat :=
  let prog := ((aGet d.items o).map (fun i => hIdx i.object)).getD 0
  (((((aGet d.programs prog).getD {}).segs)[seg]?).getD {}).bound

/-- Cycles that are planned on a physical core. -/
def loadOf (d : Dev) (u : Nat × Nat) : Nat :=
  (servedBy d u).foldl (fun s l => (((aGet d.cores l).map (·.plan)).getD []).foldl (fun s p => s + boundOf d p.1 p.2.2) s) 0

/-- The solver problems that a physical core holds. -/
def heldOn (d : Dev) (u : Nat × Nat) : List (Nat × Nat) := (servedBy d u).flatMap (fun l => ((aGet d.cores l).map (·.heldBy)).getD [])

/-- Whether a segment of a bound still fits a logical core in the next tide (02 R46), and the core's cluster. A core whose fill
ends only in that tide has its window less the fill time that remains (14 R481). -/
def fitsOn (d : Dev) (inp : SlackInputs) (l bound : Nat) : Option (Nat × Bool) :=
  match d.units.fills.find? (fun f => f.l == l) with
  | some f =>
    match aGet inp.fillLeft l with
    | some ns =>
      let load := (((aGet d.cores l).map (·.plan)).getD []).foldl (fun s p => s + boundOf d p.1 p.2.2) 0
      let late := ceilDiv (ns * (d.tel.next[f.cl]?).getD 1750) 1000
      some (f.cl, decide (f.p ≠ fillWaits) && decide (load + bound + late ≤ windowOf d f.cl))
    | none => none
  | none => (physOf d l).map (fun u => (u.1, (heldOn d u).isEmpty && decide (loadOf d u + bound ≤ windowOf d u.1)))

/-- The instance waits to run again on the core it stopped on. -/
def redoes (d : Dev) (o i : Nat) : Bool := d.cores.any (fun c => c.2.redo.any (fun r => r.1 == o && r.2.1 == i))

/-- An item may use a cluster that capping holds only where it was admitted to it before (02 R52). -/
def clusterOpen (d : Dev) (it : Item) (cl : Nat) : Bool :=
  let there := it.insts.any (fun x => instCluster d x.2 == some cl) || it.probs.any (fun p => (p.2.core.bind (physOf d)).any (fun u => u.1 == cl))
  let somewhere := it.insts.any (fun x => x.2.placed.isSome) || it.probs.any (fun p => p.2.core.isSome)
  !d.tel.capHeld.contains cl || there || (!somewhere && decide (it.admTide ≤ d.tide.count))

/-- The item can be placed in the next tide. -/
def itemOpen (it : Item) : Bool := decide (it.stage = .admitted) && decide (it.status.toNat < 16) && !it.work

/-- Put an instance's segment on a core. -/
def putSegment (l o i seg : Nat) (d : Dev) : Dev :=
  { d with
    cores := aMod (if (aGet d.cores l).isSome then d.cores else aSet d.cores l {}) l (fun c => { c with plan := c.plan ++ [(o, i, seg)] })
    items := aMod d.items o (fun it => { it with insts := aMod it.insts i (fun x => { x with placed := some (l, d.tide.count + 1) }) }) }

/-- Segments that wait to run again on a core, in order, before anything new: those whose items have ended drop out, and from the
first that does not fit on, they wait for the tide after (05 R157, 14 R481). -/
def placeRedo (inp : SlackInputs) (l : Nat) : List (Nat × Nat × Nat) → Dev → Dev
  | [], d => { d with cores := aMod d.cores l (fun c => { c with redo := [] }) }
  | r :: t, d =>
    let open_ := (aGet d.items r.1).any (fun it => itemOpen it && (aGet it.insts r.2.1).any (fun x => x.next == r.2.2))
    if !open_ then placeRedo inp l t d
    else if (fitsOn d inp l (boundOf d r.1 r.2.2)).any (·.2) then placeRedo inp l t (putSegment l r.1 r.2.1 r.2.2 d)
    else { d with cores := aMod d.cores l (fun c => { c with redo := r :: t }) }

/-- Problems of an item that share a core: those of a plan with a direct method, as a pack of dense problems (08 R245; log 49). -/
def packs (d : Dev) (it : Item) (held : List (Nat × Nat)) : Bool :=
  held.isEmpty || (held.all (fun h => h.1 == it.order) && decide ((planOfObj (itemPlan d it)).method ≤ 3))

/-- One placement, where it meets R46. -/
def place (inp : SlackInputs) (x : Nat × Nat × Nat × Nat) (d : Dev) : Dev :=
  let l := x.1
  let o := x.2.1
  let i := x.2.2.1
  let seg := x.2.2.2
  match aGet d.items o, fitsOn d inp l (boundOf d o seg) with
  | some it, some fit =>
    let c := (aGet d.cores l).getD {}
    if !(decide (l < numCores) && itemOpen it && clusterOpen d it fit.1 && c.redo.isEmpty) then d
    else if it.kind = 1 then
      match aGet it.insts i with
      | none => d
      | some ins =>
        if ins.next = seg ∧ seg ≠ 0xFFFF ∧ ins.placed.all (fun p => decide (p.2 ≠ d.tide.count + 1)) = true ∧ ins.fresh ≤ d.tide.count + 1
            ∧ redoes d o i = false ∧ fit.2 = true then
          putSegment l o i seg d
        else d
    else if it.kind = 2 then
      match aGet it.probs i, physOf d l with
      | some p, some u =>
        if p.core = none ∧ p.lost = none ∧ p.word = none ∧ loadOf d u = 0 ∧ packs d it (heldOn d u) = true then
          setCore l { c with heldBy := c.heldBy ++ [(o, i)] } (setItem { it with probs := aSet it.probs i { p with core := some l } } d)
        else d
      | _, _ => d
    else d
  | _, _ => d

/-- The hint that an item follows: its channel's, else its program's (03 R115). -/
def hintFor (d : Dev) (it : Item) : Option Hint :=
  match ((aGet d.chans it.slot).filter (fun c => chanHandle c == it.chan)).bind (·.hint) with
  | some h => some h
  | none => if it.kind = 1 then (aGet d.programs (hIdx it.object)).bind (·.hint) else none

/-- A placement follows its item's hint, or there is none; the hint names logical clusters (01 R22). -/
def followsHint (d : Dev) (x : Nat × Nat × Nat × Nat) : Bool :=
  match (aGet d.items x.2.1).bind (hintFor d) with
  | some h => h.clusters.getLsbD (clusterOf x.1) == (h.mode == 1)
  | none => true

/-- What the next tide asks of a transfer or an update: for an update, no more than the limits of that tide leave (09 R287); the
answer counts what is planned. -/
def shareOf (d : Dev) (it : Item) (n : Nat) (u : UpdUnits) : Option Nat × UpdUnits :=
  if !itemOpen it || n = 0 then (none, u)
  else if it.kind = 3 then (some (min (it.progress + n) it.arg2.toNat), u)
  else if it.kind = 5 ∧ it.op = 1 then
    let el := tElems (tensorAt d (updH it 8))
    let first := decide (it.progress < el)
    let next := { d with upd := u, tide := { d.tide with rate := (nextSetting d).1, slack := (nextSetting d).2 } }
    let k := min (min n ((if first then el else updTotal d it) - it.progress)) (updRoom next it first)
    (if k = 0 then none else some (it.progress + k), updCount (updCost d it first) k u)
  else (none, u)

/-- The shares of the next tide. -/
def planShares (inp : SlackInputs) (d : Dev) : Dev :=
  let d := { d with items := aMap d.items (fun _ i => { i with goal := none }) }
  (inp.shares.foldl (fun (acc : Dev × UpdUnits) x =>
    match aGet acc.1.items x.1 with
    | some it =>
      let r := shareOf acc.1 it x.2 acc.2
      (setItem { it with goal := r.1.or it.goal } acc.1, r.2)
    | none => acc) (d, { late := stepIsOpen d && d.step.verdict == 0 })).1

/-- The plan of the next tide is committed: what has to run again first, then the placements that follow their hints, then the
others. -/
def commitPlan (inp : SlackInputs) (d : Dev) : Dev :=
  let d := (sortByKey id (d.cores.map (·.1))).foldl (fun d l => placeRedo inp l (((aGet d.cores l).map (·.redo)).getD []) d) d
  let xs := inp.placements.filter (followsHint d) ++ inp.placements.filter (fun x => !followsHint d x)
  planShares inp (xs.foldl (fun d x => place inp x d) d)

/-! ### What firmware brings up to date -/

/-- Records that waited for the slack. -/
def dueRecords (d : Dev) : Dev := d.ras.due.foldl (fun d r => logRec r d) { d with ras := { d.ras with due := [] } }

/-- Step-free items' amax values enter the scale records in the slack in which the items end, after its last admission: the new
exponent is in force from the edge (09 R314). -/
def scaleCommits (d : Dev) : Dev :=
  d.items.foldl (fun d i =>
    if i.2.step = 0 ∧ i.2.scaleAmax ≠ [] ∧ (i.2.stage = .ended ∨ i.2.stage = .recorded) then
      let d := setItem { i.2 with scaleAmax := [] } d
      i.2.scaleAmax.foldl (fun d a =>
        match (aGet d.tensors a.1).bind (·.scale) with
        | none => d
        | some r =>
          let fmt := ((aGet d.tensors a.1).map (·.fmt)).getD 5
          let n := scaleApply fmt { r with pending := a.2.1, pendingOf := a.2.2 }
          let n : ScaleRec := { n with pending := r.pending, pendingOf := r.pendingOf }
          let d := { d with tensors := aMod d.tensors a.1 (fun t => { t with scale := some n }) }
          if n = r then d else ferry 5 0 a.1 3 0 (scaleBytes n) d) d
    else d) d

/-- Detours for the next edge, the strait-state record, the marker tree (02 R37; 11 R394, R395). -/
def slackRoutes (d : Dev) : Dev :=
  let lost := (List.range 6).filter (fun s => (activeLinks d s).isEmpty && (neighbourOf d d.lnk.pos s).isSome)
  let d := { d with lnk := { d.lnk with detourTo := lost.map (fun s => (s, (sidestepOf d d.lnk.pos s).getD 6)) } }
  let d := if d.tide.treeStale then remakeTree d else d
  if d.lnk.straits.any (·.changed) then
    sendStraitState { d with lnk := { d.lnk with straits := d.lnk.straits.map (fun x => { x with changed := false }) } }
  else d

/-- The item waits for the partner to acknowledge its ledger entry (13 R455). -/
def awaitsAck (d : Dev) (o : Nat) : Bool :=
  match aGet d.items o with
  | some it => decide (it.stage = .consumed) && it.ledgerFseq.isSome && !it.ledgerAck
  | none => false

/-- The slack, from its start to the latch guard. -/
def slackStart (inp : SlackInputs) (d : Dev) : Dev :=
  let d := { d with tide := { d.tide with phase := .slack }, rst := { d.rst with skipSlack := false } }
  let d := gatherFlags (stopCores d)
  if !firmwareRuns d then d
  else
    let d := slackLosses (fillsAtSlack (banksAtSlack (causewaySlack (measured inp d))))
    let d := drainItems (resetHeld (slackDecision (settleLost (settleItems d))))
    let d := castVote (ferryAmax (sealStep d))
    let a := writeRecords (recordCap d) d
    let d := drainItems (consumeAll (powerPlan inp a.1))
    let d := checkNew d
    let d := commitPlan inp (if inp.planDone then admitAll d else d)
    let b := writeRecords a.2 (castVote d)
    let d := freeDrained (markWaiting { b.1 with tide := { b.1.tide with
      late := if inp.planDone then some (b.2, { inp with placements := inp.placements.filter (fun p => awaitsAck b.1 p.2.1) }) else none } })
    let d := slackRoutes (ferryChanges (dueRecords d))
    chainEvents (memSlack (ticketsAtSlack d))

/-- SLACK_START: the working window of the tide ends. -/
def execSlackStart (inp : SlackInputs) (s : State) : Res :=
  eff (fun d => if clocksRun d && d.tide.run && d.tide.phase == .work then slackStart inp d else d) s

/-! ### The latch guard (02 R43, R62) -/

/-- The admission step ends: items whose ledger entry the partner acknowledged in time are admitted and placed in this slack
(02 Table 2-2, 13 R455). -/
def lateAdmission (d : Dev) : Dev :=
  match d.tide.late with
  | none => d
  | some x =>
    let d := { d with tide := { d.tide with late := none } }
    let due := d.items.filter (fun i => decide (i.2.stage = .consumed))
    if due.isEmpty || !firmwareRuns d then d
    else
      let d := x.2.placements.foldl (fun d p => place x.2 p d) (admitAll d)
      let b := (writeRecords x.1 d).1
      due.foldl (fun d i =>
        match aGet d.items i.1 with
        | some it => if it.stage = .ended then ferryLedger it 1 d else d
        | none => d) b

/-- LATCH_GUARD: staged values freeze; nothing is admitted after it in this slack, and each channel that got a record sends its one
message (03 R88). -/
def execLatchGuard (s : State) : Res :=
  eff (fun d => if clocksRun d && d.tide.run && d.tide.phase == .slack then
      let d := lateAdmission d
      let d := if firmwareRuns d then fireChannels (scaleCommits d) else d
      { d with tide := { d.tide with phase := .guard } }
    else d) s

end Sys2Proof.Machine
end

