-- ==== Sys2Proof/Machine/Regs.lean ====
section
/-! DEFINITION. What a read of a register answers (01 Tables 1-4 to 1-14 and the register tables of the chapters that own the
blocks): one 32-bit word at an aligned offset of a function's BAR0. Unassigned offsets and write-only fields read 0 (01 R24). -/
namespace Sys2Proof.Machine
open Sys2Proof

/-- Fields at their lowest bits. -/
def pack (l : List (Nat × Nat)) : Nat := l.foldl (fun a x => a + x.1 * 2 ^ x.2) 0

/-- One bit. -/
def flag (b : Bool) (i : Nat) : Nat × Nat := (b2n b, i)

/-- A word of a byte area. -/
def areaWord (m : Mem) (off : Nat) : Nat := ofLe (memRead m off 4)

/-- A word of a byte string, 0 beyond it. -/
def bytesWord (bs : Bytes) (off : Nat) : Nat := ofLe (slice bs off 4)

/-- Low or high word of a 64-bit value: `hi` is 0 or 1. -/
def half (v hi : Nat) : Nat := v / 2 ^ (32 * hi) % 2 ^ 32

/-- A position in a register: Z, Y, X. -/
def posReg (p : Pos) : Nat := pack [(p.z % 64, 16), (p.y % 64, 8), (p.x % 64, 0)]

/-- An RWL register: the active value, or the staged one at its shadow (02 R62). -/
def rwlShadow (r : RwlReg) : Nat := (r.late.getD r.staged).toNat

/-! ### ID_ (01 Tables 1-6 to 1-14) -/

def idWord (d : Dev) (off : Nat) : Nat :=
  match off with
  | 0x000 => 0x4718A100
  | 0x004 => 0x20D0C006
  | 0x008 => 0x15100800
  | 0x00C => 0x15082418
  | 0x010 => pack [(16, 13), (18, 8), (4, 4), (6, 0)]
  | 0x014 => 0x04B006D6
  | 0x018 => idNumv
  | 0x01C => d.ophal.toNat
  | 0x020 => half d.serial.toNat 0
  | 0x024 => half d.serial.toNat 1
  | _ => 0

/-! ### TID_ (02 Tables 2-6 to 2-17) -/

def tidStatus (d : Dev) : Nat :=
  let t := d.tide
  pack [(t.depth % 256, 16), (t.dist % 256, 8), flag t.ratePending 7, flag t.decisionLost 6, flag (decide (0 < t.throttleAge)) 5
      , flag t.holdover 4, flag t.locked 3, (t.roleNow.toNat, 1), flag t.run 0]

/-- The PF0 view. -/
def tidView (d : Dev) (off : Nat) : Nat :=
  let t := d.tide
  match off with
  | 0x000 => t.count % 2 ^ 32
  | 0x004 => t.countHi.toNat
  | 0x008 => pack [(t.slack, 8), (t.rate, 0)]
  | 0x00C => tidStatus d
  | 0x010 => t.lastDecision.toNat
  | 0x014 => if d.lnk.planLoaded then closeNs t.depth else 0
  | _ => 0

/-- The control block on PF1. -/
def tidWord (d : Dev) (off : Nat) : Nat :=
  let t := d.tide
  match off with
  | 0x000 => pack [flag t.writeRejected 31, flag t.refSel 3, (t.roleCtl.toNat, 1), flag t.run 0]
  | 0x004 => posReg t.master
  | 0x008 => posReg t.backup
  | 0x00C => half t.start.toNat 0
  | 0x010 => half t.start.toNat 1
  | 0x014 => pack [(t.reqSlack, 8), (t.reqRate, 0)]
  | 0x018 => pack [(t.applyTide.toNat, 8), (t.rateState, 0)]
  | 0x020 => t.voteCfg.active.toNat
  | 0x820 => rwlShadow t.voteCfg
  | 0x024 => t.missLimit
  | 0x028 => pack [(t.throttles, 16), (t.overruns, 0)]
  | 0x030 => posReg t.replanMaster
  | 0x034 => posReg t.replanBackup
  | 0x038 => half t.replanTide.toNat 0
  | 0x03C => half t.replanTide.toNat 1
  | 0x040 => t.replanState
  | _ => 0

/-! ### Mailboxes and doorbell pages (03 Tables 3-1, 3-2, 3-11) -/

def doneMask (d : Dev) (lo : Nat) : Nat := bitMask ((List.range 32).filter (fun i => (mbx d (lo + i)).state == 2))

def mbxWord (d : Dev) (off : Nat) : Nat :=
  if off = 0x1000 then doneMask d 0
  else if off = 0x1004 then doneMask d 32
  else if off < 0x800 then
    let b := mbx d (off / 32)
    match off % 32 with
    | 4 => pack [flag b.lost 2, (b.state, 0)]
    | 8 => pack [flag b.enable 15, (b.vector.toNat, 0)]
    | 12 => b.tag.toNat
    | _ => 0
  else 0

def pageWord (d : Dev) (off : Nat) : Nat :=
  match aGet d.chans (off / 4096) with
  | none => 0
  | some c =>
    match off % 4096 with
    | 8 => c.subHead.toNat
    | 12 => c.outTail.toNat
    | 16 => pack [flag c.badIndex 2, (chanState c, 0)]
    | _ => 0

/-! ### MSI-X (15 R507) -/

def msixWord (f : PcieFn) (n off : Nat) : Nat :=
  if n * 16 ≤ off then 0
  else
    let e := msixEntry f (off / 16)
    match off % 16 with
    | 0 => half e.addr.toNat 0
    | 4 => half e.addr.toNat 1
    | 8 => e.data.toNat
    | _ => b2n e.mask

def pbaWord (f : PcieFn) (n off : Nat) : Nat :=
  if n ≤ 8 * off then 0 else bitMask ((List.range 32).filter (fun i => f.pba.contains (8 * off + i)))

/-! ### RAS_ (13 Tables 13-7, 13-11) -/

/-- A record's bytes. -/
def rasBytes (r : RasRec) : Bytes :=
  toLe 8 r.seq ++ toLe 8 r.tide ++ toLe 1 r.sev ++ toLe 1 r.flags.toNat ++ toLe 2 r.cls.toNat ++ toLe 1 r.unitKind
    ++ toLe 1 r.cluster.toNat ++ toLe 1 r.status.toNat ++ zeros 1 ++ toLe 4 r.logical.toNat ++ toLe 4 r.physical.toNat
    ++ toLe 4 r.step ++ toLe 4 r.code.toNat ++ toLe 8 r.object.toNat ++ toLe 16 r.detail.toNat

def rasWord (q : RasQueue) (off : Nat) : Nat :=
  if 0x100 ≤ off ∧ off < 0x140 then
    match q.recs.head? with
    | some r => bytesWord (rasBytes r) (off - 0x100)
    | none => 0
  else match off with
    | 0x000 => pack [flag q.storm 31, (q.recs.length, 0)]
    | 0x004 => q.lost
    | 0x008 => q.coalesced
    | 0x00C => pack [flag q.enable 15, (q.minSev, 11), (q.vector.toNat, 0)]
    | _ => 0

/-! ### BRG_, PWR_, FUS_, BST_ (14 Tables 14-3, 14-5, 14-8, 14-9) -/

def brgWord (d : Dev) (off : Nat) : Nat :=
  let step := fun (n : Nat) => (d.brg.steps[n - 1]?).getD {}
  if 0x014 ≤ off ∧ off ≤ 0x03C then
    let b := step ((off - 0x010) / 4)
    pack [(b.elapsed, 16), (b.cause.toNat, 8), (b.state, 0)]
  else if 0x054 ≤ off ∧ off ≤ 0x07C then (step ((off - 0x050) / 4)).detail.toNat
  else match off with
    | 0x004 => pack [flag d.brg.sparePath 10, flag d.brg.orderErr 9, flag d.brg.ready 8, (d.brg.lastPassed, 4), (d.brg.current, 0)]
    | 0x0A0 => d.brg.fwLen.toNat
    | _ => 0

def pwrWord (d : Dev) (off : Nat) : Nat :=
  match off with
  | 0x000 => d.power.on.toNat
  | 0x004 => pack [flag d.power.ramping.isSome 20, (d.power.good.toNat, 0)]
  | 0x008 => pack [flag d.power.orderErr 31, (d.power.fault.toNat, 0)]
  | _ => 0

/-- Cores of a list of (cluster, P) as the bit maps of FUS_CORE_BAD and BST_CORE_FAIL. -/
def coreMap (l : List (Nat × Nat)) (off : Nat) : Nat :=
  let c := off / 0x20
  let i := off % 0x20 / 4
  if c < 6 ∧ i < 7 then bitMask ((List.range 32).filter (fun j => decide (32 * i + j < 208) && l.contains (c, 32 * i + j))) else 0

/-- The fuse maps, loaded by step 3. -/
def fusWord (f : Fuses) (d : Dev) (off : Nat) : Nat :=
  if off = 0 then pack [flag d.brg.fusFailed 2, flag d.brg.fusCorrected 1, flag d.brg.fusLoaded 0]
  else if !d.brg.fusLoaded then 0
  else if 0x100 ≤ off ∧ off < 0x1C0 then coreMap f.coreBad (off - 0x100)
  else match off with
    | 0x200 => f.ccBad.toNat
    | 0x210 => half f.ruBad0.toNat 0
    | 0x214 => half f.ruBad0.toNat 1
    | 0x218 => half f.ruBad1.toNat 0
    | 0x21C => half f.ruBad1.toNat 1
    | _ => 0

def bstWord (d : Dev) (off : Nat) : Nat :=
  let b := d.brg
  let ru := fun (ld hi : Nat) => half (bitMask ((List.range 36).filter (fun k => b.bstRu.contains (ld, k)))) hi
  if off < 0x050 then
    let k := off / 4
    pack [((b.bstFailed[k]?).getD 0, 16), flag ((b.bstMemOk[k]?).getD false) 3, flag ((b.bstLogicOk[k]?).getD false) 2
        , ((b.bstState[k]?).getD 0, 0)]
  else if 0x100 ≤ off ∧ off < 0x380 then
    let s := (aGet b.bstSigs ((off - 0x100) / 0x20)).getD (0, 0, 0, 0)
    let v := match (off - 0x100) % 0x20 / 8 with
      | 0 => s.1
      | 1 => s.2.1
      | 2 => s.2.2.1
      | _ => s.2.2.2
    half v.toNat (off / 4 % 2)
  else if 0x1000 ≤ off ∧ off < 0x10C0 then coreMap b.bstCore (off - 0x1000)
  else match off with
    | 0x1100 => bitMask b.bstCc
    | 0x1110 => ru 0 0
    | 0x1114 => ru 0 1
    | 0x1118 => ru 1 0
    | 0x111C => ru 1 1
    | _ => 0

/-! ### ECC_ (10 Tables 10-4 to 10-7) -/

/-- Sectors that now stand poisoned on a stack (10 R347). -/
def poisonedOn (d : Dev) (k : Nat) : Nat := (d.mem.errs.filter (fun e => e.poison && keyStack d e.key == k)).length

def eccWord (d : Dev) (off : Nat) : Nat :=
  let m := d.mem
  if 0x100 ≤ off ∧ off < 0x280 then
    let k := (off - 0x100) / 16
    match off % 16 with
    | 0 => (stack d k).corrected
    | 4 => (stack d k).rebuilt
    | 8 => (stack d k).uncorr
    | _ => poisonedOn d k
  else if 0x440 ≤ off ∧ off < 0x488 then areaWord m.flipMask (off - 0x440)
  else if 0x1000 ≤ off ∧ off < 0x1080 then half ((m.log[(off - 0x1000) / 8]?).getD 0).toNat (off / 4 % 2)
  else match off with
    | 0x000 => m.ctl.active.toNat
    | 0x004 => m.scrubRate.active.toNat
    | 0x008 => m.hotCfg.active.toNat
    | 0x800 => rwlShadow m.ctl
    | 0x804 => rwlShadow m.scrubRate
    | 0x808 => rwlShadow m.hotCfg
    | 0x010 => pack ((List.range 16).map (fun k => ((stack d k).state.toNat, 2 * k)))
    | 0x014 => pack ((List.range 8).map (fun k => ((stack d (16 + k)).state.toNat, 2 * k)))
    | 0x400 => pack [flag m.flipAny 7, (m.flipMd.toNat, 4), flag m.flipArm 0]
    | 0x408 => half m.flipAddr.toNat 0
    | 0x40C => half m.flipAddr.toNat 1
    | 0x410 => half m.flipSector.toNat 0
    | 0x414 => half m.flipSector.toNat 1
    | 0x418 => b2n m.flipApplied
    | 0xF00 => m.logHead
    | _ => 0

/-! ### RST_ (15 Table 15-9) -/

def rstWord (d : Dev) (off : Nat) : Nat :=
  let r := d.rst
  if 0x1000 ≤ off ∧ off < 0x2000 then
    match r.entries[r.index.toNat + (off - 0x1000) / 64]? with
    | some e => bytesWord e (off % 64)
    | none => 0
  else match off with
    | 0x000 => pack [flag r.complete 31, flag r.inProgress 30, (r.flrs, 0)]
    | 0x004 => r.entries.length
    | 0x008 => r.index.toNat
    | 0x010 => pack [flag r.enable 15, (r.vector.toNat, 0)]
    | _ => 0

/-! ### LNK_ (11 Tables 11-9 to 11-12) -/

def straitState (d : Dev) (st : Nat) : Nat :=
  let n := (activeLinks d st).length
  if n = 4 then 2
  else if 0 < n then 1
  else if (List.range 4).any (fun ln => (linkOf d st ln).state == 8) then 3
  else 0

def straitWord (d : Dev) (st off : Nat) : Nat :=
  let x := straitOf d st
  match off with
  | 0x00 => pack [flag x.detour 6, (straitState d st, 4), (bitMask (activeLinks d st), 0)]
  | 0x04 => pack [flag x.neighValid 31, (posReg x.neigh, 0)]
  | 0x08 => half x.serial.toNat 0
  | 0x0C => half x.serial.toNat 1
  | 0x10 => pack [(x.wrap.toNat, 24), (x.numv.toNat, 16), (x.partId.toNat, 0)]
  | _ => 0

def linkWord (d : Dev) (st ln off : Nat) : Nat :=
  let k := linkOf d st ln
  if 0x020 ≤ off ∧ off < 0x030 then pack ((List.range 4).map (fun i => ((k.rxMap[off - 0x020 + i]?).getD 0, 8 * i)))
  else if 0x100 ≤ off ∧ off < 0x190 then half ((k.laneErr[(off - 0x100) / 8]?).getD 0) (off / 4 % 2)
  else match off with
    | 0x000 => pack [(k.cause, 8), (k.state, 0)]
    | 0x008 => min k.delay 0xFFF
    | 0x010 => pack ((List.range 16).map (fun i => ((k.cls[i]?).getD 3, 2 * i)))
    | 0x014 => pack ((List.range 2).map (fun i => ((k.cls[16 + i]?).getD 3, 2 * i)))
    | 0x030 => k.crcErr
    | 0x034 => k.replays
    | 0x038 => k.fecUncorr
    | 0x03C => (holmLanes k).length
    | 0x040 => half k.bits 0
    | 0x044 => half k.bits 1
    | _ => 0

def lnkWord (d : Dev) (off : Nat) : Nat :=
  let l := d.lnk
  if 0x100 ≤ off ∧ off < 0x1C0 then straitWord d ((off - 0x100) / 0x20) (off % 0x20)
  else if 0x1000 ≤ off ∧ off < 0x4000 then linkWord d ((off - 0x1000) / 0x800) ((off - 0x1000) / 0x200 % 4) (off % 0x200)
  else if 0x020 ≤ off ∧ off < 0x034 then (l.vlLimit[(off - 0x020) / 4]?).getD 0
  else match off with
    | 0x000 => pack [flag l.writeRejected 31, flag l.strictSerial 1, flag l.run 0]
    | 0x004 => posReg l.pos
    | 0x008 => pack [(l.wrap.toNat, 24), (l.dim.z % 128, 16), (l.dim.y % 128, 8), (l.dim.x % 128, 0)]
    | 0x00C => l.partId.toNat
    | 0x014 => pack [(l.extra.toNat, 24), (l.wrong.toNat, 16), (l.missing.toNat, 8), (l.refuse, 4), (l.planState, 0)]
    | 0x018 => l.qualWindow
    | 0x040 => l.drop
    | 0x044 => pack [flag l.dropValid 31, (posReg l.dropSrc, 0)]
    | _ => 0

/-! ### FRZ_, SEC_, TEL_ (14 Table 14-16; 16 Table 16-11; 17 Table 17-12) -/

def frzWord (d : Dev) (off : Nat) : Nat :=
  let z := d.frz
  if 0x8000 ≤ off ∧ off < 0x10000 then ofLe ((List.range 4).map (fun i => frzData d z.sel z.off (off - 0x8000 + i)))
  else match off with
    | 0x000 => pack [flag z.jtagEn 4, flag z.pinEnable 3, flag z.pinPropagate 2, flag z.propagate 1]
    | 0x004 => pack [flag z.late 3, (z.source, 1), flag z.frozen 0]
    | 0x008 => half z.tide.toNat 0
    | 0x00C => half z.tide.toNat 1
    | 0x010 => z.sel.toNat
    | 0x014 => z.off.toNat
    | 0x018 => Config.frozenLen z.sel % 2 ^ 32
    | _ => 0

def secWord (f : Fuses) (d : Dev) (off : Nat) : Nat :=
  let s := d.sec
  if 0x100 ≤ off ∧ off < 0x160 then (if d.brg.fusLoaded then bytesWord (keyHash f ((off - 0x100) / 0x20)) (off % 0x20) else 0)
  else if 0x200 ≤ off ∧ off < 0x280 then bytesWord (measure d ((off - 0x200) / 0x20)) (off % 0x20)
  else if 0x1000 ≤ off ∧ off < 0x2000 then areaWord s.req (off - 0x1000)
  else if 0x8000 ≤ off ∧ off < 0x10000 then areaWord s.rsp (off - 0x8000)
  else match off with
    | 0x000 => pack [(s.imageReason, 16), (s.imageSlot, 14), flag s.attestReady 7, flag s.identityOk 6, (lifecycle f, 4)
                   , flag s.cmdLost 3, (s.state, 0)]
    | 0x008 => pack [flag s.enable 15, (s.vector.toNat, 0)]
    | 0x010 => pack [(f.revoked.toNat, 16), (f.floor, 8), (s.imageSvn, 0)]
    | 0x014 => s.nEvents % 2 ^ 32
    | _ => 0

def telStatus (d : Dev) : Nat :=
  let t := d.tel
  pack [(t.feedId.toNat, 8), flag t.hot 7, flag t.refLost 6, flag (!t.trips.isEmpty) 5, flag t.elec 4, flag t.warm 3, flag t.vinHigh 2
      , flag t.vinLow 1, flag t.capping 0]

/-- Domain of die d (01 Table 1-1, 17 R560). -/
def dieDomain (i : Nat) : Nat := i

/-- A temperature reads 0xFFFF while its domain is off (17 R560). -/
def dieTemp (d : Dev) (i : Nat) : Nat := if d.power.good.getLsbD (dieDomain i) then (d.tel.temps[i]?).getD 0xFFFF else 0xFFFF
def hbmTemp (d : Dev) (k : Nat) : Nat := if d.power.good.getLsbD (17 + k / 8) then (d.tel.hbmTemps[k]?).getD 0xFFFF else 0xFFFF

def telWord (d : Dev) (off : Nat) : Nat :=
  let t := d.tel
  if 0x040 ≤ off ∧ off < 0x058 then
    let c := (off - 0x040) / 4
    pack [(actualClock d c, 16), ((t.planned[c]?).getD 1750, 0)]
  else if 0x080 ≤ off ∧ off < 0x0BC then
    let i := (off - 0x080) / 4
    pack [((t.tempPeaks[i]?).getD 0 % 65536, 16), (dieTemp d i % 65536, 0)]
  else if 0x0C0 ≤ off ∧ off < 0x120 then hbmTemp d ((off - 0x0C0) / 4) % 65536
  else match off with
    | 0x000 => telStatus d
    | 0x010 => t.cap.active.toNat
    | 0x810 => rwlShadow t.cap
    | 0x014 => effCap d
    | 0x020 => t.vin % 65536
    | 0x024 => t.iin % 65536
    | 0x028 => t.pin % 65536
    | 0x02C => t.pinPeak % 65536
    | 0x030 => t.pclu % 65536
    | 0x120 => pack [(t.outlet % 65536, 16), (t.inlet % 65536, 0)]
    | 0x124 => pack [(t.elecTrips, 16), (t.thermTrips, 0)]
    | 0x128 => d.flash.lastOff.toNat
    | _ => 0

/-! ### The two BAR0 maps (01 Tables 1-4, 1-5) -/

/-- A word of PF0 BAR0. -/
def readPf0 (d : Dev) (off : Nat) : Nat :=
  if off < 0x1000 then idWord d off
  else if off < 0x2000 then tidView d (off - 0x1000)
  else if d.frz.frozen || off < 0x10000 then 0
  else if off < 0x20000 then mbxWord d (off - 0x10000)
  else if off < 0x120000 then areaWord (mbx d ((off - 0x20000) / 16384)).req ((off - 0x20000) % 16384)
  else if 0x200000 ≤ off ∧ off < 0x210000 then rasWord d.ras.pf0 (off - 0x200000)
  else if 0x300000 ≤ off ∧ off < 0x308000 then msixWord d.pf0 2048 (off - 0x300000)
  else if 0x308000 ≤ off ∧ off < 0x308100 then pbaWord d.pf0 2048 (off - 0x308000)
  else if 0x400000 ≤ off ∧ off < 0x500000 then areaWord (mbx d ((off - 0x400000) / 16384)).rsp ((off - 0x400000) % 16384)
  else if 0x1000000 ≤ off ∧ off < 0x2000000 then pageWord d (off - 0x1000000)
  else 0

/-- While frozen, PF1 answers for ID_, PWR_, BRG_ and FRZ_ only (14 R491). -/
def answersFrozen (off : Nat) : Bool := decide (off < 0x4000) || (decide (0x30000 ≤ off) && decide (off < 0x40000))

/-- A word of PF1 BAR0. -/
def readPf1 (f : Fuses) (d : Dev) (off : Nat) : Nat :=
  if off < 0x1000 then idWord d off
  else if off < 0x2000 then brgWord d (off - 0x1000)
  else if off < 0x4000 then pwrWord d (off - 0x2000)
  else if off < 0x8000 then fusWord f d (off - 0x4000)
  else if off < 0x10000 then bstWord d (off - 0x8000)
  else if off < 0x18000 then eccWord d (off - 0x10000)
  else if off < 0x1C000 then rasWord d.ras.pf1 (off - 0x18000)
  else if off < 0x1F000 then rstWord d (off - 0x1C000)
  else if off < 0x1F400 then msixWord d.pf1 64 (off - 0x1F000)
  else if 0x1F800 ≤ off ∧ off < 0x1F808 then pbaWord d.pf1 64 (off - 0x1F800)
  else if 0x20000 ≤ off ∧ off < 0x28000 then lnkWord d (off - 0x20000)
  else if 0x28000 ≤ off ∧ off < 0x30000 then tidWord d (off - 0x28000)
  else if 0x30000 ≤ off ∧ off < 0x40000 then frzWord d (off - 0x30000)
  else if 0x40000 ≤ off ∧ off < 0x50000 then secWord f d (off - 0x40000)
  else if 0x50000 ≤ off ∧ off < 0x60000 then telWord d (off - 0x50000)
  else 0

/-! ### Read-clear fields (00 R8; 10 R347) -/

def clearRas (q : RasQueue) (off : Nat) : RasQueue :=
  if off = 4 then { q with lost := 0 } else if off = 8 then { q with coalesced := 0 } else q

def clearStack (x : Stack) (off : Nat) : Stack :=
  match off with
  | 0 => { x with corrected := 0 }
  | 4 => { x with rebuilt := 0 }
  | 8 => { x with uncorr := 0 }
  | _ => x

def clearLink (k : Link) (off : Nat) : Link :=
  match off with
  | 0x030 => { k with crcErr := 0 }
  | 0x034 => { k with replays := 0 }
  | 0x038 => { k with fecUncorr := 0 }
  | _ => k

def clearTel (off : Nat) (d : Dev) : Dev :=
  if off = 0x02C then { d with tel := { d.tel with pinPeak := 0 } }
  else if off = 0x124 then { d with tel := { d.tel with elecTrips := 0, thermTrips := 0 } }
  else if 0x080 ≤ off ∧ off < 0x0BC then { d with tel := { d.tel with tempPeaks := setAt d.tel.tempPeaks ((off - 0x080) / 4) 0 } }
  else d

/-- What a read of PF0 clears. -/
def clearPf0 (off : Nat) (d : Dev) : Dev :=
  if !d.frz.frozen ∧ 0x200000 ≤ off ∧ off < 0x210000 then
    { d with ras := { d.ras with pf0 := clearRas d.ras.pf0 (off - 0x200000) } }
  else d

/-- What a read of PF1 clears. -/
def clearPf1 (off : Nat) (d : Dev) : Dev :=
  if 0x10100 ≤ off ∧ off < 0x10280 then onStack ((off - 0x10100) / 16) (fun x => clearStack x (off % 16)) d
  else if 0x18000 ≤ off ∧ off < 0x1C000 then { d with ras := { d.ras with pf1 := clearRas d.ras.pf1 (off - 0x18000) } }
  else if off = 0x20040 then { d with lnk := { d.lnk with drop := 0 } }
  else if 0x21000 ≤ off ∧ off < 0x24000 then
    let st := (off - 0x21000) / 0x800
    let ln := (off - 0x21000) / 0x200 % 4
    setLink st ln (clearLink (linkOf d st ln) (off % 0x200)) d
  else if off = 0x28028 then { d with tide := { d.tide with throttles := 0, overruns := 0 } }
  else if 0x50000 ≤ off ∧ off < 0x60000 then clearTel (off - 0x50000) d
  else d

/-- The answer of a read: data and completion. -/
def answered (v : Nat) (d : Dev) : Dev := { d with out := { d.out with rd := BitVec.ofNat 64 v, cpl := 1 } }

/-- A function that does not take the request: Unsupported Request while Memory Space Enable is 0 or in D3hot (PRESUMED, log 25),
no answer while the device cannot answer at all. -/
def unanswered (fn : PcieFn) (up : Bool) (d : Dev) : Dev :=
  { d with out := { d.out with cpl := if up && (!fn.memEnable || fn.d3) then 2 else 0 } }

/-- A read of the 32-bit word that holds an offset (15 R501). -/
def execRcRegisterRead (pf off : Nat) (s : State) : Res :=
  eff (fun d =>
    let o := off / 4 * 4
    if pf = 0 then
      if !pf0Up d then unanswered d.pf0 (isOn d && !d.rst.pending && !d.rst.hostDown) d
      else clearPf0 o (answered (readPf0 d o) (if o = 0x1000 then { d with tide := { d.tide with countHi := BitVec.ofNat 32 (d.tide.count / 2 ^ 32) } } else d))
    else if pf = 1 then
      if !pf1Up d then unanswered d.pf1 (isOn d && !d.rst.hostDown) d
      else if d.frz.frozen && !answersFrozen o then { d with out := { d.out with cpl := 0 } }
      else clearPf1 o (answered (readPf1 s.fuses d o) d)
    else d) s

end Sys2Proof.Machine
end

