-- ==== Sys2Proof/Machine/RegWrites.lean ====
section
/-! DEFINITION. Register writes (15 R501; 00 R8; 02 R61 to R64): one 32-bit word at an aligned offset of a function's BAR0, acting under
the access kind of each field, and the rows for the RAS queues, the reset ledger and MSI-X. -/
namespace Sys2Proof.Machine
open Sys2Proof

/-- The position in a written register. -/
def posOfReg (v : BitVec 32) : Pos := { x := bitsOf v.toNat 0 6, y := bitsOf v.toNat 8 6, z := bitsOf v.toNat 16 6 }

/-- A 64-bit value with one word replaced: `hi` is 0 or 1. -/
def setHalf (old : BitVec 64) (hi : Nat) (v : BitVec 32) : BitVec 64 :=
  if hi = 0 then (old.extractLsb' 32 32) ++ v else v ++ (old.extractLsb' 0 32)

/-! ### MSI-X (15 R508) -/

/-- Vectors that are pending and no longer masked fire their one message, in ascending order. -/
def firePending0 (d : Dev) : Dev :=
  (sortByKey id d.pf0.pba).foldl (fun d v => if msixMasked d.pf0 v then d else fire0 v { d with pf0 := { d.pf0 with pba := d.pf0.pba.filter (· != v) } }) d
def firePending1 (d : Dev) : Dev :=
  (sortByKey id d.pf1.pba).foldl (fun d v => if msixMasked d.pf1 v then d else fire1 v { d with pf1 := { d.pf1 with pba := d.pf1.pba.filter (· != v) } }) d

/-- A table entry; the default entry is not listed. -/
def setEntry (v : Nat) (e : MsixEntry) (f : PcieFn) : PcieFn := { f with table := if e = {} then aDel f.table v else aSet f.table v e }

/-- A write of a word of an MSI-X table of `n` entries. -/
def writeEntry (n off : Nat) (v : BitVec 32) (f : PcieFn) : PcieFn :=
  if n * 16 ≤ off then f
  else
    let e := msixEntry f (off / 16)
    setEntry (off / 16) (match off % 16 with
      | 0 => { e with addr := setHalf e.addr 0 v }
      | 4 => { e with addr := setHalf e.addr 1 v }
      | 8 => { e with data := v }
      | _ => { e with mask := v.getLsbD 0 }) f

def msixWrite0 (off : Nat) (v : BitVec 32) (d : Dev) : Dev := firePending0 { d with pf0 := writeEntry 2048 off v d.pf0 }
def msixWrite1 (off : Nat) (v : BitVec 32) (d : Dev) : Dev := firePending1 { d with pf1 := writeEntry 64 off v d.pf1 }

/-- The function takes writes outside the blocks that a freeze leaves open. -/
def pf0Writes (d : Dev) : Bool := pf0Up d && !d.frz.frozen

/-- MSIX_UNMASK: the vector's mask bit is cleared. -/
def execMsixUnmask (pf vec : Nat) (s : State) : Res :=
  eff (fun d =>
    if pf = 0 ∧ vec < 2048 ∧ pf0Writes d = true then firePending0 { d with pf0 := setEntry vec { msixEntry d.pf0 vec with mask := false } d.pf0 }
    else if pf = 1 ∧ vec < 64 ∧ pf1Open d = true then firePending1 { d with pf1 := setEntry vec { msixEntry d.pf1 vec with mask := false } d.pf1 }
    else d) s

/-! ### RAS_ (13 R464, Table 13-11) -/

/-- STORM is cleared while the queue holds 128 records or fewer. -/
def clearStorm (q : RasQueue) : RasQueue := if q.recs.length ≤ 128 then { q with storm := false } else q

/-- The oldest record leaves. -/
def popRas (q : RasQueue) : RasQueue := { q with recs := q.recs.drop 1 }

/-- A write of a RAS_ register. -/
def writeRas (off : Nat) (v : BitVec 32) (q : RasQueue) : RasQueue :=
  match off with
  | 0x000 => if v.getLsbD 31 then clearStorm q else q
  | 0x00C => { q with enable := v.getLsbD 15, minSev := bitsOf v.toNat 11 4, vector := v.extractLsb' 0 11 }
  | 0x010 => if v.getLsbD 0 then popRas q else q
  | _ => q

/-- A write to the queue of a function. -/
def onRas (pf : Nat) (f : RasQueue → RasQueue) (d : Dev) : Dev :=
  if pf = 0 ∧ pf0Writes d = true then { d with ras := { d.ras with pf0 := f d.ras.pf0 } }
  else if pf = 1 ∧ pf1Open d = true then { d with ras := { d.ras with pf1 := f d.ras.pf1 } }
  else d

def execRasPop (pf : Nat) (s : State) : Res := eff (onRas pf popRas) s
def execStormClear (pf : Nat) (s : State) : Res := eff (onRas pf clearStorm) s

/-! ### RST_ (15 Table 15-9) -/

/-- RST_CLEAR releases every entry of a complete ledger. -/
def clearLedger (d : Dev) : Dev := if d.rst.complete && !d.rst.inProgress then { d with rst := { d.rst with entries := [] } } else d
def execRstClear (s : State) : Res := eff (fun d => if pf1Open d then clearLedger d else d) s

def writeRst (off : Nat) (v : BitVec 32) (d : Dev) : Dev :=
  match off with
  | 0x008 => { d with rst := { d.rst with index := v } }
  | 0x00C => if v.getLsbD 0 then clearLedger d else d
  | 0x010 => { d with rst := { d.rst with enable := v.getLsbD 15, vector := v.extractLsb' 0 6 } }
  | _ => d

/-! ### TID_ and LNK_: RWS fields (02 R64; 11 R399) -/

/-- An RWS register of the TID_ block. -/
def tidRws (off : Nat) (same : Bool) (f : TideBlock → TideBlock) (d : Dev) : Dev :=
  if same then d else if d.tide.run then rejectTid off d else { d with tide := f d.tide }

/-- A write of a register of the TID_ control block. -/
def writeTid (off : Nat) (v : BitVec 32) (d : Dev) : Dev :=
  let p := posOfReg v
  let t := d.tide
  match off with
  | 0x000 => if clocksRun d then tidCtlWrite v d else d
  | 0x004 => tidRws off (t.master == p) (fun t => { t with master := p }) d
  | 0x008 => tidRws off (t.backup == p) (fun t => { t with backup := p }) d
  | 0x00C => tidRws off (setHalf t.start 0 v == t.start) (fun t => { t with start := setHalf t.start 0 v }) d
  | 0x010 => tidRws off (setHalf t.start 1 v == t.start) (fun t => { t with start := setHalf t.start 1 v }) d
  | 0x014 => if clocksRun d then rateReqWrite v d else d
  | 0x020 => { d with tide := { t with voteCfg := rwlWrite t.run t.phase (v &&& 0xFF#32) t.voteCfg } }
  | 0x024 => { d with tide := { t with missLimit := v.toNat % 16 } }
  | 0x030 => { d with tide := { t with replanMaster := p } }
  | 0x034 => { d with tide := { t with replanBackup := p } }
  | 0x038 => { d with tide := { t with replanTide := setHalf t.replanTide 0 v } }
  | 0x03C => { d with tide := { t with replanTide := setHalf t.replanTide 1 v } }
  | 0x040 => if v.getLsbD 31 && clocksRun d then replanGo d else d
  | _ => d

/-- An RWS register of the LNK_ block. -/
def lnkRws (off : Nat) (same : Bool) (f : LinkBlock → LinkBlock) (d : Dev) : Dev :=
  if same then d else if d.lnk.run then rejectLnk (0x20000 + off) d else { d with lnk := f d.lnk }

/-- A write of a register of the LNK_ block. -/
def writeLnk (off : Nat) (v : BitVec 32) (d : Dev) : Dev :=
  let l := d.lnk
  if 0x020 ≤ off ∧ off < 0x034 then
    let i := (off - 0x020) / 4
    let n := v.toNat % 1024
    lnkRws off ((l.vlLimit[i]?).getD 0 == n) (fun l => { l with vlLimit := setAt l.vlLimit i n }) d
  else if 0x1000 ≤ off ∧ off < 0x4000 then
    if off % 0x200 = 4 ∧ v.getLsbD 0 = true then linkRetry ((off - 0x1000) / 0x800) ((off - 0x1000) / 0x200 % 4) d else d
  else match off with
    | 0x000 => lnkCtlWrite v d
    | 0x004 => lnkRws off (l.pos == posOfReg v) (fun l => { l with pos := posOfReg v }) d
    | 0x008 =>
      let dim : Pos := { x := bitsOf v.toNat 0 7, y := bitsOf v.toNat 8 7, z := bitsOf v.toNat 16 7 }
      let wrap := v.extractLsb' 24 3
      lnkRws off (l.dim == dim && l.wrap == wrap) (fun l => { l with dim := dim, wrap := wrap }) d
    | 0x00C =>
      let id := v.extractLsb' 0 16
      lnkRws off (l.partId == id) (fun l => { l with partId := id }) d
    | 0x010 =>
      let d := if v.getLsbD 0 then planLoad d else d
      if v.getLsbD 1 then acceptDegraded d else d
    | 0x018 => lnkRws off (l.qualWindow == v.toNat % 256) (fun l => { l with qualWindow := v.toNat % 256 }) d
    | _ => d

/-! ### The other PF1 blocks -/

/-- A write of a BRG_ register (14 Table 14-5). -/
def writeBrg (off : Nat) (v : BitVec 32) (d : Dev) : Dev :=
  match off with
  | 0x000 => brgGoWrite v d
  | 0x004 => if v.getLsbD 9 then { d with brg := { d.brg with orderErr := false } } else d
  | 0x0A0 => { d with brg := { d.brg with fwLen := v.extractLsb' 0 25 } }
  | _ => d

/-- A write of a PWR_ register (14 Table 14-3). -/
def writePwr (off : Nat) (v : BitVec 32) (d : Dev) : Dev :=
  match off with
  | 0x000 => pwrWrite v d
  | 0x008 => { d with power := { d.power with orderErr := d.power.orderErr && !v.getLsbD 31, fault := d.power.fault &&& ~~~(v.extractLsb' 0 20) } }
  | _ => d

/-- A write of an ECC_ register (10 Tables 10-4, 10-7). -/
def writeEcc (off : Nat) (v : BitVec 32) (d : Dev) : Dev :=
  let m := d.mem
  let rwl := rwlWrite d.tide.run d.tide.phase
  if 0x440 ≤ off ∧ off < 0x488 then { d with mem := { m with flipMask := memWrite m.flipMask (off - 0x440) (toLe 4 v.toNat) } }
  else match off with
    | 0x000 => { d with mem := { m with ctl := rwl (v &&& 1#32) m.ctl } }
    | 0x004 => { d with mem := { m with scrubRate := rwl (v &&& 0x1F#32) m.scrubRate } }
    | 0x008 => { d with mem := { m with hotCfg := rwl (v &&& 0xFFFF3F07#32) m.hotCfg } }
    | 0x400 => { d with mem := { m with flipAny := v.getLsbD 7, flipMd := v.extractLsb' 4 3, flipArm := v.getLsbD 0 } }
    | 0x408 => { d with mem := { m with flipLow := v } }
    | 0x40C => { d with mem := { m with flipAddr := v ++ m.flipLow } }
    | 0x418 => { d with mem := { m with flipApplied := m.flipApplied && !v.getLsbD 0 } }
    | _ => d

/-- A write of an FRZ_ register (14 Table 14-16). -/
def writeFrz (off : Nat) (v : BitVec 32) (d : Dev) : Dev :=
  match off with
  | 0x000 => frzCtlWrite v d
  | 0x010 => { d with frz := { d.frz with sel := v } }
  | 0x014 => { d with frz := { d.frz with off := v } }
  | _ => d

/-- A write of a SEC_ register (16 Table 16-11). -/
def writeSec (off : Nat) (v : BitVec 32) (d : Dev) : Dev :=
  if 0x1000 ≤ off ∧ off < 0x2000 then { d with sec := { d.sec with req := memWrite d.sec.req (off - 0x1000) (toLe 4 v.toNat) } }
  else match off with
    | 0x000 => { d with sec := { d.sec with cmdLost := d.sec.cmdLost && !v.getLsbD 3 } }
    | 0x004 => secCmdWrite (v.extractLsb' 0 8) d
    | 0x008 => { d with sec := { d.sec with enable := v.getLsbD 15, vector := v.extractLsb' 0 6 } }
    | _ => d

/-- A write of a word of PF1 BAR0. -/
def writePf1 (off : Nat) (v : BitVec 32) (d : Dev) : Dev :=
  if off < 0x1000 then d
  else if off < 0x2000 then writeBrg (off - 0x1000) v d
  else if off < 0x4000 then writePwr (off - 0x2000) v d
  else if 0x10000 ≤ off ∧ off < 0x18000 then writeEcc (off - 0x10000) v d
  else if 0x18000 ≤ off ∧ off < 0x1C000 then { d with ras := { d.ras with pf1 := writeRas (off - 0x18000) v d.ras.pf1 } }
  else if 0x1C000 ≤ off ∧ off < 0x1F000 then writeRst (off - 0x1C000) v d
  else if 0x1F000 ≤ off ∧ off < 0x1F400 then msixWrite1 (off - 0x1F000) v d
  else if 0x20000 ≤ off ∧ off < 0x28000 then writeLnk (off - 0x20000) v d
  else if 0x28000 ≤ off ∧ off < 0x30000 then writeTid (off - 0x28000) v d
  else if 0x30000 ≤ off ∧ off < 0x40000 then writeFrz (off - 0x30000) v d
  else if 0x40000 ≤ off ∧ off < 0x50000 then writeSec (off - 0x40000) v d
  else if off = 0x50010 then
    { d with tel := { d.tel with cap := rwlWrite d.tide.run d.tide.phase (v &&& 0xFFFF#32) d.tel.cap } }
  else if 0x100000 ≤ off ∧ off < 0x1100000 then writeFwl (off - 0x100000) (toLe 4 v.toNat) d
  else d

/-! ### PF0 -/

/-- A write of a mailbox control register (03 Table 3-1). -/
def writeMbx (off : Nat) (v : BitVec 32) (d : Dev) : Dev :=
  let m := off / 32
  if 64 ≤ m then d
  else match off % 32 with
    | 0 => ringMailbox m v d
    | 4 => if v.getLsbD 2 then setMbx m { mbx d m with lost := false } d else d
    | 8 => setMbx m { mbx d m with enable := v.getLsbD 15, vector := v.extractLsb' 0 11 } d
    | _ => d

/-- A write of a doorbell page (03 Table 3-11). -/
def writePage (off : Nat) (v : BitVec 32) (d : Dev) : Dev :=
  let slot := off / 4096
  match off % 4096 with
  | 0 => writeSubTail slot v d
  | 4 => writeOutHead slot v d
  | 16 => if v.getLsbD 2 then { d with chans := aMod d.chans slot (fun c => { c with badIndex := false }) } else d
  | _ => d

/-- A write of a word of PF0 BAR0 outside the request areas. -/
def writePf0 (off : Nat) (v : BitVec 32) (d : Dev) : Dev :=
  if 0x10000 ≤ off ∧ off < 0x20000 then writeMbx (off - 0x10000) v d
  else if 0x200000 ≤ off ∧ off < 0x210000 then { d with ras := { d.ras with pf0 := writeRas (off - 0x200000) v d.ras.pf0 } }
  else if 0x300000 ≤ off ∧ off < 0x308000 then msixWrite0 (off - 0x300000) v d
  else if 0x1000000 ≤ off ∧ off < 0x2000000 then writePage (off - 0x1000000) v d
  else d

/-! ### REGISTER_WRITE (15 R501) -/

/-- Bytes into the request areas, each into its mailbox. -/
def writeRequests (off : Nat) (bs : Bytes) (d : Dev) : Dev :=
  let m := (off - 0x20000) / 16384
  let o := (off - 0x20000) % 16384
  let one := fun (m o : Nat) (bs : Bytes) (d : Dev) => if m < 64 then setMbx m { mbx d m with req := memWrite (mbx d m).req o bs } d else d
  one (m + 1) 0 (bs.drop (16384 - o)) (one m o (bs.take (16384 - o)) d)

/-- A whole aligned word, or two, by the function's own writer. -/
def writeWords (f : Nat → BitVec 32 → Dev → Dev) (off : Nat) (bs : Bytes) (d : Dev) : Dev :=
  let w := fun (i : Nat) => BitVec.ofNat 32 (fieldLe bs i 4)
  if bs.length = 4 ∧ off % 4 = 0 then f off (w 0) d
  else if bs.length = 8 ∧ off % 8 = 0 then f (off + 4) (w 4) (f off (w 0) d)
  else d

/-- A write to PF0 BAR0. -/
def regWrite0 (off : Nat) (bs : Bytes) (d : Dev) : Dev :=
  if !pf0Writes d then d
  else if 0x20000 ≤ off ∧ off < 0x120000 ∧ off + bs.length ≤ 0x120000 ∧ bs.length ≤ 16384 then writeRequests off bs d
  else writeWords writePf0 off bs d

/-- A write to PF1 BAR0: while frozen, only the blocks that PF1 answers for take it (14 R491). -/
def regWrite1 (off : Nat) (bs : Bytes) (d : Dev) : Dev :=
  if !pf1Up d || (d.frz.frozen && !answersFrozen off) then d else writeWords writePf1 off bs d

def execRegisterWrite (pf off : Nat) (bytes : List (BitVec 8)) (s : State) : Res :=
  eff (fun d => if pf = 0 then regWrite0 off bytes d else if pf = 1 then regWrite1 off bytes d else d) s

end Sys2Proof.Machine
end

