-- ==== Sys2Proof/Machine/Pcie.lean ====
section
/-! DEFINITION. PCI Express (15): configuration requests, the device-memory window BAR2, failed host reads, bus mastering and power
states, function-level resets with the reset ledger, the host link and PERST#. -/
namespace Sys2Proof.Machine
open Sys2Proof

/-- A record by firmware: now, in the next slack where its clocks stand still, never before it runs. -/
def logWhenRuns (r : RasRec) (d : Dev) : Dev :=
  if firmwareRuns d then logRec r d else if brgPassed d 8 then logLater r d else d

def onFn (fn : Nat) (f : PcieFn → PcieFn) (d : Dev) : Dev := if fn = 0 then { d with pf0 := f d.pf0 } else { d with pf1 := f d.pf1 }
def fnOf (d : Dev) (fn : Nat) : PcieFn := if fn = 0 then d.pf0 else d.pf1

/-! ### Requests of the functions (15 R505, R506, R510) -/

/-- Messages that were held go in their order once requests are allowed. -/
def flushHeld (d : Dev) : Dev :=
  let d := if pf0Requests d then d.pf0.held.foldl (fun d v => fire0 v d) { d with pf0 := { d.pf0 with held := [] } } else d
  if d.pf1.busMaster && !d.pf1.d3 && !d.rst.hostDown then d.pf1.held.foldl (fun d v => fire1 v d) { d with pf1 := { d.pf1 with held := [] } } else d

/-- Bus Master Enable. -/
def setBusMaster (fn : Nat) (v : Bool) (d : Dev) : Dev := flushHeld (onFn fn (fun f => { f with busMaster := v }) d)

/-- D3hot. -/
def enterD3 (fn : Nat) (d : Dev) : Dev := onFn fn (fun f => { f with d3 := true }) d

/-- D0 again, without a reset; PF0 sends one LTR message where it may master the bus. -/
def enterD0 (fn : Nat) (d : Dev) : Dev :=
  if !(fnOf d fn).d3 then d
  else
    let d := onFn fn (fun f => { f with d3 := false }) d
    let d := if fn = 0 ∧ d.pf0.busMaster = true then { d with out := { d.out with ltr := d.out.ltr + 1 } } else d
    flushHeld d

/-- The function answers configuration requests. -/
def cfgUp (fn : Nat) (d : Dev) : Bool := isOn d && !d.rst.hostDown && !(fn == 0 && d.rst.pending)

def execBusMasterEnableChange (v : Bool) (s : State) : Res := eff (fun d => if cfgUp 0 d then setBusMaster 0 v d else d) s
def execD3hotEntry (pf : Nat) (s : State) : Res := eff (fun d => if decide (pf < 2) && cfgUp pf d then enterD3 pf d else d) s
def execD0Entry (pf : Nat) (s : State) : Res := eff (fun d => if decide (pf < 2) && cfgUp pf d then enterD0 pf d else d) s

/-! ### Function-level resets (15 R511 to R518) -/

/-- An FLR of PF0 arrives: it waits for the first slack that begins after it. -/
def requestReset (d : Dev) : Dev :=
  if d.rst.pending && !d.rst.applied then d
  else { d with rst := { d.rst with
    pending := true, applied := false, inProgress := true, complete := false, flrs := satInc 0xFFFF d.rst.flrs
    skipSlack := d.tide.run && d.tide.phase != .work } }

def execFlrPf0 (s : State) : Res := eff (fun d => if cfgUp 0 d then requestReset d else d) s

/-- An FLR of PF1. -/
def resetPf1 (d : Dev) : Dev :=
  logWhenRuns { sev := 15, cls := 0x0802 } { d with
    pf1 := {}
    ras := { d.ras with pf1 := { d.ras.pf1 with enable := false, minSev := 1, vector := 0 } }
    rst := { d.rst with enable := false, vector := 0 }
    frz := { d.frz with sel := 0, off := 0 }
    mem := { d.mem with flipArm := false } }

def execFlrPf1 (s : State) : Res := eff (fun d => if cfgUp 1 d then resetPf1 d else d) s

/-- An item that runs, is admitted or is only consumed ends (15 R513): ABORTED_DESTROY on a draining channel, else ABORTED_RESET. -/
def resetItem (c : Chan) (o : Nat) (d : Dev) : Dev :=
  match aGet d.items o with
  | none => d
  | some it =>
    if it.stage = .consumed ∨ it.stage = .admitted then
      let status := if c.draining then 0x21 else 0x20
      let d := leaveBy it status 0 d
      endItem ((aGet d.items o).getD it) status 0 d
    else d

/-- The summary of a channel (15 Table 15-8). -/
def channelSummary (slot : Nat) (c : Chan) (flr n : Nat) : Bytes :=
  toLe 8 (chanHandle c).toNat ++ toLe 2 slot ++ toLe 1 1 ++ toLe 1 flr ++ toLe 1 c.kind ++ toLe 1 (b2n c.draining) ++ zeros 18
    ++ toLe 4 c.outTail.toNat ++ toLe 4 c.subHead.toNat ++ toLe 8 c.lastSeq.toNat ++ toLe 4 n ++ zeros 12

/-- The entry of an item, or the note that a held one owes its entry. -/
def resetEntry (c : Chan) (flr o : Nat) (d : Dev) : Dev :=
  match aGet d.items o with
  | none => d
  | some it =>
    if it.stage = .held then setItem { it with resetFlr := some (flr % 256 + 256 * b2n c.draining) } d
    else ferryLedger it 2 (setItem { it with stage := .recorded }
      { d with rst := { d.rst with entries := d.rst.entries ++ [ledgerItem d it (flr % 256) c.draining 0] } })

/-- A channel is freed: its summary, then its items in SEQ order. -/
def resetChan (flr slot : Nat) (d : Dev) : Dev :=
  match aGet d.chans slot with
  | none => d
  | some c =>
    let mine := (d.items.filter (fun i => i.2.chan == chanHandle c && decide (i.2.stage ≠ .recorded))).map (·.2)
    let os := (sortByKey (·.seq.toNat) mine).map (·.order)
    let d := os.foldl (fun d o => resetItem c o d) d
    let d := { d with rst := { d.rst with entries := d.rst.entries ++ [channelSummary slot c (flr % 256) os.length] } }
    let d := os.foldl (fun d o => resetEntry c flr o d) d
    freeIdx 1 c.index c.gen { d with chans := aDel d.chans slot }

/-- Segments of items that ended leave the plan. -/
def unplan (d : Dev) : Dev :=
  { d with cores := aMap d.cores (fun _ c => { c with plan := c.plan.filter (fun p => (aGet d.items p.1).any (fun i => decide (i.stage = .admitted))) }) }

/-- Tensors without RETAIN and without a secured role are destroyed. -/
def dropTensors (d : Dev) : Dev :=
  let gone := (d.tensors.map (·.1)).filter (fun i => (aGet d.tensors i).any (fun t => !t.retain && !tSecured t))
  gone.foldl (fun d i => removeTensor i d) { d with maps := [] }

/-- Mailboxes after the reset (03 R75). -/
def resetMailboxes (d : Dev) : Dev := { d with mbx := aMap d.mbx (fun _ b => { b with state := 0, tag := 0, rsp := [], cmd := [], order := 0 }) }

/-- The effects of 15 Table 15-7. -/
def applyReset (d : Dev) : Dev :=
  let flr := d.rst.flrs
  let d := (d.chans.map (·.1)).foldl (fun d slot => resetChan flr slot d) (resetMailboxes d)
  let d := dropTensors (unplan d)
  let d := if d.tide.run then ferryChanges (castVote d) else d
  let d := logWhenRuns { sev := 15, cls := 0x0801 } { d with pf0 := {} }
  let d := { d with rst := { d.rst with inProgress := false, applied := d.tide.run, pending := d.tide.run } }
  let d := if d.items.any (fun i => i.2.resetFlr.isSome) then d else ledgerComplete d
  if d.rst.pf1Pending then resetPf1 { d with rst := { d.rst with pf1Pending := false } } else d

/-- The first slack after the FLR; without a tide there is neither a channel nor a slack to wait for. -/
def execFlrPf0Apply (s : State) : Res :=
  eff (fun d =>
    if clocksRun d && d.rst.pending && !d.rst.applied && (!d.tide.run || (d.tide.phase == .slack && !d.rst.skipSlack)) then applyReset d else d) s

/-! ### The host link (15 R520) -/

/-- The link goes down without PERST#, or a hot reset: an FLR of both functions. -/
def execHostLinkDown (s : State) : Res :=
  eff (fun d =>
    if isOn d && !d.rst.hostDown then
      let d := requestReset (logWhenRuns { sev := 3, cls := 0x0804 } d)
      { d with rst := { d.rst with hostDown := true, pf1Pending := true } }
    else d) s

/-- The link has retrained. -/
def execHostLinkUp (s : State) : Res :=
  eff (fun d => if isOn d && d.rst.hostDown then flushHeld { d with rst := { d.rst with hostDown := false } } else d) s

/-! ### Configuration space (15 R498, R499, R509; PRESUMED PCI Express layouts, log 25) -/

/-- The next capability after each offset, with its identifier (15 Table 15-6). -/
def extCap (fn off : Nat) : Option Nat :=
  let link := fun (id next : Nat) => if fn = 0 then some (pack [(next, 20), (1, 16), (id, 0)]) else none
  match off with
  | 0x100 => some (pack [(0x148, 20), (1, 16), (0x0001, 0)])
  | 0x148 => some (pack [(if fn = 0 then 0x158 else 0, 20), (1, 16), (0x0003, 0)])
  | 0x158 => link 0x0018 0x160
  | 0x160 => link 0x0019 0x180
  | 0x180 => link 0x0025 0x190
  | 0x190 => link 0x0026 0x1C0
  | 0x1C0 => link 0x002A 0x1E0
  | 0x1E0 => link 0x0031 0x200
  | 0x200 => link 0x0027 0x220
  | 0x220 => link 0x002F 0
  | _ => none

/-- Words of base address registers: those that exist hold the address bits above their size (15 Table 15-3). -/
def barWord (f : PcieFn) (fn off : Nat) : Nat :=
  let w := areaWord f.cfg off
  let high := fun (n : Nat) => w / 2 ^ n * 2 ^ n
  match off with
  | 0x10 => high (if fn = 0 then 28 else 25) + 4
  | 0x14 => w
  | 0x18 => if fn = 0 then 0xC else 0
  | 0x1C => if fn = 0 then high 4 else 0
  | _ => 0

/-- A word of a function's configuration space. -/
def cfgRead (d : Dev) (fn off : Nat) : Nat :=
  let f := fnOf d fn
  if 0x10 ≤ off ∧ off < 0x28 then barWord f fn off
  else match extCap fn off with
    | some w => w
    | none => match off with
      | 0x000 => pack [(if fn = 0 then 0x0018 else 0x0019, 16), (0x1F8B, 0)]
      | 0x004 => pack [flag true 20, flag f.busMaster 2, flag f.memEnable 1]
      | 0x008 => pack [(if fn = 0 then 0x120000 else 0x088000, 8), (0xA1, 0)]
      | 0x00C => pack [flag true 23]
      | 0x02C => d.fuseIds.toNat
      | 0x034 => 0x40
      | 0x040 => pack [(3, 16), (0x50, 8), (0x01, 0)]
      | 0x044 => pack [flag true 3, (if f.d3 then 3 else 0, 0)]
      | 0x050 => pack [(2, 16), (0x90, 8), (0x10, 0)]
      | 0x090 => pack [flag f.fnMask 30, (if fn = 0 then 2047 else 63, 16), (0x11, 0)]
      | 0x094 => if fn = 0 then 0x300000 else 0x1F000
      | 0x098 => if fn = 0 then 0x308000 else 0x1F800
      | 0x104 => pack [flag f.aerUr 20]
      | 0x110 => pack [flag f.aerAdvisory 13]
      | 0x14C => half d.serial.toNat 0
      | 0x150 => half d.serial.toNat 1
      | _ => (Config.cfgWord fn off (BitVec.ofNat 32 (areaWord f.cfg off))).toNat

/-- A write of a word of configuration space. -/
def cfgWrite (fn off : Nat) (v : BitVec 32) (d : Dev) : Dev :=
  match off with
  | 0x004 => setBusMaster fn (v.getLsbD 2) (onFn fn (fun f => { f with memEnable := v.getLsbD 1 }) d)
  | 0x044 => if v.extractLsb' 0 2 = 3#2 then enterD3 fn d else if v.extractLsb' 0 2 = 0#2 then enterD0 fn d else d
  | 0x058 =>
    let d := onFn fn (fun f => { f with cfg := memWrite f.cfg off (toLe 4 (v.toNat - v.toNat / 32768 % 2 * 32768)) }) d
    if !v.getLsbD 15 then d else if fn = 0 then requestReset d else resetPf1 d
  | 0x090 => firePending1 (firePending0 (onFn fn (fun f => { f with fnMask := v.getLsbD 30 }) d))
  | 0x104 => onFn fn (fun f => { f with aerUr := f.aerUr && !v.getLsbD 20 }) d
  | 0x110 => onFn fn (fun f => { f with aerAdvisory := f.aerAdvisory && !v.getLsbD 13 }) d
  | _ => onFn fn (fun f => { f with cfg := memWrite f.cfg off (toLe 4 v.toNat) }) d

/-- CONFIG_REQUEST: function numbers other than 0 and 1 end in Unsupported Request. -/
def execConfigRequest (fn : Nat) (write : Bool) (off : Nat) (v : BitVec 32) (s : State) : Res :=
  eff (fun d =>
    let o := off / 4 * 4 % 4096
    if !(isOn d && !d.rst.hostDown) then { d with out := { d.out with cpl := 0 } }
    else if 2 ≤ fn then { d with out := { d.out with cpl := 2 } }
    else if !cfgUp fn d then { d with out := { d.out with cpl := 0 } }
    else if write then (let d := cfgWrite fn o v d; { d with out := { d.out with cpl := 1 } })
    else answered (cfgRead d fn o) d) s

/-! ### The device-memory window (03 R111; 15 R502, R503) -/

/-- The mapping that shows an offset. -/
def mappingAt (d : Dev) (off : Nat) : Option Mapping := d.maps.find? (fun x => decide (x.off ≤ off) && decide (off < x.off + x.len))

/-- BAR2 answers: the function is up and the device is not frozen. -/
def bar2Up (d : Dev) : Bool := pf0Up d && clocksRun d

/-- A request ends in Unsupported Request and AER records it. -/
def bar2Refused (d : Dev) : Dev := { d with pf0 := { d.pf0 with aerUr := true }, out := { d.out with cpl := 2 } }

/-- Bytes of a tensor's committed epoch, sector by sector: those of a sector that cannot be read are 0, and the flag tells. -/
def readPoisoned (idx off len : Nat) (d : Dev) : Dev × Bytes × Bool :=
  (sectorsOf off len).foldl (fun acc n =>
    let lo := max off (64 * n)
    let hi := min (off + len) (64 * n + 64)
    let r := readTensor idx lo (hi - lo) acc.1
    match r.2 with
    | some b => (r.1, acc.2.1 ++ b, acc.2.2)
    | none => (r.1, acc.2.1 ++ zeros (hi - lo), true)) (d, [], false)

/-- BAR2_READ (15 Table 15-4). -/
def execBar2Read (off len : Nat) (s : State) : Res :=
  eff (fun d =>
    if !bar2Up d then { d with out := { d.out with cpl := if isOn d && !d.rst.hostDown then 2 else 0 } }
    else match mappingAt d off with
      | none => bar2Refused d
      | some m =>
        if m.off + m.len < off + len then bar2Refused d
        else
          let t := m.tOff + (off - m.off)
          let n := min len (tBytes ((aGet d.tensors m.tensor).getD {}) - t)
          let r := readPoisoned m.tensor t n d
          let d := r.1
          { d with out := { d.out with rdBytes := r.2.1 ++ zeros (len - n), cpl := if r.2.2 then 3 else 1 } }) s

/-- A discarded BAR2 write is an advisory non-fatal Unsupported Request. -/
def bar2Advisory (d : Dev) : Dev := { d with pf0 := { d.pf0 with aerUr := true, aerAdvisory := true } }

/-- BAR2_WRITE (15 Table 15-4): a write that lies in the tail is discarded without an error, whatever the tensor (03 R111). -/
def execBar2Write (off : Nat) (bytes : List (BitVec 8)) (s : State) : Res :=
  eff (fun d =>
    if !bar2Up d then d
    else match mappingAt d off with
      | none => bar2Advisory d
      | some m =>
        let tn := (aGet d.tensors m.tensor).getD {}
        let t := m.tOff + (off - m.off)
        if m.off + m.len < off + bytes.length then bar2Advisory d
        else if tBytes tn ≤ t then d
        else if tSecured tn then bar2Advisory d
        else
          let w := writeTensor m.tensor t (bytes.take (tBytes tn - t)) d
          if w.2 then w.1 else logRec { sev := 15, cls := 0x0805, object := tensorHandle d m.tensor } w.1) s

/-! ### Failed reads of host memory (15 R504) -/

/-- HOST_ACCESS_ERROR, at most once per tide for each channel or mailbox. -/
def hostError (key : Nat) (addr : BitVec 64) (d : Dev) : Dev :=
  if d.ras.hostErr.contains key then d
  else
    let r : RasRec := { sev := 15, cls := 0x0803, detail := addr.zeroExtend 128 }
    let r := if key < 4096 then { r with unitKind := 13, logical := BitVec.ofNat 32 key } else r
    logRec r { d with ras := { d.ras with hostErr := d.ras.hostErr ++ [key] } }

/-- HOST_READ_ERROR (15 Table 15-5). -/
def execHostReadError (addr : BitVec 64) (what : ReadFor) (s : State) : Res :=
  eff (fun d =>
    if !(firmwareRuns d && pf0Requests d) then d
    else match what with
      | .descriptor slot => if (aGet d.chans slot).isSome then hostError slot addr d else d
      | .transfer slot seq =>
        match findItem d slot seq with
        | none => d
        | some it => if itemWorks d it 3 1 then hostError slot addr (finishItem it.order 0x12 (hIdx it.object) d) else d
      | .request m off =>
        let op := fieldLe (memRead (mbx d m).cmd 0 2) 0 2
        if decide (m < 64) && (mbx d m).state == 1 && (op == 0x0301 || op == 0x0401) then hostError (4096 + m) addr (refuse m rBadAddress off d) else d) s

/-! ### PERST# (14 R470; 15 R519) -/

/-- The device with everything lost but what flash holds; its observers and host memory stand outside it. -/
def freshDev (d : Dev) : Dev := { ({} : Dev) with flash := d.flash, host := d.host, out := d.out, free := d.free + 1 }

/-- PERST# asserted. -/
def execPerstAssert (s : State) : Res :=
  eff (fun d =>
    if d.tel.perst then d
    else
      let b := freshDev d
      { b with tel := { b.tel with perst := true, powered := d.tel.powered }, power := if d.tel.powered then b.power else d.power }) s

/-- PERST# deasserted: FEED_ID and ADDR_SEL are sampled, and bring-up step 1 passes. -/
def execPerstDeassert (feedId : BitVec 4) (addrSel : BitVec 2) (s : State) : Res :=
  eff (fun d =>
    if d.tel.perst && d.tel.powered then { d with tel := { d.tel with perst := false, feedId := feedId, addrSel := addrSel } } else d) s

end Sys2Proof.Machine
end

