-- ==== Sys2Proof/Machine/Power.lean ====
section
/-! DEFINITION. Input power, throttles and telemetry (17): the input voltage (R545), the end of power (R546, R547), the emergency
throttles (R551, R552; 02 R53, R54), hot units (R553), coolant (R549) and SMBus (R561). -/
namespace Sys2Proof.Machine
open Sys2Proof

/-- SMB_ALERT# is asserted when a bit of TEL_STATUS[7:1] becomes set (17 R561). -/
def withAlert (f : Dev → Dev) (d : Dev) : Dev :=
  let d' := f d
  let rose := (List.range 7).any (fun i => (telStatus d').testBit (i + 1) && !(telStatus d).testBit (i + 1))
  { d' with tel := { d'.tel with alert := d'.tel.alert || rose } }

/-! ### Input voltage (17 Table 17-4) -/

/-- An excursion begins. -/
def excursion (mv : Nat) (d : Dev) : Dev := logWhenRuns { sev := 15, cls := 0x0A01, code := BitVec.ofNat 32 mv } d

def execVinLow (mv : Nat) (s : State) : Res :=
  eff (fun d =>
    if !(d.tel.powered && decide (44000 ≤ mv) && decide (mv < 48000)) then d
    else
      let log := !d.tel.vinLow
      withAlert (fun d =>
        let d := { d with tel := { d.tel with vin := mv, vinLow := true, vinHigh := false } }
        if log then excursion mv d else d) d) s

def execVinHigh (mv : Nat) (s : State) : Res :=
  eff (fun d =>
    if !(d.tel.powered && decide (58000 < mv) && decide (mv ≤ 61000)) then d
    else
      let log := !d.tel.vinHigh
      withAlert (fun d =>
        let d := { d with tel := { d.tel with vin := mv, vinHigh := true, vinLow := false } }
        if log then excursion mv d else d) d) s

def execVinInRange (mv : Nat) (s : State) : Res :=
  eff (fun d =>
    if d.tel.powered && decide (48000 ≤ mv) && decide (mv ≤ 58000) then
      { d with tel := { d.tel with vin := mv, vinLow := false, vinHigh := false } }
    else d) s

/-! ### The converter stops and starts (17 R546, R547) -/

/-- Power is removed: the cause goes into flash, UNKNOWN where it could not be written; everything else is lost. -/
def powerOff (cause unit : Nat) (written : Bool) (d : Dev) : Dev :=
  let word := if written then unit % 256 * 256 + cause % 16 else 0xFF0F
  let b := freshDev d
  { b with
    flash := { b.flash with lastOff := BitVec.ofNat 16 word }
    tel := { b.tel with powered := false, perst := true }
    power := { b.power with on := 0, good := 0 } }

/-- An undervoltage while PERST# is asserted is an orderly power-off (17 Table 17-12). -/
def offCause (d : Dev) (cause : Nat) : Nat := if cause = 1 ∧ d.tel.perst = true then 0 else cause

def execConverterStop (cause : Nat) (written : Bool) (s : State) : Res :=
  eff (fun d => if d.tel.powered then powerOff (offCause d cause) 0xFF written d else d) s
def execInputLockout (mv : Nat) (s : State) : Res :=
  eff (fun d => if d.tel.powered && decide (mv < 44000) then powerOff (offCause d 1) 0xFF true d else d) s
def execInputProtection (mv : Nat) (s : State) : Res :=
  eff (fun d => if d.tel.powered && decide (61000 < mv) then powerOff 2 0xFF true d else d) s

/-- VIN rises through 46 V: the converter starts, PD14 becomes GOOD, and the board still holds PERST# (17 Table 17-5). -/
def execSoftStart (mv : Nat) (s : State) : Res :=
  eff (fun d =>
    if d.tel.powered || decide (mv < 46000) then d
    else { d with
      flash := { d.flash with startCount := d.flash.startCount + 1 }
      tel := { d.tel with powered := true, perst := true, vin := mv, vinLow := decide (mv < 48000), vinHigh := decide (58000 < mv) }
      power := {} }) s

/-! ### Emergency throttles (02 R53, R54; 17 R551, R552) -/

/-- A throttle acts on compute dies now. -/
def strike (cs : List Nat) (d : Dev) : Dev :=
  { d with
    tel := { d.tel with halved := cs.foldl addNew d.tel.halved, struck := cs.foldl addNew d.tel.struck }
    tide := { d.tide with throttleAge := 2, throttles := satInc 0xFFFF d.tide.throttles } }

/-- A measured temperature of a die. -/
def dieMeasured (i temp : Nat) (d : Dev) : Dev :=
  { d with tel := { d.tel with temps := setAt d.tel.temps i (temp % 65536), tempPeaks := modAt d.tel.tempPeaks i (max · (temp % 65536)) } }

/-- A compute die reaches 105 °C. -/
def execThermalTrip (d : Nat) (temp : Nat) (s : State) : Res :=
  eff (fun v =>
    if !(clocksRun v && decide (d < 6) && v.power.good.getLsbD d && decide (1050 ≤ temp)) || v.tel.trips.contains d then v
    else withAlert (fun v =>
      let v := strike [d] (dieMeasured d temp v)
      let v := { v with tel := { v.tel with trips := v.tel.trips ++ [d], thermTrips := satInc 0xFFFF v.tel.thermTrips } }
      logWhenRuns { sev := 15, cls := 0x0A04, unitKind := 11, logical := BitVec.ofNat 32 d, physical := BitVec.ofNat 32 d, code := BitVec.ofNat 32 temp } v) v) s

/-- The die falls to 100 °C; its clock returns at an edge. -/
def execThermalTripClear (d : Nat) (temp : Nat) (s : State) : Res :=
  eff (fun v =>
    if isOn v && v.tel.trips.contains d && decide (temp ≤ 1000) then
      dieMeasured d temp { v with tel := { v.tel with trips := v.tel.trips.filter (· != d) } }
    else v) s

/-- The input exceeds its limits: every compute die's clock is halved. -/
def execElectricalThrottle (avg : Nat) (s : State) : Res :=
  eff (fun d =>
    if !(clocksRun d && decide (4950 < avg)) || d.tel.elec then d
    else withAlert (fun d =>
      let d := strike (List.range 6) d
      let d := { d with tel := { d.tel with elec := true, elecTrips := satInc 0xFFFF d.tel.elecTrips, pinPeak := max d.tel.pinPeak (avg % 65536) } }
      logWhenRuns { sev := 15, cls := 0x0A03, code := BitVec.ofNat 32 avg } d) d) s

/-- The 1 ms average is at 4,950 W or less; the clocks return at the next edge. -/
def execElectricalThrottleClear (avg : Nat) (s : State) : Res :=
  eff (fun d => if isOn d && d.tel.elec && decide (avg ≤ 4950) then { d with tel := { d.tel with elec := false } } else d) s

/-! ### Hot units and coolant (17 R549, R553) -/

/-- A unit's temperature: dies 0 to 14, stack k at 15 + k. -/
def unitMeasured (unit temp : Nat) (d : Dev) : Dev :=
  if unit < 15 then dieMeasured unit temp d
  else { d with tel := { d.tel with hbmTemps := setAt d.tel.hbmTemps (unit - 15) (temp % 65536) } }

/-- The unit's power domain is up. -/
def unitPowered (unit : Nat) (d : Dev) : Bool :=
  if unit < 15 then d.power.good.getLsbD unit else decide (unit < 39) && d.power.good.getLsbD (17 + (unit - 15) / 8)

/-- A die or stack stays at 115 °C: the module shuts down. -/
def execThermalShutdown (unit : Nat) (temp : Nat) (s : State) : Res :=
  eff (fun d => if d.tel.powered && unitPowered unit d && decide (1150 ≤ temp) then powerOff 3 unit true d else d) s

/-- A unit without a throttle reaches 100 °C. -/
def execHotWarning (unit : Nat) (temp : Nat) (s : State) : Res :=
  eff (fun d =>
    if !(isOn d && decide (6 ≤ unit) && unitPowered unit d && decide (1000 ≤ temp)) then d
    else withAlert (fun d =>
      let d := unitMeasured unit temp { d with tel := { d.tel with hot := true } }
      let r : RasRec := { sev := 15, cls := 0x0A05, code := BitVec.ofNat 32 temp }
      let r := if unit < 12 then { r with unitKind := 8, logical := BitVec.ofNat 32 (unit - 6), physical := BitVec.ofNat 32 (unit - 6) }
        else if unit < 15 then { ofModule d d.lnk.pos r with object := 0 }
        else { r with unitKind := 7, logical := BitVec.ofNat 32 (unit - 15), physical := BitVec.ofNat 32 (unit - 15) }
      logWhenRuns r d) d) s

def execCoolantWarm (inlet : Nat) (s : State) : Res :=
  eff (fun d => if firmwareRuns d && decide (400 < inlet) then coolant inlet d else d) s
def execCoolantWarmEnd (inlet : Nat) (s : State) : Res :=
  eff (fun d => if firmwareRuns d && decide (inlet ≤ 400) then coolant inlet d else d) s

/-! ### SMBus (17 R561, Table 17-13) -/

/-- Highest temperature over dies and stacks that are on. -/
def hottest (d : Dev) : Nat :=
  let ts := ((List.range 15).map (dieTemp d) ++ (List.range 24).map (hbmTemp d)).filter (· != 0xFFFF)
  if ts.isEmpty then 0xFFFF else ts.foldl max 0

/-- Data of an SMBus read command. -/
def smbData (d : Dev) (code : Nat) : Bytes :=
  match code with
  | 0x01 => toLe 2 d.tel.vin
  | 0x02 => toLe 2 d.tel.iin
  | 0x03 => toLe 2 d.tel.pin
  | 0x04 => toLe 2 (hottest d)
  | 0x05 => toLe 2 d.tel.inlet
  | 0x06 => toLe 2 d.tel.outlet
  | 0x07 => toLe 2 (telStatus d)
  | 0x08 => toLe 1 d.flash.lastOff.toNat
  | 0x09 => toLe 8 d.serial.toNat
  | 0x0A => toLe 2 (effCap d)
  | _ => [0xFF]

/-- A read of a command code: the module answers from PD14 GOOD until power is removed; reading STATUS releases SMB_ALERT#. -/
def smbRead (code : Nat) (d : Dev) : Dev :=
  if !d.tel.powered then d
  else
    let d' := { d with out := { d.out with rdBytes := smbData d code } }
    if code = 7 then { d' with tel := { d'.tel with alert := false } } else d'

def execSmbReadVin (s : State) : Res := eff (smbRead 0x01) s
def execSmbReadIin (s : State) : Res := eff (smbRead 0x02) s
def execSmbReadPin (s : State) : Res := eff (smbRead 0x03) s
def execSmbReadTemp (s : State) : Res := eff (smbRead 0x04) s
def execSmbReadInlet (s : State) : Res := eff (smbRead 0x05) s
def execSmbReadOutlet (s : State) : Res := eff (smbRead 0x06) s
def execSmbReadStatus (s : State) : Res := eff (smbRead 0x07) s
def execSmbReadLastOff (s : State) : Res := eff (smbRead 0x08) s
def execSmbReadSerial (s : State) : Res := eff (smbRead 0x09) s
def execSmbReadCapEff (s : State) : Res := eff (smbRead 0x0A) s
def execSmbUnassignedCommand (code : BitVec 8) (s : State) : Res := eff (smbRead code.toNat) s

/-- The Alert Response Address: a module that asserts SMB_ALERT# answers with its own address. -/
def execSmbAlertResponse (s : State) : Res :=
  eff (fun d =>
    if d.tel.powered && d.tel.alert then { d with out := { d.out with rdBytes := toLe 1 (2 * (0x58 + d.tel.addrSel.toNat)) } } else d) s

end Sys2Proof.Machine
end

