-- ==== Sys2Proof/Machine/Dispatch.lean ====
section
/-! DEFINITION. exec: one arm per command, each a direct call of its meaning. -/
namespace Sys2Proof.Machine
open Sys2Proof

def exec (i : Instr) (s : State) : Host.Outcome State Fault Refusal :=
  match i with
  | .channelCreate m => Sys2Proof.Machine.execChannelCreate m s
  | .channelDestroy m => Sys2Proof.Machine.execChannelDestroy m s
  | .channelQuery m => Sys2Proof.Machine.execChannelQuery m s
  | .tensorCreate m => Sys2Proof.Machine.execTensorCreate m s
  | .tensorDestroy m => Sys2Proof.Machine.execTensorDestroy m s
  | .tensorQuery m => Sys2Proof.Machine.execTensorQuery m s
  | .tensorSetRetain m => Sys2Proof.Machine.execTensorSetRetain m s
  | .tensorMap m => Sys2Proof.Machine.execTensorMap m s
  | .tensorUnmap m => Sys2Proof.Machine.execTensorUnmap m s
  | .programCreate m => Sys2Proof.Machine.execProgramCreate m s
  | .programDestroy m => Sys2Proof.Machine.execProgramDestroy m s
  | .programQuery m => Sys2Proof.Machine.execProgramQuery m s
  | .hintSet m => Sys2Proof.Machine.execHintSet m s
  | .hintClear m => Sys2Proof.Machine.execHintClear m s
  | .hintQuery m => Sys2Proof.Machine.execHintQuery m s
  | .planCreate m => Sys2Proof.Machine.execPlanCreate m s
  | .planDestroy m => Sys2Proof.Machine.execPlanDestroy m s
  | .planQuery m => Sys2Proof.Machine.execPlanQuery m s
  | .factorSetCreate m => Sys2Proof.Machine.execFactorSetCreate m s
  | .factorSetDestroy m => Sys2Proof.Machine.execFactorSetDestroy m s
  | .warmSetCreate m => Sys2Proof.Machine.execWarmSetCreate m s
  | .warmSetDestroy m => Sys2Proof.Machine.execWarmSetDestroy m s
  | .warmSetClear m => Sys2Proof.Machine.execWarmSetClear m s
  | .groupCreate m => Sys2Proof.Machine.execGroupCreate m s
  | .groupDestroy m => Sys2Proof.Machine.execGroupDestroy m s
  | .groupQuery m => Sys2Proof.Machine.execGroupQuery m s
  | .pairSet m => Sys2Proof.Machine.execPairSet m s
  | .pairQuery m => Sys2Proof.Machine.execPairQuery m s
  | .pairClear m => Sys2Proof.Machine.execPairClear m s
  | .stepOpen m => Sys2Proof.Machine.execStepOpen m s
  | .stepQuery m => Sys2Proof.Machine.execStepQuery m s
  | .stepAbort m => Sys2Proof.Machine.execStepAbort m s
  | .stateLoad m => Sys2Proof.Machine.execStateLoad m s
  | .spareArm m => Sys2Proof.Machine.execSpareArm m s
  | .spareAdopt m => Sys2Proof.Machine.execSpareAdopt m s
  | .adoptQuery m => Sys2Proof.Machine.execAdoptQuery m s
  | .ledgerRead m => Sys2Proof.Machine.execLedgerRead m s
  | .lossScaleSet m => Sys2Proof.Machine.execLossScaleSet m s
  | .lossScaleQuery m => Sys2Proof.Machine.execLossScaleQuery m s
  | .flagsQuery m => Sys2Proof.Machine.execFlagsQuery m s
  | .flagsClear m => Sys2Proof.Machine.execFlagsClear m s
  | .masterConfig m => Sys2Proof.Machine.execMasterConfig m s
  | .masterQuery m => Sys2Proof.Machine.execMasterQuery m s
  | .scaleConfig m => Sys2Proof.Machine.execScaleConfig m s
  | .scaleQuery m => Sys2Proof.Machine.execScaleQuery m s
  | .memQuery m => Sys2Proof.Machine.execMemQuery m s
  | .memLocate m => Sys2Proof.Machine.execMemLocate m s
  | .scrubStart m => Sys2Proof.Machine.execScrubStart m s
  | .scrubQuery m => Sys2Proof.Machine.execScrubQuery m s
  | .scrubCancel m => Sys2Proof.Machine.execScrubCancel m s
  | .pageRetire m => Sys2Proof.Machine.execPageRetire m s
  | .bankRetire m => Sys2Proof.Machine.execBankRetire m s
  | .retireQuery m => Sys2Proof.Machine.execRetireQuery m s
  | .unitQuery m => Sys2Proof.Machine.execUnitQuery m s
  | .coreFlags m => Sys2Proof.Machine.execCoreFlags m s
  | .unitTest m => Sys2Proof.Machine.execUnitTest m s
  | .unitRetire m => Sys2Proof.Machine.execUnitRetire m s
  | .testQuery m => Sys2Proof.Machine.execTestQuery m s
  | .laneMove m => Sys2Proof.Machine.execLaneMove m s
  | .mdTest m => Sys2Proof.Machine.execMdTest m s
  | .stackTest m => Sys2Proof.Machine.execStackTest m s
  | .stackReturn m => Sys2Proof.Machine.execStackReturn m s
  | .repairLogRead m => Sys2Proof.Machine.execRepairLogRead m s
  | .repairLogClear m => Sys2Proof.Machine.execRepairLogClear m s
  | .getIdentity => Sys2Proof.Machine.execGetIdentity s
  | .getAttestCert => Sys2Proof.Machine.execGetAttestCert s
  | .attest => Sys2Proof.Machine.execAttest s
  | .configLog => Sys2Proof.Machine.execConfigLog s
  | .svnCommit => Sys2Proof.Machine.execSvnCommit s
  | .revokeSlot => Sys2Proof.Machine.execRevokeSlot s
  | .lifecycleSet => Sys2Proof.Machine.execLifecycleSet s
  | .mbxDoorbell m tag host => Sys2Proof.Machine.execMbxDoorbell m tag host s
  | .secCmd op => Sys2Proof.Machine.execSecCmd op s
  | .subTail slot v host => Sys2Proof.Machine.execSubTail slot v host s
  | .outHead slot v => Sys2Proof.Machine.execOutHead slot v s
  | .tidRateReqGo v => Sys2Proof.Machine.execTidRateReqGo v s
  | .tidReplanGo => Sys2Proof.Machine.execTidReplanGo s
  | .tidCtlRunStart v => Sys2Proof.Machine.execTidCtlRunStart v s
  | .tidCtlRunStop v => Sys2Proof.Machine.execTidCtlRunStop v s
  | .lnkCtlRunStart v => Sys2Proof.Machine.execLnkCtlRunStart v s
  | .lnkCtlRunStop v => Sys2Proof.Machine.execLnkCtlRunStop v s
  | .lnkPlanLoad => Sys2Proof.Machine.execLnkPlanLoad s
  | .acceptDegraded => Sys2Proof.Machine.execAcceptDegraded s
  | .lnkLinkRetry st ln => Sys2Proof.Machine.execLnkLinkRetry st ln s
  | .pwrCtlOn v => Sys2Proof.Machine.execPwrCtlOn v s
  | .brgGoFuseLoad => Sys2Proof.Machine.execBrgGoFuseLoad s
  | .brgGoBist => Sys2Proof.Machine.execBrgGoBist s
  | .brgGoReconcile => Sys2Proof.Machine.execBrgGoReconcile s
  | .brgGoHbmTraining => Sys2Proof.Machine.execBrgGoHbmTraining s
  | .brgGoImageVerify => Sys2Proof.Machine.execBrgGoImageVerify s
  | .brgGoControlCores => Sys2Proof.Machine.execBrgGoControlCores s
  | .brgGoLinkTraining => Sys2Proof.Machine.execBrgGoLinkTraining s
  | .brgGoPlan => Sys2Proof.Machine.execBrgGoPlan s
  | .brgGoSpare => Sys2Proof.Machine.execBrgGoSpare s
  | .bringupStepDone n rep => Sys2Proof.Machine.execBringupStepDone n rep s
  | .bringupStepTimeout n mask => Sys2Proof.Machine.execBringupStepTimeout n mask s
  | .fwlWrite off bytes => Sys2Proof.Machine.execFwlWrite off bytes s
  | .frzFreezeWrite v => Sys2Proof.Machine.execFrzFreezeWrite v s
  | .frzRelease v => Sys2Proof.Machine.execFrzRelease v s
  | .rasPop pf => Sys2Proof.Machine.execRasPop pf s
  | .stormClear pf => Sys2Proof.Machine.execStormClear pf s
  | .rstClear => Sys2Proof.Machine.execRstClear s
  | .msixUnmask pf vec => Sys2Proof.Machine.execMsixUnmask pf vec s
  | .tidCountLoRead => Sys2Proof.Machine.execTidCountLoRead s
  | .rcRegisterRead pf off => Sys2Proof.Machine.execRcRegisterRead pf off s
  | .registerWrite pf off bytes => Sys2Proof.Machine.execRegisterWrite pf off bytes s
  | .bar2Read off len => Sys2Proof.Machine.execBar2Read off len s
  | .bar2Write off bytes => Sys2Proof.Machine.execBar2Write off bytes s
  | .configRequest fn write off v => Sys2Proof.Machine.execConfigRequest fn write off v s
  | .hostReadError addr what => Sys2Proof.Machine.execHostReadError addr what s
  | .busMasterEnableChange v => Sys2Proof.Machine.execBusMasterEnableChange v s
  | .d3hotEntry pf => Sys2Proof.Machine.execD3hotEntry pf s
  | .d0Entry pf => Sys2Proof.Machine.execD0Entry pf s
  | .flrPf0 => Sys2Proof.Machine.execFlrPf0 s
  | .flrPf0Apply => Sys2Proof.Machine.execFlrPf0Apply s
  | .flrPf1 => Sys2Proof.Machine.execFlrPf1 s
  | .hostLinkDown => Sys2Proof.Machine.execHostLinkDown s
  | .perstAssert => Sys2Proof.Machine.execPerstAssert s
  | .perstDeassert feedId addrSel => Sys2Proof.Machine.execPerstDeassert feedId addrSel s
  | .freezeNFall => Sys2Proof.Machine.execFreezeNFall s
  | .freezeTideReached => Sys2Proof.Machine.execFreezeTideReached s
  | .frzAccess sel off => Sys2Proof.Machine.execFrzAccess sel off s
  | .frzFreeze => Sys2Proof.Machine.execFrzFreeze s
  | .idcode => Sys2Proof.Machine.execIdcode s
  | .sample => Sys2Proof.Machine.execSample s
  | .bypass code => Sys2Proof.Machine.execBypass code s
  | .tideEdge => Sys2Proof.Machine.execTideEdge s
  | .slackStart inp => Sys2Proof.Machine.execSlackStart inp s
  | .latchGuard => Sys2Proof.Machine.execLatchGuard s
  | .stepStartTide => Sys2Proof.Machine.execStepStartTide s
  | .rateChangeApply => Sys2Proof.Machine.execRateChangeApply s
  | .replanApply => Sys2Proof.Machine.execReplanApply s
  | .edgeMarker st ln mk => Sys2Proof.Machine.execEdgeMarker st ln mk s
  | .gatherMarker st ln mk => Sys2Proof.Machine.execGatherMarker st ln mk s
  | .decisionMarker st ln mk => Sys2Proof.Machine.execDecisionMarker st ln mk s
  | .freezeMarker st ln mk => Sys2Proof.Machine.execFreezeMarker st ln mk s
  | .voteForwardDeadline => Sys2Proof.Machine.execVoteForwardDeadline s
  | .masterDecision => Sys2Proof.Machine.execMasterDecision s
  | .decisionCloseTime => Sys2Proof.Machine.execDecisionCloseTime s
  | .markerMissLimit => Sys2Proof.Machine.execMarkerMissLimit s
  | .tideRefEdge => Sys2Proof.Machine.execTideRefEdge s
  | .tideRefLost => Sys2Proof.Machine.execTideRefLost s
  | .segmentStart l => Sys2Proof.Machine.execSegmentStart l s
  | .segmentBoundReached l => Sys2Proof.Machine.execSegmentBoundReached l s
  | .engineRampDown l => Sys2Proof.Machine.execEngineRampDown l s
  | .scalarIntegerOp l w => Sys2Proof.Machine.execScalarIntegerOp l w s
  | .div l w => Sys2Proof.Machine.execDiv l w s
  | .scalarFloatOp l w => Sys2Proof.Machine.execScalarFloatOp l w s
  | .li l w => Sys2Proof.Machine.execLi l w s
  | .lih l w => Sys2Proof.Machine.execLih l w s
  | .conditionalBranch l w => Sys2Proof.Machine.execConditionalBranch l w s
  | .call l w => Sys2Proof.Machine.execCall l w s
  | .jr l w => Sys2Proof.Machine.execJr l w s
  | .callr l w => Sys2Proof.Machine.execCallr l w s
  | .coreMemoryLoad l w => Sys2Proof.Machine.execCoreMemoryLoad l w s
  | .coreMemoryStore l w => Sys2Proof.Machine.execCoreMemoryStore l w s
  | .wset l w => Sys2Proof.Machine.execWset l w s
  | .wget l w => Sys2Proof.Machine.execWget l w s
  | .wclr l w => Sys2Proof.Machine.execWclr l w s
  | .dmain l w => Sys2Proof.Machine.execDmain l w s
  | .dmaout l w => Sys2Proof.Machine.execDmaout l w s
  | .dmaComplete l => Sys2Proof.Machine.execDmaComplete l s
  | .ldw l w => Sys2Proof.Machine.execLdw l w s
  | .stw l w => Sys2Proof.Machine.execStw l w s
  | .vldw l w => Sys2Proof.Machine.execVldw l w s
  | .vstw l w => Sys2Proof.Machine.execVstw l w s
  | .vldc l w => Sys2Proof.Machine.execVldc l w s
  | .vstc l w => Sys2Proof.Machine.execVstc l w s
  | .cvt l w => Sys2Proof.Machine.execCvt l w s
  | .matrixInstruction l w => Sys2Proof.Machine.execMatrixInstruction l w s
  | .matrixEndComplete l => Sys2Proof.Machine.execMatrixEndComplete l s
  | .rowrd l w => Sys2Proof.Machine.execRowrd l w s
  | .rowwr l w => Sys2Proof.Machine.execRowwr l w s
  | .ewt l w => Sys2Proof.Machine.execEwt l w s
  | .ewv l w => Sys2Proof.Machine.execEwv l w s
  | .ews l w => Sys2Proof.Machine.execEws l w s
  | .asm l w => Sys2Proof.Machine.execAsm l w s
  | .slvs l w => Sys2Proof.Machine.execSlvs l w s
  | .solverComplete l => Sys2Proof.Machine.execSolverComplete l s
  | .slvw l w => Sys2Proof.Machine.execSlvw l w s
  | .slvq l w => Sys2Proof.Machine.execSlvq l w s
  | .frd l w => Sys2Proof.Machine.execFrd l w s
  | .fclr l w => Sys2Proof.Machine.execFclr l w s
  | .csrr l w => Sys2Proof.Machine.execCsrr l w s
  | .csrw l w => Sys2Proof.Machine.execCsrw l w s
  | .nop l w => Sys2Proof.Machine.execNop l w s
  | .fence l w => Sys2Proof.Machine.execFence l w s
  | .waitd l w => Sys2Proof.Machine.execWaitd l w s
  | .waite l w => Sys2Proof.Machine.execWaite l w s
  | .waita l w => Sys2Proof.Machine.execWaita l w s
  | .segend l w => Sys2Proof.Machine.execSegend l w s
  | .vgrant l w => Sys2Proof.Machine.execVgrant l w s
  | .vgranti l w => Sys2Proof.Machine.execVgranti l w s
  | .vgrantrd l w => Sys2Proof.Machine.execVgrantrd l w s
  | .predicateLogic l w => Sys2Proof.Machine.execPredicateLogic l w s
  | .pwhile l w => Sys2Proof.Machine.execPwhile l w s
  | .pcount l w => Sys2Proof.Machine.execPcount l w s
  | .pfirst l w => Sys2Proof.Machine.execPfirst l w s
  | .vectorFloatOp l w => Sys2Proof.Machine.execVectorFloatOp l w s
  | .vectorApproximation l w => Sys2Proof.Machine.execVectorApproximation l w s
  | .vectorIntegerOp l w => Sys2Proof.Machine.execVectorIntegerOp l w s
  | .vectorCompare l w => Sys2Proof.Machine.execVectorCompare l w s
  | .vredsum l w => Sys2Proof.Machine.execVredsum l w s
  | .vredsump l w => Sys2Proof.Machine.execVredsump l w s
  | .vslideup l w => Sys2Proof.Machine.execVslideup l w s
  | .vslidedn l w => Sys2Proof.Machine.execVslidedn l w s
  | .vperm l w => Sys2Proof.Machine.execVperm l w s
  | .vcompress l w => Sys2Proof.Machine.execVcompress l w s
  | .vmerge l w => Sys2Proof.Machine.execVmerge l w s
  | .vbcast l w => Sys2Proof.Machine.execVbcast l w s
  | .vexts l w => Sys2Proof.Machine.execVexts l w s
  | .vinss l w => Sys2Proof.Machine.execVinss l w s
  | .vmov l w => Sys2Proof.Machine.execVmov l w s
  | .vgather l w => Sys2Proof.Machine.execVgather l w s
  | .vscatter l w => Sys2Proof.Machine.execVscatter l w s
  | .vldff l w => Sys2Proof.Machine.execVldff l w s
  | .vgatherff l w => Sys2Proof.Machine.execVgatherff l w s
  | .vcvtp l w => Sys2Proof.Machine.execVcvtp l w s
  | .run slot seq => Sys2Proof.Machine.execRun slot seq s
  | .hostToTensor slot seq => Sys2Proof.Machine.execHostToTensor slot seq s
  | .tensorToHost slot seq => Sys2Proof.Machine.execTensorToHost slot seq s
  | .tensorToTensor slot seq => Sys2Proof.Machine.execTensorToTensor slot seq s
  | .solve slot seq p iters => Sys2Proof.Machine.execSolve slot seq p iters s
  | .adjoint slot seq p iters => Sys2Proof.Machine.execAdjoint slot seq p iters s
  | .tangent slot seq p iters => Sys2Proof.Machine.execTangent slot seq p iters s
  | .assemble slot seq p => Sys2Proof.Machine.execAssemble slot seq p s
  | .allReduce slot seq => Sys2Proof.Machine.execAllReduce slot seq s
  | .reduceScatter slot seq => Sys2Proof.Machine.execReduceScatter slot seq s
  | .allGather slot seq => Sys2Proof.Machine.execAllGather slot seq s
  | .broadcast slot seq => Sys2Proof.Machine.execBroadcast slot seq s
  | .allToAll slot seq => Sys2Proof.Machine.execAllToAll slot seq s
  | .send slot seq => Sys2Proof.Machine.execSend slot seq s
  | .recv slot seq => Sys2Proof.Machine.execRecv slot seq s
  | .update slot seq n => Sys2Proof.Machine.execUpdate slot seq n s
  | .seal slot seq => Sys2Proof.Machine.execSeal slot seq s
  | .itemBudgetExpiry slot seq => Sys2Proof.Machine.execItemBudgetExpiry slot seq s
  | .collectiveGraceExpiry slot seq => Sys2Proof.Machine.execCollectiveGraceExpiry slot seq s
  | .joinLimitExpiry slot seq => Sys2Proof.Machine.execJoinLimitExpiry slot seq s
  | .chunkStart slot seq chunk => Sys2Proof.Machine.execChunkStart slot seq chunk s
  | .join src h => Sys2Proof.Machine.execJoin src h s
  | .start src h => Sys2Proof.Machine.execStart src h s
  | .data src h bytes => Sys2Proof.Machine.execData src h bytes s
  | .ack src h => Sys2Proof.Machine.execAck src h s
  | .complete src h => Sys2Proof.Machine.execComplete src h s
  | .groupDone src h => Sys2Proof.Machine.execGroupDone src h s
  | .abort src h => Sys2Proof.Machine.execAbort src h s
  | .leave src h => Sys2Proof.Machine.execLeave src h s
  | .lost src h => Sys2Proof.Machine.execLost src h s
  | .reissue src h => Sys2Proof.Machine.execReissue src h s
  | .prepass src h bytes => Sys2Proof.Machine.execPrepass src h bytes s
  | .fail src h => Sys2Proof.Machine.execFail src h s
  | .pair src p => Sys2Proof.Machine.execPair src p s
  | .pairReply src p verdict => Sys2Proof.Machine.execPairReply src p verdict s
  | .fillRead src r => Sys2Proof.Machine.execFillRead src r s
  | .fillData src h bytes => Sys2Proof.Machine.execFillData src h bytes s
  | .adoptReq src serial feedId pos => Sys2Proof.Machine.execAdoptReq src serial feedId pos s
  | .adoptReply src code => Sys2Proof.Machine.execAdoptReply src code s
  | .decisionReq src step => Sys2Proof.Machine.execDecisionReq src step s
  | .decisionReply src word => Sys2Proof.Machine.execDecisionReply src word s
  | .ferryData src h bytes => Sys2Proof.Machine.execFerryData src h bytes s
  | .ferryAck src step fseq => Sys2Proof.Machine.execFerryAck src step fseq s
  | .record src h bytes => Sys2Proof.Machine.execRecord src h bytes s
  | .ledger src h bytes => Sys2Proof.Machine.execLedger src h bytes s
  | .reseed src h bytes => Sys2Proof.Machine.execReseed src h bytes s
  | .ferryResendTimer fseq => Sys2Proof.Machine.execFerryResendTimer fseq s
  | .straitState arr mseq pos lost active tide => Sys2Proof.Machine.execStraitState arr mseq pos lost active tide s
  | .deviceFailed arr mseq pos cls tide => Sys2Proof.Machine.execDeviceFailed arr mseq pos cls tide s
  | .adopted arr mseq pos serial tide => Sys2Proof.Machine.execAdopted arr mseq pos serial tide s
  | .spareFillComplete => Sys2Proof.Machine.execSpareFillComplete s
  | .packetForward st h bytes => Sys2Proof.Machine.execPacketForward st h bytes s
  | .packetEopTimeout st ln ch => Sys2Proof.Machine.execPacketEopTimeout st ln ch s
  | .dataFlit st ln f => Sys2Proof.Machine.execDataFlit st ln f s
  | .nak st ln seq => Sys2Proof.Machine.execNak st ln seq s
  | .replayTimeout st ln => Sys2Proof.Machine.execReplayTimeout st ln s
  | .replayLimit st ln => Sys2Proof.Machine.execReplayLimit st ln s
  | .spareReq st ln pos lane seq => Sys2Proof.Machine.execSpareReq st ln pos lane seq s
  | .spareAck st ln pos lane seq => Sys2Proof.Machine.execSpareAck st ln pos lane seq s
  | .laneFault st ln lane => Sys2Proof.Machine.execLaneFault st ln lane s
  | .ident st ln id => Sys2Proof.Machine.execIdent st ln id s
  | .identPeriod => Sys2Proof.Machine.execIdentPeriod s
  | .delayProbe st ln stamp => Sys2Proof.Machine.execDelayProbe st ln stamp s
  | .delayReply st ln roundTrip turnaround => Sys2Proof.Machine.execDelayReply st ln roundTrip turnaround s
  | .failover st ln lostLn seq => Sys2Proof.Machine.execFailover st ln lostLn seq s
  | .controlRepeatTimer st ln => Sys2Proof.Machine.execControlRepeatTimer st ln s
  | .linkSignalDetected st ln lanes => Sys2Proof.Machine.execLinkSignalDetected st ln lanes s
  | .linkNoSignalTimer st ln => Sys2Proof.Machine.execLinkNoSignalTimer st ln s
  | .equaliseDone st ln lanes => Sys2Proof.Machine.execEqualiseDone st ln lanes s
  | .alignDone st ln => Sys2Proof.Machine.execAlignDone st ln s
  | .linkStateTimeout st ln => Sys2Proof.Machine.execLinkStateTimeout st ln s
  | .qualifyWindowEnd st ln bits errs => Sys2Proof.Machine.execQualifyWindowEnd st ln bits errs s
  | .retrainDone st ln => Sys2Proof.Machine.execRetrainDone st ln s
  | .linkLossOfSignal st ln => Sys2Proof.Machine.execLinkLossOfSignal st ln s
  | .discoveryDeadline => Sys2Proof.Machine.execDiscoveryDeadline s
  | .causewayLaneThreshold cw lane => Sys2Proof.Machine.execCausewayLaneThreshold cw lane s
  | .causewayLaneFail cw lane => Sys2Proof.Machine.execCausewayLaneFail cw lane s
  | .accBankThreshold l bank uncorrectable => Sys2Proof.Machine.execAccBankThreshold l bank uncorrectable s
  | .coreLost cl p cause => Sys2Proof.Machine.execCoreLost cl p cause s
  | .coreFillComplete cl ok remaining => Sys2Proof.Machine.execCoreFillComplete cl ok remaining s
  | .controlCoreLost ccp => Sys2Proof.Machine.execControlCoreLost ccp s
  | .reductionUnitFailure ld ru => Sys2Proof.Machine.execReductionUnitFailure ld ru s
  | .holmBistPeriod badCores badCc => Sys2Proof.Machine.execHolmBistPeriod badCores badCc s
  | .unitTestComplete ticket r => Sys2Proof.Machine.execUnitTestComplete ticket r s
  | .stackLost k => Sys2Proof.Machine.execStackLost k s
  | .restripeComplete k => Sys2Proof.Machine.execRestripeComplete k s
  | .resaltStart region => Sys2Proof.Machine.execResaltStart region s
  | .resaltComplete region => Sys2Proof.Machine.execResaltComplete region s
  | .scrubComplete sid => Sys2Proof.Machine.execScrubComplete sid s
  | .retirementComplete ticket => Sys2Proof.Machine.execRetirementComplete ticket s
  | .powerDomainFault k => Sys2Proof.Machine.execPowerDomainFault k s
  | .vinLow mv => Sys2Proof.Machine.execVinLow mv s
  | .vinHigh mv => Sys2Proof.Machine.execVinHigh mv s
  | .inputProtection mv => Sys2Proof.Machine.execInputProtection mv s
  | .inputLockout mv => Sys2Proof.Machine.execInputLockout mv s
  | .converterStop cause written => Sys2Proof.Machine.execConverterStop cause written s
  | .thermalTrip d temp => Sys2Proof.Machine.execThermalTrip d temp s
  | .thermalTripClear d temp => Sys2Proof.Machine.execThermalTripClear d temp s
  | .thermalShutdown unit temp => Sys2Proof.Machine.execThermalShutdown unit temp s
  | .hotWarning unit temp => Sys2Proof.Machine.execHotWarning unit temp s
  | .electricalThrottle avg => Sys2Proof.Machine.execElectricalThrottle avg s
  | .electricalThrottleClear avg => Sys2Proof.Machine.execElectricalThrottleClear avg s
  | .coolantWarm inlet => Sys2Proof.Machine.execCoolantWarm inlet s
  | .attestCertReady => Sys2Proof.Machine.execAttestCertReady s
  | .smbReadVin => Sys2Proof.Machine.execSmbReadVin s
  | .smbReadIin => Sys2Proof.Machine.execSmbReadIin s
  | .smbReadPin => Sys2Proof.Machine.execSmbReadPin s
  | .smbReadTemp => Sys2Proof.Machine.execSmbReadTemp s
  | .smbReadInlet => Sys2Proof.Machine.execSmbReadInlet s
  | .smbReadOutlet => Sys2Proof.Machine.execSmbReadOutlet s
  | .smbReadStatus => Sys2Proof.Machine.execSmbReadStatus s
  | .smbReadLastOff => Sys2Proof.Machine.execSmbReadLastOff s
  | .smbReadSerial => Sys2Proof.Machine.execSmbReadSerial s
  | .smbReadCapEff => Sys2Proof.Machine.execSmbReadCapEff s
  | .smbAlertResponse => Sys2Proof.Machine.execSmbAlertResponse s
  | .smbUnassignedCommand code => Sys2Proof.Machine.execSmbUnassignedCommand code s
  | .softStart mv => Sys2Proof.Machine.execSoftStart mv s
  | .powerDomainGood k => Sys2Proof.Machine.execPowerDomainGood k s
  | .hostLinkUp => Sys2Proof.Machine.execHostLinkUp s
  | .coolantWarmEnd inlet => Sys2Proof.Machine.execCoolantWarmEnd inlet s
  | .vinInRange mv => Sys2Proof.Machine.execVinInRange mv s

end Sys2Proof.Machine
end

