-- ==== Sys2Proof/Safety.lean ====
section
/-! DEFINITION. The terms that statements about the block use: when a core runs a word, when a mailbox command acts, when a
link or an item is ready for its row, and what a safe state of the fuses is. -/
namespace Sys2Proof.Machine
open Sys2Proof

/-! ### Cores -/

/-- Core `l` stands at the word `w` (06 R197, R200). -/
def AtWord (d : Dev) (l : Nat) (w : BitVec 64) (c : Core) : Prop := coreAt d l w = some c

/-- Core `l` stands at the word `w`, and it is not the last word of its segment (06 R200). -/
def Runs (d : Dev) (l : Nat) (w : BitVec 64) (c : Core) : Prop :=
  AtWord d l w c ∧ c.pc + 1 < (coreCode d c).length

/-- The state in which core `l` holds `c` at the next word, over the device `d`. -/
def State.advanced (s : State) (l : Nat) (c : Core) (d : Dev) : State := { s with dev := setCore l { c with pc := c.pc + 1 } d }

/-- The state in which the segment of core `l` has ended by the fault of a code and an address (06 R211, R213). -/
def State.faulted (s : State) (l : Nat) (c : Core) (k : Nat × Nat) : State := { s with dev := coreFault l k.1 k.2 s.dev c }

/-- The state in which the segment of core `l` has ended because uncorrectable data of a tensor reached it at an address, over the
device `d` (06 R196). -/
def State.memFaulted (s : State) (l : Nat) (c : Core) (tensor addr : Nat) (d : Dev) : State :=
  { s with dev := coreMemFault l tensor addr d c }

/-! ### Mailboxes -/

/-- Mailbox `m` has the command `op` in progress, and the module takes it (03 R70, R74; 13 R449). -/
def Asks (d : Dev) (m op : Nat) : Prop := mbxRuns d m op = true ∧ spareRefuses d op = false

/-- The request that mailbox `m` has in progress. -/
def request (d : Dev) (m : Nat) : Bytes := memRead (mbx d m).cmd 0 16384

/-- The state in which mailbox `m` has answered DONE with a body, over the device `d` (03 R76). -/
def State.answered (s : State) (m : Nat) (body : Bytes) (d : Dev) : State := { s with dev := answer m 0 0 body d }

/-- The state in which mailbox `m` has been refused with a reason at an offset, and nothing else changed (03 R77). -/
def State.refused (s : State) (m reason off : Nat) : State := { s with dev := refuse m reason off s.dev }

/-! ### Fuses -/

/-- The fuses stand as the commands can leave them (16 R524, R529, R530): at most 64 counter fuses are blown, a returned module was
deployed, and its seed is erased, which no other is. -/
def FusesLegal (f : Fuses) : Prop :=
  f.floor ≤ 64 ∧ (f.returned = true → f.deployed = true) ∧ f.seedErased = f.returned

/-- No fuse of `f` is unblown in `g`, and those that no command blows are the same (16 R524). -/
def FusesKept (f g : Fuses) : Prop :=
  f.floor ≤ g.floor ∧ (∀ k, f.revoked.getLsbD k = true → g.revoked.getLsbD k = true) ∧ (f.deployed = true → g.deployed = true) ∧
  (f.returned = true → g.returned = true) ∧ (f.seedErased = true → g.seedErased = true) ∧
  g = { f with floor := g.floor, revoked := g.revoked, deployed := g.deployed, returned := g.returned, seedErased := g.seedErased }

/-! ### Security commands -/

/-- The security engine has the command `op` in progress, and its clocks run (16 R535, R536). -/
def SecRuns (d : Dev) (op : Nat) : Prop :=
  clocksRun d = true ∧ brgPassed d 8 = true ∧ d.sec.state = 1 ∧ d.sec.opcode.toNat = op

/-- The state in which the command in progress has answered DONE, over the fuses and the device (16 R535). -/
def State.secDone (s : State) (f : Fuses) (d : Dev) (body : Bytes) : State := { s with fuses := f, dev := secAnswer 0 0 body d }

/-- The state in which the command in progress has been refused, and nothing else changed. -/
def State.secRefused (s : State) (reason off : Nat) : State := { s with dev := secAnswer reason off [] s.dev }

end Sys2Proof.Machine
end

