-- ==== Sys2Proof/Certificates/Slice0/Obligations.lean ====
section
/-! DEFINITION. The statements for the provers. Each is a proposition about the block's commands; what it states, and where the spec
says it, stands in its docstring and in OBLIGATIONS.json. -/
open Sys2Proof Sys2Proof.Machine

/-- What a step is. The queue is the model's own (log 1); commands take their turn in the order in which they came. -/
def Obligations.StepRunsFrontCommand : Prop :=
  ∀ (s : State) (c : Instr) (rest : List Instr),
    step { s with pending := c :: rest } = exec c { s with pending := rest } ∧
    step { s with pending := [] } = .next { s with pending := [] }

/-- Noninterference of the queue with the device: what a command does is fixed by the device and the fuses alone. -/
def Obligations.CommandsAreIndependentOfTheQueue : Prop :=
  ∀ (c : Instr) (d : Dev) (f : Fuses), ∃ (d' : Dev) (f' : Fuses), ∀ q : List Instr,
    exec c { pending := q, dev := d, fuses := f } = .next { pending := q, dev := d', fuses := f' }

/-- The headline of the queue (log 1): the block's run over queued commands refines the fold of their effects. -/
def Obligations.QueuedCommandsRunInOrder : Prop :=
  ∀ (cs later : List Instr) (s : State), ∃ t : State, t.pending = [] ∧
    cs.foldl (fun (r : Res) c => match r with | .next s => exec c s | r => r) (.next { s with pending := [] }) = .next t ∧
    Host.Core.run Sys2Proof.core cs.length { s with pending := cs ++ later } = .next { t with pending := later }

/-- 16 R524, R527 to R529: the only ways to blow a fuse in service. Resets, firmware images and register writes cannot. -/
def Obligations.OnlySecurityCommandsBlowFuses : Prop :=
  ∀ (c : Instr) (s t : State), c ≠ .svnCommit → c ≠ .revokeSlot → c ≠ .lifecycleSet → exec c s = .next t → t.fuses = s.fuses

/-- 16 R524 ("No fuse can be unblown"), R527 to R530, over every step and every run of the block, from every legal state. -/
def Obligations.FusesOnlyBlowOverARun : Prop :=
  (∀ s t : State, FusesLegal s.fuses → step s = .next t → FusesLegal t.fuses ∧ FusesKept s.fuses t.fuses) ∧
  (∀ (n : Nat) (s t : State), FusesLegal s.fuses → Host.Core.run Sys2Proof.core n s = .next t → FusesLegal t.fuses ∧ FusesKept s.fuses t.fuses)

/-- The reset state (14 R470 and the register tables; blank fuses and the instant at which it stands are the model's choice, logs 5 to 7). -/
def Obligations.ResetState : Prop :=
  let s := State.reset
  s.pending = [] ∧ FusesLegal s.fuses ∧
  brgState s.dev 1 = 2 ∧ (∀ n, 2 ≤ n → brgState s.dev n = 0) ∧ s.dev.power.good = 0x04000#20 ∧
  s.dev.tide.run = false ∧ s.dev.tide.count = 0 ∧ s.dev.tide.rate = 10 ∧ s.dev.tide.slack = 8 ∧ s.dev.lnk.run = false ∧ s.dev.lnk.planLoaded = false ∧
  (∀ k, k < 24 → (stack s.dev k).state = 0 ∧ (stack s.dev k).lost = false) ∧ (∀ st ln, (linkOf s.dev st ln).state = 0) ∧
  (∀ h, handleLive s.dev h = false) ∧ s.dev.items = [] ∧ s.dev.ras.pf0.recs = [] ∧ s.dev.ras.pf1.recs = [] ∧
  firmwareRuns s.dev = false ∧ serves s.dev = false

/-- The laws of the model's byte stores (host memory, core memory, mailbox areas, the firmware window), little-endian words of 00 R7 over them. -/
def Obligations.AddressedBytes : Prop :=
  ∀ (m : Mem) (a : Nat) (bs : Bytes), Memory.wf m = true →
    Memory.wf (memWrite m a bs) = true ∧
    memRead (memWrite m a bs) a bs.length = bs ∧
    (∀ x, x < a ∨ a + bs.length ≤ x → memRead (memWrite m a bs) x 1 = memRead m x 1) ∧
    (∀ cs : Bytes, cs.length = bs.length → memWrite (memWrite m a bs) a cs = memWrite m a cs) ∧
    (∀ (n : Nat) (v : Nat), v < 256 ^ n → ofLe (memRead (memWrite m a (toLe n v)) a n) = v) ∧
    (∀ m', Memory.wf m' = true → (∀ x, memRead m' x 1 = memRead m x 1) → m' = m)

/-- The scalar results of 06 R198 and R199. A write to s0 is discarded by `wrS`. -/
def Obligations.ScalarArithmeticResults : Prop :=
  ∀ (s : State) (l : Nat) (w : BitVec 64) (c : Core), Runs s.dev l w c →
    let a := rdS c (wRA w)
    let b := if wMajor w = 1 then rdS c (wRB w) else BitVec.ofInt 64 (wImm32 w)
    let rb := rdS c (wRB w)
    let x := a.toNat
    let y := rb.toNat
    (wMajor w = 1 ∨ wMajor w = 2 → ∀ v : BitVec 64,
      (wFunc w, v) ∈ [(0, a + b), (1, a - b), (2, a * b), (8, a &&& b), (9, a ||| b), (10, a ^^^ b),
        (11, a <<< (b.toNat % 64)), (12, a >>> (b.toNat % 64)), (13, a.sshiftRight (b.toNat % 64)),
        (16, if a.slt b then 1 else 0), (17, if a.ult b then 1 else 0), (18, if a = b then 1 else 0),
        (19, if a.slt b then a else b), (20, if a.slt b then b else a)] →
      exec (.scalarIntegerOp l w) s = .next (s.advanced l (wrS (wRD w) v c) s.dev)) ∧
    (wMajor w = 1 ∨ wMajor w = 2 → ∀ v : BitVec 64,
      (wFunc w, v) ∈ [(3, if b = 0 then BitVec.allOnes 64 else a.sdiv b), (4, if b = 0 then BitVec.allOnes 64 else a / b),
        (5, if b = 0 then a else a.srem b), (6, if b = 0 then a else a % b)] →
      exec (.div l w) s = .next (s.advanced l (wrS (wRD w) v c) s.dev)) ∧
    (wMajor w = 1 → ∀ r : Fl Nat,
      (wFunc w, r) ∈ [(0x20, fpAdd fp64 x y), (0x21, fpSub fp64 x y), (0x22, fpMul fp64 x y), (0x23, fpDiv fp64 x y),
        (0x24, fpSqrt fp64 x), (0x25, fpMin fp64 x y), (0x26, fpMax fp64 x y),
        (0x27, (b2n (fpCmp fp64 0 x y).1, (fpCmp fp64 0 x y).2)), (0x28, (b2n (fpCmp fp64 2 x y).1, (fpCmp fp64 2 x y).2)),
        (0x29, (b2n (fpCmp fp64 3 x y).1, (fpCmp fp64 3 x y).2))] →
      exec (.scalarFloatOp l w) s = .next (s.advanced l (raise r.2 (wrS (wRD w) (BitVec.ofNat 64 r.1) c)) s.dev)) ∧
    (wMajor w = 4 → wFunc w = 0 →
      exec (.li l w) s = .next (s.advanced l (wrS (wRD w) (BitVec.ofInt 64 (signExt 47 (fld w 0 47))) c) s.dev)) ∧
    (wMajor w = 4 → wFunc w = 1 →
      exec (.lih l w) s = .next (s.advanced l (wrS (wRD w)
        (BitVec.ofNat 64 ((rdS c (wRD w)).toNat % 2 ^ 48 + fld w 0 16 * 2 ^ 48)) c) s.dev))

/-- 06 R200: every branch function, with BR_TARGET (0x0101) and SEG_FALLTHROUGH (0x010B). -/
def Obligations.BranchesAndCalls : Prop :=
  ∀ (s : State) (l : Nat) (w : BitVec 64) (c : Core), AtWord s.dev l w c → wMajor w = 8 →
    let a := rdS c (wRA w)
    let b := rdS c (wRB w)
    let size := (coreCode s.dev c).length
    (∀ taken : Bool, (wFunc w, taken) ∈ [(0, true), (1, a == b), (2, a != b), (3, a.slt b), (4, !a.slt b), (5, a.ult b), (6, !a.ult b)] →
      (taken = false → c.pc + 1 < size → exec (.conditionalBranch l w) s = .next (s.advanced l c s.dev)) ∧
      (taken = false → c.pc + 1 = size → exec (.conditionalBranch l w) s =
        .next (s.onDev (fun d => coreFault l 0x10B 0 (setCore l { c with pc := c.pc + 1 } d) { c with pc := c.pc + 1 }))) ∧
      (taken = true → ∀ t : Nat, (c.pc : Int) + wImm32 w = t → t < size →
        exec (.conditionalBranch l w) s = .next (s.onDev (setCore l { c with pc := t }))) ∧
      (taken = true → (c.pc : Int) + wImm32 w < 0 ∨ (size : Int) ≤ c.pc + wImm32 w →
        exec (.conditionalBranch l w) s = .next (s.onDev (fun d => coreFault l 0x101 (wrapBits 64 (c.pc + wImm32 w)) d c)))) ∧
    (wFunc w = 8 → ∀ t : Nat, (c.pc : Int) + wImm32 w = t → t < size →
      exec (.call l w) s = .next (s.onDev (setCore l (wrS (wRD w) (BitVec.ofNat 64 (c.pc + 1)) { c with pc := t })))) ∧
    (wFunc w = 8 → (c.pc : Int) + wImm32 w < 0 ∨ (size : Int) ≤ c.pc + wImm32 w →
      exec (.call l w) s = .next (s.onDev (fun d => coreFault l 0x101 (wrapBits 64 (c.pc + wImm32 w)) d c))) ∧
    (wFunc w = 9 → a.toNat < size → exec (.jr l w) s = .next (s.onDev (setCore l { c with pc := a.toNat }))) ∧
    (wFunc w = 9 → size ≤ a.toNat → exec (.jr l w) s = .next (s.onDev (fun d => coreFault l 0x101 a.toNat d c))) ∧
    (wFunc w = 10 → a.toNat < size →
      exec (.callr l w) s = .next (s.onDev (setCore l (wrS (wRD w) (BitVec.ofNat 64 (c.pc + 1)) { c with pc := a.toNat })))) ∧
    (wFunc w = 10 → size ≤ a.toNat → exec (.callr l w) s = .next (s.onDev (fun d => coreFault l 0x101 a.toNat d c))) ∧
    (∀ (x : BitVec 64) (k : Core) (f : Dev → Core → CRes) (d' : Dev) (k' : Core), AtWord s.dev l x k → f s.dev k = done d' k' →
      k'.run = true → k'.pc + 1 = (coreCode d' k').length →
      coreRow l x true f s.dev = coreFault l 0x10B 0 (setCore l { k' with pc := k'.pc + 1 } d') { k' with pc := k'.pc + 1 })

/-- 06 R188, R191, R193, R196, R201 and R202. The address is s[RA] + sext(IMM32), or s[RA] for WSET and WGET. -/
def Obligations.CoreMemoryAndWindowSetup : Prop :=
  ∀ (s : State) (l : Nat) (w : BitVec 64) (c : Core),
    let d := s.dev
    let a := rdS c (wRA w) + BitVec.ofInt 64 (wImm32 w)
    let r := rdS c (wRA w)
    let free := fun (x : BitVec 64) (n : Nat) => cmCheck x n n = none ∧ cmBusy c x.toNat n = false ∧ cmPoison c x.toNat n = none
    let stops := fun (x : BitVec 64) (n : Nat) (o : Res) =>
      (∀ k, cmCheck x n n = some k → o = .next (s.faulted l c k)) ∧
      (cmCheck x n n = none → cmBusy c x.toNat n = true → o = .next s) ∧
      (cmCheck x n n = none → cmBusy c x.toNat n = false → ∀ t, cmPoison c x.toNat n = some t → o = .next (s.memFaulted l c t x.toNat d))
    (wMajor w = 0x10 → ∀ n : Nat, ∀ v : Nat → BitVec 64,
      (wFunc w, n, v) ∈ [(0, 1, BitVec.ofNat 64), (1, 1, fun x => BitVec.ofInt 64 (signExt 8 x)), (2, 2, BitVec.ofNat 64),
        (3, 2, fun x => BitVec.ofInt 64 (signExt 16 x)), (4, 4, BitVec.ofNat 64),
        (5, 4, fun x => BitVec.ofInt 64 (signExt 32 x)), (6, 8, BitVec.ofNat 64)] →
      (AtWord d l w c → stops a n (exec (.coreMemoryLoad l w) s)) ∧
      (Runs d l w c → free a n → exec (.coreMemoryLoad l w) s =
        .next (s.advanced l (wrS (wRD w) (v (ofLe (memRead c.mem a.toNat n))) c) d))) ∧
    (wMajor w = 0x10 → ∀ n : Nat, (wFunc w, n) ∈ [(8, 1), (9, 2), (10, 4), (11, 8)] →
      (AtWord d l w c → stops a n (exec (.coreMemoryStore l w) s)) ∧
      (Runs d l w c → free a n → exec (.coreMemoryStore l w) s =
        .next (s.advanced l { c with mem := memWrite c.mem a.toNat (toLe n (rdS c (wRD w)).toNat) } d))) ∧
    (wMajor w = 0x0C → wFunc w = 0 →
      (AtWord d l w c → stops r 64 (exec (.wset l w) s)) ∧
      (free r 64 →
        let b := memRead c.mem r.toNat 64
        let h := BitVec.ofNat 64 (fieldLe b 0 8)
        let t := (aGet d.tensors (hIdx h)).getD {}
        let forbidden := bitOf (fieldLe b 57 1) 1 && tSecured t
        (AtWord d l w c → winDescOk b = false → exec (.wset l w) s = .next (s.faulted l c (0x105, r.toNat))) ∧
        (AtWord d l w c → winDescOk b = true → handleOk d 2 h = false → exec (.wset l w) s = .next (s.faulted l c (0x106, r.toNat))) ∧
        (AtWord d l w c → winDescOk b = true → handleOk d 2 h = true → t.lost = true →
          exec (.wset l w) s = .next (s.memFaulted l c (hIdx h) r.toNat d)) ∧
        (AtWord d l w c → winDescOk b = true → handleOk d 2 h = true → t.lost = false → forbidden = true →
          exec (.wset l w) s = .next (s.faulted l c (0x107, r.toNat))) ∧
        (Runs d l w c → winDescOk b = true → handleOk d 2 h = true → t.lost = false → forbidden = false →
          exec (.wset l w) s = .next (s.advanced l { c with w := aSet c.w (wW w) (winOf d b) } d)))) ∧
    (wMajor w = 0x0C → wFunc w = 1 →
      (AtWord d l w c → stops r 64 (exec (.wget l w) s)) ∧
      (Runs d l w c → free r 64 →
        let text := match rdW c (wW w) with | some v => v.desc | none => zeros 64
        exec (.wget l w) s = .next (s.advanced l { c with mem := memWrite c.mem r.toNat text } d))) ∧
    (Runs d l w c → wMajor w = 0x0C → wFunc w = 2 →
      exec (.wclr l w) s = .next (s.advanced l { c with w := aDel c.w (wW w) } d))

/-- 06 R202, R188, R191, R196 (data moves at issue: log 14; a core address needs no alignment). -/
def Obligations.DmaMovesItsElements : Prop :=
  ∀ (s : State) (l : Nat) (w : BitVec 64) (c : Core),
    let d := s.dev
    let a := (rdS c (wRA w)).toNat
    let n := (rdS c (wRC w)).toNat
    let code := fmtCode (wFmt w)
    let size := fmtBytes code
    let turned := fun (write : Bool) (o : Res) =>
      (∀ k, dmaCheck d c w write = some k → o = .next (s.faulted l c k)) ∧
      (dmaCheck d c w write = none → 8 ≤ dmaCount c → o = .next s) ∧
      (dmaCheck d c w write = none → dmaCount c < 8 → ∀ v, rdW c (wW w) = some v →
        ((winBusy c v || cmBusy c a (n * size)) = true → o = .next s) ∧
        ((winBusy c v || cmBusy c a (n * size)) = false → ∀ t, cmPoison c a (n * size) = some t →
          o = .next (s.memFaulted l c t a d)))
    let may := fun (write : Bool) => dmaCheck d c w write = none ∧ dmaCount c < 8
    let free := fun (v : Window) => winBusy c v = false ∧ cmBusy c a (n * size) = false ∧ cmPoison c a (n * size) = none
    (wMajor w = 0x0C → wFunc w = 3 →
      (AtWord d l w c → turned false (exec (.dmain l w) s)) ∧
      (Runs d l w c → may false → n = 0 → (∀ v, rdW c (wW w) = some v → free v) → exec (.dmain l w) s = .next (s.advanced l c d)) ∧
      (Runs d l w c → may false → n ≠ 0 → ∀ v, rdW c (wW w) = some v → free v →
        let r := winReads v c (winIdx d c v (dmaIdx c w)) d
        let job : Dma := { isIn := true, core := a, len := n * size, seq := c.dmaSeq }
        (r.2 = none → exec (.dmain l w) s = .next (s.advanced l
          { c with dmas := c.dmas ++ [{ job with poison := some v.tensor }], dmaSeq := c.dmaSeq + 1 } r.1)) ∧
        (∀ vals, r.2 = some vals →
          let x := flSeq (vals.map (fromTensor d (coreItem d c) (optW w) v.tensor v.fmt code))
          exec (.dmain l w) s = .next (s.advanced l { c with
            mem := memWrite c.mem a (x.1.map (toLe size)).flatten
            dmas := c.dmas ++ [{ job with flags := x.2 }]
            dmaSeq := c.dmaSeq + 1 } r.1)))) ∧
    (wMajor w = 0x0C → wFunc w = 4 →
      (AtWord d l w c → turned true (exec (.dmaout l w) s)) ∧
      (Runs d l w c → may true → n = 0 → (∀ v, rdW c (wW w) = some v → free v) → exec (.dmaout l w) s = .next (s.advanced l c d)) ∧
      (Runs d l w c → may true → n ≠ 0 → ∀ v, rdW c (wW w) = some v → free v →
        let es := winIdx d c v (dmaIdx c w)
        let vals := (List.range n).map (fun i => ofLe (memRead c.mem (a + i * size) size))
        let x := flSeq ((es.zip vals).map (fun e =>
          toTensor d (coreItem d c) (optW w) v.tensor (roleOf d v.tensor) code v.fmt e.1 e.2))
        let r := winWrites v (es.zip x.1) d
        exec (.dmaout l w) s = .next (s.advanced l { c with
          dmas := c.dmas ++ [{ isIn := false, core := a, len := n * size, seq := c.dmaSeq, flags := x.2 }]
          dmaSeq := c.dmaSeq + 1 } (recordScaled (optW w) c v code vals x.2 (afterWrite r.2 v l c r.1))))) ∧
    (coreRuns d l = some c →
      (∀ m, c.dmas.find? (fun m => !m.done) = some m →
        let left := (c.dmas.map (fun x => if x.seq = m.seq then { x with done := true } else x)).filter
          (fun x => !x.done || x.poison.isSome)
        exec (.dmaComplete l) s = .next (s.onDev (setCore l (raise m.flags { c with dmas := left })))) ∧
      (c.dmas.find? (fun m => !m.done) = none → exec (.dmaComplete l) s = .next s))

/-- 06 R203 and R204 with the checks and waits of R188, R191, R194 to R196 and 07 R221. `actives` lists a vector instruction's active elements, `fromTensor` and `toTensor` are the conversions of 04 and 09 R314; the one key of a vector CVT is log 49's reading. -/
def Obligations.ConvertingAccesses : Prop :=
  ∀ (s : State) (l : Nat) (w : BitVec 64) (c : Core),
    let d := s.dev
    let it := coreItem d c
    let code := fmtCode (wFmt w)
    let size := fmtBytes code
    let j : Int := (rdS c (wRB w)).toNat
    let ks := actives c (wP w) (vlMax (wFmt w))
    let js := ks.map (fun k => j + (k : Nat))
    let base := (rdS c (wRA w)).toNat
    let reg := fun (v : Window) => if (fpOf v.fmt).isSome then 1 else 18
    (wMajor w = 0x11 → ∀ write : Bool, wFunc w = b2n write →
      let o := exec (if write then .stw l w else .ldw l w) s
      (AtWord d l w c → rdW c (wW w) = none → o = .next (s.faulted l c (0x104, 0))) ∧
      (∀ v, rdW c (wW w) = some v →
        let chk := lowest [winPerm (some v) write, winBound d c v j]
        (AtWord d l w c → ∀ k, chk = some k → o = .next (s.faulted l c k)) ∧
        (AtWord d l w c → chk = none → winBusy c v = true → o = .next s) ∧
        (chk = none → winBusy c v = false → ∀ e, winElem d c v j = some e →
          (write = false → AtWord d l w c → (winRead v c e d).2 = none →
            o = .next (s.memFaulted l c v.tensor j.toNat (winRead v c e d).1)) ∧
          (write = false → Runs d l w c → ∀ b, (winRead v c e d).2 = some b →
            let x := fromTensor d it (optW w) v.tensor v.fmt (reg v) b
            o = .next (s.advanced l (raise x.2 (wrS (wRD w) (BitVec.ofNat 64 x.1) c)) (winRead v c e d).1)) ∧
          (write = true → Runs d l w c →
            let r := winStore l d c v (optW w) (reg v) [(e, (rdS c (wRD w)).toNat)]
            o = .next (s.advanced l r.2 r.1))))) ∧
    (wMajor w = 0x12 → ∀ write : Bool, wFunc w = b2n write →
      let o := exec (if write then .vstw l w else .vldw l w) s
      let vl := vlCheck c [wFmt w]
      (ks = [] → (AtWord d l w c → ∀ k, vl = some k → o = .next (s.faulted l c k)) ∧
        (Runs d l w c → vl = none → o = .next (s.advanced l c d))) ∧
      (AtWord d l w c → ks ≠ [] → rdW c (wW w) = none → o = .next (s.faulted l c (0x104, 0))) ∧
      (ks ≠ [] → ∀ v, rdW c (wW w) = some v →
        let chk := lowest [winPerm (some v) write, winBounds d c v js, vl]
        let r := winReads v c (winIdx d c v js) d
        (AtWord d l w c → ∀ k, chk = some k → o = .next (s.faulted l c k)) ∧
        (AtWord d l w c → chk = none → winBusy c v = true → o = .next s) ∧
        (write = false → chk = none → winBusy c v = false →
          (AtWord d l w c → r.2 = none → o = .next (s.memFaulted l c v.tensor (wrapBits 64 (js.headD 0)) r.1)) ∧
          (Runs d l w c → ∀ bs, r.2 = some bs →
            let xs := flSeq (bs.map (fromTensor d it (optW w) v.tensor v.fmt code))
            o = .next (s.advanced l (raise xs.2 (wrV (wRD w) (vUpdate (rdV c (wRD w)) (fmtW (wFmt w)) (ks.zip xs.1)) c)) r.1))) ∧
        (write = true → Runs d l w c → chk = none → winBusy c v = false →
          let r := winStore l d c v (optW w) code ((winIdx d c v js).zip (ks.map (vElem (rdV c (wRD w)) (fmtW (wFmt w)))))
          o = .next (s.advanced l r.2 r.1)))) ∧
    (wMajor w = 0x12 → ∀ write : Bool, wFunc w = 2 + b2n write →
      let o := exec (if write then .vstc l w else .vldc l w) s
      let at' := fun (k : Nat) => base + k * size
      let bad := lowest (ks.map (fun k => if cmSize < at' k + size then some (0x102, at' k)
        else if at' k % size ≠ 0 then some (0x103, at' k) else none))
      let chk := lowest [bad, vlCheck c [wFmt w]]
      let owed := ks.findSome? (fun k => (cmPoison c (at' k) size).map (fun t => (t, at' k)))
      (AtWord d l w c → ∀ k, chk = some k → o = .next (s.faulted l c k)) ∧
      (AtWord d l w c → chk = none → ks.any (fun k => cmBusy c (at' k) size) = true → o = .next s) ∧
      (AtWord d l w c → chk = none → ks.any (fun k => cmBusy c (at' k) size) = false → ∀ t, owed = some t →
        o = .next (s.memFaulted l c t.1 t.2 d)) ∧
      (Runs d l w c → chk = none → ks.any (fun k => cmBusy c (at' k) size) = false → owed = none →
        (write = false → o = .next (s.advanced l (wrV (wRD w) (vUpdate (rdV c (wRD w)) (8 * size)
          (ks.zip (ks.map (fun k => ofLe (memRead c.mem (at' k) size))))) c) d)) ∧
        (write = true → o = .next (s.advanced l { c with mem := ks.foldl (fun m k =>
          memWrite m (at' k) (toLe size (storeForm code (vElem (rdV c (wRD w)) (8 * size) k)))) c.mem } d)))) ∧
    (wMajor w = 0x20 → wFunc w = 0 →
      let si := fld w 32 4
      let src := fmtCode si
      let win := rdW c (wW w)
      let idx := (win.map (·.tensor)).getD 0
      let key := win.bind (fun v => winElem d c v (rdS c (wRB w)).toNat)
      let one := cvtScaled src code (if wScale w && isFp8 code then scaleExpFor d it idx else 0)
        (if wGrad w && bothFloat src code then .sr (srValue it.step idx (key.getD 0) (wSite w)) else .rn) (wRz w) (wNonsat w)
      let keyed := fun (any : Bool) => [
        if (wGrad w || wScale w) && win.isNone then some (0x104, 0) else none,
        if wGrad w && any && key.isNone then some (0x108, (rdS c (wRB w)).toNat) else none]
      (fld w 36 1 = 0 →
        (AtWord d l w c → ∀ k, lowest (keyed true) = some k → exec (.cvt l w) s = .next (s.faulted l c k)) ∧
        (Runs d l w c → lowest (keyed true) = none →
          let bits := base % 2 ^ (8 * fmtBytes src)
          let x := one bits
          exec (.cvt l w) s = .next (s.advanced l (raise x.2 (wrS (wRD w)
            (if (fpOf code).isSome then BitVec.ofNat 64 x.1 else BitVec.ofInt 64 (signExt (8 * size) x.1)) c))
            (cvtRecord d c w [bits] x.2)))) ∧
      (fld w 36 1 = 1 →
        let kc := actives c (wP w) (min (vlMax si) (vlMax (wFmt w)))
        let chk := lowest (vlCheck c [si, wFmt w] :: keyed (!kc.isEmpty))
        let vals := kc.map (vElem (rdV c (wRA w)) (fmtW si))
        let xs := flSeq (vals.map one)
        (AtWord d l w c → ∀ k, chk = some k → exec (.cvt l w) s = .next (s.faulted l c k)) ∧
        (Runs d l w c → chk = none → exec (.cvt l w) s = .next (s.advanced l
          (raise xs.2 (wrV (wRD w) (vUpdate (rdV c (wRD w)) (fmtW (wFmt w)) (kc.zip xs.1)) c)) (cvtRecord d c w vals xs.2)))))

/-- 05 R164 to R178 with Table 5-6 (log 15: the accumulation takes effect at issue). -/
def Obligations.MatrixInstructionAccumulates : Prop :=
  ∀ (s : State) (l : Nat) (w : BitVec 64) (c : Core),
    let d := s.dev
    let x : MatArgs := { matArgs c w with ps := if mP w = 1 then 0 else (matArgs c w).ps }
    let t := matTile w x
    let b := memRead c.mem x.osd 64
    let size := fmtBytes (mFmtCode (mFmt w))
    let acc := matAccumulate c w x
    let others := c.tiles.filter (fun u => !(u.group == t.group && sameTile u t))
    let o := exec (.matrixInstruction l w) s
    let idle := c.slvJob = none ∧ c.asmJob = none
    let ending := c.tiles.any (fun u => u.ending && tilesMeet u t.base (tileSlots t))
    let late := firstOf [matCheck c w x b, lowest [panelCheck x.a x.lda x.ps x x.mv size (mP w),
      panelCheck x.b x.ldb x.ps x x.nv size (mP w), if mEnd w then osDestCheck d c t b else none]]
    let ranges := panelRanges x.a x.lda x.ps x x.mv size (mP w) ++ panelRanges x.b x.ldb x.ps x x.nv size (mP w)
      ++ (if mEnd w then osRanges t b else [])
    let owed := ranges.findSome? (fun r => (cmPoison c r.1 r.2).map (fun p => (p, r.1)))
    let window := mEnd w && osKind b != 0 && ((rdW c (osWin b)).map (winBusy c)).getD false
    (wMajor w = 0x18 →
      (AtWord d l w c → ¬ idle → o = .next s) ∧
      (AtWord d l w c → idle → ending = true →
        (shapeOk w (matArgs c w) = true → o = .next s) ∧ (shapeOk w (matArgs c w) = false → o = .next (s.faulted l c (0x201, 0)))) ∧
      (AtWord d l w c → idle → ending = false → ∀ k, matCheckTile c w x = some k → o = .next (s.faulted l c k)) ∧
      (AtWord d l w c → idle → ending = false → matCheckTile c w x = none → mEnd w = true →
        (cmBusy c x.osd 64 = true → o = .next s) ∧
        (cmBusy c x.osd 64 = false → ∀ p, cmPoison c x.osd 64 = some p → o = .next (s.memFaulted l c p x.osd d))) ∧
      (idle → ending = false → matCheckTile c w x = none → (mEnd w = true → cmBusy c x.osd 64 = false ∧ cmPoison c x.osd 64 = none) →
        (AtWord d l w c → ∀ k, late = some k → o = .next (s.faulted l c k)) ∧
        (AtWord d l w c → late = none → ranges.any (fun r => cmBusy c r.1 r.2) = true → o = .next s) ∧
        (AtWord d l w c → late = none → ranges.any (fun r => cmBusy c r.1 r.2) = false → ∀ p, owed = some p →
          o = .next (s.memFaulted l c p.1 p.2 d)) ∧
        (AtWord d l w c → late = none → ranges.any (fun r => cmBusy c r.1 r.2) = false → owed = none → window = true → o = .next s) ∧
        (Runs d l w c → late = none → ranges.any (fun r => cmBusy c r.1 r.2) = false → owed = none → window = false →
          let c1 := { c with acc := acc.1, rowGroups := 8, idle := 0 }
          (mEnd w = false → o = .next (s.advanced l (raise acc.2 { c1 with tiles := others ++ [t] }) d)) ∧
          (mEnd w = true → o = .next (s.advanced l
            { c1 with tiles := others ++ [{ t with ending := true }], outJobs := c.outJobs ++ [osJob d c1 t b acc.2] } d))))) ∧
    (coreRuns d l = some c →
      (c.outJobs = [] → exec (.matrixEndComplete l) s = .next s) ∧
      (∀ j rest, c.outJobs = j :: rest →
        let r := osStore l j j.outs d { c with outJobs := rest }
        let d1 := match j.win with
          | some v => if osMode j.desc 2 then recordAmax (coreItem d { c with outJobs := rest }) v.tensor j.amax.toNat j.ovf r.1 else r.1
          | none => r.1
        let c1 := raise j.flags { r.2 with
          tiles := r.2.tiles.filter (fun u => !(u.ending && sameTile u j.tile && u.group == j.tile.group)) }
        exec (.matrixEndComplete l) s = .next { s with dev := setCore l c1 (osNotices j (j.outs.map (·.1)) d1) }))

/-- 05 R155, R170, R180 with Table 5-6 and 06 R206. -/
def Obligations.TileRowsAndElementWise : Prop :=
  ∀ (s : State) (l : Nat) (w : BitVec 64) (c : Core), wMajor w = 0x19 →
    let d := s.dev
    let idle := c.slvJob = none ∧ c.asmJob = none
    let td := tileAt c (aTD w)
    (¬ idle → AtWord d l w c → ∀ i f, (i, f) ∈ [(Instr.rowrd l w, 0), (.rowwr l w, 1), (.ewt l w, 2), (.ewv l w, 3), (.ews l w, 4)] →
      aFunc w = f → exec i s = .next s) ∧
    (idle → ∀ write : Bool, aFunc w = b2n write →
      let o := exec (if write then .rowwr l w else .rowrd l w) s
      (AtWord d l w c → td = none → o = .next (s.faulted l c (0x203, 0))) ∧
      (∀ t, td = some t →
        let wd := 8 * accBytes t.mode
        let chk := firstOf [if write ∧ t.group ≠ aGroup w then some (0x202, 0) else none,
          if isSubBase t (aTD w) then none else some (0x204, 0), if t.mode = 3 ∧ aV w = 31 then some (0x207, 0) else none]
        (AtWord d l w c → t.ending = true → o = .next s) ∧
        (AtWord d l w c → t.ending = false → ∀ k, chk = some k → o = .next (s.faulted l c k)) ∧
        (Runs d l w c → t.ending = false → chk = none →
          (write = false →
            let el := (List.range 32).map (fun j => accGet c.acc t.mode (aTD w) (aRow w) j)
            let c1 := wrV (aV w) (vOf wd (el.map (·.1))) c
            o = .next (s.advanced l (if t.mode = 3 then wrV (aV w + 1) (vOf 64 (el.map (·.2))) c1 else c1) d)) ∧
          (write = true → o = .next (s.advanced l { c with acc := (List.range 32).foldl (fun m j =>
            accPut m t.mode (aTD w) (aRow w) j (vElem (rdV c (aV w)) wd j, vElem (rdV c (aV w + 1)) 64 j)) c.acc } d))))) ∧
    (idle → ∀ i f (src : Option Nat), (i, f, src) ∈ [(Instr.ewt l w, 2, some (aTS w)), (.ewv l w, 3, none), (.ews l w, 4, none)] →
      aFunc w = f →
      let ending := slotEnding c (aTD w) || (src.map (slotEnding c)).getD false
      (AtWord d l w c → ending = true → exec i s = .next s) ∧
      (AtWord d l w c → ending = false → ∀ k, ewCheck c w src = some k → exec i s = .next (s.faulted l c k)) ∧
      (Runs d l w c → ending = false → ewCheck c w src = none → ∀ t, td = some t →
        let wd := 8 * accBytes t.mode
        let other : Nat × Nat × Nat → Nat := fun e => match f with
          | 2 => let pl := accPlace { t with base := aTS w } e.1 e.2.1 e.2.2; (accGet c.acc t.mode pl.1 pl.2.1 pl.2.2).1
          | 3 => vElem (rdV c (aV w)) wd (accPlace t e.1 e.2.1 e.2.2).2.2
          | _ => (rdS c (aS w)).toNat % 2 ^ wd
        exec i s = .next (s.advanced l (ewApply c t (fun e a =>
          if f = 4 then fpMul (accFmt t.mode) a (other e) else ewOp (aOp w) (accFmt t.mode) a (other e))) d)))

/-- 06 R207, 08 R247, R250, R251, R255, R280 and R281 (log 15; the word beyond the last solve's problems is a free value, log 20). -/
def Obligations.SolverInvocation : Prop :=
  ∀ (s : State) (l : Nat) (w : BitVec 64) (c : Core),
    let d := s.dev
    let ra := rdS c (wRA w)
    let rb := rdS c (wRB w)
    let idle := c.slvJob = none ∧ c.asmJob = none
    (wMajor w = 0x1C →
      (wFunc w = 0 →
        (AtWord d l w c → ¬ (idle ∧ c.outJobs = []) → exec (.asm l w) s = .next s) ∧
        (AtWord d l w c → idle → c.outJobs = [] → ∀ t, asmOwes c ra = some t →
          exec (.asm l w) s = .next (s.memFaulted l c t.1 t.2 d)) ∧
        (Runs d l w c → idle → c.outJobs = [] → asmOwes c ra = none →
          exec (.asm l w) s = .next (s.advanced l { c with asmJob := some (asmJobOf d c ra).2 } (asmJobOf d c ra).1))) ∧
      (wFunc w = 1 →
        (AtWord d l w c → ¬ (idle ∧ c.outJobs = []) → exec (.slvs l w) s = .next s) ∧
        (AtWord d l w c → idle → c.outJobs = [] → ∀ t, slvOwes c ra rb = some t →
          exec (.slvs l w) s = .next (s.memFaulted l c t.1 t.2 d)) ∧
        (Runs d l w c → idle → c.outJobs = [] → slvOwes c ra rb = none →
          exec (.slvs l w) s = .next (s.advanced l { c with slvJob := some (slvJobOf c ra rb) } d))) ∧
      (wFunc w = 2 →
        (AtWord d l w c → ¬ idle → exec (.slvw l w) s = .next s) ∧
        (AtWord d l w c → idle → ∀ t, c.slvPoison = some t →
          exec (.slvw l w) s = .next (s.memFaulted l c t c.slvFaultAddr.toNat d)) ∧
        (AtWord d l w c → idle → c.slvPoison = none → ∀ k, c.slvFault = some k →
          exec (.slvw l w) s = .next (s.faulted l c (k, c.slvFaultAddr.toNat))) ∧
        (Runs d l w c → idle → c.slvPoison = none → c.slvFault = none →
          exec (.slvw l w) s = .next (s.advanced l (wrS (wRD w) c.slvSummary c) d))) ∧
      (wFunc w = 3 → Runs d l w c → exec (.slvq l w) s = .next (s.advanced l (wrS (wRD w)
        (match c.slvStatus[rb.toNat]? with | some v => v | none => Config.slvqBeyond c.slvStatus rb) c) d))) ∧
    (coreRuns d l = some c →
      (∀ j, c.asmJob = some j → exec (.solverComplete l) s = .next (s.onDev (setCore l (jobDone j false { c with asmJob := none })))) ∧
      (∀ j, c.asmJob = none → c.slvJob = some j →
        exec (.solverComplete l) s = .next (s.onDev (setCore l (jobDone j true { c with slvJob := none })))) ∧
      (idle → exec (.solverComplete l) s = .next s))

/-- 06 R208 with Table 6-9, 07 Table 7-4 and 08 Table 8-10. CSR_CYCLE (0x015) is a free value (log 19). -/
def Obligations.FlagsAndCsrs : Prop :=
  ∀ (s : State) (l : Nat) (w : BitVec 64) (c : Core), Runs s.dev l w c → wMajor w = 0x24 →
    let d := s.dev
    let n := fld w 0 12
    let clear := fun (m : Nat) => { c with flags := c.flags &&& ~~~(BitVec.ofNat 4 m) }
    let priv := s.onDev (fun d => coreFault l 0x109 n d c)
    (wFunc w = 0 → exec (.frd l w) s = .next (s.advanced l (wrS (wRD w) (BitVec.ofNat 64 c.flags.toNat) c) d)) ∧
    (wFunc w = 1 → exec (.fclr l w) s = .next (s.advanced l (clear (fld w 0 4)) d)) ∧
    (wFunc w = 2 → ∀ v, (n, v) ∈ [(0x000, c.flags.toNat), (0x010, c.inst), (0x011, c.insts), (0x012, c.seg), (0x013, c.step),
        (0x014, c.bound), (0x016, openGroups c), (0x017, dmaCount c), (0x100, c.vl), (0x101, c.vfmt), (0x102, 256),
        (0x103, c.vff.toNat), (0x180, b2n c.slvJob.isSome + 2 * b2n c.asmJob.isSome), (0x181, c.slvSummary.toNat)] →
      exec (.csrr l w) s = .next (s.advanced l (wrS (wRD w) (BitVec.ofNat 64 v) c) d)) ∧
    (wFunc w = 2 → n ∉ [0x000, 0x010, 0x011, 0x012, 0x013, 0x014, 0x015, 0x016, 0x017, 0x100, 0x101, 0x102, 0x103, 0x180, 0x181] →
      ¬ (0x700 ≤ n ∧ n ≤ 0x7FF) → exec (.csrr l w) s = .next (s.advanced l (wrS (wRD w) 0 c) d)) ∧
    (wFunc w = 2 → n = 0x015 → exec (.csrr l w) s =
      .next (s.advanced l (wrS (wRD w) (BitVec.ofNat 64 (Config.cycleCount d.free).toNat) { c with cycle := (Config.cycleCount d.free).toNat }) (takeFree 1 d))) ∧
    (wFunc w = 2 → 0x700 ≤ n ∧ n ≤ 0x7FF → exec (.csrr l w) s = .next priv) ∧
    (wFunc w = 3 → n = 0 → exec (.csrw l w) s = .next (s.advanced l (clear ((rdS c (wRA w)).toNat % 16)) d)) ∧
    (wFunc w = 3 → n ∈ [0x010, 0x011, 0x012, 0x013, 0x014, 0x015, 0x016, 0x017, 0x100, 0x101, 0x102, 0x103, 0x180, 0x181] ∨
      (0x700 ≤ n ∧ n ≤ 0x7FF) → exec (.csrw l w) s = .next priv) ∧
    (wFunc w = 3 → n ∉ [0x000, 0x010, 0x011, 0x012, 0x013, 0x014, 0x015, 0x016, 0x017, 0x100, 0x101, 0x102, 0x103, 0x180, 0x181] →
      ¬ (0x700 ≤ n ∧ n ≤ 0x7FF) → exec (.csrw l w) s = .next (s.advanced l c d)) ∧
    (∀ x : BitVec 64, wMajor x = 0x24 → wordOk x = true →
      (wFunc x = 0 → fld x 0 32 = 0) ∧ (wFunc x = 1 → fld x 4 28 = 0) ∧ (wFunc x = 2 ∨ wFunc x = 3 → fld x 12 20 = 0))

/-- 06 R209, R185, R196 and R212. -/
def Obligations.SynchronisationAndSegmentEnd : Prop :=
  ∀ (s : State) (l : Nat) (w : BitVec 64) (c : Core), wMajor w = 0x28 →
    let d := s.dev
    let nxt := (rdS c (wRA w)).toNat % 65536
    let count := ((aGet d.programs c.prog).getD {}).segs.length
    let idle := dmaCount c = 0 ∧ c.outJobs = [] ∧ c.slvJob = none ∧ c.asmJob = none
    let faults := lowest [if nxt ≠ 0xFFFF ∧ count ≤ nxt then some (0x10A, nxt) else none,
      if c.tiles.isEmpty then none else some (0x206, 0), c.slvFault.map (fun f => (f, c.slvFaultAddr.toNat))]
    (wFunc w = 0 → Runs d l w c → exec (.nop l w) s = .next (s.advanced l c d)) ∧
    (∀ i f (ready : Prop), (i, f, ready) ∈ [(Instr.fence l w, 1, c.outJobs = [] ∧ ∀ m ∈ c.dmas, m.isIn = true ∨ m.done = true),
        (.waite l w, 3, c.outJobs = [])] → wFunc w = f →
      (Runs d l w c → ready → exec i s = .next (s.advanced l c d)) ∧ (AtWord d l w c → ¬ ready → exec i s = .next s)) ∧
    (∀ i f n (ready : Prop), (i, f, n, ready) ∈ [(Instr.waitd l w, 2, fld w 0 4, dmaCount c ≤ fld w 0 4), (.waita l w, 4, 0, idle)] →
      wFunc w = f →
      (Runs d l w c → dmaOwes c n = none → ready → exec i s = .next (s.advanced l c d)) ∧
      (AtWord d l w c → dmaOwes c n = none → ¬ ready → exec i s = .next s) ∧
      (AtWord d l w c → ∀ t, dmaOwes c n = some t → exec i s = .next (s.memFaulted l c t 0 d))) ∧
    (AtWord d l w c → wFunc w = 5 →
      (∀ t, dmaOwes c 0 = some t → exec (.segend l w) s = .next (s.memFaulted l c t 0 d)) ∧
      (dmaOwes c 0 = none → ¬ idle → exec (.segend l w) s = .next s) ∧
      (dmaOwes c 0 = none → idle → ∀ t, c.slvPoison = some t →
        exec (.segend l w) s = .next (s.memFaulted l c t c.slvFaultAddr.toNat d)) ∧
      (dmaOwes c 0 = none → idle → c.slvPoison = none → ∀ k, faults = some k → exec (.segend l w) s = .next (s.faulted l c k)) ∧
      (dmaOwes c 0 = none → idle → c.slvPoison = none → faults = none →
        exec (.segend l w) s = .next { s with dev := setCore l (coreStop c) { d with items := aMod d.items c.item (fun i =>
          { i with insts := aMod i.insts c.inst (fun n => { n with
              next := nxt, fresh := d.tide.count + 1
              carry := (List.range 8).map (fun k => rdS c (24 + k)) }) }) } }))

/-- 06 R186 and R214, 02 R43 and R48, 05 R172 and R182. -/
def Obligations.SegmentEvents : Prop :=
  ∀ (s : State) (l : Nat) (c : Core),
    let d := s.dev
    (aGet d.cores l = some c → clocksRun d = true → d.tide.phase = .work → d.tide.run = true → c.run = false → c.pastFall = false →
      (∀ f ∈ d.units.fills, f.l ≠ l) → ∀ o i g rest, c.plan = (o, i, g) :: rest →
      (∀ it, aGet d.items o = some it → it.stage = .admitted →
        exec (.segmentStart l) s = .next (s.onDev (setCore l (startCore d { c with plan := rest } it i g)))) ∧
      ((∀ it, aGet d.items o = some it → it.stage ≠ .admitted) →
        exec (.segmentStart l) s = .next (s.onDev (setCore l { c with plan := rest })))) ∧
    (coreRuns d l = some c →
      (let r := match c.outJobs with | j :: _ => osStop l j d c | [] => (d, c)
       let d1 := failItem c.item 0x11 (65536 + c.seg) c.inst (clusterOf l) (setCore l (coreStop r.2) r.1)
       exec (.segmentBoundReached l) s =
        .next { s with dev := { d1 with tide := { d1.tide with overruns := satInc 0xFFFF d1.tide.overruns } } }) ∧
      exec (.engineRampDown l) s = .next (s.onDev (setCore l { c with rowGroups := 0, idle := 256 })))

/-- 07 R220 to R223. -/
def Obligations.GrantsAndPredicates : Prop :=
  ∀ (s : State) (l : Nat) (w : BitVec 64) (c : Core), Runs s.dev l w c → wMajor w = 0x30 →
    let d := s.dev
    let vmax := vlMax (vFmt w)
    let pa := rdP c (wRA w % 16)
    let pb := if vBS w then BitVec.ofNat 256 (rdS c (wRB w)).toNat else rdP c (wRB w % 16)
    let grant := fun (n : Nat) => wrS (wRD w) (BitVec.ofNat 64 n) { c with vl := n, vfmt := vFmt w }
    let x := (rdS c (wRA w)).toNat
    (wFunc w = 0 → exec (.vgrant l w) s = .next (s.advanced l (grant (min x vmax)) d)) ∧
    (wFunc w = 1 → exec (.vgranti l w) s = .next (s.advanced l (grant (min (fld w 0 10) vmax)) d)) ∧
    (wFunc w = 2 → exec (.vgrantrd l w) s = .next (s.advanced l (wrS (wRD w) (BitVec.ofNat 64 c.vl) c) d)) ∧
    (∀ v, (wFunc w, v) ∈ [(8, pa &&& pb), (9, pa ||| pb), (10, pa &&& ~~~pb), (11, pa ^^^ pb), (12, ~~~pa)] →
      exec (.predicateLogic l w) s = .next (s.advanced l (wrP (wRD w % 16) v c) d)) ∧
    (wFunc w = 13 → ∃ v : BitVec 256, exec (.pwhile l w) s = .next (s.advanced l (wrP (wRD w % 16) v c) d) ∧
      ∀ i, i < 256 → v.getLsbD i = (decide (i < vmax) && decide (x + i < (rdS c (wRB w)).toNat))) ∧
    (wFunc w = 16 → exec (.pcount l w) s = .next (s.advanced l (wrS (wRD w)
      (BitVec.ofNat 64 ((List.range c.vl).filter (fun i => pa.getLsbD i)).length) c) d)) ∧
    (wFunc w = 17 → ∃ n : Nat, exec (.pfirst l w) s = .next (s.advanced l (wrS (wRD w) (BitVec.ofNat 64 n) c) d) ∧
      n ≤ c.vl ∧ (∀ i, i < n → pa.getLsbD i = false) ∧ (n < c.vl → pa.getLsbD n = true))

/-- 07 R222, R226, R227, R236. `vUpdate` writes the listed elements and keeps the others. -/
def Obligations.VectorArithmeticActsOnActiveElements : Prop :=
  ∀ (s : State) (l : Nat) (w : BitVec 64) (c : Core),
    (AtWord s.dev l w c → vlMax (vFmt w) < c.vl → ∀ i, (i = .vectorFloatOp l w ∧ wMajor w = 0x31 ∧ wFunc w ∈ [0, 1, 2, 3, 4, 5, 6, 7, 9, 10]) ∨
        (i = .vectorApproximation l w ∧ wMajor w = 0x31 ∧ 0x10 ≤ wFunc w ∧ wFunc w ≤ 0x13) ∨
        (i = .vectorIntegerOp l w ∧ wMajor w = 0x32) ∨ (i = .vectorCompare l w ∧ wMajor w = 0x33) →
      exec i s = .next (s.faulted l c (0x301, 0))) ∧
    (Runs s.dev l w c → c.vl ≤ vlMax (vFmt w) →
    let d := s.dev
    let f := vFp (vFmt w)
    let wd := fmtW (vFmt w)
    let ks := actives c (vP w) (vlMax (vFmt w))
    let ea := vElem (rdV c (wRA w)) wd
    let ez := vElem (rdV c (wRC w)) wd
    let sb := cvtFF fp64 f .rn true (rdS c (wRB w)).toNat
    let fb := fun (k : Nat) => if vBS w then sb.1 else vElem (rdV c (wRB w)) wd k
    let ib := fun (k : Nat) => if vBS w then (rdS c (wRB w)).toNat % 2 ^ wd else vElem (rdV c (wRB w)) wd k
    let out := fun (xs : List Nat) => wrV (wRD w) (vUpdate (rdV c (wRD w)) wd (ks.zip xs)) c
    let scalarFlags : BitVec 4 := if vBS w && !ks.isEmpty then sb.2 else 0
    (wMajor w = 0x31 → ∀ op : Nat → Fl Nat,
      (wFunc w, op) ∈ [(0, fun k => fpAdd f (ea k) (fb k)), (1, fun k => fpSub f (ea k) (fb k)), (2, fun k => fpMul f (ea k) (fb k)),
        (3, fun k => fpDiv f (ea k) (fb k)), (4, fun k => fpSqrt f (ea k)), (5, fun k => fpMin f (ea k) (fb k)),
        (6, fun k => fpMax f (ea k) (fb k)), (7, fun k => fpFma f (ea k) (fb k) (ez k)), (9, fun k => (fpAbs f (ea k), 0)),
        (10, fun k => (fpNeg f (ea k), 0))] →
      exec (.vectorFloatOp l w) s =
        .next (s.advanced l (raise ((flSeq (ks.map op)).2 ||| scalarFlags) (out (flSeq (ks.map op)).1)) d)) ∧
    (wMajor w = 0x31 → 0x10 ≤ wFunc w ∧ wFunc w ≤ 0x13 →
      let xs := flSeq (ks.map (fun k => apxOp (wFunc w) f (ea k)))
      exec (.vectorApproximation l w) s = .next (s.advanced l (raise xs.2 (out xs.1)) d)) ∧
    (wMajor w = 0x32 → exec (.vectorIntegerOp l w) s =
      .next (s.advanced l (out (ks.map (fun k => viOp (wFunc w) wd (ea k) (ib k)))) d)) ∧
    (wMajor w = 0x33 → ∃ p : BitVec 256, ∃ g : BitVec 4,
      exec (.vectorCompare l w) s = .next (s.advanced l (raise g (wrP (wRD w % 16) p c)) d) ∧
      ((fpOf (fmtCode (vFmt w))).isSome = false → g = 0) ∧
      ((fpOf (fmtCode (vFmt w))).isSome = true → g = (flSeq (ks.map (fun k => fpCmp f (wFunc w) (ea k) (fb k)))).2 ||| scalarFlags) ∧
      ∀ k, k < 256 → p.getLsbD k = (ks.contains k &&
        (if (fpOf (fmtCode (vFmt w))).isSome then (fpCmp f (wFunc w) (ea k) (fb k)).1 else viCmp (wFunc w) wd (ea k) (ib k)))))

/-- 07 R221, R224, R228 to R231 and R235. -/
def Obligations.ReductionsAndPermutations : Prop :=
  ∀ (s : State) (l : Nat) (w : BitVec 64) (c : Core),
    let d := s.dev
    let i := vFmt w
    let o := vFmt2 w
    let wd := fmtW i
    let n := vlMax i
    let ks := actives c (vP w) n
    let ea := vElem (rdV c (wRA w)) wd
    let eb := fun (width k : Nat) => if vBS w then (rdS c (wRB w)).toNat % 2 ^ width else vElem (rdV c (wRB w)) width k
    let rd := rdV c (wRD w)
    let imm := fld w 0 10
    let put := fun (width : Nat) (es : List (Nat × Nat)) => wrV (wRD w) (vUpdate rd width es) c
    let leaves := (List.range n).map (fun k => if active c (vP w) k then some (cvtFF (vFp i) fp64 .rn true (ea k)) else none)
    let leafFlags := leaves.foldl (fun f x => f ||| ((x.map (·.2)).getD 0)) 0
    let wide := if fmtW o ≤ wd then i else o
    (AtWord d l w c → ∀ q, (q = .vredsum l w ∧ wMajor w = 0x34 ∧ wFunc w ∈ [0, 2, 3, 4] ∧ n < c.vl) ∨
        (q = .vredsump l w ∧ wMajor w = 0x34 ∧ wFunc w = 1 ∧ n < c.vl) ∨
        (wMajor w = 0x35 ∧ n < c.vl ∧ (q, wFunc w) ∈ [(.vslideup l w, 0), (.vslidedn l w, 1), (.vperm l w, 2), (.vcompress l w, 3),
          (.vmerge l w, 4), (.vbcast l w, 5), (.vmov l w, 8)]) ∨
        (q = .vperm l w ∧ wMajor w = 0x35 ∧ wFunc w = 2 ∧ vBS w = false ∧ vlMax o < c.vl) ∨
        (q = .vcvtp l w ∧ wMajor w = 0x37 ∧ wFunc w = 0 ∧ vlMax wide < c.vl) →
      exec q s = .next (s.faulted l c (0x301, 0))) ∧
    (Runs d l w c →
    (wMajor w = 0x34 → c.vl ≤ n →
      (c.vl = 0 → (wFunc w ∈ [0, 2, 3, 4] → exec (.vredsum l w) s = .next (s.advanced l c d)) ∧
        (wFunc w = 1 → exec (.vredsump l w) s = .next (s.advanced l c d))) ∧
      (c.vl ≠ 0 → wFunc w ∈ [0, 2, 3, 4] → (fpOf (fmtCode i)).isSome = true →
        let t := treeRun (redComb (wFunc w)) n.log2 (leaves.map (Option.map (·.1)), 0)
        let y := convert 1 (fmtCode o) .rn false false ((t.1.headD none).getD (redEmpty (wFunc w)))
        exec (.vredsum l w) s = .next (s.advanced l (raise (leafFlags ||| t.2 ||| y.2) (put (fmtW o) [(0, y.1)])) d)) ∧
      (c.vl ≠ 0 → wFunc w ∈ [0, 2, 3, 4] → (fpOf (fmtCode i)).isSome = false → exec (.vredsum l w) s = .next (s.advanced l
        (put 64 [(0, wrapBits 64 (redInt (wFunc w) (ks.map (fun k => signExt wd (ea k)))))]) d)) ∧
      (c.vl ≠ 0 → wFunc w = 1 →
        let t := treeRun pairNode n.log2 (leaves.map (Option.map (fun x => (x.1, 0))), 0)
        let y := pairRound ((t.1.headD none).getD (0, 0)) (fmtCode o) .rn false false
        exec (.vredsump l w) s = .next (s.advanced l (raise (leafFlags ||| t.2 ||| y.2) (put (fmtW o) [(0, y.1)])) d))) ∧
    (wMajor w = 0x35 → c.vl ≤ n →
      (wFunc w = 0 → exec (.vslideup l w) s = .next (s.advanced l
        (put wd ((ks.filter (fun k => decide (imm ≤ k))).map (fun k => (k, ea (k - imm))))) d)) ∧
      (wFunc w = 1 → exec (.vslidedn l w) s = .next (s.advanced l
        (put wd (ks.map (fun k => (k, if k + imm < n then ea (k + imm) else 0)))) d)) ∧
      (wFunc w = 2 → (vBS w = false → c.vl ≤ vlMax o) → exec (.vperm l w) s = .next (s.advanced l (put wd (ks.map (fun k =>
        let j := signExt (fmtW o) (eb (fmtW o) k)
        (k, if j < 0 ∨ (n : Int) ≤ j then 0 else ea j.toNat)))) d)) ∧
      (wFunc w = 3 → exec (.vcompress l w) s = .next (s.advanced l (put wd ((List.range ks.length).zip (ks.map ea))) d)) ∧
      (wFunc w = 4 → exec (.vmerge l w) s = .next (s.advanced l (put wd ((List.range (min c.vl n)).map (fun k =>
        (k, if (rdP c (vP w)).getLsbD k then ea k else eb wd k)))) d)) ∧
      (wFunc w = 5 →
        let x : Fl Nat := match fpOf (fmtCode i) with
          | some g => cvtFF fp64 g .rn false (rdS c (wRA w)).toNat
          | none => ((rdS c (wRA w)).toNat % 2 ^ wd, 0)
        exec (.vbcast l w) s = .next (s.advanced l (raise (if ks.isEmpty then 0 else x.2) (put wd (ks.map (fun k => (k, x.1))))) d)) ∧
      (wFunc w = 8 → exec (.vmov l w) s = .next (s.advanced l (put wd (ks.map (fun k => (k, ea k)))) d))) ∧
    (wMajor w = 0x35 → wFunc w = 6 → exec (.vexts l w) s = .next (s.advanced l (wrS (wRD w) (BitVec.ofNat 64 (ea imm)) c) d)) ∧
    (wMajor w = 0x35 → wFunc w = 7 → exec (.vinss l w) s = .next (s.advanced l (put wd [(imm, (rdS c (wRA w)).toNat % 2 ^ wd)]) d)) ∧
    (wMajor w = 0x37 → wFunc w = 0 →
      let m := vlMax wide
      let kw := actives c (vP w) m
      c.vl ≤ m →
      let xs := flSeq (kw.map (fun k => convert (fmtCode o) (fmtCode i) .rn (w.getLsbD 11) (w.getLsbD 10)
        (vElem (rdV c (wRA w)) (fmtW o) (if fmtW o < wd then vPart w * m + k else k))))
      exec (.vcvtp l w) s = .next (s.advanced l (raise xs.2
        (put wd ((kw.map (fun k => if wd < fmtW o then vPart w * m + k else k)).zip xs.1))) d)))

/-- 07 R221, R232 to R234. The recorded code of uncorrectable data is a free value (log 21). -/
def Obligations.GatherScatterAndFirstFault : Prop :=
  ∀ (s : State) (l : Nat) (w : BitVec 64) (c : Core), wMajor w = 0x36 →
    let d := s.dev
    let wd := fmtW (vFmt w)
    let conv := fun (v : Window) => fromTensor d (coreItem d c) (optV w) v.tensor v.fmt (fmtCode (vFmt w))
    let base : Int := (rdS c (wRA w)).toNat
    let two := [vFmt w, vFmt2 w]
    let ki := actives c (vP w) (min (vlMax (vFmt w)) (vlMax (vFmt2 w)))
    let ji := ki.map (fun k => base + signExt (fmtW (vFmt2 w)) (vElem (rdV c (wRB w)) (fmtW (vFmt2 w)) k))
    let kl := actives c (vP w) (vlMax (vFmt w))
    let jl := kl.map (fun k => base + (k : Nat))
    let clear := fun (i : Instr) => if i = .vldff l w ∨ i = .vgatherff l w then { c with vff := 0 } else c
    ∀ i f (fs ks : List Nat) (js : List Int), (i, f, fs, ks, js) ∈ [(Instr.vgather l w, 0, two, ki, ji), (.vscatter l w, 1, two, ki, ji),
        (.vldff l w, 2, [vFmt w], kl, jl), (.vgatherff l w, 3, two, ki, ji)] → wFunc w = f →
      let vl := vlCheck c fs
      let ff := f = 2 ∨ f = 3
      (ks = [] → (AtWord d l w c → ∀ k, vl = some k → exec i s = .next (s.faulted l c k)) ∧
        (Runs d l w c → vl = none → exec i s = .next (s.advanced l (clear i) d))) ∧
      (AtWord d l w c → ks ≠ [] → rdW c (vWin w) = none → exec i s = .next (s.faulted l c (0x104, 0))) ∧
      (ks ≠ [] → ∀ v, rdW c (vWin w) = some v →
        let chk := lowest [winPerm (some v) (decide (f = 1)), if ff then winBound d c v (js.headD 0) else winBounds d c v js, vl]
        let rs := winReads v c (winIdx d c v js) d
        let r := firstFault v (ks.zip js) d c
        let xs := flSeq (r.2.1.map (fun kb => conv v kb.2))
        let c1 := raise xs.2 (wrV (wRD w) (vUpdate (rdV c (wRD w)) wd ((r.2.1.map (·.1)).zip xs.1)) c)
        (AtWord d l w c → ∀ k, chk = some k → exec i s = .next (s.faulted l c k)) ∧
        (AtWord d l w c → chk = none → winBusy c v = true → exec i s = .next s) ∧
        (f = 0 → chk = none → winBusy c v = false →
          (AtWord d l w c → rs.2 = none → exec i s = .next (s.memFaulted l c v.tensor (wrapBits 64 (js.headD 0)) rs.1)) ∧
          (Runs d l w c → ∀ bs, rs.2 = some bs → exec i s = .next (s.advanced l (raise (flSeq (bs.map (conv v))).2 (wrV (wRD w)
            (vUpdate (rdV c (wRD w)) wd (ks.zip (flSeq (bs.map (conv v))).1)) c)) rs.1))) ∧
        (f = 1 → Runs d l w c → chk = none → winBusy c v = false →
          let x := winStore l d c v (optV w) (fmtCode (vFmt w)) ((winIdx d c v js).zip (ks.map (vElem (rdV c (wRD w)) wd)))
          exec i s = .next (s.advanced l x.2 x.1)) ∧
        (ff → chk = none → winBusy c v = false →
          (Runs d l w c → r.2.2 = none → exec i s = .next (s.advanced l { c1 with vff := 0 } r.1)) ∧
          (AtWord d l w c → r.2.1 = [] → r.2.2 ≠ none →
            exec i s = .next (s.memFaulted l c v.tensor (wrapBits 64 (js.headD 0)) r.1)) ∧
          (Runs d l w c → r.2.1 ≠ [] → ∀ k code, r.2.2 = some (k, code) → exec i s = .next (s.advanced l { c1 with
            vl := k, vff := BitVec.ofNat 32 ((if code = 0 then vffMemory else code) * 65536 + k) } r.1))))

/-- 03 R70, R71, R77 steps 1 to 5 (`requestCheck`) and R89 (`closeChannel`). The command's own checks belong to the command's row (log 9). -/
def Obligations.DoorbellAcceptsOrRefuses : Prop :=
  ∀ (s : State) (m : Nat) (tag : BitVec 32) (host : HostStores), m < 64 →
    let d := { s.dev with host := applyStores s.dev.host host }
    let b := mbx s.dev m
    let req := memRead b.req 0 16384
    let d1 := setMbx m { b with state := 1, tag := tag, cmd := memWrite [] 0 req, order := s.dev.mbxOrder + 1 }
      { d with mbxOrder := s.dev.mbxOrder + 1 }
    let up := pf0Up s.dev = true ∧ serves s.dev = true
    (up → b.state ≠ 1 → requestCheck d1 tag req = none → exec (.mbxDoorbell m tag host) s = .next { s with dev := closeChannel req d1 }) ∧
    (up → b.state ≠ 1 → ∀ x, requestCheck d1 tag req = some x →
      exec (.mbxDoorbell m tag host) s = .next { s with dev := refuse m x.1 x.2 d1 }) ∧
    (up → b.state = 1 → exec (.mbxDoorbell m tag host) s = .next { s with dev := setMbx m { b with lost := true } d }) ∧
    (¬ up → exec (.mbxDoorbell m tag host) s = .next { s with dev := d })

/-- 03 R80, R82, R86, R89 and R91. `newSlot` gives the slot asked for, or a free one of firmware's choice (log 10). -/
def Obligations.ChannelCommandsAndDoorbells : Prop :=
  ∀ (s : State) (m : Nat),
    let d := s.dev
    let c := request d m
    let f := fieldLe c
    let h := BitVec.ofNat 64 (f 16 8)
    (Asks d m 0x0101 → chanCreateCheck d c = none →
      let slot := newSlot d (f 22 2)
      let n := idxNext (idxReg d 1)
      let ch : Chan := { gen := n.2, index := n.1, kind := f 16 1, subLog2 := f 17 1, outLog2 := f 18 1
                         vector := if f 20 2 = 0xFFFF then none else some (f 20 2)
                         subBase := BitVec.ofNat 64 (f 24 8), outBase := BitVec.ofNat 64 (f 32 8) }
      exec (.channelCreate m) s = .next (s.answered m
        (toLe 8 (mkHandle 1 n.2 n.1).toNat ++ toLe 2 slot ++ zeros 2 ++ toLe 4 (0x1000000 + 4096 * slot))
        { d with chans := aSet d.chans slot ch, idx := d.idx.set 1 (idxTake (idxReg d 1)), free := d.free + 1 })) ∧
    (Asks d m 0x0101 → ∀ x, chanCreateCheck d c = some x → exec (.channelCreate m) s = .next (s.refused m x.1 x.2)) ∧
    (handleOk d 1 h = false ∨ chanByIdx d (hIdx h) = none →
      (Asks d m 0x0102 → exec (.channelDestroy m) s = .next (s.refused m rBadHandle 16)) ∧
      (Asks d m 0x0103 → exec (.channelQuery m) s = .next (s.refused m rBadHandle 16))) ∧
    (∀ slot ch, handleOk d 1 h = true → chanByIdx d (hIdx h) = some (slot, ch) →
      (Asks d m 0x0102 → ch.draining = false → exec (.channelDestroy m) s = .next (s.onDev (fun d =>
        { d with chans := aSet d.chans slot { ch with draining := true, destroyBy := some m, drainTail := ch.subTail } }))) ∧
      (Asks d m 0x0102 → ch.draining = true → ch.destroyBy = some m → exec (.channelDestroy m) s = .next s) ∧
      (Asks d m 0x0102 → ch.draining = true → ch.destroyBy ≠ some m → exec (.channelDestroy m) s = .next (s.refused m rInUse 16)) ∧
      (Asks d m 0x0103 → exec (.channelQuery m) s = .next (s.answered m
        (toLe 1 ch.kind ++ toLe 1 (if ch.draining then 2 else 1) ++ toLe 2 slot ++ toLe 4 ch.subHead.toNat ++ toLe 4 ch.subTail.toNat
          ++ toLe 4 ch.outTail.toNat ++ toLe 4 ch.outHead.toNat
          ++ toLe 4 (d.items.filter (fun x => x.2.slot == slot && x.2.stage == .admitted)).length ++ toLe 8 ch.lastSeq.toNat) d))) ∧
    (∀ slot (v : BitVec 32) (host : HostStores), aGet d.chans slot = none ∨ (pf0Up d && serves d) = false →
      exec (.subTail slot v host) s = .next (s.onDev (fun d => { d with host := applyStores d.host host })) ∧
      exec (.outHead slot v) s = .next s) ∧
    (∀ slot ch (v : BitVec 32), aGet d.chans slot = some ch → pf0Up d = true → serves d = true →
      let mark := fun (d : Dev) => logRec { sev := 15, cls := 0x0002, unitKind := 13, logical := BitVec.ofNat 32 slot }
        { d with chans := aSet d.chans slot { ch with badIndex := true } }
      let okTail := ch.draining = false ∧ ch.closing = false ∧ (ch.subTail - ch.subHead).toNat ≤ (v - ch.subHead).toNat ∧
        (v - ch.subHead).toNat ≤ 2 ^ ch.subLog2
      (∀ host, okTail → exec (.subTail slot v host) s = .next (s.onDev (fun d => { d with
        host := applyStores d.host host, chans := aSet d.chans slot { ch with subTail := v } }))) ∧
      (∀ host, ¬ okTail → exec (.subTail slot v host) s = .next (s.onDev (fun d => mark { d with host := applyStores d.host host }))) ∧
      ((v - ch.outHead).toNat ≤ (ch.outTail - ch.outHead).toNat → exec (.outHead slot v) s = .next (s.onDev (fun d =>
        { d with chans := aSet d.chans slot { ch with outHead := v } }))) ∧
      ((ch.outTail - ch.outHead).toNat < (v - ch.outHead).toNat → exec (.outHead slot v) s = .next (s.onDev mark)))

/-- 03 R80, R108 to R112, 09 R291. Placement and the BAR2 offset are firmware's choice (log 10); the offset of a NO_ROOM refusal is a free value. -/
def Obligations.TensorCommandsAnswer : Prop :=
  ∀ (s : State) (m : Nat),
    let d := s.dev
    let c := request d m
    let f := fieldLe c
    let h := BitVec.ofNat 64 (f 16 8)
    let i := hIdx h
    let no := fun (r : Nat) (off : Nat) => Host.Outcome.next (φ := Fault) (ρ := Refusal) (s.refused m r off)
    (Asks d m 0x0201 →
      let n := idxNext (idxReg d 2)
      let role := f 17 1
      let t : Tensor := { gen := n.2, fmt := f 16 1, role := role, parity := if f 18 1 = 0 then decide (2 ≤ role) else f 18 1 == 1
                          rank := f 19 1, dims := (List.range (f 19 1)).map (fun k => f (24 + 4 * k) 4), retain := bitOf (f 20 4) 0
                          scale := if isFp8 (f 16 1) then some {} else none }
      let room := d.tensors.length < 1048576 ∧ (tSecured t && overBudget d (tBytes t)) = false
      (∀ x, tensorCreateCheck c = some x → exec (.tensorCreate m) s = no x.1 x.2) ∧
      (tensorCreateCheck c = none → ¬ room ∨ placeTensor t d = none →
        exec (.tensorCreate m) s = no rNoRoom (Config.noField 0x0201 rNoRoom)) ∧
      (tensorCreateCheck c = none → room → ∀ t' d', placeTensor t d = some (t', d') →
        let d2 := noteChange (mkHandle 2 n.2 n.1) { takeIdx 2 d' with tensors := aSet (takeIdx 2 d').tensors n.1 t' }
        exec (.tensorCreate m) s = .next (s.answered m
          (toLe 8 (mkHandle 2 n.2 n.1).toNat ++ toLe 8 (tensorTaken d2 t') ++ toLe 8 (tElems t')) d2))) ∧
    (handleOk d 2 h = false ∨ aGet d.tensors i = none → ∀ x op, (x, op) ∈ [(Instr.tensorDestroy m, 0x0202), (.tensorQuery m, 0x0203),
      (.tensorSetRetain m, 0x0204), (.tensorMap m, 0x0205)] → Asks d m op → exec x s = no rBadHandle 16) ∧
    (∀ t, handleOk d 2 h = true → aGet d.tensors i = some t →
      (let used := namedByItem d (tensorHandle d i) = true ∨ (∃ x ∈ d.maps, x.tensor = i) ∨ (tSecured t = true ∧ stepIsOpen d = true)
       (Asks d m 0x0202 → t.workingOf.isSome = true → exec (.tensorDestroy m) s = no rNotAllowed 16) ∧
       (Asks d m 0x0202 → t.workingOf = none → used → exec (.tensorDestroy m) s = no rInUse 16) ∧
       (Asks d m 0x0202 → t.workingOf = none → ¬ used → exec (.tensorDestroy m) s = .next (s.answered m []
         (removeTensor i (match t.working with | some w => removeTensor w d | none => d))))) ∧
      (Asks d m 0x0203 → exec (.tensorQuery m) s = .next (s.answered m
        (toLe 1 t.fmt ++ toLe 1 t.role ++ toLe 1 (if t.parity then 1 else 2) ++ toLe 1 t.rank
          ++ toLe 4 (b2n t.retain + 4 * b2n (tSecured t) + 8 * b2n t.lost)
          ++ (List.range 8).flatMap (fun k => toLe 4 ((t.dims[k]?).getD 0)) ++ toLe 8 (tensorTaken d t)) d)) ∧
      (t.lost = true → (Asks d m 0x0204 → exec (.tensorSetRetain m) s = no rTensorLost 16) ∧
        (Asks d m 0x0205 → exec (.tensorMap m) s = no rTensorLost 16)) ∧
      (t.lost = false → Asks d m 0x0204 →
        (1 < f 24 1 → exec (.tensorSetRetain m) s = no rBadField 24) ∧
        (f 24 1 ≤ 1 → exec (.tensorSetRetain m) s = .next (s.answered m []
          (noteChange (mkHandle 2 t.gen i) { d with tensors := aSet d.tensors i { t with retain := f 24 1 == 1 } })))) ∧
      (t.lost = false → Asks d m 0x0205 →
        (let okOff := f 24 8 % 4096 = 0 ∧ f 24 8 < pageEnd t
         let okLen := f 32 8 ≠ 0 ∧ f 32 8 % 4096 = 0 ∧ f 24 8 + f 32 8 ≤ pageEnd t
         (t.workingOf.isSome = true → exec (.tensorMap m) s = no rNotAllowed 16) ∧
         (t.workingOf = none → ¬ okOff → exec (.tensorMap m) s = no rBadField 24) ∧
         (t.workingOf = none → okOff → ¬ okLen → exec (.tensorMap m) s = no rBadField 32) ∧
         (t.workingOf = none → okOff → okLen → bar2Gaps d (f 32 8) = [] →
           exec (.tensorMap m) s = no rNoRoom (Config.noField 0x0205 rNoRoom)) ∧
         (t.workingOf = none → okOff → okLen → bar2Gaps d (f 32 8) ≠ [] →
           ∃ x : Nat, (∃ g ∈ bar2Gaps d (f 32 8), g.1 ≤ x ∧ x + f 32 8 ≤ g.1 + g.2 ∧ x % 4096 = g.1 % 4096) ∧
             exec (.tensorMap m) s = .next (s.answered m (toLe 8 x)
               { d with free := d.free + 2, maps := d.maps ++ [{ off := x, len := f 32 8, tensor := i, tOff := f 24 8 }] }))))) ∧
    (Asks d m 0x0206 → (∃ x ∈ d.maps, x.off = f 16 8) → exec (.tensorUnmap m) s = .next (s.answered m []
      { d with maps := d.maps.filter (fun x => x.off != f 16 8) })) ∧
    (Asks d m 0x0206 → (∀ x ∈ d.maps, x.off ≠ f 16 8) → exec (.tensorUnmap m) s = no rBadField 16)

/-- 03 R80 and R113 to R116. -/
def Obligations.ProgramsAndHintsAnswer : Prop :=
  ∀ (s : State) (m : Nat),
    let d := s.dev
    let c := request d m
    let f := fieldLe c
    let h := BitVec.ofNat 64 (f 16 8)
    let i := hIdx h
    let no := fun (r : Nat) (off : Nat) => Host.Outcome.next (φ := Fault) (ρ := Refusal) (s.refused m r off)
    let hintBody := fun (x : Option Hint) => match x with | some x => toLe 1 x.clusters.toNat ++ toLe 1 x.mode | none => zeros 2
    (Asks d m 0x0301 →
      let addr := f 16 8
      let len := f 24 4
      let img := if addr % 4096 ≠ 0 ∨ len = 0 ∨ 2 ^ 26 < len then [] else memRead d.host addr len
      let n := idxNext (idxReg d 3)
      let p : Program := { imageProgram img len with gen := n.2 }
      (pf0Requests d = false → exec (.programCreate m) s = .next s) ∧
      (pf0Requests d = true → ∀ x, programCheck d addr len img = some x → exec (.programCreate m) s = no x.1 x.2) ∧
      (pf0Requests d = true → programCheck d addr len img = none → exec (.programCreate m) s = .next (s.answered m
        (programBody (mkHandle 3 n.2 n.1) p)
        (noteChange (mkHandle 3 n.2 n.1) { d with programs := aSet d.programs n.1 p, idx := d.idx.set 3 (idxTake (idxReg d 3)) })))) ∧
    (handleOk d 3 h = false → (Asks d m 0x0302 → exec (.programDestroy m) s = no rBadHandle 16) ∧
      (Asks d m 0x0303 → exec (.programQuery m) s = no rBadHandle 16)) ∧
    (∀ p, handleOk d 3 h = true → aGet d.programs i = some p →
      (Asks d m 0x0302 → namedByItem d h = false → exec (.programDestroy m) s = .next (s.answered m []
        (noteChange h (freeIdx 3 i (hGen h) { d with programs := aDel d.programs i })))) ∧
      (Asks d m 0x0302 → namedByItem d h = true → exec (.programDestroy m) s = no rInUse 16) ∧
      (Asks d m 0x0303 → exec (.programQuery m) s = .next (s.answered m (programBody h p ++ toLe 4 p.imageLen) d)) ∧
      (Asks d m 0x0801 → f 24 1 ≤ 63 → f 25 1 = 1 ∨ f 25 1 = 2 → exec (.hintSet m) s = .next (s.answered m [] { d with
        programs := aMod d.programs i (fun p => { p with hint := some { clusters := BitVec.ofNat 6 (f 24 1), mode := f 25 1 } }) })) ∧
      (Asks d m 0x0802 → exec (.hintClear m) s = .next (s.answered m [] { d with
        programs := aMod d.programs i (fun p => { p with hint := none }) })) ∧
      (Asks d m 0x0803 → exec (.hintQuery m) s = .next (s.answered m (hintBody p.hint) d))) ∧
    (∀ slot ch, handleOk d 1 h = true → chanByIdx d i = some (slot, ch) →
      (Asks d m 0x0801 → f 24 1 ≤ 63 → f 25 1 = 1 ∨ f 25 1 = 2 → exec (.hintSet m) s = .next (s.answered m [] { d with
        chans := aMap d.chans (fun _ ch => if ch.index = i then
          { ch with hint := some { clusters := BitVec.ofNat 6 (f 24 1), mode := f 25 1 } } else ch) })) ∧
      (Asks d m 0x0802 → exec (.hintClear m) s = .next (s.answered m [] { d with
        chans := aMap d.chans (fun _ ch => if ch.index = i then { ch with hint := none } else ch) })) ∧
      (Asks d m 0x0803 → exec (.hintQuery m) s = .next (s.answered m (hintBody ch.hint) d))) ∧
    (handleOk d 3 h = true ∨ handleOk d 1 h = true → Asks d m 0x0801 →
      (63 < f 24 1 → exec (.hintSet m) s = no rBadField 24) ∧
      (f 24 1 ≤ 63 → f 25 1 ≠ 1 ∧ f 25 1 ≠ 2 → exec (.hintSet m) s = no rBadField 25)) ∧
    (handleOk d 3 h = false → handleOk d 1 h = false → ∀ x op, (x, op) ∈ [(Instr.hintSet m, 0x0801), (.hintClear m, 0x0802), (.hintQuery m, 0x0803)] →
      Asks d m op → exec x s = no rBadHandle 16)

/-- 03 R80, 08 R254, R268, R272 and R283; 12 R401 and R403. The offset of a NO_ROOM refusal is a free value. -/
def Obligations.SolverObjectsAndGroupsAnswer : Prop :=
  ∀ (s : State) (m : Nat),
    let d := s.dev
    let c := request d m
    let f := fieldLe c
    let h := BitVec.ofNat 64 (f 16 8)
    let i := hIdx h
    let next := fun (kind : Nat) => idxNext (idxReg d kind)
    let name := fun (kind : Nat) => mkHandle kind (next kind).2 (next kind).1
    let no := fun (r : Nat) (off : Nat) => Host.Outcome.next (φ := Fault) (ρ := Refusal) (s.refused m r off)
    (Asks d m 0x0401 →
      let asm := if f 80 8 = 0 then [] else memRead d.host (f 80 8) (f 88 4)
      let pat := if f 92 8 = 0 then [] else memRead d.host (f 92 8) (f 100 4)
      let reads := f 80 8 ≠ 0 ∨ f 92 8 ≠ 0
      (reads → pf0Requests d = false → exec (.planCreate m) s = .next s) ∧
      ((reads → pf0Requests d = true) → ∀ x, planCheck d c asm pat = some x → exec (.planCreate m) s = no x.1 x.2) ∧
      ((reads → pf0Requests d = true) → planCheck d c asm pat = none →
        let desc := slice c 16 64
        let p0 := planOf desc [] []
        let r := p0.n / max p0.block 1
        let rp := int32s pat 0 (if p0.block = 0 then 0 else r + 1)
        let ci := int32s pat (4 * (r + 1)) p0.nnzb
        let p : Plan := { gen := (next 4).2, desc := desc, asm := asm, rowptr := rp, colidx := ci
                          signature := planSignature (planOf desc rp ci), workBytes := Config.workBytes desc }
        exec (.planCreate m) s = .next (s.answered m (toLe 8 (name 4).toNat ++ toLe 4 p.workBytes ++ toLe 8 p.signature.toNat)
          (noteChange (name 4) { takeIdx 4 d with plans := aSet d.plans (next 4).1 p })))) ∧
    (∀ x op kind, (x, op, kind) ∈ [(Instr.planDestroy m, 0x0402, 4), (.planQuery m, 0x0403, 4), (.factorSetCreate m, 0x0411, 4),
        (.factorSetDestroy m, 0x0412, 6), (.warmSetDestroy m, 0x0422, 7), (.warmSetClear m, 0x0423, 7), (.groupDestroy m, 0x0502, 5),
        (.groupQuery m, 0x0503, 5)] → Asks d m op → handleOk d kind h = false → exec x s = no rBadHandle 16) ∧
    (∀ p, handleOk d 4 h = true → aGet d.plans i = some p →
      (Asks d m 0x0402 → (namedByItem d h || d.factors.any (fun x => x.2.plan == h)) = false → exec (.planDestroy m) s = .next (s.answered m []
        (noteChange h (freeIdx 4 i (hGen h) { d with plans := aDel d.plans i })))) ∧
      (Asks d m 0x0402 → (namedByItem d h || d.factors.any (fun x => x.2.plan == h)) = true → exec (.planDestroy m) s = no rInUse 16) ∧
      (Asks d m 0x0403 → exec (.planQuery m) s = .next (s.answered m
        (toLe 8 h.toNat ++ toLe 4 p.workBytes ++ toLe 8 p.signature.toNat ++ slice p.desc 0 64) d)) ∧
      (Asks d m 0x0411 →
        let want := alloc true (Config.factorBytes p.desc * f 24 4) d
        (f 24 4 = 0 → exec (.factorSetCreate m) s = no rBadField 24) ∧
        (f 24 4 ≠ 0 → 1024 ≤ d.factors.length ∨ want = none → exec (.factorSetCreate m) s = no rNoRoom (Config.noField 0x0411 rNoRoom)) ∧
        (f 24 4 ≠ 0 → d.factors.length < 1024 → ∀ pl d', want = some (pl, d') →
          let n := idxNext (idxReg d' 6)
          let fs : FactorSet := { gen := n.2, plan := h, problems := f 24 4, place := pl }
          exec (.factorSetCreate m) s = .next (s.answered m (toLe 8 (mkHandle 6 n.2 n.1).toNat ++ toLe 8 (placeBytes d' pl))
            (noteChange (mkHandle 6 n.2 n.1) { takeIdx 6 d' with factors := aSet d'.factors n.1 fs }))))) ∧
    (handleOk d 6 h = true → Asks d m 0x0412 →
      (namedByItem d h = false → exec (.factorSetDestroy m) s = .next (s.answered m []
        (noteChange h (freeIdx 6 i (hGen h) (sweepRegions (dropObjErrs 1 i { d with factors := aDel d.factors i })))))) ∧
      (namedByItem d h = true → exec (.factorSetDestroy m) s = no rInUse 16)) ∧
    (Asks d m 0x0421 →
      let w : WarmSet := { n := f 16 4, slots := f 20 4 }
      let room := d.warms.length < 1024 ∧ overBudget d (warmBytes w) = false
      (f 16 4 = 0 ∨ 262144 < f 16 4 → exec (.warmSetCreate m) s = no rBadField 16) ∧
      (1 ≤ f 16 4 ∧ f 16 4 ≤ 262144 → f 20 4 = 0 → exec (.warmSetCreate m) s = no rBadField 20) ∧
      (1 ≤ f 16 4 ∧ f 16 4 ≤ 262144 → f 20 4 ≠ 0 → ¬ room ∨ alloc true (2 * warmSpan w) d = none →
        exec (.warmSetCreate m) s = no rNoRoom (Config.noField 0x0421 rNoRoom)) ∧
      (1 ≤ f 16 4 ∧ f 16 4 ≤ 262144 → f 20 4 ≠ 0 → room → ∀ pl d', alloc true (2 * warmSpan w) d = some (pl, d') →
        let n := idxNext (idxReg d' 7)
        exec (.warmSetCreate m) s = .next (s.answered m (toLe 8 (mkHandle 7 n.2 n.1).toNat ++ toLe 8 (placeBytes d' pl))
          (noteChange (mkHandle 7 n.2 n.1) { takeIdx 7 d' with warms := aSet d'.warms n.1 { w with gen := n.2, place := pl } })))) ∧
    (handleOk d 7 h = true →
      ((namedByItem d h || stepIsOpen d) = true → (Asks d m 0x0422 → exec (.warmSetDestroy m) s = no rInUse 16) ∧
        (Asks d m 0x0423 → exec (.warmSetClear m) s = no rInUse 16)) ∧
      ((namedByItem d h || stepIsOpen d) = false →
        (Asks d m 0x0422 → exec (.warmSetDestroy m) s = .next (s.answered m []
          (noteChange h (freeIdx 7 i (hGen h) (sweepRegions (dropObjErrs 2 i { d with warms := aDel d.warms i })))))) ∧
        (Asks d m 0x0423 → exec (.warmSetClear m) s = .next (s.answered m []
          (noteChange h { d with warms := aMod d.warms i (fun w => { w with ep0 := [], ep1 := [] }) }))))) ∧
    (Asks d m 0x0501 →
      (∀ x, groupCheck d c = some x → exec (.groupCreate m) s = no x.1 x.2) ∧
      (groupCheck d c = none →
        let ms := (groupMembers d c).filterMap id
        let gid := BitVec.ofNat 32 (f 16 4)
        exec (.groupCreate m) s = .next (s.answered m (toLe 8 (name 5).toNat) (noteChange (name 5) { takeIdx 5 d with
          groups := aSet d.groups (next 5).1 { gen := (next 5).2, gid := gid, members := ms
                                               rank := (ms.findIdx? (· == d.lnk.pos)).getD 0
                                               dg := groupDiameter d ms, digest := groupDigest gid ms } })))) ∧
    (handleOk d 5 h = true →
      (Asks d m 0x0502 → (stepIsOpen d || namedByItem d h) = false → exec (.groupDestroy m) s = .next (s.answered m []
        (noteChange h (freeIdx 5 i (hGen h) { d with groups := aDel d.groups i })))) ∧
      (Asks d m 0x0502 → (stepIsOpen d || namedByItem d h) = true → exec (.groupDestroy m) s = no rInUse 16) ∧
      (∀ g, aGet d.groups i = some g → Asks d m 0x0503 → exec (.groupQuery m) s = .next (s.answered m
        (toLe 4 g.gid.toNat ++ toLe 4 g.rank ++ toLe 4 g.members.length ++ toLe 2 g.dg ++ zeros 2 ++ toLe 8 g.digest.toNat
          ++ toLe 4 g.lastLaunch.toNat ++ toLe 1 g.lastStatus.toNat ++ zeros 3 ++ toLe 4 g.lastRank) d)))

/-- 13 Table 13-12, R433, R449, R450 and R456. Where the spec names no field, the refusal's offset is a free value; that of a bad plan is `adoptField` (log 24). -/
def Obligations.PairAndSpareCommandsAnswer : Prop :=
  ∀ (s : State) (m : Nat),
    let d := s.dev
    let c := request d m
    let f := fieldLe c
    let no := fun (r : Nat) (off : Nat) => Host.Outcome.next (φ := Fault) (ρ := Refusal) (s.refused m r off)
    (Asks d m 0x0601 →
      let p := posAt c 16
      let own := f 20 8
      let other := f 28 8
      let okPos := inPart d p = true ∧ p ≠ d.lnk.pos
      let okOwn := own ≤ 206158430208 ∧ securedBytes d ≤ own
      let idle := unpaired d = true ∧ d.step.state = .none
      let want := takeLagoon (2 * other / 2 ^ 25 + 1) (2 * other) [] d
      (¬ okPos → exec (.pairSet m) s = no rBadField 16) ∧
      (okPos → ¬ okOwn → exec (.pairSet m) s = no rBadField 20) ∧
      (okPos → okOwn → 206158430208 < other → exec (.pairSet m) s = no rBadField 28) ∧
      (okPos → okOwn → other ≤ 206158430208 → ¬ idle → exec (.pairSet m) s = no rInUse 16) ∧
      (okPos → okOwn → other ≤ 206158430208 → idle → want = none → exec (.pairSet m) s = no rNoRoom 28) ∧
      (okPos → okOwn → other ≤ 206158430208 → idle → ∀ rs d', want = some (rs, d') →
        let d1 : Dev := { d' with pair := { d'.pair with
          state := 1, partner := p, feedOverride := bitOf (f 19 1) 0, ownBudget := own, partnerBudget := other
          lagoonRegions := rs, lagoonBytes := lagoonSize d' rs, exposed := false, partnerExposed := false, unacked := [] } }
        exec (.pairSet m) s = .next (s.answered m (toLe 8 d1.pair.lagoonBytes) (send (.pair p (ownPair d1)) (noteEvent 3 (pairEvent d1) d1))))) ∧
    (Asks d m 0x0602 → exec (.pairQuery m) s = .next (s.answered m
      (toLe 1 d.pair.state ++ toLe 1 d.tel.feedId.toNat ++ toLe 1 d.pair.partnerFeed.toNat ++ toLe 1 (b2n d.pair.exposed)
        ++ posBytes d.pair.partner ++ zeros 1 ++ toLe 8 d.pair.lagoonBytes ++ toLe 8 (securedBytes d)) d)) ∧
    (Asks d m 0x0603 → unpaired d = true → exec (.pairClear m) s = no rNotAllowed (Config.noField 0x0603 rNotAllowed)) ∧
    (Asks d m 0x0603 → unpaired d = false → d.step.state ≠ .none → exec (.pairClear m) s = no rInUse (Config.noField 0x0603 rInUse)) ∧
    (Asks d m 0x0603 → unpaired d = false → d.step.state = .none →
      let d1 := freeLagoon (noteEvent 3 (pairEvent d) d)
      exec (.pairClear m) s = .next (s.answered m [] { d1 with pair := { d1.pair with
        state := 0, partner := {}, feedOverride := false, partnerOverride := false, partnerFeed := 0, partnerSerial := 0
        ownBudget := 206158430208, partnerBudget := 0, exposed := false, partnerExposed := false, unacked := [] } })) ∧
    (Asks d m 0x0631 → d.lnk.planLoaded = true → exec (.spareArm m) s = no rNotAllowed (Config.noField 0x0631 rNotAllowed)) ∧
    (Asks d m 0x0631 → d.lnk.planLoaded = false →
      let d1 := noteEvent 4 (posBytes d.lnk.pos) d
      exec (.spareArm m) s = .next (s.answered m [] (identAll { d1 with
        spare := { d1.spare with armed := true, state := 0 }, lnk := { d1.lnk with assigned := false } }))) ∧
    (Asks d m 0x0632 →
      let pos := posAt c 16
      let dim := posAt c 20
      let ma := posAt c 28
      let ba := posAt c 32
      let pa := posAt c 36
      let why := planRefuse d pos (BitVec.ofNat 3 (f 19 1)) dim (BitVec.ofNat 16 (f 24 2)) ma ba
      let okPartner := posOk dim pa = true ∧ pa ≠ pos
      (d.spare.armed = false → exec (.spareAdopt m) s = no rNotAllowed (Config.noField 0x0632 rNotAllowed)) ∧
      (d.spare.armed = true → why ≠ 0 → exec (.spareAdopt m) s = no rBadField (adoptField dim ma why)) ∧
      (d.spare.armed = true → why = 0 → ¬ okPartner → exec (.spareAdopt m) s = no rBadField 36) ∧
      (d.spare.armed = true → why = 0 → okPartner →
        let d1 := adoptPlan (noteEvent 4 (posBytes pos) { d with
          lnk := { d.lnk with pos := pos, wrap := BitVec.ofNat 3 (f 19 1), dim := dim, partId := BitVec.ofNat 16 (f 24 2) }
          tide := { d.tide with master := ma, backup := ba }
          pair := { d.pair with partner := pa, feedOverride := bitOf (f 39 1) 0, state := 0 }
          spare := { state := 1, adoptedBy := d.spare.adoptedBy } })
        exec (.spareAdopt m) s = .next (s.answered m []
          (tryAdoptReq (if pos = ma then remakeTree { d1 with tide := { d1.tide with acting := ba } } else d1))))) ∧
    (Asks d m 0x0633 → exec (.adoptQuery m) s = .next (s.answered m
      (toLe 1 d.spare.state ++ toLe 1 d.spare.cause ++ zeros 6 ++ toLe 8 d.spare.filled ++ toLe 8 d.spare.total) d)) ∧
    (Asks d m 0x0634 →
      let es := sortByKey entrySeq (d.spare.ledger.filter (fun e => (entryChan e).toNat == f 16 8))
      (d.spare.state ≠ 4 → exec (.ledgerRead m) s = no rNotAllowed (Config.noField 0x0634 rNotAllowed)) ∧
      (d.spare.state = 4 → es = [] → exec (.ledgerRead m) s = no rBadField 16) ∧
      (d.spare.state = 4 → es ≠ [] → es.length < f 24 4 → exec (.ledgerRead m) s = no rBadField 24) ∧
      (d.spare.state = 4 → es ≠ [] → f 24 4 ≤ es.length →
        let out := (es.drop (f 24 4)).take 511
        exec (.ledgerRead m) s = .next (s.answered m (toLe 4 out.length ++ toLe 4 es.length
          ++ toLe 8 ((es.getLast?.map entrySeq).getD 0) ++ (out.map ledgerOutcome).flatten) d)))

/-- 13 R441, R435 and R565. -/
def Obligations.StepAndStateCommandsAnswer : Prop :=
  ∀ (s : State) (m : Nat),
    let d := s.dev
    let c := request d m
    let f := fieldLe c
    let no := fun (r : Nat) (off : Nat) => Host.Outcome.next (φ := Fault) (ρ := Refusal) (s.refused m r off)
    (Asks d m 0x0611 →
      let okNum := f 16 4 ≠ 0 ∧ d.step.lastCommitted < f 16 4
      let okTide := d.tide.count + 2 ≤ f 24 8 ∧ f 24 8 ≤ d.tide.count + 65536
      let safe := paired d = true ∧ d.pair.exposed = false ∧ d.pair.partnerExposed = false ∧ d.lnk.lostPos = [] ∧ d.tide.holdover = false
      (¬ okNum → exec (.stepOpen m) s = no rBadField 16) ∧
      (okNum → ¬ okTide → exec (.stepOpen m) s = no rBadField 24) ∧
      (okNum → okTide → ¬ safe → exec (.stepOpen m) s = no rNotAllowed 16) ∧
      (okNum → okTide → safe → d.step.state ≠ .none → exec (.stepOpen m) s = no rInUse 16) ∧
      (okNum → okTide → safe → d.step.state = .none → exec (.stepOpen m) s = .next (s.answered m [] { d with step := {
        state := .scheduled, num := f 16 4, startTide := f 24 8, lastCommitted := d.step.lastCommitted
        lastDecision := d.step.lastDecision, flipTide := d.step.flipTide, flip := d.step.flip
        written := d.step.written, writtenWarm := d.step.writtenWarm } }))) ∧
    (Asks d m 0x0612 → ∃ state vote : Nat,
      exec (.stepQuery m) s = .next (s.answered m (toLe 1 state ++ toLe 1 vote ++ toLe 1 d.step.cause.toNat ++ zeros 1 ++ toLe 4 (if d.step.state = .none then 0 else d.step.num)
        ++ toLe 8 d.step.startTide ++ toLe 4 d.step.lastCommitted ++ toLe 4 d.step.lastDecision.toNat) d) ∧
      (d.step.state = .none → state = 0) ∧ (d.step.state = .scheduled → state = 1) ∧
      (d.step.state = .running → state = if d.step.ready || d.step.no then 4 else if d.step.isSealed then 3 else 2) ∧
      vote = (if d.step.no then 2 else if d.step.ready then 1 else 0)) ∧
    (Asks d m 0x0613 → d.step.state ≠ .none → f 16 4 = d.step.num →
      exec (.stepAbort m) s = .next (s.answered m [] { d with step := { d.step with abortReq := true } })) ∧
    (Asks d m 0x0613 → d.step.state = .none ∨ f 16 4 ≠ d.step.num → exec (.stepAbort m) s = no rBadField 16) ∧
    (∀ t, handleOk d 2 (BitVec.ofNat 64 (f 16 8)) = true → aGet d.tensors (hIdx (BitVec.ofNat 64 (f 16 8))) = some t → Asks d m 0x0621 →
      (t.lost = true → exec (.stateLoad m) s = no rTensorLost 16) ∧
      (t.lost = false → ∀ x, stateLoadCheck d c t = some x → exec (.stateLoad m) s = no x.1 x.2) ∧
      (t.lost = false → stateLoadCheck d c t = none → pf0Requests d = false → exec (.stateLoad m) s = .next s) ∧
      (t.lost = false → stateLoadCheck d c t = none → pf0Requests d = true →
        let i := hIdx (BitVec.ofNat 64 (f 16 8))
        let r := stateLoadWrite i t (f 32 8) (memRead d.host (f 24 8) (f 40 8)) d
        let d1 := r.2.foldl (fun d k => logSector 1 0x303 3 k d) r.1
        let size := max (fmtBytes t.fmt) 1
        let current := ((t.working.bind (aGet d1.tensors)).bind (·.scale)).any (fun x => x.mode == 1)
        exec (.stateLoad m) s = .next (s.answered m (toLe 4 r.2.length ++ zeros 4)
          (if current then regenWorking i [tCommitted t] d1 else regenRange i (f 32 8 / size) ((f 32 8 + f 40 8) / size) d1))))

/-- 09 R309, R316 to R319. -/
def Obligations.NumericsCommandsAnswer : Prop :=
  ∀ (s : State) (m : Nat),
    let d := s.dev
    let c := request d m
    let f := fieldLe c
    let h := BitVec.ofNat 64 (f 16 8)
    let i := hIdx h
    let no := fun (r : Nat) (off : Nat) => Host.Outcome.next (φ := Fault) (ρ := Refusal) (s.refused m r off)
    (Asks d m 0x0701 → lossSetCheck d c = none → exec (.lossScaleSet m) s = .next (s.answered m []
      (writeLossTensor { d with loss := { d.loss with
        exp := (f 16 1 : Nat), lo := (f 17 1 : Nat), hi := (f 18 1 : Nat), interval := f 20 4, clean := 0, skipped := 0
        tensor := BitVec.ofNat 64 (f 24 8) } }))) ∧
    (Asks d m 0x0701 → ∀ x, lossSetCheck d c = some x → exec (.lossScaleSet m) s = no x.1 x.2) ∧
    (Asks d m 0x0702 → exec (.lossScaleQuery m) s = .next (s.answered m
      (toLe 1 d.loss.exp.toNat ++ toLe 1 d.loss.lo.toNat ++ toLe 1 d.loss.hi.toNat ++ zeros 1 ++ toLe 4 d.loss.interval
        ++ toLe 4 d.loss.clean ++ toLe 4 d.loss.skipped ++ toLe 8 d.loss.tensor.toNat ++ toLe 4 d.loss.lastStep) d)) ∧
    (Asks d m 0x0703 → exec (.flagsQuery m) s = .next (s.answered m (toLe 4 d.devFlags.toNat ++
      (d.cluFlags.map (fun x => toLe 4 x.flags.toNat ++ toLe 2 x.nvCore.toNat ++ zeros 2)).flatten) d)) ∧
    (Asks d m 0x0704 → exec (.flagsClear m) s = .next (s.answered m [] { d with
      devFlags := 0, cluFlags := List.replicate 6 {}
      cores := aMap d.cores (fun _ x => { x with flagsSince := 0, segCount := 0 }) })) ∧
    (∀ t, handleOk d 2 h = true → aGet d.tensors i = some t →
      (t.lost = true → ∀ x op, (x, op) ∈ [(Instr.masterConfig m, 0x0711), (.masterQuery m, 0x0712), (.scaleConfig m, 0x0721), (.scaleQuery m, 0x0722)] →
        Asks d m op → exec x s = no rTensorLost 16) ∧
      (t.lost = false → Asks d m 0x0711 →
        let mine := t.role = 2 ∧ t.workingOf = none
        let okMode := masterFmtOk (f 24 1) t.fmt = true
        let okWork := if f 24 1 = 2 then f 25 1 ∈ [3, 4, 5, 6] else f 25 1 = 0
        let idle := stepIsOpen d = false ∧ namedByItem d (tensorHandle d i) = false ∧
          (∀ w, t.working = some w → namedByItem d (tensorHandle d w) = false)
        let next := if f 24 1 = t.master ∧ f 25 1 = t.workFmt then some d else enterMaster i (f 24 1) (f 25 1) (leaveMaster i t d)
        let past := f 24 1 = 1 ∧ t.master ≠ 1 ∧ overBudget d (2 * tElems t) = true
        (¬ mine → exec (.masterConfig m) s = no rNotAllowed 16) ∧
        (mine → ¬ okMode → exec (.masterConfig m) s = no rBadField 24) ∧
        (mine → okMode → ¬ okWork → exec (.masterConfig m) s = no rBadField 25) ∧
        (mine → okMode → okWork → ¬ idle → exec (.masterConfig m) s = no rInUse 16) ∧
        (mine → okMode → okWork → idle → past ∨ next = none →
          exec (.masterConfig m) s = no rNoRoom (Config.noField 0x0711 rNoRoom)) ∧
        (mine → okMode → okWork → idle → ¬ past → ∀ d1, next = some d1 →
          let w := ((aGet d1.tensors i).bind (·.working)).map (fun w => (tensorHandle d1 w).toNat)
          exec (.masterConfig m) s = .next (s.answered m
            (toLe 8 (w.getD 0) ++ toLe 8 (wrapBits 64 ((masterBytes d1 i : Int) - masterBytes d i))) (noteChange (mkHandle 2 t.gen i) d1)))) ∧
      (t.lost = false → Asks d m 0x0712 →
        (t.role ≠ 2 → exec (.masterQuery m) s = no rNotAllowed 16) ∧
        (t.role = 2 → exec (.masterQuery m) s = .next (s.answered m
          (toLe 1 t.master ++ toLe 1 t.workFmt ++ zeros 6 ++ toLe 8 ((t.working.map (fun w => (tensorHandle d w).toNat)).getD 0)) d))) ∧
      (t.lost = false → t.scale = none → (Asks d m 0x0721 → exec (.scaleConfig m) s = no rNotAllowed 16) ∧
        (Asks d m 0x0722 → exec (.scaleQuery m) s = no rNotAllowed 16)) ∧
      (∀ r, t.lost = false → t.scale = some r →
        (Asks d m 0x0721 →
          let ok24 := 1 ≤ f 24 1 ∧ f 24 1 ≤ 3
          let okCur := f 24 1 = 1 → t.workingOf.isSome = true
          let ok25 := f 25 1 ≤ 3
          let ok26 := 1 ≤ f 26 1 ∧ f 26 1 ≤ 64
          let ok27 := -126 ≤ signExt 8 (f 27 1)
          let idle := stepIsOpen d = false ∧ namedByItem d (tensorHandle d i) = false
          (¬ ok24 → exec (.scaleConfig m) s = no rBadField 24) ∧
          (ok24 → ¬ okCur → exec (.scaleConfig m) s = no rNotAllowed 24) ∧
          (ok24 → okCur → ¬ ok25 → exec (.scaleConfig m) s = no rBadField 25) ∧
          (ok24 → okCur → ok25 → ¬ ok26 → exec (.scaleConfig m) s = no rBadField 26) ∧
          (ok24 → okCur → ok25 → ok26 → ¬ ok27 → exec (.scaleConfig m) s = no rBadField 27) ∧
          (ok24 → okCur → ok25 → ok26 → ok27 → ¬ idle → exec (.scaleConfig m) s = no rInUse 16) ∧
          (ok24 → okCur → ok25 → ok26 → ok27 → idle →
            exec (.scaleConfig m) s = .next (s.answered m [] (noteChange (mkHandle 2 t.gen i) { d with
              tensors := aSet d.tensors i { t with scale := some { r with
                mode := f 24 1, headroom := f 25 1, window := f 26 1, exp := signExt 8 (f 27 1), amaxes := [], hasExp := true } } })))) ∧
        (Asks d m 0x0722 → exec (.scaleQuery m) s = .next (s.answered m
          (toLe 1 r.mode ++ toLe 1 r.headroom ++ toLe 1 r.window ++ toLe 1 (wrapBits 8 r.exp) ++ toLe 1 r.amaxes.length ++ zeros 3
            ++ toLe 8 (amaxOf (r.amaxes.map (·.toNat)))) d))))

/-- 10 Table 10-3, R339, R342, R343 and R346. Where the spec names no field, the refusal's offset is a free value. -/
def Obligations.MemoryCommandsAnswer : Prop :=
  ∀ (s : State) (m : Nat),
    let d := s.dev
    let c := request d m
    let f := fieldLe c
    let h := BitVec.ofNat 64 (f 16 8)
    let i := hIdx h
    let no := fun (r : Nat) (off : Nat) => Host.Outcome.next (φ := Fault) (ρ := Refusal) (s.refused m r off)
    let n := d.mem.nextScrub
    let running := (d.mem.scrubs.filter (fun x => x.state == 0)).length
    let started := fun (t : Option Nat) (off len : Nat) => Host.Outcome.next (φ := Fault) (ρ := Refusal) (s.answered m (toLe 4 n)
      { d with mem := { d.mem with scrubs := d.mem.scrubs.filter (fun x => decide (n < x.sid + 256)) ++
          [{ sid := n, tensor := t, off := off, len := len }], nextScrub := n + 1 } })
    let fullScrubs := no rNoRoom (Config.noField 0x0851 rNoRoom)
    (Asks d m 0x0841 → exec (.memQuery m) s = .next (s.answered m (toLe 4 (fullRegionsFree d)
      ++ toLe 4 (fullRegionsFree d + d.mem.regions.length) ++ ((List.range 24).map (fun k =>
        toLe 1 (stack d k).state.toNat ++ zeros 1 ++ toLe 2 (freeGranules d k) ++ toLe 2 (stack d k).retired.length ++ zeros 2)).flatten) d)) ∧
    (∀ t, handleOk d 2 h = true → aGet d.tensors i = some t →
      (t.lost = true → (Asks d m 0x0842 → exec (.memLocate m) s = no rTensorLost 16) ∧
        (Asks d m 0x0851 → f 16 8 ≠ 0 → exec (.scrubStart m) s = no rTensorLost 16)) ∧
      (t.lost = false → Asks d m 0x0842 →
        let okEpoch := f 32 1 = 0 ∨ (f 32 1 = 1 ∧ tSecured t = true)
        (tBytes t ≤ f 24 8 → exec (.memLocate m) s = no rBadField 24) ∧
        (f 24 8 < tBytes t → ¬ okEpoch → exec (.memLocate m) s = no rBadField 32) ∧
        (f 24 8 < tBytes t → okEpoch →
          let k := dataKey i (if f 32 1 = 1 then tOther t else tCommitted t) (f 24 8 / 64)
          let r := region d (keyRow d k).1
          let par := if r.parity then (r.onStacks[unitPlace r (keyRow d k).2.1 (r.width - 1)]?).getD 0 else 0xFF
          exec (.memLocate m) s = .next (s.answered m (toLe 8 (sectorAddr d 0 k).toNat ++ toLe 1 par ++ toLe 1 r.width ++ zeros 6) d))) ∧
      (t.lost = false → Asks d m 0x0851 → f 16 8 ≠ 0 →
        (tBytes t ≤ f 24 8 → exec (.scrubStart m) s = no rBadField 24) ∧
        (f 24 8 < tBytes t → tBytes t < f 24 8 + f 32 8 → exec (.scrubStart m) s = no rBadField 32) ∧
        (f 24 8 < tBytes t → f 24 8 + f 32 8 ≤ tBytes t → exec (.scrubStart m) s =
          if running < 4 then started (some i) (f 24 8) (if f 32 8 = 0 then tBytes t - f 24 8 else f 32 8) else fullScrubs))) ∧
    (handleOk d 2 h = false → Asks d m 0x0851 → f 16 8 ≠ 0 → exec (.scrubStart m) s = no rBadHandle 16) ∧
    (Asks d m 0x0851 → f 16 8 = 0 → exec (.scrubStart m) s = if running < 4 then started none 0 0 else fullScrubs) ∧
    (∀ x, scrubOf d (f 16 4) = some x →
      (Asks d m 0x0852 → exec (.scrubQuery m) s = .next (s.answered m (toLe 1 x.state ++ toLe 1 x.addrs.length ++ zeros 6 ++ toLe 8 x.scanned
        ++ toLe 8 x.corrected ++ toLe 8 x.rebuilt ++ toLe 8 x.uncorr ++ toLe 8 x.mismatch
        ++ ((List.range 16).map (fun i => toLe 8 ((x.addrs[i]?).getD 0).toNat)).flatten) d)) ∧
      (Asks d m 0x0853 → exec (.scrubCancel m) s = .next (s.answered m [] (if x.state = 0 then setScrub { x with state := 2 } d else d)))) ∧
    (scrubOf d (f 16 4) = none → (Asks d m 0x0852 → exec (.scrubQuery m) s = no rBadField 16) ∧
      (Asks d m 0x0853 → exec (.scrubCancel m) s = no rBadField 16)) ∧
    (∀ x op (bad : Option Nat) (gs : List Nat) (bank : Bool),
      (x, op, bad, gs, bank) ∈ [(Instr.pageRetire m, 0x0861, if 24 ≤ f 16 1 then some 16 else if 18432 ≤ f 18 2 then some 18 else none, [f 18 2], false),
        (.bankRetire m, 0x0862, if 24 ≤ f 16 1 then some 16 else if 32 ≤ f 17 1 then some 17 else if 48 ≤ f 18 1 then some 18 else none,
          (List.range 384).map (fun i => 48 * i + f 18 1), true)] → Asks d m op →
      let k := f 16 1
      let held := gs.filter (heldGranules d k).contains
      let free := gs.filter (fun g => !held.contains g)
      let up := (stack d k).lost = false ∧ (stack d k).testing = false
      let fits := repairLogFull d = false ∧ freeGranules d k ≠ 0 ∧
        (held ≠ [] → held.length ≤ freeGranules d k - (gs.length - held.length))
      let ticket := d.mem.nextTicket
      (∀ off, bad = some off → exec x s = no rBadField off) ∧
      (bad = none → ¬ up → exec x s = no rNotAllowed 16) ∧
      (bad = none → up → gs.any (granuleTaken d k) = true → exec x s = no rInUse (Config.noField op rInUse)) ∧
      (bad = none → up → gs.any (granuleTaken d k) = false → ¬ fits → exec x s = no rNoRoom (Config.noField op rNoRoom)) ∧
      (bad = none → up → gs.any (granuleTaken d k) = false → fits →
        let d1 := free.foldl (fun d g => retireGranule k g (if bank then 5 else 4) d) d
        exec x s = .next (s.answered m (toLe 4 ticket) { d1 with mem := { d1.mem with
          nextTicket := ticket + 1
          retires := d1.mem.retires.filter (fun t => decide (ticket < t.ticket + 256)) ++
            [{ ticket := ticket, stack := k, todo := held, done := free.length, total := gs.length, bank := bank }] } }))) ∧
    (∀ t, d.mem.retires.find? (fun t => t.ticket == f 16 4) = some t → Asks d m 0x0863 → exec (.retireQuery m) s =
      .next (s.answered m (toLe 1 (if t.todo = [] then 1 else 0) ++ zeros 3 ++ toLe 2 t.done ++ toLe 2 t.total) d)) ∧
    (d.mem.retires.find? (fun t => t.ticket == f 16 4) = none → Asks d m 0x0863 → exec (.retireQuery m) s = no rBadField 16)

/-- 14 Table 14-12, R477 and R486 to R489; 11 R373. Where the spec names no field, the refusal's offset is a free value. -/
def Obligations.UnitCommandsAnswer : Prop :=
  ∀ (s : State) (m : Nat),
    let d := s.dev
    let c := request d m
    let f := fieldLe c
    let kind := f 16 1
    let phys := f 20 4
    let no := fun (r : Nat) (off : Nat) => Host.Outcome.next (φ := Fault) (ρ := Refusal) (s.refused m r off)
    let free' := fun (op r : Nat) => no r (Config.noField op r)
    let ticket := fun (t : Ticket) (d : Dev) => s.answered m (toLe 4 d.units.nextTicket) { d with units := { d.units with
      nextTicket := d.units.nextTicket + 1
      tickets := d.units.tickets.filter (fun x => decide (d.units.nextTicket < x.id + 256)) ++ [{ t with id := d.units.nextTicket }] } }
    let room := (d.units.tickets.filter (fun t => t.state == 0)).length < 8
    let known := 1 ≤ kind ∧ kind ≤ 6
    let marked := { d with units := { d.units with testing := d.units.testing ++ [(kind, BitVec.ofNat 32 phys)] } }
    (¬ known → ∀ x op, (x, op) ∈ [(Instr.unitQuery m, 0x0F01), (.unitTest m, 0x0F03), (.unitRetire m, 0x0F04)] → Asks d m op →
      exec x s = no rBadField 16) ∧
    (Asks d m 0x0F01 → known → ∀ v, unitView s.fuses d kind phys = some v → exec (.unitQuery m) s = .next (s.answered m
      (toLe 4 v.1 ++ toLe 1 v.2.1 ++ toLe 1 v.2.2.1 ++ toLe 2 v.2.2.2.1 ++ toLe 1 (b2n v.2.2.2.2) ++ zeros 7) d)) ∧
    (Asks d m 0x0F01 → known → unitView s.fuses d kind phys = none → exec (.unitQuery m) s = no rBadField 20) ∧
    (Asks d m 0x0F02 → f 16 4 < 1152 → exec (.coreFlags m) s = .next (s.answered m
      (toLe 4 ((aGet d.cores (f 16 4)).getD {}).flagsSince.toNat ++ toLe 4 ((aGet d.cores (f 16 4)).getD {}).segCount) d)) ∧
    (Asks d m 0x0F02 → 1152 ≤ f 16 4 → exec (.coreFlags m) s = no rBadField 16) ∧
    (Asks d m 0x0F03 → known → ¬ (1 ≤ f 17 1 ∧ f 17 1 ≤ 3) → exec (.unitTest m) s = no rBadField 17) ∧
    (known → ∀ x op retire, (x, op, retire) ∈ [(Instr.unitTest m, 0x0F03, false), (.unitRetire m, 0x0F04, true)] → Asks d m op →
      (retire = false → 1 ≤ f 17 1 ∧ f 17 1 ≤ 3) →
      (unitUse d kind phys = none → exec x s = if kind = 5 ∧ bitOf phys 8 = true then free' op rNotAllowed else no rBadField 20) ∧
      (∀ serving holm out, unitUse d kind phys = some (serving, holm, out) →
        let busy := isTesting d kind phys = true ∨ (serving = true ∧ holm = false)
        (out = true → exec x s = free' op rNotAllowed) ∧
        (out = false → busy → exec x s = free' op rInUse) ∧
        (out = false → ¬ busy → ¬ room → exec x s = free' op rNoRoom) ∧
        (out = false → ¬ busy → room → exec x s = .next (ticket { kind := kind, phys := BitVec.ofNat 32 phys, retire := retire } marked)))) ∧
    (∀ t, d.units.tickets.find? (fun t => t.id == f 16 4) = some t → Asks d m 0x0F05 → exec (.testQuery m) s = .next (s.answered m
      (toLe 1 t.state ++ zeros 7 ++ toLe 8 t.res.logicAct.toNat ++ toLe 8 t.res.logicExp.toNat ++ toLe 8 t.res.memAct.toNat
        ++ toLe 8 t.res.memExp.toNat ++ toLe 4 t.res.failCount ++ toLe 4 t.res.firstFail) d)) ∧
    (d.units.tickets.find? (fun t => t.id == f 16 4) = none → Asks d m 0x0F05 → exec (.testQuery m) s = no rBadField 16) ∧
    (Asks d m 0x0F06 →
      let st := kind
      let ln := f 17 1
      let pos := f 18 1
      (6 ≤ st → exec (.laneMove m) s = no rBadField 16) ∧
      (st < 6 → 4 ≤ ln → exec (.laneMove m) s = no rBadField 17) ∧
      (st < 6 → ln < 4 → 16 ≤ pos → exec (.laneMove m) s = no rBadField 18) ∧
      (st < 6 → ln < 4 → pos < 16 → (linkOf d st ln).state ≠ 7 ∨ holmLanes (linkOf d st ln) = [] →
        exec (.laneMove m) s = free' 0x0F06 rNotAllowed) ∧
      (st < 6 → ln < 4 → pos < 16 → (linkOf d st ln).state = 7 → holmLanes (linkOf d st ln) ≠ [] →
        exec (.laneMove m) s = .next (s.answered m [] (moveLane st ln pos d)))) ∧
    (∀ x op count, (x, op, count) ∈ [(Instr.mdTest m, 0x0F07, 6), (.stackTest m, 0x0F08, 24)] → Asks d m op →
      let busy := d.mem.hbm.any (fun x => x.lost || x.testing) || mdTesting d
      let bare := d.tensors.any (fun t => !t.2.parity)
      (count ≤ kind → exec x s = no rBadField 16) ∧
      (kind < count → busy = true → exec x s = free' op rInUse) ∧
      (kind < count → busy = false → bare = true → exec x s = free' op rNotAllowed) ∧
      (kind < count → busy = false → bare = false → ¬ room → exec x s = free' op rNoRoom) ∧
      (kind < count → busy = false → bare = false → room →
        (x = .mdTest m → exec x s = .next (ticket { kind := 8, phys := BitVec.ofNat 32 kind, md := some kind } d)) ∧
        (x = .stackTest m →
          let d1 := onStack kind (fun x => { x with testing := true, state := 1, passed := false }) d
          exec x s = .next (ticket { kind := 7, phys := BitVec.ofNat 32 kind, stack := some kind }
            { d1 with mem := { d1.mem with restripes := restripeOrder d1 (restripable d1 kind) } })))) ∧
    (Asks d m 0x0F09 →
      let passed := (stack d kind).testing = true ∧ (stack d kind).passed = true
      (24 ≤ kind → exec (.stackReturn m) s = no rBadField 16) ∧
      (kind < 24 → ¬ passed → exec (.stackReturn m) s = no rNotAllowed 16) ∧
      (kind < 24 → passed → ¬ room → exec (.stackReturn m) s = free' 0x0F09 rNoRoom) ∧
      (kind < 24 → passed → room →
        exec (.stackReturn m) s = .next (ticket { kind := 7, phys := BitVec.ofNat 32 kind, stack := some kind, retire := true }
          { d with mem := { d.mem with
              returning := addNew d.mem.returning kind
              restripes := restripeOrder d ((d.mem.regions.filter (fun r => r.2.parity && !r.2.onStacks.contains kind)).map (·.1)) } }))) ∧
    (Asks d m 0x0F0A → d.flash.log.length < f 16 4 → exec (.repairLogRead m) s = no rBadField 16) ∧
    (Asks d m 0x0F0A → f 16 4 ≤ d.flash.log.length →
      let out := (d.flash.log.drop (f 16 4)).take 500
      exec (.repairLogRead m) s = .next (s.answered m
        (toLe 4 d.flash.log.length ++ toLe 4 out.length ++ (out.map logEntryBytes).flatten) d)) ∧
    (Asks d m 0x0F0B → s.fuses.deployed = false → s.fuses.returned = false →
      exec (.repairLogClear m) s = .next (s.answered m [] { d with flash := { d.flash with log := [] } })) ∧
    (Asks d m 0x0F0B → s.fuses.deployed = true ∨ s.fuses.returned = true → exec (.repairLogClear m) s = free' 0x0F0B rNotAllowed)

/-- 00 R11 and 03 R80 with Table 3-5: `refused` changes the response area, the mailbox's state and its message alone. -/
def Obligations.StaleHandlesAreRefused : Prop :=
  ∀ (s : State) (m : Nat) (i : Instr) (op kind : Nat),
    (i, op, kind) ∈ [(Instr.channelDestroy m, 0x0102, 1), (.channelQuery m, 0x0103, 1), (.tensorDestroy m, 0x0202, 2), (.tensorQuery m, 0x0203, 2),
      (.tensorSetRetain m, 0x0204, 2), (.tensorMap m, 0x0205, 2), (.programDestroy m, 0x0302, 3), (.programQuery m, 0x0303, 3),
      (.planDestroy m, 0x0402, 4), (.planQuery m, 0x0403, 4), (.factorSetCreate m, 0x0411, 4), (.factorSetDestroy m, 0x0412, 6),
      (.warmSetDestroy m, 0x0422, 7), (.warmSetClear m, 0x0423, 7), (.groupDestroy m, 0x0502, 5), (.groupQuery m, 0x0503, 5),
      (.stateLoad m, 0x0621, 2), (.masterConfig m, 0x0711, 2), (.masterQuery m, 0x0712, 2), (.scaleConfig m, 0x0721, 2),
      (.scaleQuery m, 0x0722, 2), (.memLocate m, 0x0842, 2)] →
    Asks s.dev m op → handleOk s.dev kind (BitVec.ofNat 64 (fieldLe (request s.dev m) 16 8)) = false →
    exec i s = .next (s.refused m 6 16)

/-- 16 R532 to R535. Each answer is the whole next state: the response, STATE and the message, and nothing else. -/
def Obligations.SecurityCommandsAnswer : Prop :=
  ∀ s : State,
    let d := s.dev
    let f := s.fuses
    (∀ op : BitVec 8, pf1Open d = true → clocksRun d = true → brgPassed d 8 = true →
      (d.sec.state ≠ 1 → 1 ≤ op.toNat ∧ op.toNat ≤ 7 →
        exec (.secCmd op) s = .next (s.onDev (fun d => { d with sec := { d.sec with state := 1, opcode := op } }))) ∧
      (d.sec.state ≠ 1 → op.toNat = 0 ∨ 7 < op.toNat → exec (.secCmd op) s =
        .next (s.onDev (fun d => secAnswer rBadOpcode (Config.noField op.toNat rBadOpcode) [] { d with sec := { d.sec with state := 1, opcode := op } }))) ∧
      (d.sec.state = 1 → exec (.secCmd op) s = .next (s.onDev (fun d => { d with sec := { d.sec with cmdLost := true } })))) ∧
    (SecRuns d 1 → d.sec.identityOk = true → lifecycle f ≠ 3 → exec .getIdentity s = .next (s.secDone f d (slice d.flash.idCert 0 7920))) ∧
    (SecRuns d 1 → d.sec.identityOk = false ∨ lifecycle f = 3 → exec .getIdentity s = .next (s.secRefused rNotAllowed (Config.noField 1 rNotAllowed))) ∧
    (SecRuns d 2 → lifecycle f ≠ 3 → d.sec.attestReady = true → exec .getAttestCert s = .next (s.secDone f d d.sec.attestCert)) ∧
    (SecRuns d 2 → lifecycle f ≠ 3 → d.sec.attestReady = false → exec .getAttestCert s = .next s) ∧
    (SecRuns d 2 → lifecycle f = 3 → exec .getAttestCert s = .next (s.secRefused rNotAllowed (Config.noField 2 rNotAllowed))) ∧
    (∀ n, SecRuns d 3 → lifecycle f ≠ 3 → d.sec.attestReady = true → d.sec.attestKey = some n → ∃ report : Bytes,
      report.length = 240 ∧ slice report 0 4 = toLe 4 0x50545241 ∧ slice report 8 8 = toLe 8 d.serial.toNat ∧
      slice report 16 32 = memRead d.sec.req 0 32 ∧ slice report 208 32 = slice (Config.attestPublic n) 0 32 ∧
      exec .attest s = .next (s.secDone f d (report ++ slice (Config.attestSign n report) 0 17088))) ∧
    (SecRuns d 3 → lifecycle f ≠ 3 → d.sec.attestReady = false ∨ d.sec.attestKey = none → exec .attest s = .next s) ∧
    (SecRuns d 3 → lifecycle f = 3 → exec .attest s = .next (s.secRefused rNotAllowed (Config.noField 3 rNotAllowed))) ∧
    (SecRuns d 4 →
      let i := ofLe (memRead d.sec.req 0 4)
      (d.sec.events.length < i → exec .configLog s = .next (s.secRefused rBadField 0)) ∧
      (i ≤ d.sec.events.length →
        let rs := (d.sec.events.drop i).take 1000
        exec .configLog s = .next (s.secDone f d
          (toLe 4 d.sec.events.length ++ toLe 4 rs.length ++ (rs.map (fun r => slice r 0 32)).flatten)))) ∧
    (clocksRun d = true → d.brg.ready = true → d.sec.attestReady = false → d.sec.attestKey.isSome = true →
      exec .attestCertReady s = .next (s.onDev (fun d => { d with sec := { d.sec with
        attestReady := true, attestCert := makeAttestCert f d } }))) ∧
    (clocksRun d = false ∨ d.brg.ready = false ∨ d.sec.attestReady = true ∨ d.sec.attestKey = none →
      exec .attestCertReady s = .next s)

/-- 16 R527 to R530, with the record classes of Table 16-12 and the event of Table 16-7. -/
def Obligations.FuseCommandsBlowTheirFuses : Prop :=
  ∀ s : State,
    let d := s.dev
    let f := s.fuses
    let event := fun (g : Fuses) (d : Dev) => noteEvent 6 (toLe 1 g.floor ++ toLe 1 g.revoked.toNat ++ toLe 1 (lifecycle g)) d
    (SecRuns d 5 → let svn := min 64 d.sec.imageSvn
      (svn ≤ f.floor → exec .svnCommit s = .next (s.secDone f d (toLe 1 f.floor))) ∧
      (f.floor < svn →
        let g : Fuses := { f with floor := svn }
        exec .svnCommit s = .next (s.secDone g (event g (logInfo 0x0901 g.floor d)) (toLe 1 g.floor)))) ∧
    (SecRuns d 6 →
      let k := ofLe (memRead d.sec.req 0 1)
      let other := ∃ j, j < 3 ∧ j ≠ k ∧ f.revoked.getLsbD j = false ∧ allZero (keyHash f j) = false
      (2 < k → exec .revokeSlot s = .next (s.secRefused rBadField 0)) ∧
      (k ≤ 2 → k = d.sec.imageSlot ∨ ¬ other → exec .revokeSlot s = .next (s.secRefused rNotAllowed (Config.noField 6 rNotAllowed))) ∧
      (k ≤ 2 → k ≠ d.sec.imageSlot → other → f.revoked.getLsbD k = true →
        exec .revokeSlot s = .next (s.secDone f d (toLe 1 f.revoked.toNat))) ∧
      (k ≤ 2 → k ≠ d.sec.imageSlot → other → f.revoked.getLsbD k = false →
        let g : Fuses := { f with revoked := f.revoked ||| BitVec.ofNat 3 (2 ^ k) }
        exec .revokeSlot s = .next (s.secDone g (event g (logInfo 0x0902 k d)) (toLe 1 g.revoked.toNat)))) ∧
    (SecRuns d 7 →
      let n := ofLe (memRead d.sec.req 0 1)
      let word := ofLe (memRead d.sec.req 4 4)
      (¬(n = 1 ∧ lifecycle f = 0) → ¬(n = 3 ∧ lifecycle f = 1) → exec .lifecycleSet s = .next (s.secRefused rBadField 0)) ∧
      (n = 3 → lifecycle f = 1 → word ≠ d.serial.toNat % 2 ^ 32 → exec .lifecycleSet s = .next (s.secRefused rBadField 4)) ∧
      (n = 1 → lifecycle f = 0 → d.sec.identityOk = false → exec .lifecycleSet s = .next (s.secRefused rNotAllowed (Config.noField 7 rNotAllowed))) ∧
      (n = 1 → lifecycle f = 0 → d.sec.identityOk = true →
        let g : Fuses := { f with deployed := true }
        exec .lifecycleSet s = .next (s.secDone g (event g (logInfo 0x0903 1 d)) (toLe 1 1))) ∧
      (n = 3 → lifecycle f = 1 → word = d.serial.toNat % 2 ^ 32 →
        let g : Fuses := { f with returned := true, seedErased := true }
        let d' : Dev := { d with sec := { d.sec with attestKey := none } }
        exec .lifecycleSet s = .next (s.secDone g (event g (logInfo 0x0903 3 d')) (toLe 1 3))))

/-- 16 R535 and the delivery rules of 15 R505 and R508, for every body whose length fits the area. -/
def Obligations.SecurityResponseIsWhatTheHostReads : Prop :=
  ∀ (reason off : Nat) (body : Bytes) (d : Dev), body.length + 16 ≤ 32768 →
    let d' := secAnswer reason off body d
    let v := d.sec.vector.toNat
    let masked := d.pf1.fnMask || (msixEntry d.pf1 v).mask
    let may := d.pf1.busMaster && !d.pf1.d3 && !d.rst.hostDown
    memRead d'.sec.rsp 0 1 = toLe 1 (if reason = 0 then 0 else 0x30) ∧ memRead d'.sec.rsp 1 3 = zeros 3 ∧
    memRead d'.sec.rsp 4 4 = toLe 4 (if reason = 0 then 0 else reason * 65536 + off % 65536) ∧
    memRead d'.sec.rsp 8 4 = toLe 4 body.length ∧ memRead d'.sec.rsp 12 4 = zeros 4 ∧ memRead d'.sec.rsp 16 body.length = body ∧
    (∀ x, 16 + body.length ≤ x → memRead d'.sec.rsp x 1 = memRead d.sec.rsp x 1) ∧ d'.sec.state = 2 ∧
    (d.sec.enable = false → d'.out = d.out ∧ d'.pf1 = d.pf1) ∧
    (d.sec.enable = true →
      (masked = true → d'.out = d.out ∧ v ∈ d'.pf1.pba ∧ d'.pf1.held = d.pf1.held) ∧
      (masked = false → may = true → d'.out.msgs = d.out.msgs ++ [(1, v)] ∧ d'.pf1 = d.pf1) ∧
      (masked = false → may = false → d'.out = d.out ∧ d'.pf1.held = d.pf1.held ++ [v] ∧ d'.pf1.pba = d.pf1.pba)) ∧
    d' = { d with sec := d'.sec, pf1 := d'.pf1, out := d'.out }

/-- 14 R467 to R471. -/
def Obligations.PowerDomainsRampInOrder : Prop :=
  ∀ (s : State),
    let d := s.dev
    (∀ v : BitVec 32, pf1Up d = true →
      let on := v.truncate 20 ||| 0x4000#20
      let new := fun (k : Nat) => on.getLsbD k = true ∧ d.power.on.getLsbD k = false
      let gone := fun (k : Nat) => on.getLsbD k = false ∧ d.power.on.getLsbD k = true
      ((∃ k, k < 20 ∧ new k ∧ pdReady d k = false) ∨ (d.brg.ready = true ∧ ∃ k, k < 20 ∧ gone k) →
        exec (.pwrCtlOn v) s = .next (s.onDev (fun d => { d with power := { d.power with orderErr := true } }))) ∧
      ((∀ k, k < 20 → new k → pdReady d k = true) → (∀ k, k < 20 → ¬ gone k) →
        let d1 : Dev := { d with power := { d.power with on := on } }
        exec (.pwrCtlOn v) s = .next (s.onDev (fun d =>
          nextRamp (if (List.range 20).any (fun k => on.getLsbD k && !d.power.on.getLsbD k) = true ∧ brgState d 2 = 0 then beginStep 2 d1 else d1))))) ∧
    (∀ v : BitVec 32, pf1Up d = true → d.brg.ready = false →
      let on := v.truncate 20 ||| 0x4000#20
      let gone := (List.range 20).filter (fun k => !on.getLsbD k && d.power.on.getLsbD k)
      (∀ k, k < 20 → on.getLsbD k = true → d.power.on.getLsbD k = false → pdReady d k = true) →
        exec (.pwrCtlOn v) s = .next (s.onDev (fun d =>
          let ramp : Option Nat := if d.power.ramping.any gone.contains then none else d.power.ramping
          let e : Dev := { d with power := { d.power with on := on, good := d.power.good &&& ~~~(BitVec.ofNat 20 (bitMask gone)), ramping := ramp } }
          let f := gone.foldl (fun d k => stacksDown k d) e
          nextRamp (if (List.range 20).any (fun k => on.getLsbD k && !d.power.on.getLsbD k) = true ∧ brgState f 2 = 0 then beginStep 2 f else f)))) ∧
    (∀ v, pf1Up d = false → exec (.pwrCtlOn v) s = .next s) ∧
    (∀ k, isOn d = false ∨ d.power.ramping ≠ some k → exec (.powerDomainGood k) s = .next s) ∧
    (∀ k, isOn d = true → k < 20 → d.power.ramping = some k → exec (.powerDomainGood k) s = .next (s.onDev (fun d =>
      nextRamp { d with power := { d.power with ramping := none, good := d.power.good ||| BitVec.ofNat 20 (2 ^ k) } }))) ∧
    (∀ k, isOn d = true → k < 20 → d.power.good.getLsbD k = true →
      let cut := fun (d : Dev) => ({ d with power := { d.power with
        fault := d.power.fault ||| BitVec.ofNat 20 (2 ^ k), good := d.power.good &&& ~~~(BitVec.ofNat 20 (2 ^ k)) } } : Dev)
      (d.brg.ready = false → exec (.powerDomainFault k) s = .next (s.onDev (fun d => stacksDown k (cut d)))) ∧
      (d.brg.ready = false → brgPassed d 6 = false ∨ domainStacks k = [] → stacksDown k (cut d) = cut d) ∧
      (d.brg.ready = true → firmwareRuns d = true → ∃ d' e, exec (.powerDomainFault k) s = .next { s with dev := d' } ∧ d' = cut e ∧
        e = domainLost k (logRec (if k < 6 then { sev := 3, cls := 0x0F0B, code := BitVec.ofNat 32 k, unitKind := 11, logical := BitVec.ofNat 32 k, physical := BitVec.ofNat 32 k }
          else if k ≤ 11 then { sev := 4, cls := 0x0F0B, code := BitVec.ofNat 32 k, unitKind := 8, logical := BitVec.ofNat 32 (k - 6), physical := BitVec.ofNat 32 (k - 6) }
          else { sev := if k ≤ 13 then 3 else 4, cls := 0x0F0B, code := BitVec.ofNat 32 k }) d))) ∧
    (∀ k, isOn d = false ∨ 20 ≤ k ∨ d.power.good.getLsbD k = false → exec (.powerDomainFault k) s = .next s) ∧
    (∀ (mask : BitVec 32) n, isOn d = false ∨ brgState d n ≠ 1 → exec (.bringupStepTimeout n mask) s = .next s) ∧
    (∀ mask : BitVec 32, isOn d = true →
      (brgState d 2 = 1 → exec (.bringupStepTimeout 2 mask) s = .next (s.onDev (fun d => failStep 2 2 mask.toNat 5
        { d with power := { d.power with fault := d.power.fault ||| mask.truncate 20, ramping := none } }))) ∧
      (∀ n ms, (n, ms) ∈ [(3, 10), (5, 200), (6, 1500), (7, 2000), (8, 500), (11, 1000)] → brgState d n = 1 →
        exec (.bringupStepTimeout n mask) s = .next (s.onDev (failStep n 1 mask.toNat ms))) ∧
      (brgState d 4 = 1 → exec (.bringupStepTimeout 4 mask) s = .next (s.onDev (fun d => failStep 4 1 mask.toNat 3000 { d with brg := { d.brg with
        bstState := (tested.filter (fun k => mask.getLsbD k)).foldl (fun l k => l.set k 3) d.brg.bstState } }))) ∧
      (brgState d 9 = 1 → exec (.bringupStepTimeout 9 mask) s = .next (s.onDev (failStep 9 1 (lateLinks d) 15000))) ∧
      (brgState d 10 = 1 → d.lnk.planState ≠ 3 → d.lnk.planState ≠ 5 → exec (.bringupStepTimeout 10 mask) s = .next s) ∧
      (brgState d 10 = 1 → d.lnk.planState = 3 ∨ d.lnk.planState = 5 →
        exec (.bringupStepTimeout 10 mask) s = .next (s.onDev (failStep 10 0x0B 0 1000))))

/-- 14 R470 and R472, Tables 14-4 and 14-5. Steps 3, 5, 6 and 8 only begin: what they find comes with the row that ends them (log 37). -/
def Obligations.BringUpStepsStart : Prop :=
  ∀ (s : State), pf1Up s.dev = true → clocksRun s.dev = true →
    let d := s.dev
    let may := fun (n : Nat) => brgPassed d (n - 1) = true ∧ brgState d n = 0
    let bad : Res := .next (s.onDev (fun d => { d with brg := { d.brg with orderErr := true } }))
    (∀ n c, (n, c) ∈ [(3, Instr.brgGoFuseLoad), (5, Instr.brgGoReconcile), (6, Instr.brgGoHbmTraining), (8, Instr.brgGoControlCores)] →
      (may n → exec c s = .next (s.onDev (beginStep n))) ∧ (¬ may n → exec c s = bad)) ∧
    (may 4 → exec .brgGoBist s = .next (s.onDev (fun d =>
      let d1 := beginStep 4 d
      { d1 with brg := { d1.brg with bstState := tested.foldl (fun l k => l.set k 1) d1.brg.bstState } }))) ∧
    (¬ may 4 → exec .brgGoBist s = bad) ∧
    (may 7 ∨ (brgPassed d 6 = true ∧ brgState d 7 = 4 ∧ d.brg.tries < 3) → exec .brgGoImageVerify s = .next (s.onDev (fun d =>
      let d1 := beginStep 7 d
      { d1 with brg := { d1.brg with tries := d1.brg.tries + 1 } }))) ∧
    (¬ may 7 → ¬(brgPassed d 6 = true ∧ brgState d 7 = 4 ∧ d.brg.tries < 3) → exec .brgGoImageVerify s = bad) ∧
    (may 9 → exec .brgGoLinkTraining s = .next (s.onDev (fun d => startLinks (beginStep 9 d)))) ∧
    (¬ may 9 → exec .brgGoLinkTraining s = bad) ∧
    (may 10 →
      (∀ r, planRefuse d d.lnk.pos d.lnk.wrap d.lnk.dim d.lnk.partId d.tide.master d.tide.backup = r → r ≠ 0 →
        exec .brgGoPlan s = .next (s.onDev (fun d =>
          let d1 := beginStep 10 d
          failStep 10 0x0A r 0 { d1 with lnk := { d1.lnk with refuse := r, planState := 6 } }))) ∧
      (planRefuse d d.lnk.pos d.lnk.wrap d.lnk.dim d.lnk.partId d.tide.master d.tide.backup = 0 →
        exec .brgGoPlan s = .next (s.onDev (fun d =>
          let d1 := beginStep 10 d
          noteEvent 1 (planEvent d1) (adoptPlan d1)))) ∧
      exec .brgGoSpare s = .next (s.onDev (fun d =>
        let d1 := beginStep 10 d
        passStep 10 0 { d1 with brg := { d1.brg with sparePath := true } }))) ∧
    (¬ may 10 → exec .brgGoPlan s = bad ∧ exec .brgGoSpare s = bad)

/-- 14 Table 14-4, R471, R474 and R476, the image checks of 16 R525 and the lost stack of 10 R335. The findings are the report's (log 37). -/
def Obligations.BringUpStepsEnd : Prop :=
  ∀ (s : State) (rep : StepReport), clocksRun s.dev = true →
    let d := s.dev
    let t := rep.elapsed
    let on := fun (n : Nat) => brgState d n = 1
    (on 2 → d.power.good = 0xFFFFF#20 → exec (.bringupStepDone 2 rep) s = .next (s.onDev (passStep 2 t))) ∧
    (on 3 → (∀ w, rep.fuseBad = some w → exec (.bringupStepDone 3 rep) s = .next (s.onDev (fun d =>
        failStep 3 3 w t { d with brg := { d.brg with fusFailed := true } }))) ∧
      (rep.fuseBad = none → exec (.bringupStepDone 3 rep) s = .next (s.onDev (fun d =>
        let ids := BitVec.ofNat 32 (s.fuses.subId.toNat * 65536 + s.fuses.subVendor.toNat)
        let b := { d.brg with fusLoaded := true, fusCorrected := rep.fuseCorrected }
        passStep 3 t { d with serial := s.fuses.serial, fuseIds := ids, brg := b })))) ∧
    (on 4 → ∃ d' : Dev, exec (.bringupStepDone 4 rep) s = .next (s.onDev (fun _ => passStep 4 t d')) ∧
      d'.brg.bstCore = rep.coreFail ∧ d'.brg.bstCc = rep.ccFail ∧ d'.brg.bstRu = rep.ruFail ∧ d'.brg.bstBank = rep.bankFail ∧
      (∀ k, k ∈ tested → d'.brg.bstState[k]? = some 2) ∧ d' = { d with brg := d'.brg }) ∧
    (on 5 → ∀ k, tested.find? (fun k => !((d.brg.bstLogicOk[k]?).getD false && (d.brg.bstMemOk[k]?).getD false)) = some k →
      exec (.bringupStepDone 5 rep) s = .next (s.onDev (failStep 5 4 k t))) ∧
    (on 5 → tested.find? (fun k => !((d.brg.bstLogicOk[k]?).getD false && (d.brg.bstMemOk[k]?).getD false)) = none → rep.logBad = true →
      exec (.bringupStepDone 5 rep) s = .next (s.onDev (failStep 5 6 0 t))) ∧
    (on 5 → tested.find? (fun k => !((d.brg.bstLogicOk[k]?).getD false && (d.brg.bstMemOk[k]?).getD false)) = none → rep.logBad = false →
      d.brg.steps.length = 11 →
      ∃ d', exec (.bringupStepDone 5 rep) s = .next { s with dev := d' } ∧ d'.tensors = d.tensors ∧ brgState d' 5 ∈ [2, 3, 4] ∧
        (d.flash.log = [] → s.fuses.ccBad = 0 → d.brg.bstCc = [] → brgState d' 5 ∈ [2, 3] ∧
          d'.units.ccIn = List.range 12 ∧ d'.units.ccHolms = [12, 13, 14, 15])) ∧
    (on 6 →
      let down := ((List.range 20).filter (fun k => !pdGood d k)).flatMap domainStacks
      let bad := sortByKey id (((rep.stacksBad ++ down).filter (fun k => decide (k < 24))).eraseDups)
      (bad = [] → exec (.bringupStepDone 6 rep) s = .next (s.onDev (passStep 6 t))) ∧
      (∀ k, bad = [k] → exec (.bringupStepDone 6 rep) s = .next (s.onDev (fun d =>
        let r : RasRec := { sev := 3, cls := 0x305, unitKind := 7, logical := BitVec.ofNat 32 k, physical := BitVec.ofNat 32 k }
        degradeStep 6 0x21 t (brgRec r (onStack k (fun x => { x with lost := true, state := 3 }) d))))) ∧
      (2 ≤ bad.length → exec (.bringupStepDone 6 rep) s = .next (s.onDev (failStep 6 7 (bitMask bad) t)))) ∧
    (on 7 → imageReason s.fuses d = 0 → exec (.bringupStepDone 7 rep) s = .next (s.onDev (fun d => passStep 7 t (acceptImage s.fuses d)))) ∧
    (on 7 → ∀ r, imageReason s.fuses d = r → r ≠ 0 → exec (.bringupStepDone 7 rep) s = .next (s.onDev (fun d =>
      failStep 7 8 r t { d with sec := { d.sec with imageReason := r } }))) ∧
    (on 8 → ∀ run, (d.units.ccIn ++ d.units.ccHolms).filter (fun p => !rep.ccLoadFail.contains p) = run → run.length < 8 →
      exec (.bringupStepDone 8 rep) s = .next (s.onDev (failStep 8 9 run.length t))) ∧
    (on 8 → rep.ccLoadFail = [] → rep.coreLoadFail = [] → 8 ≤ (d.units.ccIn ++ d.units.ccHolms).length →
      exec (.bringupStepDone 8 rep) s = .next (s.onDev (fun d =>
        let all := d.units.ccIn ++ d.units.ccHolms
        let d1 : Dev := { d with units := { d.units with ccIn := all.take 12, ccHolms := all.drop 12 }, brg := { d.brg with waitRecs := [] } }
        passStep 8 t (startSecurity s.fuses (d.brg.waitRecs.foldl (fun d r => logRec r d) d1))))) ∧
    (on 8 → 8 ≤ ((d.units.ccIn ++ d.units.ccHolms).filter (fun p => !rep.ccLoadFail.contains p)).length → d.brg.steps.length = 11 →
      ∃ d', exec (.bringupStepDone 8 rep) s = .next { s with dev := d' } ∧ brgState d' 8 ∈ [2, 3]) ∧
    (on 9 → (∃ st ln, st < 6 ∧ ln < 4 ∧ (linkOf d st ln).state ∉ [6, 7, 8, 10]) → exec (.bringupStepDone 9 rep) s = .next s) ∧
    (on 2 → d.power.good ≠ 0xFFFFF#20 → exec (.bringupStepDone 2 rep) s = .next s) ∧
    (on 10 → (d.tide.locked = false ∧ (d.tide.run = false ∨ d.tide.roleNow ≠ 1)) ∨ (d.lnk.planState ≠ 3 ∧ d.lnk.planState ≠ 5) →
      exec (.bringupStepDone 10 rep) s = .next s) ∧
    (∀ n, ¬ on n → exec (.bringupStepDone n rep) s = .next s) ∧
    (on 9 → (∀ st ln, st < 6 → ln < 4 → (linkOf d st ln).state ∈ [6, 7, 8, 10]) →
      exec (.bringupStepDone 9 rep) s = .next (s.onDev (passStep 9 t))) ∧
    (on 10 → d.tide.locked = true ∨ (d.tide.run = true ∧ d.tide.roleNow = 1) →
      (d.lnk.planState = 3 → exec (.bringupStepDone 10 rep) s = .next (s.onDev (passStep 10 t))) ∧
      (d.lnk.planState = 5 → exec (.bringupStepDone 10 rep) s = .next (s.onDev (degradeStep 10 0x23 t)))) ∧
    (on 11 → exec (.bringupStepDone 11 rep) s = .next (s.onDev (fun d =>
      let o := BitVec.ofNat 32 (d.sec.major.toNat * 65536 + d.sec.minor.toNat)
      passStep 11 t { d with ophal := o, brg := { d.brg with ready := true, firstReady := true } })))

/-- 11 R377, R381, R383, R385 and R386. -/
def Obligations.PlanLoadAndDiscovery : Prop :=
  ∀ (s : State), pf1Open s.dev = true → clocksRun s.dev = true →
    let d := s.dev
    let r := planRefuse d d.lnk.pos d.lnk.wrap d.lnk.dim d.lnk.partId d.tide.master d.tide.backup
    (brgState d 10 = 4 ∨ (brgState d 10 ≠ 0 ∧ d.brg.sparePath = true ∧ d.lnk.planLoaded = false) → exec .lnkPlanLoad s = .next s) ∧
    (brgState d 10 = 0 → exec .lnkPlanLoad s = exec .brgGoPlan s) ∧
    (brgState d 10 ≠ 0 → brgState d 10 ≠ 4 → d.brg.sparePath = false ∨ d.lnk.planLoaded = true →
      (r = 0 → exec .lnkPlanLoad s = .next (s.onDev (fun d => noteEvent 1 (planEvent d) (adoptPlan d)))) ∧
      (r ≠ 0 → exec .lnkPlanLoad s = .next (s.onDev (fun d => { d with lnk := { d.lnk with refuse := r, planState := 6 } })))) ∧
    (firmwareRuns d = false ∨ d.lnk.planLoaded = false ∨ (d.lnk.planState ≠ 1 ∧ d.lnk.planState ≠ 2) → exec .discoveryDeadline s = .next s) ∧
    (firmwareRuns d = true → d.lnk.planLoaded = true → d.lnk.planState = 1 ∨ d.lnk.planState = 2 → (judgeStraits d).lnk.planState = 4 →
      exec .discoveryDeadline s = .next (s.onDev (fun d =>
        let e := logUnit 15 0x408 12 (posWord d.lnk.pos) d.serial.toNat (judgeStraits d)
        if brgState e 10 = 1 then setStep 10 { state := 5 } e else e))) ∧
    (firmwareRuns d = false ∨ d.lnk.planState ≠ 4 → exec .acceptDegraded s = .next s) ∧
    (firmwareRuns d = true → d.lnk.planLoaded = true → d.lnk.planState = 1 ∨ d.lnk.planState = 2 → (judgeStraits d).lnk.planState ≠ 4 →
      exec .discoveryDeadline s = .next (s.onDev judgeStraits)) ∧
    (firmwareRuns d = true → d.lnk.planState = 4 → d.lnk.straits.length = 6 → ∃ d', exec .acceptDegraded s = .next { s with dev := d' } ∧
      d'.lnk.planState = 5 ∧ d'.tide.treeStale = true ∧ d'.lnk.run = d.lnk.run ∧ d'.chans = d.chans ∧ d'.tensors = d.tensors ∧
      (∀ st, st < 6 → d.lnk.missing.getLsbD st = true ∨ d.lnk.wrong.getLsbD st = true → (straitOf d' st).accepted = true)) ∧
    (∀ v : BitVec 32, d.lnk.links.length = 24 →
      let d0 : Dev := if v.getLsbD 31 then { d with lnk := { d.lnk with writeRejected := false } } else d
      let same := v.getLsbD 1 = d.lnk.strictSerial
      let kept := fun (c : Instr) => (same → exec c s = .next { s with dev := d0 }) ∧
        (¬ same → exec c s = .next { s with dev := logInfo 0x0001 0x20000 { d0 with lnk := { d0.lnk with writeRejected := true } } })
      (v.getLsbD 0 = true → d.lnk.run = false → ∃ d', exec (.lnkCtlRunStart v) s = .next { s with dev := d' } ∧
        d' = { d0 with lnk := { d0.lnk with run := true, strictSerial := v.getLsbD 1, links := d'.lnk.links } } ∧
        (∀ st ln, st < 6 → ln < 4 → linkOf d' st ln =
          if (linkOf d st ln).state = 0 then { linkOf d st ln with state := 1 } else linkOf d st ln)) ∧
      (v.getLsbD 0 = true → d.lnk.run = true → kept (.lnkCtlRunStart v)) ∧
      (v.getLsbD 0 = false → d.lnk.run = true → d.tide.run = true → kept (.lnkCtlRunStop v)) ∧
      (v.getLsbD 0 = false → d.lnk.run = false → exec (.lnkCtlRunStop v) s = .next { s with dev :=
        { d0 with lnk := { d0.lnk with strictSerial := v.getLsbD 1 } } }) ∧
      (v.getLsbD 0 = false → d.lnk.run = true → d.tide.run = false → ∃ d', exec (.lnkCtlRunStop v) s = .next { s with dev := d' } ∧
        d'.lnk.run = false ∧ d'.lnk.planState = 0 ∧ d'.lnk.planLoaded = d.lnk.planLoaded ∧ d'.lnk.strictSerial = d.lnk.strictSerial ∧
        d'.tensors = d.tensors ∧ (∀ st ln, st < 6 → ln < 4 → (linkOf d' st ln).state = 0 ∧ (linkOf d' st ln).cause = 0))) ∧
    (∀ st ln, 6 ≤ st ∨ 4 ≤ ln ∨ (linkOf d st ln).state ≠ 10 → exec (.lnkLinkRetry st ln) s = .next s) ∧
    (∀ st ln, st < 6 → ln < 4 → (linkOf d st ln).state = 10 → exec (.lnkLinkRetry st ln) s = .next (s.onDev (setLink st ln
      { freshLink (linkOf d st ln) with state := if d.lnk.run then 1 else 0, cause := 0 })))

/-- 00 R8's kinds RO, RW, RC, RWS and W1C on a register of each block, and the rows of their own (02 R64, R68; 13 R464, R465; 14 R473; 15 R508, R517). -/
def Obligations.RegisterRowsActUnderTheirKinds : Prop :=
  ∀ (s : State), let d := s.dev
    (∀ off bs, pf1Open d = true → d.brg.fwlLocked = false → off % 4 = 0 → bs.length % 4 = 0 → off + bs.length ≤ 16777216 →
      exec (.fwlWrite off bs) s = .next (s.onDev (fun d => { d with brg := { d.brg with fwl := memWrite d.brg.fwl off bs } }))) ∧
    (∀ off bs, pf1Open d = false ∨ d.brg.fwlLocked = true ∨ off % 4 ≠ 0 ∨ bs.length % 4 ≠ 0 ∨ 16777216 < off + bs.length →
      exec (.fwlWrite off bs) s = .next s) ∧
    (pf1Open d = false → exec (.rasPop 1) s = .next s ∧ exec (.stormClear 1) s = .next s ∧ exec .rstClear s = .next s) ∧
    (pf0Up d = false ∨ d.frz.frozen = true → exec (.rasPop 0) s = .next s ∧ exec (.stormClear 0) s = .next s) ∧
    (pf1Open d = true → d.rst.complete = false ∨ d.rst.inProgress = true → exec .rstClear s = .next s) ∧
    (∀ v, (pf0Up d = true → d.frz.frozen = false → v < 2048 → exec (.msixUnmask 0 v) s = .next (s.onDev (fun d =>
        firePending0 { d with pf0 := setEntry v { msixEntry d.pf0 v with mask := false } d.pf0 }))) ∧
      (pf1Open d = true → v < 64 → exec (.msixUnmask 1 v) s = .next (s.onDev (fun d =>
        firePending1 { d with pf1 := setEntry v { msixEntry d.pf1 v with mask := false } d.pf1 }))) ∧
      (2048 ≤ v → ∀ pf, exec (.msixUnmask pf v) s = .next s)) ∧
    (pf0Up d = true → d.frz.frozen = false → exec (.stormClear 0) s = .next (s.onDev (fun d =>
      { d with ras := { d.ras with pf0 := if d.ras.pf0.recs.length ≤ 128 then { d.ras.pf0 with storm := false } else d.ras.pf0 } }))) ∧
    (pf0Up d = false → exec .tidCountLoRead s = .next (s.onDev (fun d => { d with out := { d.out with cpl := 0 } }))) ∧
    (pf1Open d = true → exec (.rasPop 1) s = .next (s.onDev (fun d =>
      { d with ras := { d.ras with pf1 := { d.ras.pf1 with recs := d.ras.pf1.recs.drop 1 } } }))) ∧
    (pf0Up d = true → d.frz.frozen = false → exec (.rasPop 0) s = .next (s.onDev (fun d =>
      { d with ras := { d.ras with pf0 := { d.ras.pf0 with recs := d.ras.pf0.recs.drop 1 } } }))) ∧
    (pf1Open d = true → d.ras.pf1.recs.length ≤ 128 → exec (.stormClear 1) s = .next (s.onDev (fun d =>
      { d with ras := { d.ras with pf1 := { d.ras.pf1 with storm := false } } }))) ∧
    (pf1Open d = true → 128 < d.ras.pf1.recs.length → exec (.stormClear 1) s = .next s) ∧
    (pf1Open d = true → d.rst.complete = true → d.rst.inProgress = false →
      exec .rstClear s = .next (s.onDev (fun d => { d with rst := { d.rst with entries := [] } }))) ∧
    (∀ v, v < 2048 → pf0Up d = true → d.frz.frozen = false → d.pf0.fnMask = false → pf0Requests d = true → d.pf0.pba = [v] →
      ∃ d', exec (.msixUnmask 0 v) s = .next { s with dev := d' } ∧ (msixEntry d'.pf0 v).mask = false ∧ d'.pf0.pba = [] ∧
        d' = { d with pf0 := { d.pf0 with table := d'.pf0.table, pba := [] }, out := { d.out with msgs := d.out.msgs ++ [(0, v)] } }) ∧
    (pf0Up d = true → exec .tidCountLoRead s = .next (s.onDev (fun d => { d with
      tide := { d.tide with countHi := BitVec.ofNat 32 (d.tide.count / 2 ^ 32) }
      out := { d.out with rd := BitVec.ofNat 64 (d.tide.count % 2 ^ 32), cpl := 1 } }))) ∧
    (pf1Open d = true →
      exec (.rcRegisterRead 1 0x28028) s = .next (s.onDev (fun d => { d with
        tide := { d.tide with throttles := 0, overruns := 0 }
        out := { d.out with rd := BitVec.ofNat 64 (d.tide.overruns + d.tide.throttles * 2 ^ 16), cpl := 1 } })) ∧
      exec (.rcRegisterRead 1 0x18004) s = .next (s.onDev (fun d => { d with
        ras := { d.ras with pf1 := { d.ras.pf1 with lost := 0 } }
        out := { d.out with rd := BitVec.ofNat 64 d.ras.pf1.lost, cpl := 1 } })) ∧
      (∀ off, exec (.rcRegisterRead 1 off) s = .next (s.onDev (fun d =>
        clearPf1 (off / 4 * 4) (answered (readPf1 s.fuses d (off / 4 * 4)) d)))) ∧
      (∀ st ln, st < 6 → ln < 4 → ∃ d', exec (.rcRegisterRead 1 (0x21000 + st * 0x800 + ln * 0x200 + 0x08)) s = .next { s with dev := d' } ∧
        d'.out.rd = BitVec.ofNat 64 (min (linkOf d st ln).delay 0xFFF)) ∧
      (∀ st ln, st < 6 → ln < 4 →
        exec (.rcRegisterRead 1 (0x21000 + st * 0x800 + ln * 0x200 + 0x30)) s = .next (s.onDev (fun d =>
          setLink st ln { linkOf d st ln with crcErr := 0 } { d with out := { d.out with
            rd := BitVec.ofNat 64 (linkOf d st ln).crcErr, cpl := 1 } })))) ∧
    (∀ v : BitVec 32,
      (pf0Up d = true → d.frz.frozen = false → ∀ m, m < 64 → exec (.registerWrite 0 (0x10008 + 32 * m) (toLe 4 v.toNat)) s =
        .next (s.onDev (fun d => setMbx m { mbx d m with enable := v.getLsbD 15, vector := v.extractLsb' 0 11 } d))) ∧
      (pf0Up d = true → d.frz.frozen = false → ∀ m off bs, m < 64 → off + bs.length ≤ 16384 → bs ≠ [] →
        ∃ d', exec (.registerWrite 0 (0x20000 + 16384 * m + off) bs) s = .next { s with dev := d' } ∧
          (mbx d' m).req = memWrite (mbx d m).req off bs ∧ d' = { d with mbx := d'.mbx }) ∧
      (pf1Open d = true → exec (.registerWrite 1 0x1800C (toLe 4 v.toNat)) s = .next (s.onDev (fun d =>
        { d with ras := { d.ras with pf1 := { d.ras.pf1 with
          enable := v.getLsbD 15, minSev := v.toNat / 2 ^ 11 % 16, vector := v.extractLsb' 0 11 } } }))) ∧
      (pf1Open d = true → d.lnk.pos ≠ posOfReg v →
        (d.lnk.run = false → exec (.registerWrite 1 0x20004 (toLe 4 v.toNat)) s = .next (s.onDev (fun d =>
          { d with lnk := { d.lnk with pos := posOfReg v } }))) ∧
        (d.lnk.run = true → exec (.registerWrite 1 0x20004 (toLe 4 v.toNat)) s = .next (s.onDev (fun d =>
          logInfo 0x0001 0x20004 { d with lnk := { d.lnk with writeRejected := true } })))))

/-- 15 R498 to R504, 03 R111. The completion codes 0 to 3 (none, success, Unsupported Request, poisoned) are the model's own observation (log 8). -/
def Obligations.ConfigurationAndBar2Requests : Prop :=
  ∀ (s : State), let d := s.dev
    let cpl := fun n => s.onDev (fun d => { d with out := { d.out with cpl := n } })
    (∀ fn w off v, isOn d = true → d.rst.hostDown = false → 2 ≤ fn → exec (.configRequest fn w off v) s = .next (cpl 2)) ∧
    (∀ fn w off v, isOn d = false ∨ d.rst.hostDown = true ∨ (fn < 2 ∧ cfgUp fn d = false) →
      exec (.configRequest fn w off v) s = .next (cpl 0)) ∧
    (∀ fn off v, fn < 2 → cfgUp fn d = true →
      exec (.configRequest fn false off v) s = .next (s.onDev (fun d => { d with out := { d.out with rd := BitVec.ofNat 64 (cfgRead d fn (off / 4 * 4 % 4096)), cpl := 1 } })) ∧
      exec (.configRequest fn true off v) s = .next (s.onDev (fun d0 =>
        let d := cfgWrite fn (off / 4 * 4 % 4096) v d0
        { d with out := { d.out with cpl := 1 } }))) ∧
    (∀ fn id, (fn, id) ∈ [(0, 0x00181F8B), (1, 0x00191F8B)] → cfgUp fn d = true →
      exec (.configRequest fn false 0 0) s = .next (s.onDev (fun d => { d with out := { d.out with rd := id, cpl := 1 } }))) ∧
    (∀ v : BitVec 32, cfgUp 1 d = true → v.extractLsb' 0 2 = 3#2 → exec (.configRequest 1 true 0x44 v) s =
      .next (s.onDev (fun d => { d with pf1 := { d.pf1 with d3 := true }, out := { d.out with cpl := 1 } }))) ∧
    (∀ off len, bar2Up d = false → exec (.bar2Read off len) s = .next (cpl (if isOn d = true ∧ d.rst.hostDown = false then 2 else 0))) ∧
    (∀ off bs, bar2Up d = false → exec (.bar2Write off bs) s = .next s) ∧
    (∀ off len m t, bar2Up d = true → mappingAt d off = some m → aGet d.tensors m.tensor = some t →
      (m.off + m.len < off + len → exec (.bar2Read off len) s = .next (s.onDev bar2Refused)) ∧
      (off + len ≤ m.off + m.len →
        let n := min len (tBytes t - (m.tOff + (off - m.off)))
        let r := readPoisoned m.tensor (m.tOff + (off - m.off)) n d
        exec (.bar2Read off len) s = .next { s with dev := { r.1 with out := { r.1.out with
          rdBytes := r.2.1 ++ zeros (len - n), cpl := if r.2.2 then 3 else 1 } } })) ∧
    (∀ off len bs, bar2Up d = true → (∀ m ∈ d.maps, off < m.off ∨ m.off + m.len ≤ off) →
      exec (.bar2Read off len) s = .next (s.onDev (fun d =>
        { d with pf0 := { d.pf0 with aerUr := true }, out := { d.out with cpl := 2 } })) ∧
      exec (.bar2Write off bs) s = .next (s.onDev (fun d => { d with pf0 := { d.pf0 with aerUr := true, aerAdvisory := true } }))) ∧
    (∀ off bs m t, bar2Up d = true → mappingAt d off = some m → aGet d.tensors m.tensor = some t →
      let o := m.tOff + (off - m.off)
      (m.off + m.len < off + bs.length → exec (.bar2Write off bs) s = .next (s.onDev (fun d =>
        { d with pf0 := { d.pf0 with aerUr := true, aerAdvisory := true } }))) ∧
      (off + bs.length ≤ m.off + m.len →
        (tBytes t ≤ o → exec (.bar2Write off bs) s = .next s) ∧
        (o < tBytes t → tSecured t = true → exec (.bar2Write off bs) s = .next (s.onDev (fun d =>
          { d with pf0 := { d.pf0 with aerUr := true, aerAdvisory := true } }))) ∧
        (o < tBytes t → tSecured t = false →
          let w := writeTensor m.tensor o (bs.take (tBytes t - o)) d
          (w.2 = true → exec (.bar2Write off bs) s = .next { s with dev := w.1 }) ∧
          let note := logRec { sev := 15, cls := 0x0805, object := tensorHandle d m.tensor } w.1
          (w.2 = false → exec (.bar2Write off bs) s = .next { s with dev := note })))) ∧
    (∀ addr what, firmwareRuns d = false ∨ pf0Requests d = false → exec (.hostReadError addr what) s = .next s) ∧
    (firmwareRuns d = true → pf0Requests d = true →
      (∀ addr slot, slot < 4096 →
        ((aGet d.chans slot).isSome = false ∨ d.ras.hostErr.contains slot = true → exec (.hostReadError addr (.descriptor slot)) s = .next s) ∧
        ((aGet d.chans slot).isSome = true → d.ras.hostErr.contains slot = false → exec (.hostReadError addr (.descriptor slot)) s = .next (s.onDev (fun d =>
          logRec { sev := 15, cls := 0x0803, unitKind := 13, logical := BitVec.ofNat 32 slot, detail := addr.zeroExtend 128 }
            { d with ras := { d.ras with hostErr := d.ras.hostErr ++ [slot] } })))) ∧
      (∀ addr slot q, (findItem d slot q).any (fun it => itemWorks d it 3 1) = false →
        exec (.hostReadError addr (.transfer slot q)) s = .next s) ∧
      (∀ addr slot q it, findItem d slot q = some it → itemWorks d it 3 1 = true →
        exec (.hostReadError addr (.transfer slot q)) s = .next (s.onDev (fun d =>
          hostError slot addr (finishItem it.order 0x12 (hIdx it.object) d)))) ∧
      (∀ addr m off, let op := fieldLe (memRead (mbx d m).cmd 0 2) 0 2
        (m < 64 → (mbx d m).state = 1 → op = 0x0301 ∨ op = 0x0401 →
          exec (.hostReadError addr (.request m off)) s = .next (s.onDev (fun d => hostError (4096 + m) addr (refuse m rBadAddress off d)))) ∧
        (64 ≤ m ∨ (mbx d m).state ≠ 1 ∨ (op ≠ 0x0301 ∧ op ≠ 0x0401) → exec (.hostReadError addr (.request m off)) s = .next s)))

/-- 15 R505 to R520 and 14 R470. What the pending reset of PF0 frees is stated in ResetFreesTheHostsObjects. -/
def Obligations.FunctionsStopAndReset : Prop :=
  ∀ (s : State), let d := s.dev
    (∀ v, cfgUp 0 d = false → exec (.busMasterEnableChange v) s = .next s) ∧
    (cfgUp 0 d = true → exec (.busMasterEnableChange false) s = .next (s.onDev (fun d =>
      let d1 : Dev := { d with pf0 := { d.pf0 with busMaster := false } }
      if d.pf1.busMaster && !d.pf1.d3 && !d.rst.hostDown then d.pf1.held.foldl (fun d v => fire1 v d) { d1 with pf1 := { d.pf1 with held := [] } } else d1))) ∧
    (cfgUp 0 d = true → d.pf0.d3 = false → d.pf1.held = [] → d.pf0.fnMask = false → (∀ v ∈ d.pf0.held, (msixEntry d.pf0 v).mask = false) →
      exec (.busMasterEnableChange true) s = .next (s.onDev (fun d => { d with
        pf0 := { d.pf0 with busMaster := true, held := [] }, out := { d.out with msgs := d.out.msgs ++ d.pf0.held.map (fun v => (0, v)) } }))) ∧
    (∀ fn, cfgUp fn d = false ∨ 2 ≤ fn → exec (.d3hotEntry fn) s = .next s ∧ exec (.d0Entry fn) s = .next s) ∧
    (cfgUp 0 d = true → exec (.d3hotEntry 0) s = .next (s.onDev (fun d => { d with pf0 := { d.pf0 with d3 := true } }))) ∧
    (cfgUp 1 d = true → exec (.d3hotEntry 1) s = .next (s.onDev (fun d => { d with pf1 := { d.pf1 with d3 := true } }))) ∧
    (∀ fn, (fnOf d fn).d3 = false → exec (.d0Entry fn) s = .next s) ∧
    (cfgUp 0 d = true → d.pf0.d3 = true → d.pf0.held = [] → d.pf1.held = [] →
      exec (.d0Entry 0) s = .next (s.onDev (fun d => { d with pf0 := { d.pf0 with d3 := false }, out := if d.pf0.busMaster then { d.out with ltr := d.out.ltr + 1 } else d.out }))) ∧
    (cfgUp 1 d = true → d.pf1.d3 = true → d.pf0.held = [] → d.pf1.held = [] →
      exec (.d0Entry 1) s = .next (s.onDev (fun d => { d with pf1 := { d.pf1 with d3 := false } }))) ∧
    (cfgUp 0 d = true → d.rst.pending = false →
      exec .flrPf0 s = .next (s.onDev (fun d => { d with rst := { d.rst with
        pending := true, applied := false, inProgress := true, complete := false, flrs := satInc 0xFFFF d.rst.flrs
        skipSlack := d.tide.run && d.tide.phase != .work } }))) ∧
    (cfgUp 0 d = false → exec .flrPf0 s = .next s) ∧ (cfgUp 1 d = false → exec .flrPf1 s = .next s) ∧
    (cfgUp 1 d = true →
      let plain := fun (d : Dev) => ({ d with
        pf1 := {}, rst := { d.rst with enable := false, vector := 0 }, frz := { d.frz with sel := 0, off := 0 }
        ras := { d.ras with pf1 := { d.ras.pf1 with enable := false, minSev := 1, vector := 0 } }
        mem := { d.mem with flipArm := false } } : Dev)
      (brgPassed d 8 = false → exec .flrPf1 s = .next (s.onDev plain)) ∧
      (firmwareRuns d = true → exec .flrPf1 s = .next (s.onDev (fun d => logRec { sev := 15, cls := 0x0802 } (plain d))))) ∧
    (isOn d = true → d.rst.hostDown = false → ∃ d', exec .hostLinkDown s = .next { s with dev := d' } ∧
      d'.rst.hostDown = true ∧ d'.rst.pending = true ∧ d'.rst.pf1Pending = true ∧ d'.chans = d.chans ∧ d'.tensors = d.tensors ∧
      pf0Up d' = false ∧ pf1Up d' = false) ∧
    (isOn d = false ∨ d.rst.hostDown = true → exec .hostLinkDown s = .next s) ∧
    (isOn d = true → d.rst.hostDown = true → d.pf0.held = [] → d.pf1.held = [] →
      exec .hostLinkUp s = .next (s.onDev (fun d => { d with rst := { d.rst with hostDown := false } }))) ∧
    (isOn d = false ∨ d.rst.hostDown = false → exec .hostLinkUp s = .next s) ∧
    (d.tel.perst = false → ∃ d', exec .perstAssert s = .next { s with dev := d' } ∧ d'.tel.perst = true ∧ d'.flash = d.flash ∧
      d'.host = d.host ∧ d'.chans = [] ∧ d'.tensors = [] ∧ d'.items = [] ∧ d'.tide.run = false ∧ d'.lnk.run = false ∧
      d'.tel.powered = d.tel.powered ∧ clocksRun d' = false ∧ (∀ n, 2 ≤ n → brgState d' n = 0)) ∧
    (d.tel.perst = true → exec .perstAssert s = .next s) ∧
    (∀ id sel, d.tel.perst = true → d.tel.powered = true → exec (.perstDeassert id sel) s = .next (s.onDev (fun d =>
      { d with tel := { d.tel with perst := false, feedId := id, addrSel := sel } }))) ∧
    (∀ id sel, d.tel.perst = false ∨ d.tel.powered = false → exec (.perstDeassert id sel) s = .next s)

/-- 15 R511 to R515 and Table 15-7. -/
def Obligations.ResetFreesTheHostsObjects : Prop :=
  ∀ (s : State), clocksRun s.dev = true → s.dev.rst.pending = true → s.dev.rst.applied = false →
    s.dev.tide.run = false ∨ (s.dev.tide.phase = .slack ∧ s.dev.rst.skipSlack = false) →
    ∃ d', exec .flrPf0Apply s = .next { s with dev := d' } ∧
      d'.chans = [] ∧ d'.maps = [] ∧ d'.pf0 = {} ∧ d'.rst.inProgress = false ∧
      (∀ i t, aGet d'.tensors i = some t → t.retain = true ∨ tSecured t = true) ∧
      (s.dev.items = [] →
        (∀ i t, aGet s.dev.tensors i = some t → t.retain = true ∨ tSecured t = true → aGet d'.tensors i = some t) ∧
        (∀ m, (mbx d' m).state = 0 ∧ (mbx d' m).rsp = []) ∧ d'.host = s.dev.host ∧ d'.tide.count = s.dev.tide.count ∧
        d'.programs = s.dev.programs ∧ d'.groups = s.dev.groups ∧ s.dev.rst.entries <+: d'.rst.entries ∧
        (∀ slot c, aGet s.dev.chans slot = some c → channelSummary slot c (s.dev.rst.flrs % 256) 0 ∈ d'.rst.entries))

/-- 14 R491 to R495, Tables 14-14 to 14-16. Frozen contents are constants of Config (log 36). -/
def Obligations.FreezeAndReadout : Prop :=
  ∀ (s : State), let d := s.dev
    let stops := fun (src : Nat) (late part : Bool) (d : Dev) =>
      let z : Freeze := { d.frz with
        frozen := true, source := src, late := late, tide := BitVec.ofNat 64 (tideNow d), due := none, partition := part, holdEdge := false }
      { d with frz := z, free := d.free + 1 }
    let controls := fun (v : BitVec 32) (d : Dev) =>
      let e := if v.getLsbD 4 = d.frz.jtagEn then d else noteEvent 5 (toLe 1 (b2n (v.getLsbD 4))) d
      { e with frz := { e.frz with jtagEn := v.getLsbD 4, pinEnable := v.getLsbD 3, pinPropagate := v.getLsbD 2, propagate := v.getLsbD 1 } }
    (∀ v : BitVec 32, pf1Up d = true → v.getLsbD 0 = true → d.frz.frozen = false →
      (v.getLsbD 1 = false ∨ d.tide.run = false → exec (.frzFreezeWrite v) s = .next { s with dev := stops 2 false false (controls v d) }) ∧
      (v.getLsbD 1 = true → d.tide.run = true → ∃ d', exec (.frzFreezeWrite v) s = .next { s with dev := d' } ∧
        d'.frz = { (controls v d).frz with due := some (d.tide.count + 2), dueSource := 2, partition := true } ∧ clocksRun d' = clocksRun d)) ∧
    (∀ v : BitVec 32, pf1Up d = true → v.getLsbD 8 = true →
      (d.frz.frozen = true → ∃ d', exec (.frzRelease v) s = .next { s with dev := d' } ∧ d'.frz.frozen = false ∧
        d'.frz.jtagEn = v.getLsbD 4 ∧
        d'.frz.holdEdge = !(d.frz.partition && (d.tide.roleNow == 1 || d.tide.roleNow == 3)) ∧ d'.tide = d.tide ∧ d'.cores = d.cores) ∧
      (d.frz.frozen = false → v.getLsbD 0 = false → exec (.frzRelease v) s = .next { s with dev := controls v d })) ∧
    (isOn d = true → d.frz.pinEnable = true → d.frz.frozen = false →
      (d.frz.pinPropagate = false ∨ d.tide.run = false → exec .freezeNFall s = .next { s with dev := stops 1 false false d }) ∧
      (d.frz.pinPropagate = true → d.tide.run = true → ∃ d', exec .freezeNFall s = .next { s with dev := d' } ∧
        d'.frz = (stops 1 false true d).frz ∧ (d.tide.count + 2) ∈ d'.lnk.freezeSeen)) ∧
    (isOn d = false ∨ d.frz.pinEnable = false ∨ d.frz.frozen = true → exec .freezeNFall s = .next s) ∧
    (∀ st ln mk, clocksRun d = true → st < 6 → ln < 4 → (linkOf d st ln).state = 7 → mk.partId = d.lnk.partId →
      (d.lnk.freezeSeen.contains mk.freezeTide = false → ∃ d', exec (.freezeMarker st ln mk) s = .next { s with dev := d' } ∧
        (mk.freezeTide ≤ d.tide.count → d'.frz.frozen = true ∧ d'.frz.late = true ∧ d'.frz.source = 3) ∧
        (d.tide.count < mk.freezeTide → d'.frz = { d.frz with due := some mk.freezeTide, dueSource := 3, partition := true }) ∧
        mk.freezeTide ∈ d'.lnk.freezeSeen) ∧
      (d.lnk.freezeSeen.contains mk.freezeTide = true → exec (.freezeMarker st ln mk) s = .next s)) ∧
    (∀ t, d.frz.due = some t → clocksRun d = true →
      (t ≤ d.tide.count → exec .freezeTideReached s = .next { s with dev := stops d.frz.dueSource false true d }) ∧
      (d.tide.count < t → exec .freezeTideReached s = .next s)) ∧
    (d.tel.powered = true → jtagOpen s.fuses d = true →
      (∀ sel off, exec (.frzAccess sel off) s = .next (s.onDev (fun d =>
        let data := (List.range 32768).map (fun i =>
          let o := off.toNat / 32768 * 32768 + i
          if d.frz.frozen = true ∧ o < Config.frozenLen sel then Config.frozenByte d.free sel o else 0)
        { d with frz := { d.frz with sel := sel, off := off }, out := { d.out with
          ir := 0x10, rdBytes := toLe 4 sel.toNat ++ toLe 4 off.toNat ++ data } }))) ∧
      (isOn d = true → d.frz.frozen = false →
        let d1 := stops 2 false false d
        exec .frzFreeze s = .next { s with dev := { d1 with out := { d1.out with ir := 0x11, rdBytes := [] } } }) ∧
      (isOn d = false ∨ d.frz.frozen = true →
        exec .frzFreeze s = .next (s.onDev (fun d => { d with out := { d.out with ir := 0x11, rdBytes := [] } })))) ∧
    (d.tel.powered = true → jtagOpen s.fuses d = false → ∀ sel off,
      exec (.frzAccess sel off) s = .next (s.onDev (fun d => { d with out := { d.out with ir := 0xFF, rdBytes := [] } })) ∧
      exec .frzFreeze s = .next (s.onDev (fun d => { d with out := { d.out with ir := 0xFF, rdBytes := [] } }))) ∧
    (d.tel.powered = true →
      exec .idcode s = .next (s.onDev (fun d => { d with out := { d.out with ir := 0x01, rdBytes := toLe 4 0xA47182A7 } })) ∧
      exec .sample s = .next (s.onDev (fun d =>
        { d with free := d.free + 1, out := { d.out with ir := 0x02, rdBytes := Config.boundary d.free } })) ∧
      ∀ code, exec (.bypass code) s = .next (s.onDev (fun d => { d with out := { d.out with ir := 0xFF, rdBytes := [] } }))) ∧
    (d.tel.powered = false → ∀ c ∈ [Instr.idcode, .sample, .frzFreeze], exec c s = .next s) ∧
    (d.tel.powered = false → ∀ code sel off, exec (.bypass code) s = .next s ∧ exec (.frzAccess sel off) s = .next s)

/-- 02 R34, R64, R65 and R66 with Tables 2-11, 2-14 and 2-17. ROLE 0b11 as follower, the second GO and the refused replan are the model's (log 49). -/
def Obligations.TideControlAndPlannedChanges : Prop :=
  ∀ (s : State), let d := s.dev
    (∀ v : BitVec 32, pf1Open d = true → clocksRun d = true →
      let d0 : Dev := if v.getLsbD 31 then { d with tide := { d.tide with writeRejected := false } } else d
      let role := v.extractLsb' 1 2
      let same := v.getLsbD 3 = d.tide.refSel ∧ role = d.tide.roleCtl
      let reject := fun (d : Dev) =>
        let e := logInfo 0x0001 0x28000 d
        { e with tide := { e.tide with writeRejected := true } }
      (v.getLsbD 0 = true → d.tide.run = false → ∃ d', exec (.tidCtlRunStart v) s = .next { s with dev := d' } ∧
        d'.tide.run = true ∧ d'.tide.phase = .work ∧ d'.tide.roleNow = (if role = 3 then 0 else role) ∧
        d'.tide.roleCtl = role ∧ d'.tide.refSel = v.getLsbD 3 ∧
        d'.tide.count = (if role = 1 then d.tide.start.toNat else d.tide.count) ∧ d'.tide.acting = d.tide.master ∧
        d'.tensors = d.tensors ∧ d'.mbx = d.mbx) ∧
      (v.getLsbD 0 = true → d.tide.run = true → same → exec (.tidCtlRunStart v) s = .next { s with dev := d0 }) ∧
      (v.getLsbD 0 = true → d.tide.run = true → ¬ same → exec (.tidCtlRunStart v) s = .next { s with dev := reject d0 }) ∧
      (v.getLsbD 0 = false → d.tide.run = true → d.chans = [] → ∃ d', exec (.tidCtlRunStop v) s = .next { s with dev := d' } ∧
        d'.tide.run = false ∧ d'.tide.locked = false ∧ d'.tide.count = d.tide.count ∧ d'.tide.roleCtl = d.tide.roleCtl ∧
        d'.tel.cap.active = d.tel.cap.late.getD d.tel.cap.staged ∧ d'.tensors = d.tensors ∧ d'.lnk = d.lnk) ∧
      (v.getLsbD 0 = false → d.tide.run = true → d.chans ≠ [] → same → exec (.tidCtlRunStop v) s = .next { s with dev := d0 }) ∧
      (v.getLsbD 0 = false → d.tide.run = true → d.chans ≠ [] → ¬ same → exec (.tidCtlRunStop v) s = .next { s with dev := reject d0 }) ∧
      (v.getLsbD 0 = false → d.tide.run = false → exec (.tidCtlRunStop v) s = .next { s with dev :=
        { d0 with tide := { d0.tide with refSel := v.getLsbD 3, roleCtl := role } } })) ∧
    (∀ v : BitVec 32, pf1Open d = true → clocksRun d = true → v.getLsbD 31 = true →
      let rate := (v.extractLsb' 0 6).toNat
      let slack := (v.extractLsb' 8 5).toNat
      let req : Dev := { d with tide := { d.tide with reqRate := rate, reqSlack := slack } }
      let inRange := 4 ≤ rate ∧ rate ≤ 40 ∧ 2 ≤ slack ∧ slack ≤ 16
      let segsFit := ∀ p ∈ d.programs, ∀ g ∈ p.2.segs, g.bound ≤ 1750 * (2000000 - 500 * slack * rate) / (1000 * rate)
      let closes := (200 + 500 * d.tide.depth) * rate + 500 * slack * rate ≤ 2000000
      let refused := fun (n : Nat) => exec (.tidRateReqGo v) s = .next { s with dev := { req with tide := { req.tide with rateState := n } } }
      (d.tide.roleNow ≠ 1 → d.tide.roleNow ≠ 3 → exec (.tidRateReqGo v) s = .next (s.onDev (fun d => { d with tide := { d.tide with rateState := 6 } }))) ∧
      (d.tide.roleNow = 1 ∨ d.tide.roleNow = 3 →
        (¬ inRange → refused 3) ∧ (inRange → ¬ segsFit → refused 4) ∧ (inRange → segsFit → ¬ closes → refused 5) ∧
        (inRange → segsFit → closes → ∃ d', exec (.tidRateReqGo v) s = .next { s with dev := d' } ∧
          d'.tide = { req.tide with
            announced := some { rate := rate, slack := slack, tide := d.tide.count + 2 }, ratePending := true, rateState := 1
            applyTide := BitVec.ofNat 24 (d.tide.count + 2) }))) ∧
    (∀ a, d.tide.announced = some a → clocksRun d = true → d.tide.run = true →
      (a.tide ≤ d.tide.count →
        exec .rateChangeApply s = .next (s.onDev (fun d => noteEvent 7 (toLe 1 a.rate ++ toLe 1 a.slack) { d with tide := { d.tide with
          rate := a.rate, slack := a.slack, announced := none, ratePending := false
          rateState := if d.tide.rateState = 1 then 2 else d.tide.rateState } }))) ∧
      (d.tide.count < a.tide → exec .rateChangeApply s = .next s)) ∧
    (pf1Open d = true → clocksRun d = true → d.tide.run = false → exec .tidReplanGo s = .next s) ∧
    (pf1Open d = true → clocksRun d = true → d.tide.run = true →
      let m := d.tide.replanMaster
      let b := d.tide.replanBackup
      let t := d.tide.replanTide.toNat
      let depth := depthOf d.lnk.wrap d.lnk.dim m
      let there := inPart d m = true ∧ inPart d b = true ∧ m ≠ b
      let timely := d.tide.count + 2 ≤ t ∧ t ≤ d.tide.count + 65536
      let closes := (200 + 500 * depth) * d.tide.rate + 500 * d.tide.slack * d.tide.rate ≤ 2000000
      let refused := fun (n : Nat) => exec .tidReplanGo s = .next (s.onDev (fun d => { d with tide := { d.tide with replanState := n } }))
      (¬ there → refused 3) ∧ (there → ¬ timely → refused 4) ∧ (there → timely → 186 < depth → refused 5) ∧
      (there → timely → depth ≤ 186 → ¬ closes → refused 6) ∧
      (there → timely → depth ≤ 186 → closes → exec .tidReplanGo s = .next (s.onDev (fun d =>
        { d with tide := { d.tide with replanState := 1, replanNew := some (m, b, t) } })))) ∧
    (∀ m b t, d.tide.replanNew = some (m, b, t) → clocksRun d = true → d.tide.run = true →
      (t ≤ d.tide.count → exec .replanApply s = .next (s.onDev (fun d => remakeTree { d with tide := { d.tide with
        master := m, backup := b, acting := m, replanNew := none, replanState := 2
        roleNow := if d.lnk.pos = m then 1 else if d.lnk.pos = b then 2 else 0 } }))) ∧
      (d.tide.count < t → exec .replanApply s = .next s))

/-- 02 R43, R62, R65, R66 and R34, 09 R293, 13 R441. The slack's bookkeeping is stated with the items, votes and records it ends. -/
def Obligations.TidePhasesAndEdges : Prop :=
  ∀ (s : State), clocksRun s.dev = true → s.dev.tide.run = true →
    let d := s.dev
    (d.tide.phase = .slack → d.tide.late = none ∨ firmwareRuns d = false ∨ d.items.all (fun i => !decide (i.2.stage = .consumed)) = true →
      exec .latchGuard s = .next (s.onDev (fun d =>
        let e := { d with tide := { d.tide with late := none } }
        let f := if firmwareRuns d then fireChannels (scaleCommits e) else e
        { f with tide := { f.tide with phase := .guard } }))) ∧
    (∀ o it n inp, d.tide.phase = .slack → d.tide.late = some (n, inp) → inp.placements = [] → firmwareRuns d = true → d.items = [(o, it)] →
      it.order = o → it.stage = .consumed → it.kind = 3 →
      it.step = 0 → orderWait d it = (none, false) → mustWait d it = false → admitHandles d it = none →
      ∃ d' it', exec .latchGuard s = .next { s with dev := d' } ∧ d'.tide.phase = .guard ∧ aGet d'.items o = some it' ∧
        it'.stage = .admitted ∧ it'.admTide = d.tide.count + 1) ∧
    (d.tide.phase ≠ .slack → exec .latchGuard s = .next s) ∧
    (d.tide.phase = .guard → ∃ d', exec .tideEdge s = .next { s with dev := d' } ∧ d'.tide.phase = .work ∧
      d'.tide.count = (match d.tide.adoptCount with | some t => t + 1 | none => d.tide.count + 1) ∧ d'.tide.adoptCount = none ∧
      d'.tel.cap.active = d.tel.cap.staged ∧ d'.tel.cap.staged = d.tel.cap.late.getD d.tel.cap.staged ∧
      d'.mem.ctl.active = d.mem.ctl.staged ∧ d'.tide.voteCfg.active = d.tide.voteCfg.staged ∧
      d'.vote.kids = [] ∧ d'.vote.forwarded = false ∧ d'.vote.received = false ∧ d'.step.flip = false ∧
      (∀ a, d.tide.announced = some a → a.tide ≤ d'.tide.count → d'.tide.rate = a.rate ∧ d'.tide.slack = a.slack) ∧
      (∀ m b t, d.tide.replanNew = some (m, b, t) → t ≤ d'.tide.count → d'.tide.master = m ∧ d'.tide.backup = b ∧ d'.tide.acting = m) ∧
      (∀ i t, d.step.flip = true → d.step.written.contains i = true → aGet d.tensors i = some t →
        ∃ t', aGet d'.tensors i = some t' ∧ t'.sel = !t.sel)) ∧
    (d.tide.phase ≠ .guard → exec .tideEdge s = .next s) ∧
    (∀ inp, d.tide.phase = .work → firmwareRuns d = false → ∃ d', exec (.slackStart inp) s = .next { s with dev := d' } ∧
      d'.tide.phase = .slack ∧ d'.tide.count = d.tide.count ∧
      (∀ l c, aGet d'.cores l = some c → c.plan = [] ∧ c.run = false ∧ c.ended = [])) ∧
    (∀ inp, d.tide.phase = .work → firmwareRuns d = true → ∃ d', exec (.slackStart inp) s = .next { s with dev := d' } ∧
      d'.sec.queued = []) ∧
    (∀ inp, d.tide.phase ≠ .work → exec (.slackStart inp) s = .next s) ∧
    (d.step.state = .scheduled → d.tide.holdover = false → d.step.startTide ≤ d.tide.count → exec .stepStartTide s = .next (s.onDev (fun d =>
      { d with step := { d.step with state := .running, summary := 0, openFseq := d.pair.fseq } }))) ∧
    (d.step.state = .scheduled → d.tide.holdover = true ∨ d.tide.count < d.step.startTide → exec .stepStartTide s = .next s)

/-- 02 R37 to R42, R60 and R65, 17 R558. Which markers count, the module alone and the root a marker shows are the model's readings (logs 31, 32 and 49). -/
def Obligations.MarkersDisciplineTheTide : Prop :=
  ∀ (s : State), let d := s.dev
    let seen := fun (d : Dev) => ({ d with tide := { d.tide with markerSeen := true, missed := 0, holdover := false } } : Dev)
    (∀ st ln mk, isOn d = true → d.frz.frozen = false → isStopped d = false → d.tide.run = true → st < 6 → ln < 4 →
      (linkOf d st ln).state = 7 → mk.partId = d.lnk.partId →
      let moves := fun p => acts d = false ∧ markerRoot d mk = some p ∧ p ≠ d.tide.acting ∧ d.tide.edgeTaken = false ∧ (p = d.tide.backup → d.tide.missed ≠ 0)
      ((∀ p, ¬ moves p) → d.tide.lost ≠ 1 →
        (d.tide.parent ≠ some st → exec (.edgeMarker st ln mk) s = .next (s.onDev seen)) ∧
        (d.tide.parent = some st → acts d = false → d.tide.edgeTaken = false →
          ∃ d', exec (.edgeMarker st ln mk) s = .next { s with dev := d' } ∧
          d'.tide = { d.tide with
            markerSeen := true, missed := 0, holdover := false, edgeTaken := true, locked := true
            adoptCount := if mk.tide = d.tide.count then none else some mk.tide
            announced := if mk.announce then some { rate := mk.rate, slack := mk.slack, tide := mk.tide + 2 } else d.tide.announced
            ratePending := mk.announce || d.tide.ratePending } ∧
          d'.frz.holdEdge = (d.frz.holdEdge && !d.frz.partition) ∧ d'.step = d.step ∧ d'.items = d.items)) ∧
      ((∀ p, ¬ moves p) → d.tide.lost = 1 → ∃ d', exec (.edgeMarker st ln mk) s = .next { s with dev := d' } ∧
        d'.tide.lost = 2 ∧ d'.tide.decisionLost = true ∧ d'.spare.reentry = true ∧ d'.tide.missed = 0) ∧
      (∀ p, moves p → ∃ d', exec (.edgeMarker st ln mk) s = .next { s with dev := d' } ∧
        d'.tide.acting = p ∧ d'.tide.missed = 0 ∧ d'.tide.holdover = false)) ∧
    (clocksRun d = true → d.tide.run = true → isAlone d = false →
      (d.tide.missed < max 1 d.tide.missLimit → exec .markerMissLimit s = .next s) ∧
      (max 1 d.tide.missLimit ≤ d.tide.missed → ∃ d', exec .markerMissLimit s = .next { s with dev := d' } ∧
        d'.tide.holdover = true ∧ d'.tide.count = d.tide.count ∧
        (d.tide.holdover = false → d'.tide.locked = false ∧ d'.ras.seq = d.ras.seq + 1) ∧
        (d.tide.holdover = true → d'.ras.seq = d.ras.seq) ∧
        (acts d = true → d'.tide.acting = d.tide.acting ∧ d'.tide.roleNow = d.tide.roleNow) ∧
        (acts d = false → d'.tide.acting = d.tide.backup ∧
          d'.tide.roleNow = (if d.tide.roleNow = 2 then 3 else d.tide.roleNow)) ∧
        (d.tide.lost = 1 → stepIsOpen d = true → d'.tide.lost = 0 ∧ d'.step.decision = some d'.tide.lastDecision ∧
          d'.tide.lastDecision.extractLsb' 0 2 = 2#2 ∧ d'.tide.lastDecision.extractLsb' 2 6 = 8#6 ∧ d'.tensors = d.tensors))) ∧
    (clocksRun d = false ∨ d.tide.run = false ∨ isAlone d = true → exec .markerMissLimit s = .next s) ∧
    (clocksRun d = true → d.tide.run = true → d.tide.refSel = true → d.tide.roleNow = 1 →
      exec .tideRefEdge s = .next (s.onDev (fun d => { d with
        tide := { d.tide with refLocked := true, refHeld := false }, tel := { d.tel with refLost := false } })) ∧
      (d.tide.refLocked = true → exec .tideRefLost s = .next (s.onDev (fun d => logInfo 0x0A06 0 { d with
        tide := { d.tide with refLocked := false, refHeld := true }
        tel := { d.tel with refLost := true, alert := d.tel.alert || !d.tel.refLost } }))) ∧
      (d.tide.refLocked = false → exec .tideRefLost s = .next s)) ∧
    (d.tide.roleNow ≠ 1 ∨ d.tide.refSel = false → exec .tideRefEdge s = .next s ∧ exec .tideRefLost s = .next s)

/-- 02 R56's combination, over every contribution; the master's decision on it is stated in TheVoteWave. -/
def Obligations.VoteContributionsCombine : Prop :=
  ∀ (own : Contribution) (kids : List Contribution) (missing : Bool),
    let all := own :: kids
    let c := combineVotes own kids missing
    let mixed := (∃ x ∈ all, x.idle = false) ∧ ((∃ x ∈ all, x.idle = true) ∨ ∃ x ∈ all, ∃ y ∈ all, x.idle = false ∧ y.idle = false ∧ x.step ≠ y.step)
    (c.no = true ↔ missing = true ∨ mixed ∨ ∃ x ∈ all, x.no = true) ∧
    (c.idle = true ↔ ∃ x ∈ all, x.idle = true) ∧
    (c.ready = true ↔ missing = false ∧ ∀ x ∈ all, x.ready = true ∨ x.idle = true) ∧
    (∀ i, c.cause.getLsbD i = true ↔ (∃ x ∈ all, x.cause.getLsbD i = true) ∨ (i = 3 ∧ missing = true) ∨ (i = 4 ∧ mixed)) ∧
    (own.idle = false → (∀ y ∈ kids, y.idle = false ∧ y.step = own.step) → c.step = own.step) ∧
    (∀ (a b : Contribution) (l r : List Contribution), kids = l ++ a :: b :: r → combineVotes own (l ++ b :: a :: r) missing = c ∨ mixed)

/-- 02 R55 to R60, 09 R306. How the two cases of R60 are told apart, and a close time without an open step, are the model's reading (logs 32 and 49). -/
def Obligations.TheVoteWave : Prop :=
  ∀ (s : State), clocksRun s.dev = true → s.dev.tide.run = true →
    let d := s.dev
    let seen := fun (d : Dev) => ({ d with tide := { d.tide with markerSeen := true, missed := 0, holdover := false } } : Dev)
    (∀ st ln mk, st < 6 → ln < 4 → (linkOf d st ln).state = 7 → mk.partId = d.lnk.partId →
      (st ∈ d.tide.children → d.vote.forwarded = false → (∀ k ∈ d.vote.kids, k.strait ≠ st) →
        exec (.gatherMarker st ln mk) s = .next (s.onDev (fun d => { d with vote := { d.vote with
          kids := d.vote.kids ++ [{ strait := st, vote := mk.vote, verdict := mk.verdict }] } }))) ∧
      (st ∉ d.tide.children ∨ d.vote.forwarded = true ∨ (∃ k ∈ d.vote.kids, k.strait = st) → exec (.gatherMarker st ln mk) s = .next s) ∧
      (d.tide.lost = 1 → ∃ d', exec (.decisionMarker st ln mk) s = .next { s with dev := d' } ∧ d'.spare.reentry = true ∧ d'.tide.missed = 0) ∧
      (d.tide.lost ≠ 1 → d.tide.parent ≠ some st ∨ acts d = true ∨ d.vote.received = true → exec (.decisionMarker st ln mk) s = .next (s.onDev seen)) ∧
      (d.tide.lost ≠ 1 → d.tide.parent = some st → acts d = false → d.vote.received = false →
        ∃ d', exec (.decisionMarker st ln mk) s = .next { s with dev := d' } ∧ d'.vote.received = true ∧ d'.tide.lastDecision = mk.decision ∧
        let kept := d.tide.decisionLost && decide (d.tide.lost = 2)
        let open_ := stepIsOpen d
        (open_ = false → d'.step.decision = d.step.decision ∧ d'.tide.decisionLost = kept) ∧
        (open_ = true → mk.decision.extractLsb' 0 2 = 2#2 → d'.step.decision = some mk.decision ∧ d'.tide.decisionLost = kept) ∧
        (open_ = true → mk.decision.extractLsb' 0 2 = 1#2 → (mk.decision.extractLsb' 16 16).toNat = d.step.num % 65536 →
          d'.step.decision = some mk.decision ∧ d'.tide.decisionLost = kept) ∧
        (open_ = true → d.tide.lost ≠ 2 → mk.decision.extractLsb' 0 2 = 1#2 → (mk.decision.extractLsb' 16 16).toNat ≠ d.step.num % 65536 →
          d'.tide.decisionLost = true ∧ d'.spare.reentry = true ∧ d'.step.decision = d.step.decision) ∧
        (open_ = true → mk.decision.extractLsb' 0 2 = 3#2 → d'.step.decision = d.step.decision ∧ d'.tide.decisionLost = kept))) ∧
    (d.tide.phase = .work → acts d = false → d.vote.forwarded = false →
      (∀ st, d.tide.parent = some st →
        let c := subtree d
        exec .voteForwardDeadline s = .next (s.onDev (fun d =>
          sendMarker 2 { bareMarker d with vote := c.1, verdict := c.2.1 } [st] { d with vote := { d.vote with forwarded := true } }))) ∧
      (d.tide.parent = none → exec .voteForwardDeadline s = .next (s.onDev (fun d => { d with vote := { d.vote with forwarded := true } })))) ∧
    (d.tide.phase ≠ .work ∨ acts d = true ∨ d.vote.forwarded = true → exec .voteForwardDeadline s = .next s) ∧
    (d.tide.phase ≠ .work ∨ acts d = false ∨ d.vote.received = true → exec .masterDecision s = .next s) ∧
    (d.tide.phase = .work → acts d = true → d.vote.received = false →
      let c := (subtree d).1
      let isOpen := (subtree d).2.2
      let limit := max (d.tide.voteCfg.active.extractLsb' 0 8).toNat 1
      let dec := if c.no = true then 2 else if isOpen = false then 0 else if c.ready = true then 1 else if limit ≤ d.vote.pendingWaves + 1 then 2 else 3
      ∃ d', exec .masterDecision s = .next { s with dev := d' } ∧ d'.vote.received = true ∧
        (d'.tide.lastDecision.extractLsb' 0 2).toNat = dec ∧ d'.tide.lastDecision.extractLsb' 16 16 = c.step ∧
        d'.vote.pendingWaves = (if dec = 3 then d.vote.pendingWaves + 1 else 0)) ∧
    (d.tide.phase = .work → d.vote.received = false → d.tide.lost ≠ 2 → exec .decisionCloseTime s = .next (s.onDev (fun d =>
      { d with tide := { d.tide with decisionLost := true, lost := if stepIsOpen d = true then 1 else d.tide.lost } }))) ∧
    (d.tide.phase ≠ .work ∨ d.vote.received = true ∨ d.tide.lost = 2 → exec .decisionCloseTime s = .next s)

/-- 03 R96 to R98, 08 R275 and R276, 09 R287 and R306 to R308. Each transfer's row moves its whole length (log 29); a bus error leaves what it moved. -/
def Obligations.TransfersRunsAndUpdatesWork : Prop :=
  ∀ (s : State) (slot seq : Nat) (it : Item), findItem s.dev slot seq = some it →
    let d := s.dev
    let moved := fun (d : Dev) => finishItem it.order 0 0 { d with items := aMod d.items it.order (fun i => { i with progress := it.arg2.toNat }) }
    let failed := fun (t : Nat) (d : Dev) => finishItem it.order 0x12 t d
    (itemWorks d it 1 1 = true →
      ((∀ i ∈ it.insts, i.2.next = 0xFFFF) → exec (.run slot seq) s = .next (s.onDev (setItem { it with work := true }))) ∧
      ((∃ i ∈ it.insts, i.2.next ≠ 0xFFFF) → exec (.run slot seq) s = .next s)) ∧
    (itemWorks d it 3 1 = true → pf0Requests d = true →
      let w := writeTensor (hIdx it.object) it.arg1.toNat (memRead d.host it.arg0.toNat it.arg2.toNat) d
      (w.2 = true → exec (.hostToTensor slot seq) s = .next { s with dev := moved w.1 }) ∧
      (w.2 = false → exec (.hostToTensor slot seq) s = .next { s with dev := failed (hIdx it.object) w.1 })) ∧
    (itemWorks d it 3 1 = false ∨ pf0Requests d = false → exec (.hostToTensor slot seq) s = .next s) ∧
    (itemWorks d it 3 2 = true → pf0Requests d = true →
      let r := readTensor (hIdx it.object) it.arg1.toNat it.arg2.toNat d
      (∀ b, r.2 = some b → exec (.tensorToHost slot seq) s =
        .next { s with dev := moved { r.1 with host := memWrite r.1.host it.arg0.toNat b } }) ∧
      (r.2 = none → exec (.tensorToHost slot seq) s = .next { s with dev := failed (hIdx it.object) r.1 })) ∧
    (itemWorks d it 3 2 = false ∨ pf0Requests d = false → exec (.tensorToHost slot seq) s = .next s) ∧
    (itemWorks d it 3 3 = true →
      let r := readTensor (hIdx it.object) it.arg1.toNat it.arg2.toNat d
      (r.2 = none → exec (.tensorToTensor slot seq) s = .next { s with dev := failed (hIdx it.object) r.1 }) ∧
      (∀ b, r.2 = some b →
        let w := writeTensor (hIdx it.arg0) it.arg3.toNat b r.1
        (w.2 = true → exec (.tensorToTensor slot seq) s = .next { s with dev := moved w.1 }) ∧
        (w.2 = false → exec (.tensorToTensor slot seq) s = .next { s with dev := failed (hIdx it.arg0) w.1 }))) ∧
    (itemWorks d it 3 3 = false → exec (.tensorToTensor slot seq) s = .next s) ∧
    (itemWorks d it 1 1 = false → exec (.run slot seq) s = .next s) ∧
    (itemWorks d it 5 1 = true → stepIsOpen d = true → it.step = d.step.num → ∀ n,
      (d.step.verdict = 2 → exec (.update slot seq n) s = .next (s.onDev (fun d =>
        finishItem it.order 1 (b2n d.step.verdictOf + 8 * b2n d.step.verdictNv) d))) ∧
      (d.step.verdict = 0 → exec (.update slot seq n) s = .next s) ∧
      (d.step.verdict = 1 →
        let el := tElems (tensorAt d (updH it 8))
        let first := decide (it.progress < el)
        let left := (if first = true then el else updTotal d it) - it.progress
        let asked := it.goal.getD (it.progress + n) - it.progress
        let k := min (min n left) (min (updRoom d it first) asked)
        let d0 := if k = 0 then d else { noteWritten it d with upd := updCount (updCost d it first) k d.upd }
        let pass := if first = true then updPass1 it it.progress k d0 else updPass2 it (it.progress - el) k d0
        (∀ d' t, pass = .bad d' t → exec (.update slot seq n) s = .next { s with dev := failed t d' }) ∧
        (∀ d' r, pass = .ok d' r →
          let amax := (fpMax fp64 it.amax.toNat r.2).1
          let d1 := if first = true ∧ it.progress + k = el ∧ twoPass d' (tensorAt d' (updH it 8)) = true then stageExp it amax d' else d'
          let now := { (aGet d1.items it.order).getD it with
            progress := it.progress + k, amax := BitVec.ofNat 64 amax, flags := it.flags ||| r.1
            work := decide (updTotal d1 it ≤ it.progress + k) }
          exec (.update slot seq n) s = .next { s with dev := setItem now d1 }))) ∧
    (∀ n, itemWorks d it 5 1 = false ∨ stepIsOpen d = false ∨ it.step ≠ d.step.num → exec (.update slot seq n) s = .next s) ∧
    (itemWorks d it 5 2 = true → stepIsOpen d = true → it.step = d.step.num →
      (d.step.verdict = 0 → exec (.seal slot seq) s = .next s) ∧
      (d.step.verdict = 2 → exec (.seal slot seq) s = .next (s.onDev (fun d =>
        finishItem it.order 1 (b2n d.step.verdictOf + 8 * b2n d.step.verdictNv) d))) ∧
      (d.step.verdict ≠ 0 → d.step.verdict ≠ 2 → exec (.seal slot seq) s = .next (s.onDev (finishItem it.order 0 0)))) ∧
    (itemWorks d it 5 2 = false ∨ stepIsOpen d = false ∨ it.step ≠ d.step.num → exec (.seal slot seq) s = .next s) ∧
    (clocksRun d = true → serves d = true → it.work = false →
      let b := if it.kind = 2 ∧ it.budget = 0 then (planOfObj (itemPlan d it)).budget else it.budget
      (d.tide.phase ≠ .work → it.stage = .admitted → b ≠ 0 → it.admTide + b ≤ d.tide.count + 1 →
        (∀ l, lostProblem it = some l → exec (.itemBudgetExpiry slot seq) s = .next (s.onDev (finishItem it.order 0x15 (65536 + l)))) ∧
        (lostProblem it = none → exec (.itemBudgetExpiry slot seq) s = .next (s.onDev (finishItem it.order 0x11
          ((if ∃ p ∈ it.probs, p.2.word = none ∧ p.2.throttled = true then 2 else 4) * 65536 + 0xFFFF))))) ∧
      (d.tide.phase = .work ∨ it.stage ≠ .admitted ∨ b = 0 ∨ d.tide.count + 1 < it.admTide + b → exec (.itemBudgetExpiry slot seq) s = .next s)) ∧
    (clocksRun d = false ∨ serves d = false ∨ it.work = true → exec (.itemBudgetExpiry slot seq) s = .next s)

/-- 08 R245, R246, R269, R270, R278 and R284, 03 R99. A problem's values are what `solveWork`, `adjointWork`, `tangentWork` compute from what is read (log 15). -/
def Obligations.SolverItemsSolveTheirProblems : Prop :=
  ∀ (s : State) (slot seq k : Nat) (it : Item) (pr : Prob), findItem s.dev slot seq = some it → aGet it.probs k = some pr →
    let d := s.dev
    let rows := fun (iters : Nat) => ([(1, Instr.solve slot seq k iters, solveWork), (2, Instr.adjoint slot seq k iters, adjointWork),
      (3, Instr.tangent slot seq k iters, tangentWork)] : List (Nat × Instr × (Dev → Item → Nat → Rd (SlvOut × Nat))))
    (∀ iters, ∀ x ∈ rows iters, itemWorks d it 2 x.1 = false ∨ pr.core = none ∨ pr.word.isSome = true → exec x.2.1 s = .next s) ∧
    (itemWorks d it 2 4 = false ∨ pr.core = none ∨ pr.word.isSome = true → exec (.assemble slot seq k) s = .next s) ∧
    (∀ l, pr.core = some l → pr.word = none →
      let fails := fun (t : Nat) (d : Dev) => failItem it.order 0x12 t 0 0xFF { d with cores := aMod d.cores l (fun c =>
        { c with heldBy := c.heldBy.filter (fun h => decide (h ≠ (it.order, k))) }) }
      let ends := fun (o : SlvOut) (fl : BitVec 4) (bad : Option Nat) (d' e : Dev) =>
        bad = none → (planOfObj (itemPlan d' it)).warm = false ∨ it.op ≠ 1 ∨ it.step = 0 →
        (∀ i, aGet d'.items it.order = some i → ∃ j, aGet e.items it.order = some j ∧
          (∀ q, aGet i.probs k = some q → ∃ q', aGet j.probs k = some q' ∧ q'.word = some o.word ∧ q'.core = none) ∧
          j.flags = i.flags ||| o.flags ||| fl ∧ j.work = j.probs.all (fun x => x.2.word.isSome)) ∧
        (∀ c, aGet e.cores l = some c → (it.order, k) ∉ c.heldBy)
      (∀ iters, ∀ x ∈ rows iters, itemWorks d it 2 x.1 = true →
        let begun : Rd (SlvOut × Nat) := match pr.run with | some r => .ok d r | none => x.2.2 d it k
        (∀ d' t, begun = .bad d' t → exec x.2.1 s = .next { s with dev := fails t d' }) ∧
        (∀ d' o u, begun = .ok d' (o, u) →
          let more : Item := { it with probs := aSet it.probs k { pr with run := some (o, u), iters := pr.iters + iters } }
          (pr.iters + iters < u → exec x.2.1 s = .next { s with dev := setItem more d' }) ∧
          (u ≤ pr.iters + iters →
            let st := storeSolve d' it k o
            exec x.2.1 s = .next { s with dev := endProblem it k l o st.2.2 st.2.1 st.1 } ∧
            ends o st.2.2 st.2.1 st.1 (endProblem it k l o st.2.2 st.2.1 st.1)))) ∧
      (itemWorks d it 2 4 = true →
        let pl := itemPlan d it
        let n := (planOfObj pl).entries
        let q := slvFirst it + k
        (∀ d' t, assembled it pl q false d = .bad d' t → exec (.assemble slot seq k) s = .next { s with dev := fails t d' }) ∧
        (∀ d' v fl, assembled it pl q false d = .ok d' (v, fl) →
          let w := storeVals (recH it 16) (q * n) (v.take n) d'
          let r := if recH it 24 = 0 then (w.1, true) else storeVals (recH it 24) (q * (planOfObj pl).rows) (v.drop n) w.1
          let bad := if w.2 = false then some (hIdx (recH it 16)) else if r.2 = false then some (hIdx (recH it 24)) else none
          ∃ o : SlvOut, exec (.assemble slot seq k) s = .next { s with dev := endProblem it k l o fl bad r.1 } ∧
            (o.state = 0 ∨ o.state = 1) ∧ ends o fl bad r.1 (endProblem it k l o fl bad r.1))))

/-- 12 R404, R411 to R416, R422 and R424. What the leaves, packets and checks of a chunk do is stated in CollectivePacketsActOnTheLaunch. -/
def Obligations.CollectiveItemsRunTheirLaunches : Prop :=
  ∀ (s : State) (slot seq : Nat) (it : Item) (l : Launch), findItem s.dev slot seq = some it → aGet s.dev.items it.order = some it →
    it.launch = some l →
    let d := s.dev
    (∀ op c, (op, c) ∈ [(1, Instr.allReduce slot seq), (2, .reduceScatter slot seq), (3, .allGather slot seq), (4, .broadcast slot seq),
        (5, .allToAll slot seq), (6, .send slot seq), (7, .recv slot seq)] → itemWorks d it 4 op = true →
      (∀ e, l.running = true → l.completeSent = true → l.endTide = some e → e ≤ d.tide.count → exec c s = .next (s.onDev (fun d =>
        finishItem it.order 0 0 { d with items := aMod d.items it.order (fun i => { i with flags := i.flags ||| l.flags }) }))) ∧
      (∀ a t g, l.running = false → l.plan = some (a, t) → a ≤ d.tide.count → l.endTide = none → aGet d.groups l.group = some g →
        (∃ x ∈ ownChunks d op l g, x ∉ l.started) →
        exec c s = .next (s.onDev (fun d => setLaunch it { l with running := true } d))) ∧
      (l.running = false → l.plan = none → l.endTide = none → exec c s = .next s) ∧
      (let d1 := if l.running = false ∧ l.plan.any (fun p => decide (p.1 ≤ d.tide.count)) = true then setLaunch it { l with running := true } d else d
       let e := checkComplete it.order d1
       exec c s = .next { s with dev := match aGet e.items it.order with | some i => collEnded i e | none => e })) ∧
    (∀ op c, (op, c) ∈ [(1, Instr.allReduce slot seq), (2, .reduceScatter slot seq), (3, .allGather slot seq), (4, .broadcast slot seq),
        (5, .allToAll slot seq), (6, .send slot seq), (7, .recv slot seq)] → itemWorks d it 4 op = false → exec c s = .next s) ∧
    (∀ chunk g, clocksRun d = true → d.tide.phase = .work → it.work = false → it.stage = .admitted → aGet d.groups l.group = some g →
      let r := chunkRange d it.op l g.members.length chunk
      (l.running = true → chunk ∈ ownChunks d it.op l g → chunk ∉ l.started → slotFree d l = true → chunkReady d it l r.1 r.2 = true →
        exec (.chunkStart slot seq chunk) s = .next (s.onDev (fun d =>
          checkComplete it.order (leafStart it.order chunk (setLaunch it { l with started := l.started ++ [chunk] } d))))) ∧
      (l.running = false ∨ chunk ∉ ownChunks d it.op l g ∨ chunk ∈ l.started ∨ slotFree d l = false ∨ chunkReady d it l r.1 r.2 = false → exec (.chunkStart slot seq chunk) s = .next s)) ∧
    (clocksRun d = true → serves d = true → it.work = false →
      (∀ a t, l.plan = some (a, t) → t + 1 ≤ d.tide.count → l.endTide = none → d.tide.phase ≠ .work →
        exec (.collectiveGraceExpiry slot seq) s = .next (s.onDev (finishItem it.order 0x11 (3 * 65536 + 0xFFFF)))) ∧
      (∀ a t, l.plan = some (a, t) → d.tide.count < t + 1 ∨ d.tide.phase = .work ∨ (∃ e, l.endTide = some e ∧ e ≤ d.tide.count) →
        exec (.collectiveGraceExpiry slot seq) s = .next s) ∧
      (∀ g, aGet d.groups l.group = some g → l.plan = none → it.admTide + l.joinLimit ≤ d.tide.count →
        (leadRank it.op l g ≠ g.rank →
          exec (.joinLimitExpiry slot seq) s = .next (s.onDev (finishItem it.order 0x14 (2 * 65536 + leadRank it.op l g)))) ∧
        (leadRank it.op l g = g.rank → ∃ r, (r ∈ launchRanks it.op l g ∧ r ∉ l.joins ∨ r = 0) ∧
          exec (.joinLimitExpiry slot seq) s = .next (s.onDev (fun d => leadAbort it it.op l g 2 r { d with
            abandoned := d.abandoned.filter (fun a => decide (d.tide.count < a.2.2 + 256)) ++ [(g.gid, l.num, d.tide.count)] })))) ∧
      (d.tide.count < it.admTide + l.joinLimit ∨ l.plan ≠ none → exec (.joinLimitExpiry slot seq) s = .next s))

/-- 12 R409 to R430 and Table 12-8. -/
def Obligations.CollectivePacketsActOnTheLaunch : Prop :=
  ∀ (s : State) (src : Pos) (h : CollHeader) (bs : Bytes), serves s.dev = true →
    let d := s.dev
    (groupFor d h = none → ∀ c, c ∈ [Instr.join src h, .start src h, .data src h bs, .prepass src h bs, .ack src h, .complete src h, .groupDone src h,
        .abort src h, .leave src h, .fail src h, .lost src h, .reissue src h] →
      exec c s = .next (s.onDev (fun d => { d with lnk := { d.lnk with drop := satInc 0xFFFFFFFF d.lnk.drop } }))) ∧
    (∀ gi g, groupFor d h = some (gi, g) → launchItem d gi h.launch = none →
      (wasAbandoned d h = false → exec (.join src h) s = .next (s.onDev (fun d =>
        { d with earlyJoins := addNew d.earlyJoins (h.gid, h.launch, h.rank) }))) ∧
      (wasAbandoned d h = true → exec (.join src h) s = .next (s.onDev
        (send (.coll src 7 { gid := h.gid, launch := h.launch, digest := h.digest, rank := h.rank, cause := 2 } [])))) ∧
      ∀ c, c ∈ [Instr.start src h, .data src h bs, .prepass src h bs, .ack src h, .complete src h, .groupDone src h, .abort src h, .leave src h, .fail src h,
        .lost src h, .reissue src h] → exec c s = .next s) ∧
    (∀ gi g it l, groupFor d h = some (gi, g) → launchItem d gi h.launch = some it → aGet d.items it.order = some it → it.launch = some l →
      aGet d.groups l.group = some g → it.work = false → it.stage = .admitted →
      let lead := leadRank it.op l g
      let from_ := (g.members.findIdx? (· == src)).getD 0
      let now := fun (x : Nat) => extendTide d.tide.count x
      (exec (.join src h) s = .next (s.onDev (fun d => maybeStart it.order (setLaunch it { l with joins := addNew l.joins h.rank } d)))) ∧
      (l.plan = none → exec (.start src h) s = .next (s.onDev (fun d => setLaunch it { l with
        plan := some (now (h.tides.toNat % 2 ^ 32), now (h.tides.toNat / 2 ^ 32)) } d))) ∧
      (l.plan ≠ none → exec (.start src h) s = .next s) ∧
      (lead = g.rank → exec (.complete src h) s = .next (s.onDev (fun d =>
        maybeDone it.order (setLaunch it { l with completes := addNew l.completes h.rank } d)))) ∧
      (lead ≠ g.rank → exec (.complete src h) s = .next s) ∧ (l.endTide ≠ none → exec (.groupDone src h) s = .next s) ∧
      (l.endTide = none → exec (.abort src h) s = .next (s.onDev (endByAbort it h.cause h.rank))) ∧
      (l.endTide = none → exec (.groupDone src h) s = .next (s.onDev (fun d =>
        setLaunch it { l with endTide := some (now (h.tides.toNat % 2 ^ 32)) } d))) ∧
      (l.endTide = none → h.cause ≠ 1 → h.cause ≠ 3 → exec (.abort src h) s = .next (s.onDev (fun d =>
        finishItem it.order 0x14 (2 * 65536 + h.rank % 65536) { d with items := aMod d.items it.order (fun i =>
          { i with launch := i.launch.map (fun l => { l with abort := some (h.cause, h.rank, d.tide.count) }) }) }))) ∧
      (l.endTide ≠ none → exec (.abort src h) s = .next s) ∧
      (∀ c, c ∈ [Instr.leave src h, .fail src h] →
        (lead = g.rank → exec c s = .next (s.onDev (leadAbort it it.op l g h.cause h.rank))) ∧ (lead ≠ g.rank → exec c s = .next s)) ∧
      (exec (.ack src h) s = .next (s.onDev (fun d => checkComplete it.order (setLaunch it { l with
        unacked := l.unacked.filter (fun k => decide (k ≠ (ackKey g.members.length h.chunk h.rank h.level h.phase, from_))) } d)))) ∧
      (h.cause = 3 → exec (.lost src h) s = .next (s.onDev (reportFail it l g 3 h.rank))) ∧
      (h.cause ≠ 3 → exec (.lost src h) s = .next (s.onDev (fun d => (reissueTo it.op l g h).foldl (fun d r =>
        if r = g.rank then reissueHere it.order h g.rank d else collSend g r 10 { h with check := 0, cause := 0 } [] d) d))) ∧
      (exec (.reissue src h) s = .next (s.onDev (reissueHere it.order h from_))) ∧
      (h.chunk ∉ l.started → exec (.reissue src h) s = .next s) ∧
      (h.chunk ∈ l.started → isReduce it.op = false → exec (.reissue src h) s = .next (s.onDev (moveChunk it.order h.chunk (some from_)))) ∧
      (∀ c ph, (c, ph) ∈ [(Instr.data src h bs, h.phase), (.prepass src h bs, 4)] →
        let p0 : Partial := { chunk := h.chunk, lo := h.rank, level := h.level, phase := ph, packets := h.packets }
        let old := (l.parts.find? (fun q => samePart p0 q && !q.full)).getD p0
        let p : Partial := { old with
          flags := old.flags ||| h.flags, got := addNew old.got h.packet, bytes := memWrite old.bytes (4032 * h.packet) bs
          packets := h.packets, check := if h.packet + 1 = h.packets then h.check else old.check }
        let rest := l.parts.filter (fun q => !(samePart p q && !q.full))
        (p.got.length < p.packets → exec c s = .next (s.onDev (fun d => setLaunch it { l with parts := rest ++ [p] } d))) ∧
        (p.packets ≤ p.got.length →
          let r := chunkRange d it.op l g.members.length h.chunk
          let lone := (partOf l g.members.length from_).1
          let piece := ringPiece d it.op l g.members.length h.chunk lone (h.rank - lone)
          let ring := l.mode = 2 ∧ isReduce it.op = true ∧ (ph = 3 ∨ h.level = 31 ∨ isRing l g.members.length = true)
          let k := if ring then piece.2 - piece.1 else r.2 - r.1
          let len := if ph = 4 then 2 * chunkBlocks d it.op l g.members.length h.chunk + k else wireWidth d it.op l * k
          let whole := setLaunch it { l with parts := rest } d
          let came := fun (good : Bool) => chunkArrived it.order from_ p good whole
          (crc64 (memRead p.bytes 0 len) = p.check → exec c s = .next (s.onDev (fun _ => checkComplete it.order
            (collSend g from_ 4 { collHead l g with chunk := h.chunk, rank := h.rank, level := h.level, phase := ph } [] (came true))))) ∧
          (crc64 (memRead p.bytes 0 len) ≠ p.check → exec c s = .next (s.onDev (fun _ =>
            withLaunch it.order (came false) (fun it l g => reportFail it l g 1 from_ (came false))))))))

/-- 13 R433 to R440 and R455. The lagoon's own byte layouts are the model's (log 26). -/
def Obligations.PairingAndFerryPackets : Prop :=
  ∀ (s : State) (src : Pos), let d := s.dev
    (∀ p : PairPayload, serves d = true →
      (d.pair.state ≠ 1 ∨ d.pair.partner ≠ src ∨ p.pos ≠ src →
        exec (.pair src p) s = .next (s.onDev (fun d => send (.pairReply src (ownPair d) 0) d)) ∧
        (∀ v, exec (.pairReply src p v) s = .next s)) ∧
      (exec (.pairReply src p 0) s = .next s) ∧
      (d.pair.state = 1 → d.pair.partner = src → p.pos = src →
        let agree := p.ownBudget = d.pair.partnerBudget ∧ p.partnerBudget = d.pair.ownBudget
        let v := if p.ownBudget ≠ d.pair.partnerBudget ∨ p.partnerBudget ≠ d.pair.ownBudget then 5
          else if p.feedId ≠ d.tel.feedId then 2 else if p.feedOverride = true ∨ d.pair.feedOverride = true then 3 else 4
        (exec (.pair src p) s = .next (s.onDev (fun d => pairSettle v p (send (.pairReply src (ownPair d) v) d)))) ∧
        (∀ w, w ≠ 0 → exec (.pairReply src p w) s = .next (s.onDev (pairSettle v p))) ∧
        (¬ agree → ∀ d', exec (.pairReply src p 5) s = .next { s with dev := d' } → d'.pair.state = 5 ∧ d'.pair.lagoonRegions = [] ∧ d'.lagoon = {}) ∧
        (agree → p.feedId ≠ d.tel.feedId → ∀ d', exec (.pairReply src p 2) s = .next { s with dev := d' } →
          d'.pair.state = 2 ∧ d'.pair.exposed = true ∧ d'.pair.partnerExposed = true))) ∧
    (∀ (h : FerryHeader) (bs : Bytes), clocksRun d = false ∨ src ≠ d.pair.partner ∨ (paired d = false ∧ d.spare.state ≠ 2 ∧ d.spare.state ≠ 3) →
      ∀ c, c ∈ [Instr.ferryData src h bs, .reseed src h bs, .record src h bs, .ledger src h bs] → exec c s = .next s) ∧
    (∀ (h : FerryHeader) (bs : Bytes), clocksRun d = true → src = d.pair.partner → paired d = true ∨ d.spare.state = 2 ∨ d.spare.state = 3 →
      (h.check ≠ ferryCheck h bs → ∀ c, c ∈ [Instr.ferryData src h bs, .reseed src h bs, .record src h bs, .ledger src h bs] → exec c s = .next s) ∧
      (h.check = ferryCheck h bs →
        let acked := fun (d : Dev) => send (.ferryAck src h.step h.fseq) d
        (∀ c committed, (c, committed) ∈ [(Instr.ferryData src h bs, false), (.reseed src h bs, true)] →
          let w := lagoonStore committed h bs d
          (w.2 = true → exec c s = .next { s with dev := acked w.1 } ∧ w.1.lagoon.objs = lagoonWrite committed h bs d.lagoon.objs) ∧
          (w.2 = false → exec c s = .next { s with dev := w.1 })) ∧
        (h.part ≠ 1 → exec (.record src h bs) s = .next (s.onDev (fun d => acked (recordIn h bs d)))) ∧
        (h.part = 1 → exec (.record src h bs) s = .next (s.onDev (fun d => acked (tableIn h bs d)))) ∧
        (h.part = 1 → exec (.ledger src h bs) s = .next (s.onDev (fun d => acked { d with spare := { d.spare with
          ledger := ((List.range (bs.length / 64)).map (fun i => slice bs (64 * i) 64)).foldl ledgerPut d.spare.ledger } }))) ∧
        (h.part ≠ 1 → exec (.ledger src h bs) s = .next (s.onDev (fun d => acked { d with lagoon := { d.lagoon with
          ledger := (List.range (bs.length / 64)).foldl (fun l i => ledgerPut l (slice bs (64 * i) 64)) d.lagoon.ledger } }))))) ∧
    (∀ (h : FerryHeader) (bs : Bytes) (l : List LagoonObj),
      let o := lagoonGet l h.obj h.part
      let w := lagoonGet (lagoonWrite false h bs l) h.obj h.part
      let r := lagoonGet (lagoonWrite true h bs l) h.obj h.part
      memRead (if w.sel then w.buf0 else w.buf1) h.off bs.length = bs ∧ lagoonCommitted w = lagoonCommitted o ∧ w.mark = some h.step ∧
      memRead (lagoonCommitted r) h.off bs.length = bs ∧ r.mark = o.mark ∧ r.sel = o.sel) ∧
    (∀ step fseq, clocksRun d = true → src = d.pair.partner →
      exec (.ferryAck src step fseq) s = .next (s.onDev (fun d =>
        let left := d.pair.unacked.filter (fun u => !(u.hdr.fseq == fseq && u.hdr.step == step))
        { d with
          pair := { d.pair with unacked := left, exposed := d.pair.exposed && left.any (fun u => u.hdr.step == 0) }
          items := aMap d.items (fun _ it => if it.ledgerFseq = some fseq then { it with ledgerAck := true } else it) }))) ∧
    (∀ step fseq, clocksRun d = false ∨ src ≠ d.pair.partner → exec (.ferryAck src step fseq) s = .next s) ∧
    (∀ fseq, (∀ u, d.pair.unacked.find? (fun u => u.hdr.fseq == fseq) = some u → clocksRun d = true → paired d = true →
        exec (.ferryResendTimer fseq) s = .next (s.onDev (send (.ferry d.pair.partner u.use u.hdr u.bytes)))) ∧
      ((∀ u ∈ d.pair.unacked, u.hdr.fseq ≠ fseq) ∨ clocksRun d = false ∨ paired d = false → exec (.ferryResendTimer fseq) s = .next s))

/-- 13 R447 to R459, 11 R394 and 14 R490. An adoption is cleared at the next edge (TidePhasesAndEdges' edge). -/
def Obligations.AdoptionAndManagementPackets : Prop :=
  ∀ (s : State) (src : Pos), let d := s.dev
    (∀ serial feed pos, serves d = true →
      let no := fun (n : Nat) => exec (.adoptReq src serial feed pos) s = .next (s.onDev (send (.adoptReply src n)))
      let wrong := src ≠ pos ∨ d.pair.partner ≠ pos ∨ d.pair.state = 0 ∨ d.pair.state = 1 ∨ d.pair.state = 4 ∨ d.pair.state = 5
      let sameFeed := feed = d.tel.feedId ∧ d.pair.feedOverride = false ∧ d.pair.partnerOverride = false
      let other := ∃ a ∈ d.spare.adoptedBy, a.1 = pos ∧ a.2 ≠ serial
      (wrong → no 1) ∧ (¬ wrong → pos ∉ d.lnk.lostPos → no 2) ∧ (¬ wrong → pos ∈ d.lnk.lostPos → sameFeed → no 3) ∧
      (¬ wrong → pos ∈ d.lnk.lostPos → ¬ sameFeed → other → no 4) ∧
      (¬ wrong → pos ∈ d.lnk.lostPos → ¬ sameFeed → ¬ other →
        let sp := { d.spare with adoptedBy := d.spare.adoptedBy.filter (fun x => x.1 != pos) ++ [(pos, serial)] }
        let pr := { d.pair with
          state := if feed = d.tel.feedId then 3 else 2, partnerFeed := feed, partnerSerial := serial
          exposed := true, partnerExposed := true, unacked := [] }
        exec (.adoptReq src serial feed pos) s = .next (s.onDev (fun d => giveBack (send (.adoptReply src 0) { d with spare := sp, pair := pr }))))) ∧
    (serves d = true → src = d.pair.partner → d.spare.state = 1 →
      exec (.adoptReply src 0) s = .next (s.onDev (fun d => { d with spare := { d.spare with state := 2, cause := 0 } })) ∧
      (∀ n, n ≠ 0 → exec (.adoptReply src n) s = .next (s.onDev (adoptFailed n)))) ∧
    (∀ n, serves d = false ∨ src ≠ d.pair.partner ∨ d.spare.state ≠ 1 → exec (.adoptReply src n) s = .next s) ∧
    (∀ r : FillRead, serves d = true → src = d.pair.partner → r.len ≤ 4032 →
      let h : FerryHeader := { obj := r.obj, part := r.part, off := r.off }
      let o := lagoonGet d.lagoon.objs r.obj r.part
      let second := o.sel != (r.buf != 0)
      let bs := memRead (if second then o.buf1 else o.buf0) r.off r.len
      let got := touchBytes (lagoonKey r.obj r.part (b2n second)) r.off r.len d
      (r.buf = 0 → (if second then o.buf1 else o.buf0) = lagoonCommitted o) ∧
      (got.2 = true → exec (.fillRead src r) s = .next { s with dev := send (.fillData src { h with check := ferryCheck h bs } bs) got.1 }) ∧
      (got.2 = false → exec (.fillRead src r) s = .next { s with dev := got.1 })) ∧
    (∀ (h : FerryHeader) (bs : Bytes), serves d = true → src = d.pair.partner → d.spare.state = 2 → h.check = ferryCheck h bs →
      let mine := fun (r : FillRead) => r.obj == h.obj && r.part == h.part && r.off == h.off && r.len == bs.length
      (d.spare.fillLeft.any mine = true →
        let o := lagoonGet d.spare.objs h.obj h.part
        let left := d.spare.fillLeft.filter (fun r => !mine r)
        exec (.fillData src h bs) s = .next (s.onDev (fun d => { d with spare := { d.spare with
          objs := lagoonPut d.spare.objs { o with buf0 := memWrite o.buf0 h.off bs }
          fillLeft := left, filled := d.spare.filled + bs.length, state := if left = [] then 3 else 2 } }))) ∧
      (d.spare.fillLeft.any mine = false → exec (.fillData src h bs) s = .next s)) ∧
    (serves d = true → d.spare.state = 3 → d.pair.partnerExposed = false → ∃ d', exec .spareFillComplete s = .next { s with dev := d' } ∧
      d'.spare.state = 4 ∧ d'.spare.reentry = false ∧ d'.spare.table = [] ∧ (d.lnk.pos, d.serial) ∈ d'.lnk.adopted) ∧
    (d.spare.state ≠ 3 ∨ d.pair.partnerExposed = true → exec .spareFillComplete s = .next s) ∧
    (∀ step, clocksRun d = true → exec (.decisionReq src step) s = .next (s.onDev
      (send (.decisionReply src (((d.vote.history.find? (fun x => x.1 == step)).map (·.2)).getD 0))))) ∧
    (∀ w : BitVec 32, serves d = true → d.spare.reentry = true → d.spare.state = 1 → d.spare.reqSent = false → src = d.tide.acting →
      let d1 : Dev := { d with spare := { d.spare with reqSent := true } }
      (d.pair.state ≠ 6 → d.pair.partner ∉ d.lnk.lostPos → exec (.decisionReply src w) s = .next (s.onDev (fun _ =>
        send (.adoptReq d.pair.partner d.serial d.tel.feedId d.lnk.pos) d1))) ∧
      (d.pair.state = 6 ∨ d.pair.partner ∈ d.lnk.lostPos → d.step.ready = false ∨ w = 0 →
        exec (.decisionReply src w) s = .next (s.onDev (fun _ => stateLost d1))) ∧
      (d.pair.state = 6 ∨ d.pair.partner ∈ d.lnk.lostPos → d.step.ready = true → w ≠ 0 → exec (.decisionReply src w) s = .next (s.onDev (fun _ =>
        let e := if w.extractLsb' 0 2 = 1#2 then flipEpochs d1 else d1
        announceAdopted { e with step := { state := .none, lastCommitted := d.step.lastCommitted, lastDecision := w } })))) ∧
    (∀ w, serves d = false ∨ d.spare.reentry = false ∨ d.spare.state ≠ 1 ∨ d.spare.reqSent = true ∨ src ≠ d.tide.acting →
      exec (.decisionReply src w) s = .next s) ∧
    (∀ arr mseq pos, clocksRun d = true →
      let known := pos = d.lnk.pos ∨ ∃ x ∈ d.lnk.mgmtSeen, x.1 = pos ∧ mseq ≤ x.2
      let pass := fun (m : Sent) =>
        send m { d with lnk := { d.lnk with mgmtSeen := d.lnk.mgmtSeen.filter (fun x => x.1 != pos) ++ [(pos, mseq)] } }
      ∀ (lost : BitVec 6) (act : BitVec 24) (cls : BitVec 16) (serial : BitVec 64) (tide : Nat),
      (known → ∀ c, c ∈ [Instr.straitState arr mseq pos lost act tide, .deviceFailed arr mseq pos cls tide, .adopted arr mseq pos serial tide] →
        exec c s = .next s) ∧
      (¬ known →
        exec (.straitState arr mseq pos lost act tide) s = .next (s.onDev (fun _ =>
          let e := pass (.straitState (some arr) mseq pos lost act tide)
          let rec_ : StraitRec := { pos := pos, lost := lost, active := act, tide := tide }
          noteChange (BitVec.ofNat 64 (0xFE * 2 ^ 56 + posIndex e pos)) { e with
            lnk := { e.lnk with recs := e.lnk.recs.filter (fun x => x.pos != pos) ++ [rec_] }, tide := { e.tide with treeStale := true } })) ∧
        exec (.deviceFailed arr mseq pos cls tide) s = .next (s.onDev (fun _ =>
          let e := pass (.deviceFailed (some arr) mseq pos cls tide)
          let l := { e.lnk with announced := addNew e.lnk.announced pos }
          let sp := { e.spare with adoptedBy := e.spare.adoptedBy.filter (fun a => a.1 != pos) }
          let failed := cls = 0x305 ∧ pos = d.pair.partner ∧ d.step.state = .running
          { e with lnk := l, spare := sp, step := if failed then { e.step with ferryFail := true } else e.step })) ∧
        exec (.adopted arr mseq pos serial tide) s = .next (s.onDev (fun _ =>
          let e := pass (.adopted (some arr) mseq pos serial tide)
          { e with lnk := { e.lnk with adopted := e.lnk.adopted ++ [(pos, serial)] } }))))

/-- 11 R363, R371, R377 to R379 and R384, 01 R17 and R18. What IDENT's comparison decides is `judgeLink`, 11 R384 to R387. -/
def Obligations.LinksTrainAndQualify : Prop :=
  ∀ (s : State) (st ln : Nat), clocksRun s.dev = true → s.dev.lnk.run = true → st < 6 → ln < 4 →
    let d := s.dev
    let k := linkOf d st ln
    let goes := fun (c : Instr) (k' : Link) => exec c s = .next (s.onDev (setLink st ln k'))
    (k.state = 1 → ∀ lanes : BitVec 18,
      (16 ≤ lanesUp lanes → goes (.linkSignalDetected st ln lanes) { k with state := 2, lanesSeen := lanes, cause := 0 }) ∧
      (lanesUp lanes < 16 → goes (.linkSignalDetected st ln lanes) { k with lanesSeen := lanes })) ∧
    (k.state = 1 → goes (.linkNoSignalTimer st ln) { k with cause := 1 }) ∧
    (k.state = 2 → ∀ lanes : BitVec 18, 16 ≤ lanesUp lanes →
      let m := (bitList 18 lanes.toNat).take 16
      goes (.equaliseDone st ln lanes) { k with state := 3, lanesSeen := lanes, rxMap := m, txMap := m }) ∧
    (k.state = 3 → exec (.alignDone st ln) s = .next (s.onDev (fun d =>
      send (.delay 5 st ln 0) (setLink st ln { k with state := 4, asking := some 5 } d)))) ∧
    (4 ≤ k.state → k.state ≠ 10 → ∀ stamp, exec (.delayProbe st ln stamp) s = .next (s.onDev (send (.delay 6 st ln stamp)))) ∧
    (k.state = 4 → ∀ rt ta, (rt - ta) / 2 ≤ 1500 → goes (.delayReply st ln rt ta)
      { k with state := 5, delay := (rt - ta) / 2, asking := none, bits := 0, laneErr := List.replicate 18 0 }) ∧
    (k.state = 4 → ∀ rt ta, 1500 < (rt - ta) / 2 → exec (.delayReply st ln rt ta) s = .next (s.onDev (fun d =>
      linkFailed st ln 4 (setLink st ln { k with delay := (rt - ta) / 2 } d)))) ∧
    (k.state = 9 → ∀ rt ta, goes (.delayReply st ln rt ta) { k with delay := (rt - ta) / 2, asking := none }) ∧
    (∀ n cause, (n, cause) ∈ [(2, 2), (3, 3), (4, 4), (9, 6)] → k.state = n →
      exec (.linkStateTimeout st ln) s = .next (s.onDev (linkFailed st ln cause))) ∧
    (k.state = 5 → ∀ bits errs,
      (bits < qualBits d → exec (.qualifyWindowEnd st ln bits errs) s = .next s) ∧
      (qualBits d ≤ bits →
        let es := (List.range 18).map (fun i => (errs[i]?).getD 0)
        let cls := (List.range 18).map (fun i => laneClass (k.lanesSeen.getLsbD i) ((es[i]?).getD 0) bits)
        let d1 := setLink st ln { k with cls := cls, laneErr := es, bits := bits } d
        ((laneMap cls).length < 16 → exec (.qualifyWindowEnd st ln bits errs) s = .next (s.onDev (fun _ => linkFailed st ln 5 d1))) ∧
        (16 ≤ (laneMap cls).length → exec (.qualifyWindowEnd st ln bits errs) s = .next (s.onDev (fun _ =>
          enterIdent st ln (setLink st ln { linkOf d1 st ln with rxMap := laneMap cls } d1)))))) ∧
    (k.state = 9 → exec (.retrainDone st ln) s = .next (s.onDev (fun d =>
      refreshStrait st (setLink st ln { k with state := 7, sameReplays := 0, asking := none } d)))) ∧
    (k.state = 6 ∨ k.state = 7 ∨ k.state = 8 → exec (.linkLossOfSignal st ln) s = .next (s.onDev (linkDown st ln 0))) ∧
    (k.state = 6 ∨ k.state = 7 ∨ k.state = 8 → ∀ id : IdentPayload, exec (.ident st ln id) s = .next (s.onDev (fun d =>
      let x := straitOf d st
      let p := id.pos.getD { x := 63, y := 63, z := 63 }
      judgeLink st ln (x.neighValid && x.serial != id.serial) (setLink st ln { k with ident := some id } (setStrait st { x with
        neighValid := true, neigh := p, serial := id.serial, wrap := id.wrap, numv := id.numv, partId := id.partId } d))))) ∧
    (∀ c allowed, (c, allowed) ∈ [(Instr.linkNoSignalTimer st ln, [1]), (.alignDone st ln, [3]), (.linkStateTimeout st ln, [2, 3, 4, 9]),
        (.retrainDone st ln, [9]), (.linkLossOfSignal st ln, [6, 7, 8])] → k.state ∉ allowed → exec c s = .next s) ∧
    (∀ (lanes : BitVec 18) (stamp : BitVec 64) rt ta bits errs (id : IdentPayload),
      (k.state ≠ 1 → exec (.linkSignalDetected st ln lanes) s = .next s) ∧
      (k.state ≠ 2 ∨ lanesUp lanes < 16 → exec (.equaliseDone st ln lanes) s = .next s) ∧
      (k.state < 4 ∨ k.state = 10 → exec (.delayProbe st ln stamp) s = .next s) ∧
      (k.state ≠ 4 → k.state ≠ 9 → exec (.delayReply st ln rt ta) s = .next s) ∧
      (k.state ≠ 5 → exec (.qualifyWindowEnd st ln bits errs) s = .next s) ∧
      (k.state < 6 ∨ 8 < k.state → exec (.ident st ln id) s = .next s)) ∧
    (exec .identPeriod s = .next (s.onDev identAll)) ∧
    (k.asking = some 5 → exec (.controlRepeatTimer st ln) s = .next (s.onDev (send (.delay 5 st ln 0)))) ∧
    (k.asking = some 2 → ∀ m t, k.moves = m :: t →
      exec (.controlRepeatTimer st ln) s = .next (s.onDev (send (.control 2 st ln ln k.rxSeq m.1 m.2)))) ∧
    (k.asking = some 7 → ∀ o t, activeLinks d st = o :: t →
      exec (.controlRepeatTimer st ln) s = .next (s.onDev (send (.control 7 st o ln (k.rxSeq - 1) 0 0)))) ∧
    (k.asking = none ∨ (k.asking = some 2 ∧ k.moves = []) ∨ (k.asking = some 7 ∧ activeLinks d st = []) →
      exec (.controlRepeatTimer st ln) s = .next s) ∧
    (∀ cw lane failed c, (failed, c) ∈ [(false, Instr.causewayLaneThreshold cw lane), (true, .causewayLaneFail cw lane)] →
      (firmwareRuns d = false ∨ 44 ≤ cw → exec c s = .next s) ∧
      (firmwareRuns d = true → cw < 44 →
        let due : Dev := { d with units := { d.units with cwDue := addNew d.units.cwDue (cw, lane, failed) } }
        let r : RasRec := { unitKind := 6, logical := BitVec.ofNat 32 (cw * 256 + lane), physical := BitVec.ofNat 32 (cw * 256 + lane) }
        let halved := (cw, lane) ∈ d.units.cwHalf
        let moved := (cw, lane) ∈ d.units.cwSpare
        let taken := ∃ x ∈ d.units.cwSpare, x.1 = cw ∧ x.2 / 32 = lane / 32
        exec c s = .next { s with dev := due } ∧
        (d.units.cwDue = [] →
          (¬ halved → ¬ taken → causewaySlack due = logRec { r with sev := 2, cls := 0x401 } { d with units := { d.units with cwSpare := d.units.cwSpare ++ [(cw, lane)] } }) ∧
          (¬ halved → taken → failed = true → causewaySlack due = logRec { r with sev := 3, cls := 0x402 } { d with units := { d.units with
            cwHalf := d.units.cwHalf ++ [(cw, lane)] } }) ∧
          (halved ∨ (taken ∧ failed = false) → moved ∨ taken ∨ halved → causewaySlack due = d))))

/-- 11 R359 to R374, R389 and R397. -/
def Obligations.FlitsReplayAndPacketsRoute : Prop :=
  ∀ (s : State) (st ln : Nat), clocksRun s.dev = true → s.dev.lnk.run = true → st < 6 → ln < 4 → (linkOf s.dev st ln).state = 7 →
    s.dev.lnk.links.length = 24 →
    let d := s.dev
    let k := linkOf d st ln
    (∀ f : Flit,
      (flitGood f = false → exec (.dataFlit st ln f) s = .next (s.onDev (fun d =>
        let k1 := { k with crcErr := satInc 0xFFFFFFFF k.crcErr }
        if k.nakDue then setLink st ln k1 d
        else send (.control 1 st ln ln k.rxSeq 0 0) (setLink st ln { k1 with nakDue := true } d)))) ∧
      (flitGood f = true → f.seq ≠ k.rxSeq → k.nakDue = true → exec (.dataFlit st ln f) s = .next (s.onDev (flitBack st ln f))) ∧
      (flitGood f = true → f.seq = k.rxSeq → f.eop = false → ∃ d', exec (.dataFlit st ln f) s = .next { s with dev := d' } ∧
        (linkOf d' st ln).rxSeq = k.rxSeq + 1 ∧ (linkOf d' st ln).nakDue = false ∧ d'.tensors = d.tensors ∧ d'.items = d.items ∧
        (f.sop = true → (f.ch, f.payload.take f.valid) ∈ (linkOf d' st ln).partials)) ∧
      (flitGood f = true → f.seq = k.rxSeq → f.sop = true → f.eop = true → ∃ e : Dev, e.tensors = d.tensors ∧ e.items = d.items ∧
        exec (.dataFlit st ln f) s = .next (s.onDev (fun _ =>
          forwardD st (packetOf (f.payload.take f.valid) f.ch) ((f.payload.take f.valid).drop 16) e)))) ∧
    (∀ seq, ∀ i, (ackLink (seq - 1) k).replayBuf.findIdx? (fun f => f.seq == seq) = some i → exec (.nak st ln seq) s =
      .next (s.onDev (fun d => resendFrom st ln i (setLink st ln (ackLink (seq - 1) k) d)))) ∧
    (k.replayBuf = [] → exec (.replayTimeout st ln) s = .next s) ∧
    (k.replayBuf ≠ [] → ∃ d', exec (.replayTimeout st ln) s = .next { s with dev := d' } ∧
      linkOf d' st ln = { k with replays := satInc 0xFFFFFFFF k.replays, sameReplays := k.sameReplays + 1 } ∧
      d'.out.sent = d.out.sent ++ k.replayBuf.map (fun f => Sent.flit st ln (stampFlit k f))) ∧
    (8 ≤ k.sameReplays → exec (.replayLimit st ln) s = .next (s.onDev (fun d =>
      refreshStrait st (setLink st ln { k with state := 9, asking := none } d)))) ∧
    (k.sameReplays < 8 → exec (.replayLimit st ln) s = .next s) ∧
    (∀ pos lane, k.rxMap.findIdx? (· == lane) = some pos → (∀ m ∈ k.moves, m.1 ≠ pos) →
      (∀ h t, holmLanes k = h :: t → k.moves = [] → exec (.laneFault st ln lane) s = .next (s.onDev (fun d =>
        send (.control 2 st ln ln k.rxSeq pos h) (setLink st ln { k with moves := [(pos, h)], asking := some 2 } d)))) ∧
      (holmLanes k = [] → exec (.laneFault st ln lane) s = .next (s.onDev (fun d =>
        logUnit 3 0x404 9 (st * 256 + ln) (st * 256 + ln) (linkDown st ln 5 d))))) ∧
    (∀ pos lane seq, k.replayBuf = [] → exec (.spareReq st ln pos lane seq) s = .next (s.onDev (fun d =>
      send (.control 3 st ln ln seq pos lane) (setLink st ln { k with txMap := k.txMap.set pos lane } d)))) ∧
    (∀ pos lane seq, k.moves = [(pos, lane)] → ∃ d', exec (.spareAck st ln pos lane seq) s = .next { s with dev := d' } ∧
      linkOf d' st ln = { k with
        rxMap := k.rxMap.set pos lane, cls := k.cls.set ((k.rxMap[pos]?).getD 0) 2, moves := [], asking := none } ∧
      d'.ras.due.length = d.ras.due.length + 1 ∧ d'.items = d.items) ∧
    (∀ lost seq, lost < 4 → lost ≠ ln → ∃ d', exec (.failover st ln lost seq) s = .next { s with dev := d' } ∧
      (linkOf d' st lost).replayBuf = [] ∧ (linkOf d' st lost).txq = [] ∧ d'.tensors = d.tensors ∧ d'.items = d.items) ∧
    (∀ ch, exec (.packetEopTimeout st ln ch) s = .next (s.onDev
      (setLink st ln { k with partials := k.partials.filter (fun p => p.1 != ch) }))) ∧
    (∀ (h : PacketHeader) (bs : Bytes), d.lnk.planLoaded = true →
      (h.partId ≠ d.lnk.partId ∨ inPart d h.dst = false → exec (.packetForward st h bs) s = .next (s.onDev (dropPacket h.src))) ∧
      (h.partId = d.lnk.partId → inPart d h.dst = true →
        (h.dst = d.lnk.pos → exec (.packetForward st h bs) s = .next (s.onDev (deliver st h bs))) ∧
        (∀ o c det, h.dst ≠ d.lnk.pos → wayOf d (some st) h = .out o c det →
          exec (.packetForward st h bs) s = .next (s.onDev (transmit o { h with cls := c, detour := det } bs)))))

/-- 05 R156 and R157; 14 R478 to R489; 12 R429; 10 R325 to R344. -/
def Obligations.UnitsMemoryAndRepair : Prop :=
  ∀ (s : State), firmwareRuns s.dev = true → s.dev.mem.hbm.length = 24 →
    let d := s.dev
    let u := d.units
    (∀ l b unc v, l < 1152 → b < 8 → aGet u.bind l = some v →
      let due : Dev := { d with units := { u with bankDue := addNew u.bankDue (v.1, v.2, b, l) } }
      exec (.accBankThreshold l b false) s = .next { s with dev := due } ∧
      (∃ d', exec (.accBankThreshold l b true) s = .next { s with dev := d' } ∧ d'.units = due.units ∧ d'.items = d.items ∧ d'.tensors = d.tensors ∧
        ∀ k ∈ servedBy d v, ∀ c, aGet d.cores k = some c → ∃ c', aGet d'.cores k = some c' ∧
          c'.run = false ∧ c'.tiles = [] ∧ c'.plan = [] ∧ c'.redo = replayOf c ∧ c'.segCount = c.segCount) ∧
      (u.bankDue = [] →
        (u.banksUsed.contains v = true → banksAtSlack due = coreLost v.1 v.2 0 { due with units := { due.units with bankDue := [] } }) ∧
        (u.banksUsed.contains v = false → let e := banksAtSlack due
          e.units.banksUsed = u.banksUsed ++ [v] ∧ bankPhys e v b = bankHolm d v ∧ e.units.bind = u.bind ∧ e.units.bankDue = [] ∧
          e.tensors = d.tensors ∧ e.cores = d.cores ∧ e.items = d.items)) ∧
      (∀ k x, 1152 ≤ k ∨ 8 ≤ x ∨ aGet u.bind k = none → exec (.accBankThreshold k x unc) s = .next s)) ∧
    (∀ cl p cause, cl < 6 → p < 208 →
      (u.retired.contains (cl, p) = true → exec (.coreLost cl p cause) s = .next s) ∧
      (∀ l h t, u.retired.contains (cl, p) = false → servedBy d (cl, p) = [l] → (cl, p) ∉ u.holms → u.fills = [] → freeHolms d cl = h :: t →
        ∃ d', exec (.coreLost cl p cause) s = .next { s with dev := d' } ∧ (cl, p) ∈ d'.units.retired ∧ (∀ b ∈ d'.units.bind, b.2 ≠ (cl, p)) ∧
          d'.units.fills = [{ l := l, p := h, cl := cl, replay := replayOf ((aGet d.cores l).getD {}) }] ∧
          ((aGet d'.cores l).getD {}).run = false ∧ d'.tensors = d.tensors ∧
          (((aGet d.cores l).getD {}).heldBy = [] → d'.items = d.items)) ∧
      (∀ l v, u.retired.contains (cl, p) = false → servedBy d (cl, p) = [l] → u.fills = [] → (∀ c, freeHolms d c = []) →
        v ∈ u.bind.map (·.2) → v ≠ (cl, p) → v.1 < 6 →
        ∃ d' w, exec (.coreLost cl p cause) s = .next { s with dev := d' } ∧ aGet d'.units.bind l = some w ∧ w ≠ (cl, p) ∧
          w ∈ u.bind.map (·.2) ∧ l ∈ d'.units.shared)) ∧
    (∀ cl ok left, u.fills = [] → exec (.coreFillComplete cl ok left) s = .next s) ∧
    (∀ f left, u.fills = [f] → f.p ≠ fillWaits →
      (∃ d', exec (.coreFillComplete f.cl true left) s = .next { s with dev := d' } ∧ aGet d'.units.bind f.l = some (f.cl, f.p) ∧
        d'.units.fills = [] ∧ (f.cl, f.p) ∉ d'.units.holms ∧ d'.tensors = d.tensors ∧
        let now := if d.tide.phase = .work then fitSegs d left f.replay else []
        let c := (aGet d.cores f.l).getD {}
        ((aGet d'.cores f.l).getD {}).plan = now ++ c.plan ∧ ((aGet d'.cores f.l).getD {}).redo = f.replay.drop now.length ++ c.redo) ∧
      (∃ d', exec (.coreFillComplete f.cl false left) s = .next { s with dev := d' } ∧
        (f.cl, f.p) ∈ d'.units.retired ∧ (f.cl, f.p) ∉ d'.units.holms)) ∧
    (∀ ccp, (ccp ∉ u.ccHolms → ccp ∉ u.ccIn → exec (.controlCoreLost ccp) s = .next s) ∧
      (ccp ∈ u.ccHolms → ∃ d', exec (.controlCoreLost ccp) s = .next { s with dev := d' } ∧
        ccp ∉ d'.units.ccHolms ∧ ccp ∈ d'.units.ccRetired ∧ d'.units.ccIn = u.ccIn ∧ d'.items = d.items) ∧
      (∀ i, ccp ∉ u.ccHolms → u.ccIn.findIdx? (· == ccp) = some i → ∃ d', exec (.controlCoreLost ccp) s = .next { s with dev := d' } ∧
        ccp ∈ d'.units.ccRetired ∧ d'.items = d.items ∧
        (∀ h t, sortByKey id u.ccHolms = h :: t → d'.units.ccIn = setAt u.ccIn i h ∧ h ∉ d'.units.ccHolms) ∧
        (u.ccHolms = [] → d'.units.ccIn = setAt u.ccIn i 16))) ∧
    (∀ ld ru, ld < 2 → ru < 36 →
      (u.ruDown.contains (ld, ru) = true → exec (.reductionUnitFailure ld ru) s = .next s) ∧
      (u.ruDown.contains (ld, ru) = false → ∃ d', exec (.reductionUnitFailure ld ru) s = .next { s with dev := d' } ∧
        d'.units.ruDown = u.ruDown ++ [(ld, ru)] ∧ d'.items = d.items ∧ d'.tensors = d.tensors ∧
        (∀ k q t, (List.range 32).find? (fun k => ruPhys d ld k == ru) = some k → ruHolms d ld = q :: t → ruPhys d' ld k = q) ∧
        (ruHolms d ld = [] → d'.units.ruMap = u.ruMap))) ∧
    (exec (.holmBistPeriod [] []) s = .next s ∧
      (∀ v, u.holms.contains v = true → ∃ d', exec (.holmBistPeriod [v] []) s = .next { s with dev := d' } ∧
        v ∈ d'.units.retired ∧ v ∉ d'.units.holms ∧ d'.units.bind = u.bind ∧ d'.items = d.items) ∧
      (∀ p, u.ccHolms.contains p = true → ∃ d', exec (.holmBistPeriod [] [p]) s = .next { s with dev := d' } ∧
        p ∈ d'.units.ccRetired ∧ p ∉ d'.units.ccHolms ∧ d'.units.ccIn = u.ccIn ∧ d'.items = d.items)) ∧
    (∀ n r, u.tickets.find? (fun t => t.id == n && t.state == 0) = none → exec (.unitTestComplete n r) s = .next s) ∧
    (∀ n r t, u.tickets.find? (fun t => t.id == n && t.state == 0) = some t →
      (ticketServing d t = true → exec (.unitTestComplete n r) s = .next s) ∧
      (ticketServing d t = false → t.stack = none → ∃ d', exec (.unitTestComplete n r) s = .next { s with dev := d' } ∧
        d'.units.tickets = u.tickets.map (fun x => if x.id = n then { x with state := if testPassed r then 1 else 2, res := r } else x) ∧
        (t.md = none → t.kind = 1 → testPassed r = true → (t.phys.toNat / 65536, t.phys.toNat % 65536) ∈ d'.units.holms) ∧
        (t.md = none → t.kind = 1 → testPassed r = false → (t.phys.toNat / 65536, t.phys.toNat % 65536) ∈ d'.units.retired)) ∧
      (∀ k, k < 24 → t.stack = some k → t.md = none → t.retire = false → (∀ x ∈ d.mem.regions, k ∉ x.2.onStacks) →
        ∃ d', exec (.unitTestComplete n r) s = .next { s with dev := d' } ∧ d'.tensors = d.tensors ∧
          (if testPassed r = true then (stack d' k).passed = true else (stack d' k).lost = true ∧ (stack d' k).testing = false)) ∧
      (∀ k, k < 24 → t.stack = some k → t.md = none → t.retire = true →
        (comingBack d k = true → exec (.unitTestComplete n r) s = .next s) ∧
        (comingBack d k = false → ∃ d', exec (.unitTestComplete n r) s = .next { s with dev := d' } ∧ d'.tensors = d.tensors ∧
          (stack d' k).testing = false ∧ (stack d' k).state = 0 ∧ k ∉ d'.mem.returning)) ∧
      (∀ k, t.stack = some k → t.retire = false → (∃ x ∈ d.mem.regions, k ∈ x.2.onStacks) → exec (.unitTestComplete n r) s = .next s)) ∧
    (∀ k, (24 ≤ k ∨ (stack d k).lost = true → exec (.stackLost k) s = .next s) ∧
      (k < 24 → (stack d k).lost = false → ∃ d', exec (.stackLost k) s = .next { s with dev := d' } ∧ (stack d' k).lost = true ∧
        ((∀ x ∈ d.mem.regions, k ∈ x.2.onStacks → x.2.parity = true ∧ ∀ j ∈ x.2.onStacks, j ≠ k → (stack d j).lost = false) →
          d'.tensors = d.tensors ∧ (∀ x ∈ d.mem.regions, k ∈ x.2.onStacks → x.1 ∈ d'.mem.restripes)) ∧
        (∀ x i t, x ∈ d.mem.regions → k ∈ x.2.onStacks → x.2.parity = false → aGet d.tensors i = some t → tensorIn t x.1 = true →
          (aGet d'.tensors i).map (·.lost) = some true))) ∧
    (∀ k, let done := k < 24 ∧ leaving d k = true ∧ ∀ x ∈ d.mem.regions, k ∈ x.2.onStacks → x.2.parity = false
      (done → ∃ d', exec (.restripeComplete k) s = .next { s with dev := d' } ∧ stack d' k = { stack d k with state := 3 } ∧
        d' = { d with mem := { d.mem with hbm := d'.mem.hbm } }) ∧
      (¬ done → exec (.restripeComplete k) s = .next s)) ∧
    (∀ r, aGet d.mem.regions r = none → exec (.resaltStart r) s = .next s) ∧
    (∀ r x, aGet d.mem.regions r = some x →
      let on := d.mem.ctl.active.getLsbD 0 = true ∧ hotRunCfg d ≤ x.hotRun ∧ x.holdUntil ≤ d.tide.count ∧ x.moving = none ∧
        r ∉ d.mem.resaltQueue ∧ mdTesting d = false
      (¬ on → exec (.resaltStart r) s = .next s) ∧
      (on → d.mem.resalts.length < 2 → (∀ j ∈ x.onStacks, freeGranules d j ≠ 0) →
        ∃ d', exec (.resaltStart r) s = .next { s with dev := d' } ∧ d'.mem.resalts = d.mem.resalts ++ [r] ∧
          (region d' r).moving = some (x.onStacks, x.onStacks.map (pickGranule d), Config.salt d.free) ∧
          (region d' r).onStacks = x.onStacks ∧ d'.tensors = d.tensors) ∧
      (on → d.mem.resalts.length < 2 → (∃ j ∈ x.onStacks, freeGranules d j = 0) →
        exec (.resaltStart r) s = .next (s.onDev (fun d => { d with mem := { d.mem with resaltQueue := d.mem.resaltQueue ++ [r] } }))) ∧
      (on → 2 ≤ d.mem.resalts.length → ∃ d', exec (.resaltStart r) s = .next { s with dev := d' } ∧
        d'.mem.resaltQueue = d.mem.resaltQueue ++ [r] ∧ d'.mem.regions = d.mem.regions ∧ d'.tensors = d.tensors) ∧
      (∀ t, d.mem.ctl.active.getLsbD 0 = true → regionHot d x = true → x.lastResalt = some t → d.tide.count ≤ t + 256 →
        x.holdUntil ≤ d.tide.count → (region (markHot d) r).holdUntil = d.tide.count + 4096)) ∧
    (∀ r, (r ∉ d.mem.resalts → exec (.resaltComplete r) s = .next s) ∧
      (∀ x m, r ∈ d.mem.resalts → aGet d.mem.regions r = some x → x.moving = some m →
        (x.moved < 8192 → exec (.resaltComplete r) s = .next s) ∧
        (8192 ≤ x.moved → ∃ d', exec (.resaltComplete r) s = .next { s with dev := d' } ∧
          r ∉ d'.mem.resalts ∧ d'.tensors = d.tensors ∧ (usedRows d r ≠ [] ∨ x.lagoon = true → aGet d'.mem.regions r = some { x with
            onStacks := m.1, granules := m.2.1, salt := m.2.2, moving := none, moved := 0, hotRun := 0, lastResalt := some d.tide.count })))) ∧
    (∀ sid, (scrubOf d sid = none → exec (.scrubComplete sid) s = .next s) ∧
      (∀ x, scrubOf d sid = some x → x.state ≠ 0 → exec (.scrubComplete sid) s = .next s) ∧
      (∀ x, scrubOf d sid = some x → x.state = 0 → ∃ d' y, exec (.scrubComplete sid) s = .next { s with dev := d' } ∧
        scrubOf d' sid = some y ∧ y.state = 1 ∧ d'.items = d.items ∧ d'.cores = d.cores ∧
        (troubleKeys d = [] → d.mem.parityBad = [] → d'.tensors = d.tensors ∧ d'.ras = d.ras ∧
          y.corrected = x.corrected ∧ y.rebuilt = x.rebuilt ∧ y.uncorr = x.uncorr ∧ y.mismatch = 0))) ∧
    (∀ n, (d.mem.retires.find? (fun t => t.ticket == n) = none → exec (.retirementComplete n) s = .next s) ∧
      (∀ t, d.mem.retires.find? (fun t => t.ticket == n) = some t → t.stack < 24 →
        (t.todo = [] → exec (.retirementComplete n) s = .next s) ∧
        (t.todo ≠ [] → ∃ d', exec (.retirementComplete n) s = .next { s with dev := d' } ∧
          (∀ g ∈ t.todo, g ∈ (stack d' t.stack).retired) ∧
          d'.mem.retires = d.mem.retires.map (fun x => if x.ticket = n then { x with todo := [], done := x.total } else x))))

/-- 17 R545 to R561; 02 R53 and R54. The cause word of an unwritten cause is log 7's. -/
def Obligations.InputPowerThrottlesAndTelemetry : Prop :=
  ∀ (s : State),
    let d := s.dev
    let off := fun (w : Nat) (o : Res) => ∃ d', o = .next { s with dev := d' } ∧ d'.flash = { d.flash with lastOff := BitVec.ofNat 16 w } ∧
      d'.host = d.host ∧ d'.tel.powered = false ∧ d'.power.good = 0 ∧ d'.tensors = [] ∧ d'.items = [] ∧ d'.cores = [] ∧ d'.mem = {} ∧
      d'.tide = {} ∧ d'.ophal = 0
    let under := if d.tel.perst then 0xFF00 else 0xFF01
    (d.tel.powered = true →
      (∀ mv, 44000 ≤ mv → mv < 48000 → ∃ d', exec (.vinLow mv) s = .next { s with dev := d' } ∧
        d'.tel.vin = mv ∧ d'.tel.vinLow = true ∧ d'.tel.vinHigh = false ∧ d'.tel.powered = true ∧ d'.items = d.items ∧ d'.tensors = d.tensors ∧
        (d.tel.vinLow = true → d'.ras = d.ras) ∧ (d.tel.vinLow = false → d'.tel.alert = true)) ∧
      (∀ mv, 58000 < mv → mv ≤ 61000 → ∃ d', exec (.vinHigh mv) s = .next { s with dev := d' } ∧
        d'.tel.vin = mv ∧ d'.tel.vinHigh = true ∧ d'.tel.vinLow = false ∧ d'.tel.powered = true ∧ d'.items = d.items ∧ d'.tensors = d.tensors ∧
        (d.tel.vinHigh = true → d'.ras = d.ras) ∧ (d.tel.vinHigh = false → d'.tel.alert = true)) ∧
      (∀ mv, 48000 ≤ mv → mv ≤ 58000 → exec (.vinInRange mv) s = .next (s.onDev (fun d =>
        { d with tel := { d.tel with vin := mv, vinLow := false, vinHigh := false } }))) ∧
      (∀ mv, mv < 44000 → off under (exec (.inputLockout mv) s)) ∧
      (∀ mv, 61000 < mv → off 0xFF02 (exec (.inputProtection mv) s)) ∧
      (∀ c, off (0xFF00 + (if c = 1 ∧ d.tel.perst = true then 0 else c) % 16) (exec (.converterStop c true) s)) ∧
      (∀ c, off 0xFF0F (exec (.converterStop c false) s)) ∧
      (∀ unit temp, unit < 39 → unitPowered unit d = true → 1150 ≤ temp → off (unit * 256 + 3) (exec (.thermalShutdown unit temp) s)) ∧
      (∀ mv, exec (.softStart mv) s = .next s)) ∧
    (∀ mv, (d.tel.powered = false ∨ mv < 44000 ∨ 48000 ≤ mv → exec (.vinLow mv) s = .next s) ∧
      (d.tel.powered = false ∨ mv ≤ 58000 ∨ 61000 < mv → exec (.vinHigh mv) s = .next s) ∧
      (d.tel.powered = false ∨ mv < 48000 ∨ 58000 < mv → exec (.vinInRange mv) s = .next s) ∧
      (d.tel.powered = false ∨ 44000 ≤ mv → exec (.inputLockout mv) s = .next s) ∧
      (d.tel.powered = false ∨ mv ≤ 61000 → exec (.inputProtection mv) s = .next s) ∧
      (mv < 46000 → exec (.softStart mv) s = .next s)) ∧
    (∀ c w, d.tel.powered = false → exec (.converterStop c w) s = .next s) ∧
    (∀ unit temp, (d.tel.powered = false ∨ unitPowered unit d = false ∨ temp < 1150 → exec (.thermalShutdown unit temp) s = .next s) ∧
      (clocksRun d = false ∨ 6 ≤ unit ∨ d.power.good.getLsbD unit = false ∨ temp < 1050 ∨ unit ∈ d.tel.trips →
        exec (.thermalTrip unit temp) s = .next s) ∧
      (isOn d = false ∨ unit ∉ d.tel.trips ∨ 1000 < temp → exec (.thermalTripClear unit temp) s = .next s) ∧
      (isOn d = false ∨ unit < 6 ∨ unitPowered unit d = false ∨ temp < 1000 → exec (.hotWarning unit temp) s = .next s)) ∧
    (∀ avg, (clocksRun d = false ∨ avg ≤ 4950 ∨ d.tel.elec = true → exec (.electricalThrottle avg) s = .next s) ∧
      (isOn d = false ∨ d.tel.elec = false ∨ 4950 < avg → exec (.electricalThrottleClear avg) s = .next s)) ∧
    (∀ inlet, (firmwareRuns d = false ∨ inlet ≤ 400 → exec (.coolantWarm inlet) s = .next s) ∧
      (firmwareRuns d = false ∨ 400 < inlet → exec (.coolantWarmEnd inlet) s = .next s)) ∧
    (∀ mv, d.tel.powered = false → 46000 ≤ mv → ∃ d', exec (.softStart mv) s = .next { s with dev := d' } ∧
      d'.tel.powered = true ∧ d'.tel.perst = true ∧ d'.tel.vin = mv ∧ d'.flash = { d.flash with startCount := d.flash.startCount + 1 } ∧
      d'.power = {} ∧ d'.host = d.host) ∧
    (∀ c temp, clocksRun d = true → c < 6 → d.power.good.getLsbD c = true → 1050 ≤ temp → c ∉ d.tel.trips →
      ∃ d', exec (.thermalTrip c temp) s = .next { s with dev := d' } ∧ d'.tel.halved = addNew d.tel.halved c ∧
        d'.tel.trips = d.tel.trips ++ [c] ∧ d'.tel.thermTrips = satInc 0xFFFF d.tel.thermTrips ∧
        d'.tide.throttles = satInc 0xFFFF d.tide.throttles ∧ d'.items = d.items ∧ d'.cores = d.cores ∧ d'.tensors = d.tensors) ∧
    (∀ c temp, isOn d = true → c ∈ d.tel.trips → temp ≤ 1000 → ∃ d', exec (.thermalTripClear c temp) s = .next { s with dev := d' } ∧
      d'.tel.trips = d.tel.trips.filter (· != c) ∧ d'.tel.halved = d.tel.halved ∧ d'.ras = d.ras ∧ d'.items = d.items) ∧
    (∀ avg, clocksRun d = true → 4950 < avg → d.tel.elec = false → ∃ d', exec (.electricalThrottle avg) s = .next { s with dev := d' } ∧
      d'.tel.halved = (List.range 6).foldl addNew d.tel.halved ∧ d'.tel.elec = true ∧ d'.tel.alert = true ∧
      d'.tel.elecTrips = satInc 0xFFFF d.tel.elecTrips ∧ d'.items = d.items ∧ d'.cores = d.cores ∧ d'.tensors = d.tensors) ∧
    (∀ avg, isOn d = true → d.tel.elec = true → avg ≤ 4950 → exec (.electricalThrottleClear avg) s = .next (s.onDev (fun d =>
      { d with tel := { d.tel with elec := false } }))) ∧
    (∀ unit temp, isOn d = true → 6 ≤ unit → unitPowered unit d = true → 1000 ≤ temp →
      ∃ d', exec (.hotWarning unit temp) s = .next { s with dev := d' } ∧ d'.tel.hot = true ∧ d'.tel.halved = d.tel.halved ∧
        d'.items = d.items ∧ d'.cores = d.cores ∧ (15 ≤ unit → d'.tel.hbmTemps = setAt d.tel.hbmTemps (unit - 15) (temp % 65536))) ∧
    (∀ inlet, firmwareRuns d = true →
      (400 < inlet → inlet < 65535 → ∃ d', exec (.coolantWarm inlet) s = .next { s with dev := d' } ∧ d'.tel.inlet = inlet ∧ d'.tel.warm = true ∧
        (d.tel.warm = true → d'.ras = d.ras) ∧ (d.tel.warm = false → d'.tel.alert = true) ∧ d'.items = d.items) ∧
      (inlet ≤ 400 → exec (.coolantWarmEnd inlet) s = .next (s.onDev (fun d =>
        { d with tel := { d.tel with inlet := inlet, warm := false } })))) ∧
    (∀ x ∈ [(Instr.smbReadVin, toLe 2 d.tel.vin), (.smbReadIin, toLe 2 d.tel.iin), (.smbReadPin, toLe 2 d.tel.pin), (.smbReadTemp, toLe 2 (hottest d)),
        (.smbReadInlet, toLe 2 d.tel.inlet), (.smbReadOutlet, toLe 2 d.tel.outlet), (.smbReadStatus, toLe 2 (telStatus d)),
        (.smbReadLastOff, toLe 1 d.flash.lastOff.toNat), (.smbReadSerial, toLe 8 d.serial.toNat), (.smbReadCapEff, toLe 2 (effCap d))],
      exec x.1 s = .next (if d.tel.powered then s.onDev (fun d => { d with
        out := { d.out with rdBytes := x.2 }, tel := { d.tel with alert := d.tel.alert && x.1 != .smbReadStatus } }) else s)) ∧
    (∀ code : BitVec 8, code = 0 ∨ 0x0A < code.toNat → exec (.smbUnassignedCommand code) s =
      .next (if d.tel.powered then s.onDev (fun d => { d with out := { d.out with rdBytes := [0xFF] } }) else s)) ∧
    exec .smbAlertResponse s = .next (if d.tel.powered && d.tel.alert then s.onDev (fun d =>
      { d with out := { d.out with rdBytes := toLe 1 (2 * (0x58 + d.tel.addrSel.toNat)) } }) else s)
end

