-- ==== Sys2Proof/Laws/Mem.lean ====
section
/-! SUPPORT. Addressed bytes: every memory operation keeps the canonical form, a read after a write gives what was written, and a write
leaves every other byte alone; keyed tables: what is read after a write. -/
namespace Sys2Proof.Laws
open Sys2Proof Sys2Proof.Machine

/-! ### The canonical form -/

theorem wf_cons {a : Nat} {b : Byte} {m : Mem} :
    Memory.wf ((a, b) :: m) = true ↔ b ≠ 0 ∧ (∀ c ∈ m, a < c.1) ∧ Memory.wf m = true := by
  simp [Memory.wf, and_assoc]

theorem wf_filter (p : Nat × Byte → Bool) {m : Mem} (h : Memory.wf m = true) : Memory.wf (m.filter p) = true := by
  induction m with
  | nil => rfl
  | cons c t ih =>
    obtain ⟨hb, ht, hw⟩ := wf_cons.mp h
    by_cases hp : p c
    · rw [List.filter_cons_of_pos hp]
      exact wf_cons.mpr ⟨hb, fun x hx => ht x (List.mem_filter.mp hx).1, ih hw⟩
    · rw [List.filter_cons_of_neg hp]
      exact ih hw

theorem cellsFrom_range (bs : Bytes) : ∀ a, ∀ c ∈ cellsFrom a bs, a ≤ c.1 ∧ c.1 < a + bs.length := by
  induction bs with
  | nil => intro a c h; simp [cellsFrom] at h
  | cons b t ih =>
    intro a c h
    have hlen : (b :: t).length = t.length + 1 := rfl
    unfold cellsFrom at h
    split at h
    · have := ih (a + 1) c h; omega
    · rcases List.mem_cons.mp h with h | h
      · subst h; simp
      · have := ih (a + 1) c h; omega

theorem wf_cellsFrom (bs : Bytes) : ∀ a, Memory.wf (cellsFrom a bs) = true := by
  induction bs with
  | nil => intro a; rfl
  | cons b t ih =>
    intro a
    unfold cellsFrom
    split
    · exact ih (a + 1)
    · rename_i hb
      exact wf_cons.mpr ⟨hb, fun c hc => by have := (cellsFrom_range t (a + 1) c hc).1; omega, ih (a + 1)⟩

theorem wf_append {m n : Mem} (hm : Memory.wf m = true) (hn : Memory.wf n = true) (h : ∀ c ∈ m, ∀ e ∈ n, c.1 < e.1) :
    Memory.wf (m ++ n) = true := by
  induction m with
  | nil => simpa using hn
  | cons c t ih =>
    obtain ⟨hb, ht, hw⟩ := wf_cons.mp hm
    refine wf_cons.mpr ⟨hb, fun x hx => ?_, ih hw (fun x hx e he => h x (List.mem_cons_of_mem _ hx) e he)⟩
    rcases List.mem_append.mp hx with hx | hx
    · exact ht x hx
    · exact h c List.mem_cons_self x hx

/-- A write keeps the canonical form. -/
theorem wf_memWrite {m : Mem} (h : Memory.wf m = true) (a : Nat) (bs : Bytes) : Memory.wf (memWrite m a bs) = true := by
  unfold memWrite
  refine wf_append (wf_append (wf_filter _ h) (wf_cellsFrom bs a) ?_) (wf_filter _ h) ?_
  · intro c hc e he
    have h1 := (List.mem_filter.mp hc).2
    have h2 := (cellsFrom_range bs a e he).1
    simp at h1; omega
  · intro c hc e he
    have h2 := (List.mem_filter.mp he).2
    simp at h2
    rcases List.mem_append.mp hc with hc | hc
    · have h1 := (List.mem_filter.mp hc).2
      simp at h1; omega
    · have h1 := (cellsFrom_range bs a c hc).2
      omega

/-- Stores of the host keep the canonical form. -/
theorem wf_applyStores (st : HostStores) : ∀ {m : Mem}, Memory.wf m = true → Memory.wf (applyStores m st) = true := by
  unfold applyStores
  induction st with
  | nil => intro m h; simpa using h
  | cons c t ih => intro m h; exact ih (wf_memWrite h _ _)

/-! ### Reads after writes -/

theorem memGet_absent {m : Mem} {a : Nat} (h : ∀ c ∈ m, c.1 ≠ a) : memGet m a = 0 := by
  induction m with
  | nil => rfl
  | cons c t ih =>
    have h0 := h c List.mem_cons_self
    simp only [memGet, h0, if_false]
    exact ih (fun x hx => h x (List.mem_cons_of_mem _ hx))

theorem memGet_append {m n : Mem} {a : Nat} (h : ∀ c ∈ m, c.1 ≠ a) : memGet (m ++ n) a = memGet n a := by
  induction m with
  | nil => rfl
  | cons c t ih =>
    have h0 := h c List.mem_cons_self
    simp only [List.cons_append, memGet, h0, if_false]
    exact ih (fun x hx => h x (List.mem_cons_of_mem _ hx))

theorem memGet_append_left {m n : Mem} {a : Nat} (h : ∀ c ∈ n, c.1 ≠ a) : memGet (m ++ n) a = memGet m a := by
  induction m with
  | nil => simpa [memGet] using memGet_absent h
  | cons c t ih =>
    by_cases hc : c.1 = a
    · simp [memGet, hc]
    · simp only [List.cons_append, memGet, hc, if_false]
      exact ih

theorem memGet_filter {m : Mem} {a : Nat} (p : Nat × Byte → Bool) (hp : ∀ b, p (a, b) = true) : memGet (m.filter p) a = memGet m a := by
  induction m with
  | nil => rfl
  | cons c t ih =>
    obtain ⟨k, b⟩ := c
    by_cases hk : k = a
    · subst hk; simp [hp, memGet]
    · by_cases hc : p (k, b)
      · simp [hc, memGet, hk, ih]
      · simp [hc, memGet, hk, ih]

theorem memGet_cellsFrom (bs : Bytes) : ∀ a i, i < bs.length → memGet (cellsFrom a bs) (a + i) = (bs[i]?).getD 0 := by
  induction bs with
  | nil => intro a i h; simp at h
  | cons b t ih =>
    intro a i h
    unfold cellsFrom
    cases i with
    | zero =>
      split
      · rename_i hb
        rw [memGet_absent]
        · simp [hb]
        · intro c hc
          have := (cellsFrom_range t (a + 1) c hc).1
          omega
      · simp [memGet]
    | succ j =>
      have hj : j < t.length := by simpa using h
      have e : a + (j + 1) = a + 1 + j := by omega
      split
      · rw [e, ih (a + 1) j hj]; simp
      · have hne : a ≠ a + (j + 1) := by omega
        simp only [memGet, hne, if_false]
        rw [e, ih (a + 1) j hj]; simp

/-- A byte inside the stored range is what was stored. -/
theorem memGet_memWrite_in (m : Mem) (a : Nat) (bs : Bytes) (i : Nat) (h : i < bs.length) :
    memGet (memWrite m a bs) (a + i) = (bs[i]?).getD 0 := by
  unfold memWrite
  rw [memGet_append_left, memGet_append, memGet_cellsFrom bs a i h]
  · intro c hc
    have := (List.mem_filter.mp hc).2
    simp at this; omega
  · intro c hc
    have := (List.mem_filter.mp hc).2
    simp at this; omega

/-- A byte outside the stored range is as before. -/
theorem memGet_memWrite_out (m : Mem) (a : Nat) (bs : Bytes) (x : Nat) (h : x < a ∨ a + bs.length ≤ x) :
    memGet (memWrite m a bs) x = memGet m x := by
  unfold memWrite
  rcases h with h | h
  · rw [memGet_append_left, memGet_append_left, memGet_filter]
    · intro b; simpa using h
    · intro c hc
      have := (cellsFrom_range bs a c hc).1
      omega
    · intro c hc
      have := (List.mem_filter.mp hc).2
      simp at this; omega
  · rw [memGet_append, memGet_filter]
    · intro b; simpa using h
    · intro c hc
      rcases List.mem_append.mp hc with hc | hc
      · have := (List.mem_filter.mp hc).2
        simp at this; omega
      · have := (cellsFrom_range bs a c hc).2
        omega

/-! ### Keyed tables -/

@[simp] theorem aGet_aSet_same {α : Type} (l : Assoc α) (k : Nat) (v : α) : aGet (aSet l k v) k = some v := by
  induction l with
  | nil => simp [aSet, aGet]
  | cons c t ih =>
    unfold aSet
    split
    · have : c.1 ≠ k := by omega
      simp [aGet, this, ih]
    · split <;> simp [aGet]

theorem aGet_aSet_other {α : Type} (l : Assoc α) (k i : Nat) (v : α) (h : i ≠ k) : aGet (aSet l k v) i = aGet l i := by
  induction l with
  | nil => simp [aSet, aGet, Ne.symm h]
  | cons c t ih =>
    unfold aSet
    split
    · by_cases h3 : c.1 = i <;> simp [aGet, h3, ih]
    · split
      · rename_i h2
        simp [aGet, Ne.symm h, h2]
      · simp [aGet, Ne.symm h]

@[simp] theorem aGet_aDel_same {α : Type} (l : Assoc α) (k : Nat) : aGet (aDel l k) k = none := by
  induction l with
  | nil => rfl
  | cons c t ih =>
    by_cases h : c.1 = k
    · have e : aDel (c :: t) k = aDel t k := by simp [aDel, h]
      rw [e, ih]
    · have e : aDel (c :: t) k = c :: aDel t k := by simp [aDel, h]
      rw [e]
      simp [aGet, h, ih]

theorem aGet_aMod {α : Type} (l : Assoc α) (k i : Nat) (f : α → α) :
    aGet (aMod l k f) i = if i = k then (aGet l i).map f else aGet l i := by
  induction l with
  | nil => simp [aMod, aGet]
  | cons c t ih =>
    have e : aMod (c :: t) k f = (if c.1 = k then (c.1, f c.2) else c) :: aMod t k f := rfl
    rw [e]
    by_cases h1 : c.1 = i
    · by_cases h2 : i = k <;> simp [h1, h2, aGet]
    · by_cases h2 : c.1 = k
      · have h3 : k ≠ i := by omega
        simp only [h2, if_true, aGet, h3, if_false, ih]
      · simp only [h2, if_false, aGet, h1, ih]

end Sys2Proof.Laws
end

