-- ==== Sys2Proof/Laws/State.lean ====
section
/-! SUPPORT. The fields after each named update of the state: what the update sets, and that it leaves every other field alone. -/
namespace Sys2Proof.Laws
open Sys2Proof Sys2Proof.Machine

/-! ### State.onDev -/

@[simp] theorem onDev_dev (f : Dev → Dev) (s : State) : (s.onDev f).dev = f s.dev := rfl
@[simp] theorem onDev_fuses (f : Dev → Dev) (s : State) : (s.onDev f).fuses = s.fuses := rfl
@[simp] theorem onDev_pending (f : Dev → Dev) (s : State) : (s.onDev f).pending = s.pending := rfl
@[simp] theorem onDev_onDev (f g : Dev → Dev) (s : State) : (s.onDev f).onDev g = s.onDev (fun d => g (f d)) := rfl

/-! ### setCore -/

@[simp] theorem setCore_cores (l : Nat) (c : Core) (d : Dev) : (setCore l c d).cores = aSet d.cores l c := rfl
@[simp] theorem setCore_serial (l : Nat) (c : Core) (d : Dev) : (setCore l c d).serial = d.serial := rfl
@[simp] theorem setCore_ophal (l : Nat) (c : Core) (d : Dev) : (setCore l c d).ophal = d.ophal := rfl
@[simp] theorem setCore_fuseIds (l : Nat) (c : Core) (d : Dev) : (setCore l c d).fuseIds = d.fuseIds := rfl
@[simp] theorem setCore_tide (l : Nat) (c : Core) (d : Dev) : (setCore l c d).tide = d.tide := rfl
@[simp] theorem setCore_vote (l : Nat) (c : Core) (d : Dev) : (setCore l c d).vote = d.vote := rfl
@[simp] theorem setCore_step (l : Nat) (c : Core) (d : Dev) : (setCore l c d).step = d.step := rfl
@[simp] theorem setCore_mbx (l : Nat) (c : Core) (d : Dev) : (setCore l c d).mbx = d.mbx := rfl
@[simp] theorem setCore_mbxOrder (l : Nat) (c : Core) (d : Dev) : (setCore l c d).mbxOrder = d.mbxOrder := rfl
@[simp] theorem setCore_pf0 (l : Nat) (c : Core) (d : Dev) : (setCore l c d).pf0 = d.pf0 := rfl
@[simp] theorem setCore_pf1 (l : Nat) (c : Core) (d : Dev) : (setCore l c d).pf1 = d.pf1 := rfl
@[simp] theorem setCore_chans (l : Nat) (c : Core) (d : Dev) : (setCore l c d).chans = d.chans := rfl
@[simp] theorem setCore_tensors (l : Nat) (c : Core) (d : Dev) : (setCore l c d).tensors = d.tensors := rfl
@[simp] theorem setCore_maps (l : Nat) (c : Core) (d : Dev) : (setCore l c d).maps = d.maps := rfl
@[simp] theorem setCore_programs (l : Nat) (c : Core) (d : Dev) : (setCore l c d).programs = d.programs := rfl
@[simp] theorem setCore_plans (l : Nat) (c : Core) (d : Dev) : (setCore l c d).plans = d.plans := rfl
@[simp] theorem setCore_factors (l : Nat) (c : Core) (d : Dev) : (setCore l c d).factors = d.factors := rfl
@[simp] theorem setCore_warms (l : Nat) (c : Core) (d : Dev) : (setCore l c d).warms = d.warms := rfl
@[simp] theorem setCore_groups (l : Nat) (c : Core) (d : Dev) : (setCore l c d).groups = d.groups := rfl
@[simp] theorem setCore_idx (l : Nat) (c : Core) (d : Dev) : (setCore l c d).idx = d.idx := rfl
@[simp] theorem setCore_items (l : Nat) (c : Core) (d : Dev) : (setCore l c d).items = d.items := rfl
@[simp] theorem setCore_nextItem (l : Nat) (c : Core) (d : Dev) : (setCore l c d).nextItem = d.nextItem := rfl
@[simp] theorem setCore_loss (l : Nat) (c : Core) (d : Dev) : (setCore l c d).loss = d.loss := rfl
@[simp] theorem setCore_devFlags (l : Nat) (c : Core) (d : Dev) : (setCore l c d).devFlags = d.devFlags := rfl
@[simp] theorem setCore_cluFlags (l : Nat) (c : Core) (d : Dev) : (setCore l c d).cluFlags = d.cluFlags := rfl
@[simp] theorem setCore_upd (l : Nat) (c : Core) (d : Dev) : (setCore l c d).upd = d.upd := rfl
@[simp] theorem setCore_mem (l : Nat) (c : Core) (d : Dev) : (setCore l c d).mem = d.mem := rfl
@[simp] theorem setCore_units (l : Nat) (c : Core) (d : Dev) : (setCore l c d).units = d.units := rfl
@[simp] theorem setCore_flash (l : Nat) (c : Core) (d : Dev) : (setCore l c d).flash = d.flash := rfl
@[simp] theorem setCore_power (l : Nat) (c : Core) (d : Dev) : (setCore l c d).power = d.power := rfl
@[simp] theorem setCore_brg (l : Nat) (c : Core) (d : Dev) : (setCore l c d).brg = d.brg := rfl
@[simp] theorem setCore_lnk (l : Nat) (c : Core) (d : Dev) : (setCore l c d).lnk = d.lnk := rfl
@[simp] theorem setCore_pair (l : Nat) (c : Core) (d : Dev) : (setCore l c d).pair = d.pair := rfl
@[simp] theorem setCore_lagoon (l : Nat) (c : Core) (d : Dev) : (setCore l c d).lagoon = d.lagoon := rfl
@[simp] theorem setCore_spare (l : Nat) (c : Core) (d : Dev) : (setCore l c d).spare = d.spare := rfl
@[simp] theorem setCore_ras (l : Nat) (c : Core) (d : Dev) : (setCore l c d).ras = d.ras := rfl
@[simp] theorem setCore_rst (l : Nat) (c : Core) (d : Dev) : (setCore l c d).rst = d.rst := rfl
@[simp] theorem setCore_sec (l : Nat) (c : Core) (d : Dev) : (setCore l c d).sec = d.sec := rfl
@[simp] theorem setCore_tel (l : Nat) (c : Core) (d : Dev) : (setCore l c d).tel = d.tel := rfl
@[simp] theorem setCore_frz (l : Nat) (c : Core) (d : Dev) : (setCore l c d).frz = d.frz := rfl
@[simp] theorem setCore_abandoned (l : Nat) (c : Core) (d : Dev) : (setCore l c d).abandoned = d.abandoned := rfl
@[simp] theorem setCore_earlyJoins (l : Nat) (c : Core) (d : Dev) : (setCore l c d).earlyJoins = d.earlyJoins := rfl
@[simp] theorem setCore_host (l : Nat) (c : Core) (d : Dev) : (setCore l c d).host = d.host := rfl
@[simp] theorem setCore_free (l : Nat) (c : Core) (d : Dev) : (setCore l c d).free = d.free := rfl
@[simp] theorem setCore_out (l : Nat) (c : Core) (d : Dev) : (setCore l c d).out = d.out := rfl

/-! ### setMbx -/

@[simp] theorem setMbx_mbx (m : Nat) (b : Mailbox) (d : Dev) : (setMbx m b d).mbx = aSet d.mbx m b := rfl
@[simp] theorem setMbx_serial (m : Nat) (b : Mailbox) (d : Dev) : (setMbx m b d).serial = d.serial := rfl
@[simp] theorem setMbx_ophal (m : Nat) (b : Mailbox) (d : Dev) : (setMbx m b d).ophal = d.ophal := rfl
@[simp] theorem setMbx_fuseIds (m : Nat) (b : Mailbox) (d : Dev) : (setMbx m b d).fuseIds = d.fuseIds := rfl
@[simp] theorem setMbx_tide (m : Nat) (b : Mailbox) (d : Dev) : (setMbx m b d).tide = d.tide := rfl
@[simp] theorem setMbx_vote (m : Nat) (b : Mailbox) (d : Dev) : (setMbx m b d).vote = d.vote := rfl
@[simp] theorem setMbx_step (m : Nat) (b : Mailbox) (d : Dev) : (setMbx m b d).step = d.step := rfl
@[simp] theorem setMbx_mbxOrder (m : Nat) (b : Mailbox) (d : Dev) : (setMbx m b d).mbxOrder = d.mbxOrder := rfl
@[simp] theorem setMbx_pf0 (m : Nat) (b : Mailbox) (d : Dev) : (setMbx m b d).pf0 = d.pf0 := rfl
@[simp] theorem setMbx_pf1 (m : Nat) (b : Mailbox) (d : Dev) : (setMbx m b d).pf1 = d.pf1 := rfl
@[simp] theorem setMbx_chans (m : Nat) (b : Mailbox) (d : Dev) : (setMbx m b d).chans = d.chans := rfl
@[simp] theorem setMbx_tensors (m : Nat) (b : Mailbox) (d : Dev) : (setMbx m b d).tensors = d.tensors := rfl
@[simp] theorem setMbx_maps (m : Nat) (b : Mailbox) (d : Dev) : (setMbx m b d).maps = d.maps := rfl
@[simp] theorem setMbx_programs (m : Nat) (b : Mailbox) (d : Dev) : (setMbx m b d).programs = d.programs := rfl
@[simp] theorem setMbx_plans (m : Nat) (b : Mailbox) (d : Dev) : (setMbx m b d).plans = d.plans := rfl
@[simp] theorem setMbx_factors (m : Nat) (b : Mailbox) (d : Dev) : (setMbx m b d).factors = d.factors := rfl
@[simp] theorem setMbx_warms (m : Nat) (b : Mailbox) (d : Dev) : (setMbx m b d).warms = d.warms := rfl
@[simp] theorem setMbx_groups (m : Nat) (b : Mailbox) (d : Dev) : (setMbx m b d).groups = d.groups := rfl
@[simp] theorem setMbx_idx (m : Nat) (b : Mailbox) (d : Dev) : (setMbx m b d).idx = d.idx := rfl
@[simp] theorem setMbx_items (m : Nat) (b : Mailbox) (d : Dev) : (setMbx m b d).items = d.items := rfl
@[simp] theorem setMbx_nextItem (m : Nat) (b : Mailbox) (d : Dev) : (setMbx m b d).nextItem = d.nextItem := rfl
@[simp] theorem setMbx_loss (m : Nat) (b : Mailbox) (d : Dev) : (setMbx m b d).loss = d.loss := rfl
@[simp] theorem setMbx_devFlags (m : Nat) (b : Mailbox) (d : Dev) : (setMbx m b d).devFlags = d.devFlags := rfl
@[simp] theorem setMbx_cluFlags (m : Nat) (b : Mailbox) (d : Dev) : (setMbx m b d).cluFlags = d.cluFlags := rfl
@[simp] theorem setMbx_cores (m : Nat) (b : Mailbox) (d : Dev) : (setMbx m b d).cores = d.cores := rfl
@[simp] theorem setMbx_upd (m : Nat) (b : Mailbox) (d : Dev) : (setMbx m b d).upd = d.upd := rfl
@[simp] theorem setMbx_mem (m : Nat) (b : Mailbox) (d : Dev) : (setMbx m b d).mem = d.mem := rfl
@[simp] theorem setMbx_units (m : Nat) (b : Mailbox) (d : Dev) : (setMbx m b d).units = d.units := rfl
@[simp] theorem setMbx_flash (m : Nat) (b : Mailbox) (d : Dev) : (setMbx m b d).flash = d.flash := rfl
@[simp] theorem setMbx_power (m : Nat) (b : Mailbox) (d : Dev) : (setMbx m b d).power = d.power := rfl
@[simp] theorem setMbx_brg (m : Nat) (b : Mailbox) (d : Dev) : (setMbx m b d).brg = d.brg := rfl
@[simp] theorem setMbx_lnk (m : Nat) (b : Mailbox) (d : Dev) : (setMbx m b d).lnk = d.lnk := rfl
@[simp] theorem setMbx_pair (m : Nat) (b : Mailbox) (d : Dev) : (setMbx m b d).pair = d.pair := rfl
@[simp] theorem setMbx_lagoon (m : Nat) (b : Mailbox) (d : Dev) : (setMbx m b d).lagoon = d.lagoon := rfl
@[simp] theorem setMbx_spare (m : Nat) (b : Mailbox) (d : Dev) : (setMbx m b d).spare = d.spare := rfl
@[simp] theorem setMbx_ras (m : Nat) (b : Mailbox) (d : Dev) : (setMbx m b d).ras = d.ras := rfl
@[simp] theorem setMbx_rst (m : Nat) (b : Mailbox) (d : Dev) : (setMbx m b d).rst = d.rst := rfl
@[simp] theorem setMbx_sec (m : Nat) (b : Mailbox) (d : Dev) : (setMbx m b d).sec = d.sec := rfl
@[simp] theorem setMbx_tel (m : Nat) (b : Mailbox) (d : Dev) : (setMbx m b d).tel = d.tel := rfl
@[simp] theorem setMbx_frz (m : Nat) (b : Mailbox) (d : Dev) : (setMbx m b d).frz = d.frz := rfl
@[simp] theorem setMbx_abandoned (m : Nat) (b : Mailbox) (d : Dev) : (setMbx m b d).abandoned = d.abandoned := rfl
@[simp] theorem setMbx_earlyJoins (m : Nat) (b : Mailbox) (d : Dev) : (setMbx m b d).earlyJoins = d.earlyJoins := rfl
@[simp] theorem setMbx_host (m : Nat) (b : Mailbox) (d : Dev) : (setMbx m b d).host = d.host := rfl
@[simp] theorem setMbx_free (m : Nat) (b : Mailbox) (d : Dev) : (setMbx m b d).free = d.free := rfl
@[simp] theorem setMbx_out (m : Nat) (b : Mailbox) (d : Dev) : (setMbx m b d).out = d.out := rfl

/-! ### setItem -/

@[simp] theorem setItem_items (i : Item) (d : Dev) : (setItem i d).items = aSet d.items i.order i := rfl
@[simp] theorem setItem_serial (i : Item) (d : Dev) : (setItem i d).serial = d.serial := rfl
@[simp] theorem setItem_ophal (i : Item) (d : Dev) : (setItem i d).ophal = d.ophal := rfl
@[simp] theorem setItem_fuseIds (i : Item) (d : Dev) : (setItem i d).fuseIds = d.fuseIds := rfl
@[simp] theorem setItem_tide (i : Item) (d : Dev) : (setItem i d).tide = d.tide := rfl
@[simp] theorem setItem_vote (i : Item) (d : Dev) : (setItem i d).vote = d.vote := rfl
@[simp] theorem setItem_step (i : Item) (d : Dev) : (setItem i d).step = d.step := rfl
@[simp] theorem setItem_mbx (i : Item) (d : Dev) : (setItem i d).mbx = d.mbx := rfl
@[simp] theorem setItem_mbxOrder (i : Item) (d : Dev) : (setItem i d).mbxOrder = d.mbxOrder := rfl
@[simp] theorem setItem_pf0 (i : Item) (d : Dev) : (setItem i d).pf0 = d.pf0 := rfl
@[simp] theorem setItem_pf1 (i : Item) (d : Dev) : (setItem i d).pf1 = d.pf1 := rfl
@[simp] theorem setItem_chans (i : Item) (d : Dev) : (setItem i d).chans = d.chans := rfl
@[simp] theorem setItem_tensors (i : Item) (d : Dev) : (setItem i d).tensors = d.tensors := rfl
@[simp] theorem setItem_maps (i : Item) (d : Dev) : (setItem i d).maps = d.maps := rfl
@[simp] theorem setItem_programs (i : Item) (d : Dev) : (setItem i d).programs = d.programs := rfl
@[simp] theorem setItem_plans (i : Item) (d : Dev) : (setItem i d).plans = d.plans := rfl
@[simp] theorem setItem_factors (i : Item) (d : Dev) : (setItem i d).factors = d.factors := rfl
@[simp] theorem setItem_warms (i : Item) (d : Dev) : (setItem i d).warms = d.warms := rfl
@[simp] theorem setItem_groups (i : Item) (d : Dev) : (setItem i d).groups = d.groups := rfl
@[simp] theorem setItem_idx (i : Item) (d : Dev) : (setItem i d).idx = d.idx := rfl
@[simp] theorem setItem_nextItem (i : Item) (d : Dev) : (setItem i d).nextItem = d.nextItem := rfl
@[simp] theorem setItem_loss (i : Item) (d : Dev) : (setItem i d).loss = d.loss := rfl
@[simp] theorem setItem_devFlags (i : Item) (d : Dev) : (setItem i d).devFlags = d.devFlags := rfl
@[simp] theorem setItem_cluFlags (i : Item) (d : Dev) : (setItem i d).cluFlags = d.cluFlags := rfl
@[simp] theorem setItem_cores (i : Item) (d : Dev) : (setItem i d).cores = d.cores := rfl
@[simp] theorem setItem_upd (i : Item) (d : Dev) : (setItem i d).upd = d.upd := rfl
@[simp] theorem setItem_mem (i : Item) (d : Dev) : (setItem i d).mem = d.mem := rfl
@[simp] theorem setItem_units (i : Item) (d : Dev) : (setItem i d).units = d.units := rfl
@[simp] theorem setItem_flash (i : Item) (d : Dev) : (setItem i d).flash = d.flash := rfl
@[simp] theorem setItem_power (i : Item) (d : Dev) : (setItem i d).power = d.power := rfl
@[simp] theorem setItem_brg (i : Item) (d : Dev) : (setItem i d).brg = d.brg := rfl
@[simp] theorem setItem_lnk (i : Item) (d : Dev) : (setItem i d).lnk = d.lnk := rfl
@[simp] theorem setItem_pair (i : Item) (d : Dev) : (setItem i d).pair = d.pair := rfl
@[simp] theorem setItem_lagoon (i : Item) (d : Dev) : (setItem i d).lagoon = d.lagoon := rfl
@[simp] theorem setItem_spare (i : Item) (d : Dev) : (setItem i d).spare = d.spare := rfl
@[simp] theorem setItem_ras (i : Item) (d : Dev) : (setItem i d).ras = d.ras := rfl
@[simp] theorem setItem_rst (i : Item) (d : Dev) : (setItem i d).rst = d.rst := rfl
@[simp] theorem setItem_sec (i : Item) (d : Dev) : (setItem i d).sec = d.sec := rfl
@[simp] theorem setItem_tel (i : Item) (d : Dev) : (setItem i d).tel = d.tel := rfl
@[simp] theorem setItem_frz (i : Item) (d : Dev) : (setItem i d).frz = d.frz := rfl
@[simp] theorem setItem_abandoned (i : Item) (d : Dev) : (setItem i d).abandoned = d.abandoned := rfl
@[simp] theorem setItem_earlyJoins (i : Item) (d : Dev) : (setItem i d).earlyJoins = d.earlyJoins := rfl
@[simp] theorem setItem_host (i : Item) (d : Dev) : (setItem i d).host = d.host := rfl
@[simp] theorem setItem_free (i : Item) (d : Dev) : (setItem i d).free = d.free := rfl
@[simp] theorem setItem_out (i : Item) (d : Dev) : (setItem i d).out = d.out := rfl

/-! ### setLink -/

@[simp] theorem setLink_lnk (st ln : Nat) (k : Link) (d : Dev) : (setLink st ln k d).lnk = { d.lnk with links := d.lnk.links.set (4 * st + ln) k } := rfl
@[simp] theorem setLink_serial (st ln : Nat) (k : Link) (d : Dev) : (setLink st ln k d).serial = d.serial := rfl
@[simp] theorem setLink_ophal (st ln : Nat) (k : Link) (d : Dev) : (setLink st ln k d).ophal = d.ophal := rfl
@[simp] theorem setLink_fuseIds (st ln : Nat) (k : Link) (d : Dev) : (setLink st ln k d).fuseIds = d.fuseIds := rfl
@[simp] theorem setLink_tide (st ln : Nat) (k : Link) (d : Dev) : (setLink st ln k d).tide = d.tide := rfl
@[simp] theorem setLink_vote (st ln : Nat) (k : Link) (d : Dev) : (setLink st ln k d).vote = d.vote := rfl
@[simp] theorem setLink_step (st ln : Nat) (k : Link) (d : Dev) : (setLink st ln k d).step = d.step := rfl
@[simp] theorem setLink_mbx (st ln : Nat) (k : Link) (d : Dev) : (setLink st ln k d).mbx = d.mbx := rfl
@[simp] theorem setLink_mbxOrder (st ln : Nat) (k : Link) (d : Dev) : (setLink st ln k d).mbxOrder = d.mbxOrder := rfl
@[simp] theorem setLink_pf0 (st ln : Nat) (k : Link) (d : Dev) : (setLink st ln k d).pf0 = d.pf0 := rfl
@[simp] theorem setLink_pf1 (st ln : Nat) (k : Link) (d : Dev) : (setLink st ln k d).pf1 = d.pf1 := rfl
@[simp] theorem setLink_chans (st ln : Nat) (k : Link) (d : Dev) : (setLink st ln k d).chans = d.chans := rfl
@[simp] theorem setLink_tensors (st ln : Nat) (k : Link) (d : Dev) : (setLink st ln k d).tensors = d.tensors := rfl
@[simp] theorem setLink_maps (st ln : Nat) (k : Link) (d : Dev) : (setLink st ln k d).maps = d.maps := rfl
@[simp] theorem setLink_programs (st ln : Nat) (k : Link) (d : Dev) : (setLink st ln k d).programs = d.programs := rfl
@[simp] theorem setLink_plans (st ln : Nat) (k : Link) (d : Dev) : (setLink st ln k d).plans = d.plans := rfl
@[simp] theorem setLink_factors (st ln : Nat) (k : Link) (d : Dev) : (setLink st ln k d).factors = d.factors := rfl
@[simp] theorem setLink_warms (st ln : Nat) (k : Link) (d : Dev) : (setLink st ln k d).warms = d.warms := rfl
@[simp] theorem setLink_groups (st ln : Nat) (k : Link) (d : Dev) : (setLink st ln k d).groups = d.groups := rfl
@[simp] theorem setLink_idx (st ln : Nat) (k : Link) (d : Dev) : (setLink st ln k d).idx = d.idx := rfl
@[simp] theorem setLink_items (st ln : Nat) (k : Link) (d : Dev) : (setLink st ln k d).items = d.items := rfl
@[simp] theorem setLink_nextItem (st ln : Nat) (k : Link) (d : Dev) : (setLink st ln k d).nextItem = d.nextItem := rfl
@[simp] theorem setLink_loss (st ln : Nat) (k : Link) (d : Dev) : (setLink st ln k d).loss = d.loss := rfl
@[simp] theorem setLink_devFlags (st ln : Nat) (k : Link) (d : Dev) : (setLink st ln k d).devFlags = d.devFlags := rfl
@[simp] theorem setLink_cluFlags (st ln : Nat) (k : Link) (d : Dev) : (setLink st ln k d).cluFlags = d.cluFlags := rfl
@[simp] theorem setLink_cores (st ln : Nat) (k : Link) (d : Dev) : (setLink st ln k d).cores = d.cores := rfl
@[simp] theorem setLink_upd (st ln : Nat) (k : Link) (d : Dev) : (setLink st ln k d).upd = d.upd := rfl
@[simp] theorem setLink_mem (st ln : Nat) (k : Link) (d : Dev) : (setLink st ln k d).mem = d.mem := rfl
@[simp] theorem setLink_units (st ln : Nat) (k : Link) (d : Dev) : (setLink st ln k d).units = d.units := rfl
@[simp] theorem setLink_flash (st ln : Nat) (k : Link) (d : Dev) : (setLink st ln k d).flash = d.flash := rfl
@[simp] theorem setLink_power (st ln : Nat) (k : Link) (d : Dev) : (setLink st ln k d).power = d.power := rfl
@[simp] theorem setLink_brg (st ln : Nat) (k : Link) (d : Dev) : (setLink st ln k d).brg = d.brg := rfl
@[simp] theorem setLink_pair (st ln : Nat) (k : Link) (d : Dev) : (setLink st ln k d).pair = d.pair := rfl
@[simp] theorem setLink_lagoon (st ln : Nat) (k : Link) (d : Dev) : (setLink st ln k d).lagoon = d.lagoon := rfl
@[simp] theorem setLink_spare (st ln : Nat) (k : Link) (d : Dev) : (setLink st ln k d).spare = d.spare := rfl
@[simp] theorem setLink_ras (st ln : Nat) (k : Link) (d : Dev) : (setLink st ln k d).ras = d.ras := rfl
@[simp] theorem setLink_rst (st ln : Nat) (k : Link) (d : Dev) : (setLink st ln k d).rst = d.rst := rfl
@[simp] theorem setLink_sec (st ln : Nat) (k : Link) (d : Dev) : (setLink st ln k d).sec = d.sec := rfl
@[simp] theorem setLink_tel (st ln : Nat) (k : Link) (d : Dev) : (setLink st ln k d).tel = d.tel := rfl
@[simp] theorem setLink_frz (st ln : Nat) (k : Link) (d : Dev) : (setLink st ln k d).frz = d.frz := rfl
@[simp] theorem setLink_abandoned (st ln : Nat) (k : Link) (d : Dev) : (setLink st ln k d).abandoned = d.abandoned := rfl
@[simp] theorem setLink_earlyJoins (st ln : Nat) (k : Link) (d : Dev) : (setLink st ln k d).earlyJoins = d.earlyJoins := rfl
@[simp] theorem setLink_host (st ln : Nat) (k : Link) (d : Dev) : (setLink st ln k d).host = d.host := rfl
@[simp] theorem setLink_free (st ln : Nat) (k : Link) (d : Dev) : (setLink st ln k d).free = d.free := rfl
@[simp] theorem setLink_out (st ln : Nat) (k : Link) (d : Dev) : (setLink st ln k d).out = d.out := rfl

/-! ### setStrait -/

@[simp] theorem setStrait_lnk (st : Nat) (x : Strait) (d : Dev) : (setStrait st x d).lnk = { d.lnk with straits := d.lnk.straits.set st x } := rfl
@[simp] theorem setStrait_serial (st : Nat) (x : Strait) (d : Dev) : (setStrait st x d).serial = d.serial := rfl
@[simp] theorem setStrait_ophal (st : Nat) (x : Strait) (d : Dev) : (setStrait st x d).ophal = d.ophal := rfl
@[simp] theorem setStrait_fuseIds (st : Nat) (x : Strait) (d : Dev) : (setStrait st x d).fuseIds = d.fuseIds := rfl
@[simp] theorem setStrait_tide (st : Nat) (x : Strait) (d : Dev) : (setStrait st x d).tide = d.tide := rfl
@[simp] theorem setStrait_vote (st : Nat) (x : Strait) (d : Dev) : (setStrait st x d).vote = d.vote := rfl
@[simp] theorem setStrait_step (st : Nat) (x : Strait) (d : Dev) : (setStrait st x d).step = d.step := rfl
@[simp] theorem setStrait_mbx (st : Nat) (x : Strait) (d : Dev) : (setStrait st x d).mbx = d.mbx := rfl
@[simp] theorem setStrait_mbxOrder (st : Nat) (x : Strait) (d : Dev) : (setStrait st x d).mbxOrder = d.mbxOrder := rfl
@[simp] theorem setStrait_pf0 (st : Nat) (x : Strait) (d : Dev) : (setStrait st x d).pf0 = d.pf0 := rfl
@[simp] theorem setStrait_pf1 (st : Nat) (x : Strait) (d : Dev) : (setStrait st x d).pf1 = d.pf1 := rfl
@[simp] theorem setStrait_chans (st : Nat) (x : Strait) (d : Dev) : (setStrait st x d).chans = d.chans := rfl
@[simp] theorem setStrait_tensors (st : Nat) (x : Strait) (d : Dev) : (setStrait st x d).tensors = d.tensors := rfl
@[simp] theorem setStrait_maps (st : Nat) (x : Strait) (d : Dev) : (setStrait st x d).maps = d.maps := rfl
@[simp] theorem setStrait_programs (st : Nat) (x : Strait) (d : Dev) : (setStrait st x d).programs = d.programs := rfl
@[simp] theorem setStrait_plans (st : Nat) (x : Strait) (d : Dev) : (setStrait st x d).plans = d.plans := rfl
@[simp] theorem setStrait_factors (st : Nat) (x : Strait) (d : Dev) : (setStrait st x d).factors = d.factors := rfl
@[simp] theorem setStrait_warms (st : Nat) (x : Strait) (d : Dev) : (setStrait st x d).warms = d.warms := rfl
@[simp] theorem setStrait_groups (st : Nat) (x : Strait) (d : Dev) : (setStrait st x d).groups = d.groups := rfl
@[simp] theorem setStrait_idx (st : Nat) (x : Strait) (d : Dev) : (setStrait st x d).idx = d.idx := rfl
@[simp] theorem setStrait_items (st : Nat) (x : Strait) (d : Dev) : (setStrait st x d).items = d.items := rfl
@[simp] theorem setStrait_nextItem (st : Nat) (x : Strait) (d : Dev) : (setStrait st x d).nextItem = d.nextItem := rfl
@[simp] theorem setStrait_loss (st : Nat) (x : Strait) (d : Dev) : (setStrait st x d).loss = d.loss := rfl
@[simp] theorem setStrait_devFlags (st : Nat) (x : Strait) (d : Dev) : (setStrait st x d).devFlags = d.devFlags := rfl
@[simp] theorem setStrait_cluFlags (st : Nat) (x : Strait) (d : Dev) : (setStrait st x d).cluFlags = d.cluFlags := rfl
@[simp] theorem setStrait_cores (st : Nat) (x : Strait) (d : Dev) : (setStrait st x d).cores = d.cores := rfl
@[simp] theorem setStrait_upd (st : Nat) (x : Strait) (d : Dev) : (setStrait st x d).upd = d.upd := rfl
@[simp] theorem setStrait_mem (st : Nat) (x : Strait) (d : Dev) : (setStrait st x d).mem = d.mem := rfl
@[simp] theorem setStrait_units (st : Nat) (x : Strait) (d : Dev) : (setStrait st x d).units = d.units := rfl
@[simp] theorem setStrait_flash (st : Nat) (x : Strait) (d : Dev) : (setStrait st x d).flash = d.flash := rfl
@[simp] theorem setStrait_power (st : Nat) (x : Strait) (d : Dev) : (setStrait st x d).power = d.power := rfl
@[simp] theorem setStrait_brg (st : Nat) (x : Strait) (d : Dev) : (setStrait st x d).brg = d.brg := rfl
@[simp] theorem setStrait_pair (st : Nat) (x : Strait) (d : Dev) : (setStrait st x d).pair = d.pair := rfl
@[simp] theorem setStrait_lagoon (st : Nat) (x : Strait) (d : Dev) : (setStrait st x d).lagoon = d.lagoon := rfl
@[simp] theorem setStrait_spare (st : Nat) (x : Strait) (d : Dev) : (setStrait st x d).spare = d.spare := rfl
@[simp] theorem setStrait_ras (st : Nat) (x : Strait) (d : Dev) : (setStrait st x d).ras = d.ras := rfl
@[simp] theorem setStrait_rst (st : Nat) (x : Strait) (d : Dev) : (setStrait st x d).rst = d.rst := rfl
@[simp] theorem setStrait_sec (st : Nat) (x : Strait) (d : Dev) : (setStrait st x d).sec = d.sec := rfl
@[simp] theorem setStrait_tel (st : Nat) (x : Strait) (d : Dev) : (setStrait st x d).tel = d.tel := rfl
@[simp] theorem setStrait_frz (st : Nat) (x : Strait) (d : Dev) : (setStrait st x d).frz = d.frz := rfl
@[simp] theorem setStrait_abandoned (st : Nat) (x : Strait) (d : Dev) : (setStrait st x d).abandoned = d.abandoned := rfl
@[simp] theorem setStrait_earlyJoins (st : Nat) (x : Strait) (d : Dev) : (setStrait st x d).earlyJoins = d.earlyJoins := rfl
@[simp] theorem setStrait_host (st : Nat) (x : Strait) (d : Dev) : (setStrait st x d).host = d.host := rfl
@[simp] theorem setStrait_free (st : Nat) (x : Strait) (d : Dev) : (setStrait st x d).free = d.free := rfl
@[simp] theorem setStrait_out (st : Nat) (x : Strait) (d : Dev) : (setStrait st x d).out = d.out := rfl

/-! ### onStack -/

@[simp] theorem onStack_mem (k : Nat) (f : Stack → Stack) (d : Dev) : (onStack k f d).mem = { d.mem with hbm := modAt d.mem.hbm k f } := rfl
@[simp] theorem onStack_serial (k : Nat) (f : Stack → Stack) (d : Dev) : (onStack k f d).serial = d.serial := rfl
@[simp] theorem onStack_ophal (k : Nat) (f : Stack → Stack) (d : Dev) : (onStack k f d).ophal = d.ophal := rfl
@[simp] theorem onStack_fuseIds (k : Nat) (f : Stack → Stack) (d : Dev) : (onStack k f d).fuseIds = d.fuseIds := rfl
@[simp] theorem onStack_tide (k : Nat) (f : Stack → Stack) (d : Dev) : (onStack k f d).tide = d.tide := rfl
@[simp] theorem onStack_vote (k : Nat) (f : Stack → Stack) (d : Dev) : (onStack k f d).vote = d.vote := rfl
@[simp] theorem onStack_step (k : Nat) (f : Stack → Stack) (d : Dev) : (onStack k f d).step = d.step := rfl
@[simp] theorem onStack_mbx (k : Nat) (f : Stack → Stack) (d : Dev) : (onStack k f d).mbx = d.mbx := rfl
@[simp] theorem onStack_mbxOrder (k : Nat) (f : Stack → Stack) (d : Dev) : (onStack k f d).mbxOrder = d.mbxOrder := rfl
@[simp] theorem onStack_pf0 (k : Nat) (f : Stack → Stack) (d : Dev) : (onStack k f d).pf0 = d.pf0 := rfl
@[simp] theorem onStack_pf1 (k : Nat) (f : Stack → Stack) (d : Dev) : (onStack k f d).pf1 = d.pf1 := rfl
@[simp] theorem onStack_chans (k : Nat) (f : Stack → Stack) (d : Dev) : (onStack k f d).chans = d.chans := rfl
@[simp] theorem onStack_tensors (k : Nat) (f : Stack → Stack) (d : Dev) : (onStack k f d).tensors = d.tensors := rfl
@[simp] theorem onStack_maps (k : Nat) (f : Stack → Stack) (d : Dev) : (onStack k f d).maps = d.maps := rfl
@[simp] theorem onStack_programs (k : Nat) (f : Stack → Stack) (d : Dev) : (onStack k f d).programs = d.programs := rfl
@[simp] theorem onStack_plans (k : Nat) (f : Stack → Stack) (d : Dev) : (onStack k f d).plans = d.plans := rfl
@[simp] theorem onStack_factors (k : Nat) (f : Stack → Stack) (d : Dev) : (onStack k f d).factors = d.factors := rfl
@[simp] theorem onStack_warms (k : Nat) (f : Stack → Stack) (d : Dev) : (onStack k f d).warms = d.warms := rfl
@[simp] theorem onStack_groups (k : Nat) (f : Stack → Stack) (d : Dev) : (onStack k f d).groups = d.groups := rfl
@[simp] theorem onStack_idx (k : Nat) (f : Stack → Stack) (d : Dev) : (onStack k f d).idx = d.idx := rfl
@[simp] theorem onStack_items (k : Nat) (f : Stack → Stack) (d : Dev) : (onStack k f d).items = d.items := rfl
@[simp] theorem onStack_nextItem (k : Nat) (f : Stack → Stack) (d : Dev) : (onStack k f d).nextItem = d.nextItem := rfl
@[simp] theorem onStack_loss (k : Nat) (f : Stack → Stack) (d : Dev) : (onStack k f d).loss = d.loss := rfl
@[simp] theorem onStack_devFlags (k : Nat) (f : Stack → Stack) (d : Dev) : (onStack k f d).devFlags = d.devFlags := rfl
@[simp] theorem onStack_cluFlags (k : Nat) (f : Stack → Stack) (d : Dev) : (onStack k f d).cluFlags = d.cluFlags := rfl
@[simp] theorem onStack_cores (k : Nat) (f : Stack → Stack) (d : Dev) : (onStack k f d).cores = d.cores := rfl
@[simp] theorem onStack_upd (k : Nat) (f : Stack → Stack) (d : Dev) : (onStack k f d).upd = d.upd := rfl
@[simp] theorem onStack_units (k : Nat) (f : Stack → Stack) (d : Dev) : (onStack k f d).units = d.units := rfl
@[simp] theorem onStack_flash (k : Nat) (f : Stack → Stack) (d : Dev) : (onStack k f d).flash = d.flash := rfl
@[simp] theorem onStack_power (k : Nat) (f : Stack → Stack) (d : Dev) : (onStack k f d).power = d.power := rfl
@[simp] theorem onStack_brg (k : Nat) (f : Stack → Stack) (d : Dev) : (onStack k f d).brg = d.brg := rfl
@[simp] theorem onStack_lnk (k : Nat) (f : Stack → Stack) (d : Dev) : (onStack k f d).lnk = d.lnk := rfl
@[simp] theorem onStack_pair (k : Nat) (f : Stack → Stack) (d : Dev) : (onStack k f d).pair = d.pair := rfl
@[simp] theorem onStack_lagoon (k : Nat) (f : Stack → Stack) (d : Dev) : (onStack k f d).lagoon = d.lagoon := rfl
@[simp] theorem onStack_spare (k : Nat) (f : Stack → Stack) (d : Dev) : (onStack k f d).spare = d.spare := rfl
@[simp] theorem onStack_ras (k : Nat) (f : Stack → Stack) (d : Dev) : (onStack k f d).ras = d.ras := rfl
@[simp] theorem onStack_rst (k : Nat) (f : Stack → Stack) (d : Dev) : (onStack k f d).rst = d.rst := rfl
@[simp] theorem onStack_sec (k : Nat) (f : Stack → Stack) (d : Dev) : (onStack k f d).sec = d.sec := rfl
@[simp] theorem onStack_tel (k : Nat) (f : Stack → Stack) (d : Dev) : (onStack k f d).tel = d.tel := rfl
@[simp] theorem onStack_frz (k : Nat) (f : Stack → Stack) (d : Dev) : (onStack k f d).frz = d.frz := rfl
@[simp] theorem onStack_abandoned (k : Nat) (f : Stack → Stack) (d : Dev) : (onStack k f d).abandoned = d.abandoned := rfl
@[simp] theorem onStack_earlyJoins (k : Nat) (f : Stack → Stack) (d : Dev) : (onStack k f d).earlyJoins = d.earlyJoins := rfl
@[simp] theorem onStack_host (k : Nat) (f : Stack → Stack) (d : Dev) : (onStack k f d).host = d.host := rfl
@[simp] theorem onStack_free (k : Nat) (f : Stack → Stack) (d : Dev) : (onStack k f d).free = d.free := rfl
@[simp] theorem onStack_out (k : Nat) (f : Stack → Stack) (d : Dev) : (onStack k f d).out = d.out := rfl

/-! ### setErrs -/

@[simp] theorem setErrs_mem (l : List SectorErr) (d : Dev) : (setErrs l d).mem = { d.mem with errs := l } := rfl
@[simp] theorem setErrs_serial (l : List SectorErr) (d : Dev) : (setErrs l d).serial = d.serial := rfl
@[simp] theorem setErrs_ophal (l : List SectorErr) (d : Dev) : (setErrs l d).ophal = d.ophal := rfl
@[simp] theorem setErrs_fuseIds (l : List SectorErr) (d : Dev) : (setErrs l d).fuseIds = d.fuseIds := rfl
@[simp] theorem setErrs_tide (l : List SectorErr) (d : Dev) : (setErrs l d).tide = d.tide := rfl
@[simp] theorem setErrs_vote (l : List SectorErr) (d : Dev) : (setErrs l d).vote = d.vote := rfl
@[simp] theorem setErrs_step (l : List SectorErr) (d : Dev) : (setErrs l d).step = d.step := rfl
@[simp] theorem setErrs_mbx (l : List SectorErr) (d : Dev) : (setErrs l d).mbx = d.mbx := rfl
@[simp] theorem setErrs_mbxOrder (l : List SectorErr) (d : Dev) : (setErrs l d).mbxOrder = d.mbxOrder := rfl
@[simp] theorem setErrs_pf0 (l : List SectorErr) (d : Dev) : (setErrs l d).pf0 = d.pf0 := rfl
@[simp] theorem setErrs_pf1 (l : List SectorErr) (d : Dev) : (setErrs l d).pf1 = d.pf1 := rfl
@[simp] theorem setErrs_chans (l : List SectorErr) (d : Dev) : (setErrs l d).chans = d.chans := rfl
@[simp] theorem setErrs_tensors (l : List SectorErr) (d : Dev) : (setErrs l d).tensors = d.tensors := rfl
@[simp] theorem setErrs_maps (l : List SectorErr) (d : Dev) : (setErrs l d).maps = d.maps := rfl
@[simp] theorem setErrs_programs (l : List SectorErr) (d : Dev) : (setErrs l d).programs = d.programs := rfl
@[simp] theorem setErrs_plans (l : List SectorErr) (d : Dev) : (setErrs l d).plans = d.plans := rfl
@[simp] theorem setErrs_factors (l : List SectorErr) (d : Dev) : (setErrs l d).factors = d.factors := rfl
@[simp] theorem setErrs_warms (l : List SectorErr) (d : Dev) : (setErrs l d).warms = d.warms := rfl
@[simp] theorem setErrs_groups (l : List SectorErr) (d : Dev) : (setErrs l d).groups = d.groups := rfl
@[simp] theorem setErrs_idx (l : List SectorErr) (d : Dev) : (setErrs l d).idx = d.idx := rfl
@[simp] theorem setErrs_items (l : List SectorErr) (d : Dev) : (setErrs l d).items = d.items := rfl
@[simp] theorem setErrs_nextItem (l : List SectorErr) (d : Dev) : (setErrs l d).nextItem = d.nextItem := rfl
@[simp] theorem setErrs_loss (l : List SectorErr) (d : Dev) : (setErrs l d).loss = d.loss := rfl
@[simp] theorem setErrs_devFlags (l : List SectorErr) (d : Dev) : (setErrs l d).devFlags = d.devFlags := rfl
@[simp] theorem setErrs_cluFlags (l : List SectorErr) (d : Dev) : (setErrs l d).cluFlags = d.cluFlags := rfl
@[simp] theorem setErrs_cores (l : List SectorErr) (d : Dev) : (setErrs l d).cores = d.cores := rfl
@[simp] theorem setErrs_upd (l : List SectorErr) (d : Dev) : (setErrs l d).upd = d.upd := rfl
@[simp] theorem setErrs_units (l : List SectorErr) (d : Dev) : (setErrs l d).units = d.units := rfl
@[simp] theorem setErrs_flash (l : List SectorErr) (d : Dev) : (setErrs l d).flash = d.flash := rfl
@[simp] theorem setErrs_power (l : List SectorErr) (d : Dev) : (setErrs l d).power = d.power := rfl
@[simp] theorem setErrs_brg (l : List SectorErr) (d : Dev) : (setErrs l d).brg = d.brg := rfl
@[simp] theorem setErrs_lnk (l : List SectorErr) (d : Dev) : (setErrs l d).lnk = d.lnk := rfl
@[simp] theorem setErrs_pair (l : List SectorErr) (d : Dev) : (setErrs l d).pair = d.pair := rfl
@[simp] theorem setErrs_lagoon (l : List SectorErr) (d : Dev) : (setErrs l d).lagoon = d.lagoon := rfl
@[simp] theorem setErrs_spare (l : List SectorErr) (d : Dev) : (setErrs l d).spare = d.spare := rfl
@[simp] theorem setErrs_ras (l : List SectorErr) (d : Dev) : (setErrs l d).ras = d.ras := rfl
@[simp] theorem setErrs_rst (l : List SectorErr) (d : Dev) : (setErrs l d).rst = d.rst := rfl
@[simp] theorem setErrs_sec (l : List SectorErr) (d : Dev) : (setErrs l d).sec = d.sec := rfl
@[simp] theorem setErrs_tel (l : List SectorErr) (d : Dev) : (setErrs l d).tel = d.tel := rfl
@[simp] theorem setErrs_frz (l : List SectorErr) (d : Dev) : (setErrs l d).frz = d.frz := rfl
@[simp] theorem setErrs_abandoned (l : List SectorErr) (d : Dev) : (setErrs l d).abandoned = d.abandoned := rfl
@[simp] theorem setErrs_earlyJoins (l : List SectorErr) (d : Dev) : (setErrs l d).earlyJoins = d.earlyJoins := rfl
@[simp] theorem setErrs_host (l : List SectorErr) (d : Dev) : (setErrs l d).host = d.host := rfl
@[simp] theorem setErrs_free (l : List SectorErr) (d : Dev) : (setErrs l d).free = d.free := rfl
@[simp] theorem setErrs_out (l : List SectorErr) (d : Dev) : (setErrs l d).out = d.out := rfl

/-! ### eccLog -/

@[simp] theorem eccLog_mem (a : BitVec 64) (d : Dev) : (eccLog a d).mem = { d.mem with log := d.mem.log.set d.mem.logHead a, logHead := (d.mem.logHead + 1) % 16 } := rfl
@[simp] theorem eccLog_serial (a : BitVec 64) (d : Dev) : (eccLog a d).serial = d.serial := rfl
@[simp] theorem eccLog_ophal (a : BitVec 64) (d : Dev) : (eccLog a d).ophal = d.ophal := rfl
@[simp] theorem eccLog_fuseIds (a : BitVec 64) (d : Dev) : (eccLog a d).fuseIds = d.fuseIds := rfl
@[simp] theorem eccLog_tide (a : BitVec 64) (d : Dev) : (eccLog a d).tide = d.tide := rfl
@[simp] theorem eccLog_vote (a : BitVec 64) (d : Dev) : (eccLog a d).vote = d.vote := rfl
@[simp] theorem eccLog_step (a : BitVec 64) (d : Dev) : (eccLog a d).step = d.step := rfl
@[simp] theorem eccLog_mbx (a : BitVec 64) (d : Dev) : (eccLog a d).mbx = d.mbx := rfl
@[simp] theorem eccLog_mbxOrder (a : BitVec 64) (d : Dev) : (eccLog a d).mbxOrder = d.mbxOrder := rfl
@[simp] theorem eccLog_pf0 (a : BitVec 64) (d : Dev) : (eccLog a d).pf0 = d.pf0 := rfl
@[simp] theorem eccLog_pf1 (a : BitVec 64) (d : Dev) : (eccLog a d).pf1 = d.pf1 := rfl
@[simp] theorem eccLog_chans (a : BitVec 64) (d : Dev) : (eccLog a d).chans = d.chans := rfl
@[simp] theorem eccLog_tensors (a : BitVec 64) (d : Dev) : (eccLog a d).tensors = d.tensors := rfl
@[simp] theorem eccLog_maps (a : BitVec 64) (d : Dev) : (eccLog a d).maps = d.maps := rfl
@[simp] theorem eccLog_programs (a : BitVec 64) (d : Dev) : (eccLog a d).programs = d.programs := rfl
@[simp] theorem eccLog_plans (a : BitVec 64) (d : Dev) : (eccLog a d).plans = d.plans := rfl
@[simp] theorem eccLog_factors (a : BitVec 64) (d : Dev) : (eccLog a d).factors = d.factors := rfl
@[simp] theorem eccLog_warms (a : BitVec 64) (d : Dev) : (eccLog a d).warms = d.warms := rfl
@[simp] theorem eccLog_groups (a : BitVec 64) (d : Dev) : (eccLog a d).groups = d.groups := rfl
@[simp] theorem eccLog_idx (a : BitVec 64) (d : Dev) : (eccLog a d).idx = d.idx := rfl
@[simp] theorem eccLog_items (a : BitVec 64) (d : Dev) : (eccLog a d).items = d.items := rfl
@[simp] theorem eccLog_nextItem (a : BitVec 64) (d : Dev) : (eccLog a d).nextItem = d.nextItem := rfl
@[simp] theorem eccLog_loss (a : BitVec 64) (d : Dev) : (eccLog a d).loss = d.loss := rfl
@[simp] theorem eccLog_devFlags (a : BitVec 64) (d : Dev) : (eccLog a d).devFlags = d.devFlags := rfl
@[simp] theorem eccLog_cluFlags (a : BitVec 64) (d : Dev) : (eccLog a d).cluFlags = d.cluFlags := rfl
@[simp] theorem eccLog_cores (a : BitVec 64) (d : Dev) : (eccLog a d).cores = d.cores := rfl
@[simp] theorem eccLog_upd (a : BitVec 64) (d : Dev) : (eccLog a d).upd = d.upd := rfl
@[simp] theorem eccLog_units (a : BitVec 64) (d : Dev) : (eccLog a d).units = d.units := rfl
@[simp] theorem eccLog_flash (a : BitVec 64) (d : Dev) : (eccLog a d).flash = d.flash := rfl
@[simp] theorem eccLog_power (a : BitVec 64) (d : Dev) : (eccLog a d).power = d.power := rfl
@[simp] theorem eccLog_brg (a : BitVec 64) (d : Dev) : (eccLog a d).brg = d.brg := rfl
@[simp] theorem eccLog_lnk (a : BitVec 64) (d : Dev) : (eccLog a d).lnk = d.lnk := rfl
@[simp] theorem eccLog_pair (a : BitVec 64) (d : Dev) : (eccLog a d).pair = d.pair := rfl
@[simp] theorem eccLog_lagoon (a : BitVec 64) (d : Dev) : (eccLog a d).lagoon = d.lagoon := rfl
@[simp] theorem eccLog_spare (a : BitVec 64) (d : Dev) : (eccLog a d).spare = d.spare := rfl
@[simp] theorem eccLog_ras (a : BitVec 64) (d : Dev) : (eccLog a d).ras = d.ras := rfl
@[simp] theorem eccLog_rst (a : BitVec 64) (d : Dev) : (eccLog a d).rst = d.rst := rfl
@[simp] theorem eccLog_sec (a : BitVec 64) (d : Dev) : (eccLog a d).sec = d.sec := rfl
@[simp] theorem eccLog_tel (a : BitVec 64) (d : Dev) : (eccLog a d).tel = d.tel := rfl
@[simp] theorem eccLog_frz (a : BitVec 64) (d : Dev) : (eccLog a d).frz = d.frz := rfl
@[simp] theorem eccLog_abandoned (a : BitVec 64) (d : Dev) : (eccLog a d).abandoned = d.abandoned := rfl
@[simp] theorem eccLog_earlyJoins (a : BitVec 64) (d : Dev) : (eccLog a d).earlyJoins = d.earlyJoins := rfl
@[simp] theorem eccLog_host (a : BitVec 64) (d : Dev) : (eccLog a d).host = d.host := rfl
@[simp] theorem eccLog_free (a : BitVec 64) (d : Dev) : (eccLog a d).free = d.free := rfl
@[simp] theorem eccLog_out (a : BitVec 64) (d : Dev) : (eccLog a d).out = d.out := rfl

/-! ### takeFree -/

@[simp] theorem takeFree_free (n : Nat) (d : Dev) : (takeFree n d).free = d.free + n := rfl
@[simp] theorem takeFree_serial (n : Nat) (d : Dev) : (takeFree n d).serial = d.serial := rfl
@[simp] theorem takeFree_ophal (n : Nat) (d : Dev) : (takeFree n d).ophal = d.ophal := rfl
@[simp] theorem takeFree_fuseIds (n : Nat) (d : Dev) : (takeFree n d).fuseIds = d.fuseIds := rfl
@[simp] theorem takeFree_tide (n : Nat) (d : Dev) : (takeFree n d).tide = d.tide := rfl
@[simp] theorem takeFree_vote (n : Nat) (d : Dev) : (takeFree n d).vote = d.vote := rfl
@[simp] theorem takeFree_step (n : Nat) (d : Dev) : (takeFree n d).step = d.step := rfl
@[simp] theorem takeFree_mbx (n : Nat) (d : Dev) : (takeFree n d).mbx = d.mbx := rfl
@[simp] theorem takeFree_mbxOrder (n : Nat) (d : Dev) : (takeFree n d).mbxOrder = d.mbxOrder := rfl
@[simp] theorem takeFree_pf0 (n : Nat) (d : Dev) : (takeFree n d).pf0 = d.pf0 := rfl
@[simp] theorem takeFree_pf1 (n : Nat) (d : Dev) : (takeFree n d).pf1 = d.pf1 := rfl
@[simp] theorem takeFree_chans (n : Nat) (d : Dev) : (takeFree n d).chans = d.chans := rfl
@[simp] theorem takeFree_tensors (n : Nat) (d : Dev) : (takeFree n d).tensors = d.tensors := rfl
@[simp] theorem takeFree_maps (n : Nat) (d : Dev) : (takeFree n d).maps = d.maps := rfl
@[simp] theorem takeFree_programs (n : Nat) (d : Dev) : (takeFree n d).programs = d.programs := rfl
@[simp] theorem takeFree_plans (n : Nat) (d : Dev) : (takeFree n d).plans = d.plans := rfl
@[simp] theorem takeFree_factors (n : Nat) (d : Dev) : (takeFree n d).factors = d.factors := rfl
@[simp] theorem takeFree_warms (n : Nat) (d : Dev) : (takeFree n d).warms = d.warms := rfl
@[simp] theorem takeFree_groups (n : Nat) (d : Dev) : (takeFree n d).groups = d.groups := rfl
@[simp] theorem takeFree_idx (n : Nat) (d : Dev) : (takeFree n d).idx = d.idx := rfl
@[simp] theorem takeFree_items (n : Nat) (d : Dev) : (takeFree n d).items = d.items := rfl
@[simp] theorem takeFree_nextItem (n : Nat) (d : Dev) : (takeFree n d).nextItem = d.nextItem := rfl
@[simp] theorem takeFree_loss (n : Nat) (d : Dev) : (takeFree n d).loss = d.loss := rfl
@[simp] theorem takeFree_devFlags (n : Nat) (d : Dev) : (takeFree n d).devFlags = d.devFlags := rfl
@[simp] theorem takeFree_cluFlags (n : Nat) (d : Dev) : (takeFree n d).cluFlags = d.cluFlags := rfl
@[simp] theorem takeFree_cores (n : Nat) (d : Dev) : (takeFree n d).cores = d.cores := rfl
@[simp] theorem takeFree_upd (n : Nat) (d : Dev) : (takeFree n d).upd = d.upd := rfl
@[simp] theorem takeFree_mem (n : Nat) (d : Dev) : (takeFree n d).mem = d.mem := rfl
@[simp] theorem takeFree_units (n : Nat) (d : Dev) : (takeFree n d).units = d.units := rfl
@[simp] theorem takeFree_flash (n : Nat) (d : Dev) : (takeFree n d).flash = d.flash := rfl
@[simp] theorem takeFree_power (n : Nat) (d : Dev) : (takeFree n d).power = d.power := rfl
@[simp] theorem takeFree_brg (n : Nat) (d : Dev) : (takeFree n d).brg = d.brg := rfl
@[simp] theorem takeFree_lnk (n : Nat) (d : Dev) : (takeFree n d).lnk = d.lnk := rfl
@[simp] theorem takeFree_pair (n : Nat) (d : Dev) : (takeFree n d).pair = d.pair := rfl
@[simp] theorem takeFree_lagoon (n : Nat) (d : Dev) : (takeFree n d).lagoon = d.lagoon := rfl
@[simp] theorem takeFree_spare (n : Nat) (d : Dev) : (takeFree n d).spare = d.spare := rfl
@[simp] theorem takeFree_ras (n : Nat) (d : Dev) : (takeFree n d).ras = d.ras := rfl
@[simp] theorem takeFree_rst (n : Nat) (d : Dev) : (takeFree n d).rst = d.rst := rfl
@[simp] theorem takeFree_sec (n : Nat) (d : Dev) : (takeFree n d).sec = d.sec := rfl
@[simp] theorem takeFree_tel (n : Nat) (d : Dev) : (takeFree n d).tel = d.tel := rfl
@[simp] theorem takeFree_frz (n : Nat) (d : Dev) : (takeFree n d).frz = d.frz := rfl
@[simp] theorem takeFree_abandoned (n : Nat) (d : Dev) : (takeFree n d).abandoned = d.abandoned := rfl
@[simp] theorem takeFree_earlyJoins (n : Nat) (d : Dev) : (takeFree n d).earlyJoins = d.earlyJoins := rfl
@[simp] theorem takeFree_host (n : Nat) (d : Dev) : (takeFree n d).host = d.host := rfl
@[simp] theorem takeFree_out (n : Nat) (d : Dev) : (takeFree n d).out = d.out := rfl

/-! ### takeIdx -/

@[simp] theorem takeIdx_idx (k : Nat) (d : Dev) : (takeIdx k d).idx = d.idx.set k (idxTake (idxReg d k)) := rfl
@[simp] theorem takeIdx_serial (k : Nat) (d : Dev) : (takeIdx k d).serial = d.serial := rfl
@[simp] theorem takeIdx_ophal (k : Nat) (d : Dev) : (takeIdx k d).ophal = d.ophal := rfl
@[simp] theorem takeIdx_fuseIds (k : Nat) (d : Dev) : (takeIdx k d).fuseIds = d.fuseIds := rfl
@[simp] theorem takeIdx_tide (k : Nat) (d : Dev) : (takeIdx k d).tide = d.tide := rfl
@[simp] theorem takeIdx_vote (k : Nat) (d : Dev) : (takeIdx k d).vote = d.vote := rfl
@[simp] theorem takeIdx_step (k : Nat) (d : Dev) : (takeIdx k d).step = d.step := rfl
@[simp] theorem takeIdx_mbx (k : Nat) (d : Dev) : (takeIdx k d).mbx = d.mbx := rfl
@[simp] theorem takeIdx_mbxOrder (k : Nat) (d : Dev) : (takeIdx k d).mbxOrder = d.mbxOrder := rfl
@[simp] theorem takeIdx_pf0 (k : Nat) (d : Dev) : (takeIdx k d).pf0 = d.pf0 := rfl
@[simp] theorem takeIdx_pf1 (k : Nat) (d : Dev) : (takeIdx k d).pf1 = d.pf1 := rfl
@[simp] theorem takeIdx_chans (k : Nat) (d : Dev) : (takeIdx k d).chans = d.chans := rfl
@[simp] theorem takeIdx_tensors (k : Nat) (d : Dev) : (takeIdx k d).tensors = d.tensors := rfl
@[simp] theorem takeIdx_maps (k : Nat) (d : Dev) : (takeIdx k d).maps = d.maps := rfl
@[simp] theorem takeIdx_programs (k : Nat) (d : Dev) : (takeIdx k d).programs = d.programs := rfl
@[simp] theorem takeIdx_plans (k : Nat) (d : Dev) : (takeIdx k d).plans = d.plans := rfl
@[simp] theorem takeIdx_factors (k : Nat) (d : Dev) : (takeIdx k d).factors = d.factors := rfl
@[simp] theorem takeIdx_warms (k : Nat) (d : Dev) : (takeIdx k d).warms = d.warms := rfl
@[simp] theorem takeIdx_groups (k : Nat) (d : Dev) : (takeIdx k d).groups = d.groups := rfl
@[simp] theorem takeIdx_items (k : Nat) (d : Dev) : (takeIdx k d).items = d.items := rfl
@[simp] theorem takeIdx_nextItem (k : Nat) (d : Dev) : (takeIdx k d).nextItem = d.nextItem := rfl
@[simp] theorem takeIdx_loss (k : Nat) (d : Dev) : (takeIdx k d).loss = d.loss := rfl
@[simp] theorem takeIdx_devFlags (k : Nat) (d : Dev) : (takeIdx k d).devFlags = d.devFlags := rfl
@[simp] theorem takeIdx_cluFlags (k : Nat) (d : Dev) : (takeIdx k d).cluFlags = d.cluFlags := rfl
@[simp] theorem takeIdx_cores (k : Nat) (d : Dev) : (takeIdx k d).cores = d.cores := rfl
@[simp] theorem takeIdx_upd (k : Nat) (d : Dev) : (takeIdx k d).upd = d.upd := rfl
@[simp] theorem takeIdx_mem (k : Nat) (d : Dev) : (takeIdx k d).mem = d.mem := rfl
@[simp] theorem takeIdx_units (k : Nat) (d : Dev) : (takeIdx k d).units = d.units := rfl
@[simp] theorem takeIdx_flash (k : Nat) (d : Dev) : (takeIdx k d).flash = d.flash := rfl
@[simp] theorem takeIdx_power (k : Nat) (d : Dev) : (takeIdx k d).power = d.power := rfl
@[simp] theorem takeIdx_brg (k : Nat) (d : Dev) : (takeIdx k d).brg = d.brg := rfl
@[simp] theorem takeIdx_lnk (k : Nat) (d : Dev) : (takeIdx k d).lnk = d.lnk := rfl
@[simp] theorem takeIdx_pair (k : Nat) (d : Dev) : (takeIdx k d).pair = d.pair := rfl
@[simp] theorem takeIdx_lagoon (k : Nat) (d : Dev) : (takeIdx k d).lagoon = d.lagoon := rfl
@[simp] theorem takeIdx_spare (k : Nat) (d : Dev) : (takeIdx k d).spare = d.spare := rfl
@[simp] theorem takeIdx_ras (k : Nat) (d : Dev) : (takeIdx k d).ras = d.ras := rfl
@[simp] theorem takeIdx_rst (k : Nat) (d : Dev) : (takeIdx k d).rst = d.rst := rfl
@[simp] theorem takeIdx_sec (k : Nat) (d : Dev) : (takeIdx k d).sec = d.sec := rfl
@[simp] theorem takeIdx_tel (k : Nat) (d : Dev) : (takeIdx k d).tel = d.tel := rfl
@[simp] theorem takeIdx_frz (k : Nat) (d : Dev) : (takeIdx k d).frz = d.frz := rfl
@[simp] theorem takeIdx_abandoned (k : Nat) (d : Dev) : (takeIdx k d).abandoned = d.abandoned := rfl
@[simp] theorem takeIdx_earlyJoins (k : Nat) (d : Dev) : (takeIdx k d).earlyJoins = d.earlyJoins := rfl
@[simp] theorem takeIdx_host (k : Nat) (d : Dev) : (takeIdx k d).host = d.host := rfl
@[simp] theorem takeIdx_free (k : Nat) (d : Dev) : (takeIdx k d).free = d.free := rfl
@[simp] theorem takeIdx_out (k : Nat) (d : Dev) : (takeIdx k d).out = d.out := rfl

/-! ### hostWrite -/

@[simp] theorem hostWrite_host (a : Nat) (bs : Bytes) (d : Dev) : (hostWrite a bs d).host = memWrite d.host a bs := rfl
@[simp] theorem hostWrite_serial (a : Nat) (bs : Bytes) (d : Dev) : (hostWrite a bs d).serial = d.serial := rfl
@[simp] theorem hostWrite_ophal (a : Nat) (bs : Bytes) (d : Dev) : (hostWrite a bs d).ophal = d.ophal := rfl
@[simp] theorem hostWrite_fuseIds (a : Nat) (bs : Bytes) (d : Dev) : (hostWrite a bs d).fuseIds = d.fuseIds := rfl
@[simp] theorem hostWrite_tide (a : Nat) (bs : Bytes) (d : Dev) : (hostWrite a bs d).tide = d.tide := rfl
@[simp] theorem hostWrite_vote (a : Nat) (bs : Bytes) (d : Dev) : (hostWrite a bs d).vote = d.vote := rfl
@[simp] theorem hostWrite_step (a : Nat) (bs : Bytes) (d : Dev) : (hostWrite a bs d).step = d.step := rfl
@[simp] theorem hostWrite_mbx (a : Nat) (bs : Bytes) (d : Dev) : (hostWrite a bs d).mbx = d.mbx := rfl
@[simp] theorem hostWrite_mbxOrder (a : Nat) (bs : Bytes) (d : Dev) : (hostWrite a bs d).mbxOrder = d.mbxOrder := rfl
@[simp] theorem hostWrite_pf0 (a : Nat) (bs : Bytes) (d : Dev) : (hostWrite a bs d).pf0 = d.pf0 := rfl
@[simp] theorem hostWrite_pf1 (a : Nat) (bs : Bytes) (d : Dev) : (hostWrite a bs d).pf1 = d.pf1 := rfl
@[simp] theorem hostWrite_chans (a : Nat) (bs : Bytes) (d : Dev) : (hostWrite a bs d).chans = d.chans := rfl
@[simp] theorem hostWrite_tensors (a : Nat) (bs : Bytes) (d : Dev) : (hostWrite a bs d).tensors = d.tensors := rfl
@[simp] theorem hostWrite_maps (a : Nat) (bs : Bytes) (d : Dev) : (hostWrite a bs d).maps = d.maps := rfl
@[simp] theorem hostWrite_programs (a : Nat) (bs : Bytes) (d : Dev) : (hostWrite a bs d).programs = d.programs := rfl
@[simp] theorem hostWrite_plans (a : Nat) (bs : Bytes) (d : Dev) : (hostWrite a bs d).plans = d.plans := rfl
@[simp] theorem hostWrite_factors (a : Nat) (bs : Bytes) (d : Dev) : (hostWrite a bs d).factors = d.factors := rfl
@[simp] theorem hostWrite_warms (a : Nat) (bs : Bytes) (d : Dev) : (hostWrite a bs d).warms = d.warms := rfl
@[simp] theorem hostWrite_groups (a : Nat) (bs : Bytes) (d : Dev) : (hostWrite a bs d).groups = d.groups := rfl
@[simp] theorem hostWrite_idx (a : Nat) (bs : Bytes) (d : Dev) : (hostWrite a bs d).idx = d.idx := rfl
@[simp] theorem hostWrite_items (a : Nat) (bs : Bytes) (d : Dev) : (hostWrite a bs d).items = d.items := rfl
@[simp] theorem hostWrite_nextItem (a : Nat) (bs : Bytes) (d : Dev) : (hostWrite a bs d).nextItem = d.nextItem := rfl
@[simp] theorem hostWrite_loss (a : Nat) (bs : Bytes) (d : Dev) : (hostWrite a bs d).loss = d.loss := rfl
@[simp] theorem hostWrite_devFlags (a : Nat) (bs : Bytes) (d : Dev) : (hostWrite a bs d).devFlags = d.devFlags := rfl
@[simp] theorem hostWrite_cluFlags (a : Nat) (bs : Bytes) (d : Dev) : (hostWrite a bs d).cluFlags = d.cluFlags := rfl
@[simp] theorem hostWrite_cores (a : Nat) (bs : Bytes) (d : Dev) : (hostWrite a bs d).cores = d.cores := rfl
@[simp] theorem hostWrite_upd (a : Nat) (bs : Bytes) (d : Dev) : (hostWrite a bs d).upd = d.upd := rfl
@[simp] theorem hostWrite_mem (a : Nat) (bs : Bytes) (d : Dev) : (hostWrite a bs d).mem = d.mem := rfl
@[simp] theorem hostWrite_units (a : Nat) (bs : Bytes) (d : Dev) : (hostWrite a bs d).units = d.units := rfl
@[simp] theorem hostWrite_flash (a : Nat) (bs : Bytes) (d : Dev) : (hostWrite a bs d).flash = d.flash := rfl
@[simp] theorem hostWrite_power (a : Nat) (bs : Bytes) (d : Dev) : (hostWrite a bs d).power = d.power := rfl
@[simp] theorem hostWrite_brg (a : Nat) (bs : Bytes) (d : Dev) : (hostWrite a bs d).brg = d.brg := rfl
@[simp] theorem hostWrite_lnk (a : Nat) (bs : Bytes) (d : Dev) : (hostWrite a bs d).lnk = d.lnk := rfl
@[simp] theorem hostWrite_pair (a : Nat) (bs : Bytes) (d : Dev) : (hostWrite a bs d).pair = d.pair := rfl
@[simp] theorem hostWrite_lagoon (a : Nat) (bs : Bytes) (d : Dev) : (hostWrite a bs d).lagoon = d.lagoon := rfl
@[simp] theorem hostWrite_spare (a : Nat) (bs : Bytes) (d : Dev) : (hostWrite a bs d).spare = d.spare := rfl
@[simp] theorem hostWrite_ras (a : Nat) (bs : Bytes) (d : Dev) : (hostWrite a bs d).ras = d.ras := rfl
@[simp] theorem hostWrite_rst (a : Nat) (bs : Bytes) (d : Dev) : (hostWrite a bs d).rst = d.rst := rfl
@[simp] theorem hostWrite_sec (a : Nat) (bs : Bytes) (d : Dev) : (hostWrite a bs d).sec = d.sec := rfl
@[simp] theorem hostWrite_tel (a : Nat) (bs : Bytes) (d : Dev) : (hostWrite a bs d).tel = d.tel := rfl
@[simp] theorem hostWrite_frz (a : Nat) (bs : Bytes) (d : Dev) : (hostWrite a bs d).frz = d.frz := rfl
@[simp] theorem hostWrite_abandoned (a : Nat) (bs : Bytes) (d : Dev) : (hostWrite a bs d).abandoned = d.abandoned := rfl
@[simp] theorem hostWrite_earlyJoins (a : Nat) (bs : Bytes) (d : Dev) : (hostWrite a bs d).earlyJoins = d.earlyJoins := rfl
@[simp] theorem hostWrite_free (a : Nat) (bs : Bytes) (d : Dev) : (hostWrite a bs d).free = d.free := rfl
@[simp] theorem hostWrite_out (a : Nat) (bs : Bytes) (d : Dev) : (hostWrite a bs d).out = d.out := rfl

/-! ### logLater -/

@[simp] theorem logLater_ras (r : RasRec) (d : Dev) : (logLater r d).ras = { d.ras with due := d.ras.due ++ [r] } := rfl
@[simp] theorem logLater_serial (r : RasRec) (d : Dev) : (logLater r d).serial = d.serial := rfl
@[simp] theorem logLater_ophal (r : RasRec) (d : Dev) : (logLater r d).ophal = d.ophal := rfl
@[simp] theorem logLater_fuseIds (r : RasRec) (d : Dev) : (logLater r d).fuseIds = d.fuseIds := rfl
@[simp] theorem logLater_tide (r : RasRec) (d : Dev) : (logLater r d).tide = d.tide := rfl
@[simp] theorem logLater_vote (r : RasRec) (d : Dev) : (logLater r d).vote = d.vote := rfl
@[simp] theorem logLater_step (r : RasRec) (d : Dev) : (logLater r d).step = d.step := rfl
@[simp] theorem logLater_mbx (r : RasRec) (d : Dev) : (logLater r d).mbx = d.mbx := rfl
@[simp] theorem logLater_mbxOrder (r : RasRec) (d : Dev) : (logLater r d).mbxOrder = d.mbxOrder := rfl
@[simp] theorem logLater_pf0 (r : RasRec) (d : Dev) : (logLater r d).pf0 = d.pf0 := rfl
@[simp] theorem logLater_pf1 (r : RasRec) (d : Dev) : (logLater r d).pf1 = d.pf1 := rfl
@[simp] theorem logLater_chans (r : RasRec) (d : Dev) : (logLater r d).chans = d.chans := rfl
@[simp] theorem logLater_tensors (r : RasRec) (d : Dev) : (logLater r d).tensors = d.tensors := rfl
@[simp] theorem logLater_maps (r : RasRec) (d : Dev) : (logLater r d).maps = d.maps := rfl
@[simp] theorem logLater_programs (r : RasRec) (d : Dev) : (logLater r d).programs = d.programs := rfl
@[simp] theorem logLater_plans (r : RasRec) (d : Dev) : (logLater r d).plans = d.plans := rfl
@[simp] theorem logLater_factors (r : RasRec) (d : Dev) : (logLater r d).factors = d.factors := rfl
@[simp] theorem logLater_warms (r : RasRec) (d : Dev) : (logLater r d).warms = d.warms := rfl
@[simp] theorem logLater_groups (r : RasRec) (d : Dev) : (logLater r d).groups = d.groups := rfl
@[simp] theorem logLater_idx (r : RasRec) (d : Dev) : (logLater r d).idx = d.idx := rfl
@[simp] theorem logLater_items (r : RasRec) (d : Dev) : (logLater r d).items = d.items := rfl
@[simp] theorem logLater_nextItem (r : RasRec) (d : Dev) : (logLater r d).nextItem = d.nextItem := rfl
@[simp] theorem logLater_loss (r : RasRec) (d : Dev) : (logLater r d).loss = d.loss := rfl
@[simp] theorem logLater_devFlags (r : RasRec) (d : Dev) : (logLater r d).devFlags = d.devFlags := rfl
@[simp] theorem logLater_cluFlags (r : RasRec) (d : Dev) : (logLater r d).cluFlags = d.cluFlags := rfl
@[simp] theorem logLater_cores (r : RasRec) (d : Dev) : (logLater r d).cores = d.cores := rfl
@[simp] theorem logLater_upd (r : RasRec) (d : Dev) : (logLater r d).upd = d.upd := rfl
@[simp] theorem logLater_mem (r : RasRec) (d : Dev) : (logLater r d).mem = d.mem := rfl
@[simp] theorem logLater_units (r : RasRec) (d : Dev) : (logLater r d).units = d.units := rfl
@[simp] theorem logLater_flash (r : RasRec) (d : Dev) : (logLater r d).flash = d.flash := rfl
@[simp] theorem logLater_power (r : RasRec) (d : Dev) : (logLater r d).power = d.power := rfl
@[simp] theorem logLater_brg (r : RasRec) (d : Dev) : (logLater r d).brg = d.brg := rfl
@[simp] theorem logLater_lnk (r : RasRec) (d : Dev) : (logLater r d).lnk = d.lnk := rfl
@[simp] theorem logLater_pair (r : RasRec) (d : Dev) : (logLater r d).pair = d.pair := rfl
@[simp] theorem logLater_lagoon (r : RasRec) (d : Dev) : (logLater r d).lagoon = d.lagoon := rfl
@[simp] theorem logLater_spare (r : RasRec) (d : Dev) : (logLater r d).spare = d.spare := rfl
@[simp] theorem logLater_rst (r : RasRec) (d : Dev) : (logLater r d).rst = d.rst := rfl
@[simp] theorem logLater_sec (r : RasRec) (d : Dev) : (logLater r d).sec = d.sec := rfl
@[simp] theorem logLater_tel (r : RasRec) (d : Dev) : (logLater r d).tel = d.tel := rfl
@[simp] theorem logLater_frz (r : RasRec) (d : Dev) : (logLater r d).frz = d.frz := rfl
@[simp] theorem logLater_abandoned (r : RasRec) (d : Dev) : (logLater r d).abandoned = d.abandoned := rfl
@[simp] theorem logLater_earlyJoins (r : RasRec) (d : Dev) : (logLater r d).earlyJoins = d.earlyJoins := rfl
@[simp] theorem logLater_host (r : RasRec) (d : Dev) : (logLater r d).host = d.host := rfl
@[simp] theorem logLater_free (r : RasRec) (d : Dev) : (logLater r d).free = d.free := rfl
@[simp] theorem logLater_out (r : RasRec) (d : Dev) : (logLater r d).out = d.out := rfl

/-! ### wrV -/

@[simp] theorem wrV_item (i : Nat) (v : BitVec 2048) (c : Core) : (wrV i v c).item = c.item := rfl
@[simp] theorem wrV_run (i : Nat) (v : BitVec 2048) (c : Core) : (wrV i v c).run = c.run := rfl
@[simp] theorem wrV_inst (i : Nat) (v : BitVec 2048) (c : Core) : (wrV i v c).inst = c.inst := rfl
@[simp] theorem wrV_insts (i : Nat) (v : BitVec 2048) (c : Core) : (wrV i v c).insts = c.insts := rfl
@[simp] theorem wrV_seg (i : Nat) (v : BitVec 2048) (c : Core) : (wrV i v c).seg = c.seg := rfl
@[simp] theorem wrV_step (i : Nat) (v : BitVec 2048) (c : Core) : (wrV i v c).step = c.step := rfl
@[simp] theorem wrV_prog (i : Nat) (v : BitVec 2048) (c : Core) : (wrV i v c).prog = c.prog := rfl
@[simp] theorem wrV_bound (i : Nat) (v : BitVec 2048) (c : Core) : (wrV i v c).bound = c.bound := rfl
@[simp] theorem wrV_cycle (i : Nat) (v : BitVec 2048) (c : Core) : (wrV i v c).cycle = c.cycle := rfl
@[simp] theorem wrV_pc (i : Nat) (v : BitVec 2048) (c : Core) : (wrV i v c).pc = c.pc := rfl
@[simp] theorem wrV_s (i : Nat) (v : BitVec 2048) (c : Core) : (wrV i v c).s = c.s := rfl
@[simp] theorem wrV_p (i : Nat) (v : BitVec 2048) (c : Core) : (wrV i v c).p = c.p := rfl
@[simp] theorem wrV_w (i : Nat) (v : BitVec 2048) (c : Core) : (wrV i v c).w = c.w := rfl
@[simp] theorem wrV_mem (i : Nat) (v : BitVec 2048) (c : Core) : (wrV i v c).mem = c.mem := rfl
@[simp] theorem wrV_acc (i : Nat) (v : BitVec 2048) (c : Core) : (wrV i v c).acc = c.acc := rfl
@[simp] theorem wrV_tiles (i : Nat) (v : BitVec 2048) (c : Core) : (wrV i v c).tiles = c.tiles := rfl
@[simp] theorem wrV_flags (i : Nat) (v : BitVec 2048) (c : Core) : (wrV i v c).flags = c.flags := rfl
@[simp] theorem wrV_segFlags (i : Nat) (v : BitVec 2048) (c : Core) : (wrV i v c).segFlags = c.segFlags := rfl
@[simp] theorem wrV_outJobs (i : Nat) (v : BitVec 2048) (c : Core) : (wrV i v c).outJobs = c.outJobs := rfl
@[simp] theorem wrV_dmas (i : Nat) (v : BitVec 2048) (c : Core) : (wrV i v c).dmas = c.dmas := rfl
@[simp] theorem wrV_dmaSeq (i : Nat) (v : BitVec 2048) (c : Core) : (wrV i v c).dmaSeq = c.dmaSeq := rfl
@[simp] theorem wrV_ended (i : Nat) (v : BitVec 2048) (c : Core) : (wrV i v c).ended = c.ended := rfl
@[simp] theorem wrV_vl (i : Nat) (v : BitVec 2048) (c : Core) : (wrV i v c).vl = c.vl := rfl
@[simp] theorem wrV_vfmt (i : Nat) (v : BitVec 2048) (c : Core) : (wrV i v c).vfmt = c.vfmt := rfl
@[simp] theorem wrV_vff (i : Nat) (v : BitVec 2048) (c : Core) : (wrV i v c).vff = c.vff := rfl
@[simp] theorem wrV_rowGroups (i : Nat) (v : BitVec 2048) (c : Core) : (wrV i v c).rowGroups = c.rowGroups := rfl
@[simp] theorem wrV_idle (i : Nat) (v : BitVec 2048) (c : Core) : (wrV i v c).idle = c.idle := rfl
@[simp] theorem wrV_slvJob (i : Nat) (v : BitVec 2048) (c : Core) : (wrV i v c).slvJob = c.slvJob := rfl
@[simp] theorem wrV_asmJob (i : Nat) (v : BitVec 2048) (c : Core) : (wrV i v c).asmJob = c.asmJob := rfl
@[simp] theorem wrV_slvFault (i : Nat) (v : BitVec 2048) (c : Core) : (wrV i v c).slvFault = c.slvFault := rfl
@[simp] theorem wrV_slvFaultAddr (i : Nat) (v : BitVec 2048) (c : Core) : (wrV i v c).slvFaultAddr = c.slvFaultAddr := rfl
@[simp] theorem wrV_slvSummary (i : Nat) (v : BitVec 2048) (c : Core) : (wrV i v c).slvSummary = c.slvSummary := rfl
@[simp] theorem wrV_slvStatus (i : Nat) (v : BitVec 2048) (c : Core) : (wrV i v c).slvStatus = c.slvStatus := rfl
@[simp] theorem wrV_slvPrev (i : Nat) (v : BitVec 2048) (c : Core) : (wrV i v c).slvPrev = c.slvPrev := rfl
@[simp] theorem wrV_slvFactors (i : Nat) (v : BitVec 2048) (c : Core) : (wrV i v c).slvFactors = c.slvFactors := rfl
@[simp] theorem wrV_slvWork (i : Nat) (v : BitVec 2048) (c : Core) : (wrV i v c).slvWork = c.slvWork := rfl
@[simp] theorem wrV_slvPoison (i : Nat) (v : BitVec 2048) (c : Core) : (wrV i v c).slvPoison = c.slvPoison := rfl
@[simp] theorem wrV_fault (i : Nat) (v : BitVec 2048) (c : Core) : (wrV i v c).fault = c.fault := rfl
@[simp] theorem wrV_faultPc (i : Nat) (v : BitVec 2048) (c : Core) : (wrV i v c).faultPc = c.faultPc := rfl
@[simp] theorem wrV_faultAddr (i : Nat) (v : BitVec 2048) (c : Core) : (wrV i v c).faultAddr = c.faultAddr := rfl
@[simp] theorem wrV_pastFall (i : Nat) (v : BitVec 2048) (c : Core) : (wrV i v c).pastFall = c.pastFall := rfl
@[simp] theorem wrV_plan (i : Nat) (v : BitVec 2048) (c : Core) : (wrV i v c).plan = c.plan := rfl
@[simp] theorem wrV_heldBy (i : Nat) (v : BitVec 2048) (c : Core) : (wrV i v c).heldBy = c.heldBy := rfl
@[simp] theorem wrV_redo (i : Nat) (v : BitVec 2048) (c : Core) : (wrV i v c).redo = c.redo := rfl
@[simp] theorem wrV_flagsSince (i : Nat) (v : BitVec 2048) (c : Core) : (wrV i v c).flagsSince = c.flagsSince := rfl
@[simp] theorem wrV_segCount (i : Nat) (v : BitVec 2048) (c : Core) : (wrV i v c).segCount = c.segCount := rfl

/-! ### raise -/

@[simp] theorem raise_item (f : BitVec 4) (c : Core) : (raise f c).item = c.item := rfl
@[simp] theorem raise_run (f : BitVec 4) (c : Core) : (raise f c).run = c.run := rfl
@[simp] theorem raise_inst (f : BitVec 4) (c : Core) : (raise f c).inst = c.inst := rfl
@[simp] theorem raise_insts (f : BitVec 4) (c : Core) : (raise f c).insts = c.insts := rfl
@[simp] theorem raise_seg (f : BitVec 4) (c : Core) : (raise f c).seg = c.seg := rfl
@[simp] theorem raise_step (f : BitVec 4) (c : Core) : (raise f c).step = c.step := rfl
@[simp] theorem raise_prog (f : BitVec 4) (c : Core) : (raise f c).prog = c.prog := rfl
@[simp] theorem raise_bound (f : BitVec 4) (c : Core) : (raise f c).bound = c.bound := rfl
@[simp] theorem raise_cycle (f : BitVec 4) (c : Core) : (raise f c).cycle = c.cycle := rfl
@[simp] theorem raise_pc (f : BitVec 4) (c : Core) : (raise f c).pc = c.pc := rfl
@[simp] theorem raise_s (f : BitVec 4) (c : Core) : (raise f c).s = c.s := rfl
@[simp] theorem raise_v (f : BitVec 4) (c : Core) : (raise f c).v = c.v := rfl
@[simp] theorem raise_p (f : BitVec 4) (c : Core) : (raise f c).p = c.p := rfl
@[simp] theorem raise_w (f : BitVec 4) (c : Core) : (raise f c).w = c.w := rfl
@[simp] theorem raise_mem (f : BitVec 4) (c : Core) : (raise f c).mem = c.mem := rfl
@[simp] theorem raise_acc (f : BitVec 4) (c : Core) : (raise f c).acc = c.acc := rfl
@[simp] theorem raise_tiles (f : BitVec 4) (c : Core) : (raise f c).tiles = c.tiles := rfl
@[simp] theorem raise_outJobs (f : BitVec 4) (c : Core) : (raise f c).outJobs = c.outJobs := rfl
@[simp] theorem raise_dmas (f : BitVec 4) (c : Core) : (raise f c).dmas = c.dmas := rfl
@[simp] theorem raise_dmaSeq (f : BitVec 4) (c : Core) : (raise f c).dmaSeq = c.dmaSeq := rfl
@[simp] theorem raise_ended (f : BitVec 4) (c : Core) : (raise f c).ended = c.ended := rfl
@[simp] theorem raise_vl (f : BitVec 4) (c : Core) : (raise f c).vl = c.vl := rfl
@[simp] theorem raise_vfmt (f : BitVec 4) (c : Core) : (raise f c).vfmt = c.vfmt := rfl
@[simp] theorem raise_vff (f : BitVec 4) (c : Core) : (raise f c).vff = c.vff := rfl
@[simp] theorem raise_rowGroups (f : BitVec 4) (c : Core) : (raise f c).rowGroups = c.rowGroups := rfl
@[simp] theorem raise_idle (f : BitVec 4) (c : Core) : (raise f c).idle = c.idle := rfl
@[simp] theorem raise_slvJob (f : BitVec 4) (c : Core) : (raise f c).slvJob = c.slvJob := rfl
@[simp] theorem raise_asmJob (f : BitVec 4) (c : Core) : (raise f c).asmJob = c.asmJob := rfl
@[simp] theorem raise_slvFault (f : BitVec 4) (c : Core) : (raise f c).slvFault = c.slvFault := rfl
@[simp] theorem raise_slvFaultAddr (f : BitVec 4) (c : Core) : (raise f c).slvFaultAddr = c.slvFaultAddr := rfl
@[simp] theorem raise_slvSummary (f : BitVec 4) (c : Core) : (raise f c).slvSummary = c.slvSummary := rfl
@[simp] theorem raise_slvStatus (f : BitVec 4) (c : Core) : (raise f c).slvStatus = c.slvStatus := rfl
@[simp] theorem raise_slvPrev (f : BitVec 4) (c : Core) : (raise f c).slvPrev = c.slvPrev := rfl
@[simp] theorem raise_slvFactors (f : BitVec 4) (c : Core) : (raise f c).slvFactors = c.slvFactors := rfl
@[simp] theorem raise_slvWork (f : BitVec 4) (c : Core) : (raise f c).slvWork = c.slvWork := rfl
@[simp] theorem raise_slvPoison (f : BitVec 4) (c : Core) : (raise f c).slvPoison = c.slvPoison := rfl
@[simp] theorem raise_fault (f : BitVec 4) (c : Core) : (raise f c).fault = c.fault := rfl
@[simp] theorem raise_faultPc (f : BitVec 4) (c : Core) : (raise f c).faultPc = c.faultPc := rfl
@[simp] theorem raise_faultAddr (f : BitVec 4) (c : Core) : (raise f c).faultAddr = c.faultAddr := rfl
@[simp] theorem raise_pastFall (f : BitVec 4) (c : Core) : (raise f c).pastFall = c.pastFall := rfl
@[simp] theorem raise_plan (f : BitVec 4) (c : Core) : (raise f c).plan = c.plan := rfl
@[simp] theorem raise_heldBy (f : BitVec 4) (c : Core) : (raise f c).heldBy = c.heldBy := rfl
@[simp] theorem raise_redo (f : BitVec 4) (c : Core) : (raise f c).redo = c.redo := rfl
@[simp] theorem raise_flagsSince (f : BitVec 4) (c : Core) : (raise f c).flagsSince = c.flagsSince := rfl
@[simp] theorem raise_segCount (f : BitVec 4) (c : Core) : (raise f c).segCount = c.segCount := rfl

/-! ### wrS -/

@[simp] theorem wrS_item (i : Nat) (v : BitVec 64) (c : Core) : (wrS i v c).item = c.item := by unfold wrS; split <;> rfl
@[simp] theorem wrS_run (i : Nat) (v : BitVec 64) (c : Core) : (wrS i v c).run = c.run := by unfold wrS; split <;> rfl
@[simp] theorem wrS_inst (i : Nat) (v : BitVec 64) (c : Core) : (wrS i v c).inst = c.inst := by unfold wrS; split <;> rfl
@[simp] theorem wrS_insts (i : Nat) (v : BitVec 64) (c : Core) : (wrS i v c).insts = c.insts := by unfold wrS; split <;> rfl
@[simp] theorem wrS_seg (i : Nat) (v : BitVec 64) (c : Core) : (wrS i v c).seg = c.seg := by unfold wrS; split <;> rfl
@[simp] theorem wrS_step (i : Nat) (v : BitVec 64) (c : Core) : (wrS i v c).step = c.step := by unfold wrS; split <;> rfl
@[simp] theorem wrS_prog (i : Nat) (v : BitVec 64) (c : Core) : (wrS i v c).prog = c.prog := by unfold wrS; split <;> rfl
@[simp] theorem wrS_bound (i : Nat) (v : BitVec 64) (c : Core) : (wrS i v c).bound = c.bound := by unfold wrS; split <;> rfl
@[simp] theorem wrS_cycle (i : Nat) (v : BitVec 64) (c : Core) : (wrS i v c).cycle = c.cycle := by unfold wrS; split <;> rfl
@[simp] theorem wrS_pc (i : Nat) (v : BitVec 64) (c : Core) : (wrS i v c).pc = c.pc := by unfold wrS; split <;> rfl
@[simp] theorem wrS_v (i : Nat) (v : BitVec 64) (c : Core) : (wrS i v c).v = c.v := by unfold wrS; split <;> rfl
@[simp] theorem wrS_p (i : Nat) (v : BitVec 64) (c : Core) : (wrS i v c).p = c.p := by unfold wrS; split <;> rfl
@[simp] theorem wrS_w (i : Nat) (v : BitVec 64) (c : Core) : (wrS i v c).w = c.w := by unfold wrS; split <;> rfl
@[simp] theorem wrS_mem (i : Nat) (v : BitVec 64) (c : Core) : (wrS i v c).mem = c.mem := by unfold wrS; split <;> rfl
@[simp] theorem wrS_acc (i : Nat) (v : BitVec 64) (c : Core) : (wrS i v c).acc = c.acc := by unfold wrS; split <;> rfl
@[simp] theorem wrS_tiles (i : Nat) (v : BitVec 64) (c : Core) : (wrS i v c).tiles = c.tiles := by unfold wrS; split <;> rfl
@[simp] theorem wrS_flags (i : Nat) (v : BitVec 64) (c : Core) : (wrS i v c).flags = c.flags := by unfold wrS; split <;> rfl
@[simp] theorem wrS_segFlags (i : Nat) (v : BitVec 64) (c : Core) : (wrS i v c).segFlags = c.segFlags := by unfold wrS; split <;> rfl
@[simp] theorem wrS_outJobs (i : Nat) (v : BitVec 64) (c : Core) : (wrS i v c).outJobs = c.outJobs := by unfold wrS; split <;> rfl
@[simp] theorem wrS_dmas (i : Nat) (v : BitVec 64) (c : Core) : (wrS i v c).dmas = c.dmas := by unfold wrS; split <;> rfl
@[simp] theorem wrS_dmaSeq (i : Nat) (v : BitVec 64) (c : Core) : (wrS i v c).dmaSeq = c.dmaSeq := by unfold wrS; split <;> rfl
@[simp] theorem wrS_ended (i : Nat) (v : BitVec 64) (c : Core) : (wrS i v c).ended = c.ended := by unfold wrS; split <;> rfl
@[simp] theorem wrS_vl (i : Nat) (v : BitVec 64) (c : Core) : (wrS i v c).vl = c.vl := by unfold wrS; split <;> rfl
@[simp] theorem wrS_vfmt (i : Nat) (v : BitVec 64) (c : Core) : (wrS i v c).vfmt = c.vfmt := by unfold wrS; split <;> rfl
@[simp] theorem wrS_vff (i : Nat) (v : BitVec 64) (c : Core) : (wrS i v c).vff = c.vff := by unfold wrS; split <;> rfl
@[simp] theorem wrS_rowGroups (i : Nat) (v : BitVec 64) (c : Core) : (wrS i v c).rowGroups = c.rowGroups := by unfold wrS; split <;> rfl
@[simp] theorem wrS_idle (i : Nat) (v : BitVec 64) (c : Core) : (wrS i v c).idle = c.idle := by unfold wrS; split <;> rfl
@[simp] theorem wrS_slvJob (i : Nat) (v : BitVec 64) (c : Core) : (wrS i v c).slvJob = c.slvJob := by unfold wrS; split <;> rfl
@[simp] theorem wrS_asmJob (i : Nat) (v : BitVec 64) (c : Core) : (wrS i v c).asmJob = c.asmJob := by unfold wrS; split <;> rfl
@[simp] theorem wrS_slvFault (i : Nat) (v : BitVec 64) (c : Core) : (wrS i v c).slvFault = c.slvFault := by unfold wrS; split <;> rfl
@[simp] theorem wrS_slvFaultAddr (i : Nat) (v : BitVec 64) (c : Core) : (wrS i v c).slvFaultAddr = c.slvFaultAddr := by unfold wrS; split <;> rfl
@[simp] theorem wrS_slvSummary (i : Nat) (v : BitVec 64) (c : Core) : (wrS i v c).slvSummary = c.slvSummary := by unfold wrS; split <;> rfl
@[simp] theorem wrS_slvStatus (i : Nat) (v : BitVec 64) (c : Core) : (wrS i v c).slvStatus = c.slvStatus := by unfold wrS; split <;> rfl
@[simp] theorem wrS_slvPrev (i : Nat) (v : BitVec 64) (c : Core) : (wrS i v c).slvPrev = c.slvPrev := by unfold wrS; split <;> rfl
@[simp] theorem wrS_slvFactors (i : Nat) (v : BitVec 64) (c : Core) : (wrS i v c).slvFactors = c.slvFactors := by unfold wrS; split <;> rfl
@[simp] theorem wrS_slvWork (i : Nat) (v : BitVec 64) (c : Core) : (wrS i v c).slvWork = c.slvWork := by unfold wrS; split <;> rfl
@[simp] theorem wrS_slvPoison (i : Nat) (v : BitVec 64) (c : Core) : (wrS i v c).slvPoison = c.slvPoison := by unfold wrS; split <;> rfl
@[simp] theorem wrS_fault (i : Nat) (v : BitVec 64) (c : Core) : (wrS i v c).fault = c.fault := by unfold wrS; split <;> rfl
@[simp] theorem wrS_faultPc (i : Nat) (v : BitVec 64) (c : Core) : (wrS i v c).faultPc = c.faultPc := by unfold wrS; split <;> rfl
@[simp] theorem wrS_faultAddr (i : Nat) (v : BitVec 64) (c : Core) : (wrS i v c).faultAddr = c.faultAddr := by unfold wrS; split <;> rfl
@[simp] theorem wrS_pastFall (i : Nat) (v : BitVec 64) (c : Core) : (wrS i v c).pastFall = c.pastFall := by unfold wrS; split <;> rfl
@[simp] theorem wrS_plan (i : Nat) (v : BitVec 64) (c : Core) : (wrS i v c).plan = c.plan := by unfold wrS; split <;> rfl
@[simp] theorem wrS_heldBy (i : Nat) (v : BitVec 64) (c : Core) : (wrS i v c).heldBy = c.heldBy := by unfold wrS; split <;> rfl
@[simp] theorem wrS_redo (i : Nat) (v : BitVec 64) (c : Core) : (wrS i v c).redo = c.redo := by unfold wrS; split <;> rfl
@[simp] theorem wrS_flagsSince (i : Nat) (v : BitVec 64) (c : Core) : (wrS i v c).flagsSince = c.flagsSince := by unfold wrS; split <;> rfl
@[simp] theorem wrS_segCount (i : Nat) (v : BitVec 64) (c : Core) : (wrS i v c).segCount = c.segCount := by unfold wrS; split <;> rfl

/-! ### wrP -/

@[simp] theorem wrP_item (i : Nat) (v : BitVec 256) (c : Core) : (wrP i v c).item = c.item := by unfold wrP; split <;> rfl
@[simp] theorem wrP_run (i : Nat) (v : BitVec 256) (c : Core) : (wrP i v c).run = c.run := by unfold wrP; split <;> rfl
@[simp] theorem wrP_inst (i : Nat) (v : BitVec 256) (c : Core) : (wrP i v c).inst = c.inst := by unfold wrP; split <;> rfl
@[simp] theorem wrP_insts (i : Nat) (v : BitVec 256) (c : Core) : (wrP i v c).insts = c.insts := by unfold wrP; split <;> rfl
@[simp] theorem wrP_seg (i : Nat) (v : BitVec 256) (c : Core) : (wrP i v c).seg = c.seg := by unfold wrP; split <;> rfl
@[simp] theorem wrP_step (i : Nat) (v : BitVec 256) (c : Core) : (wrP i v c).step = c.step := by unfold wrP; split <;> rfl
@[simp] theorem wrP_prog (i : Nat) (v : BitVec 256) (c : Core) : (wrP i v c).prog = c.prog := by unfold wrP; split <;> rfl
@[simp] theorem wrP_bound (i : Nat) (v : BitVec 256) (c : Core) : (wrP i v c).bound = c.bound := by unfold wrP; split <;> rfl
@[simp] theorem wrP_cycle (i : Nat) (v : BitVec 256) (c : Core) : (wrP i v c).cycle = c.cycle := by unfold wrP; split <;> rfl
@[simp] theorem wrP_pc (i : Nat) (v : BitVec 256) (c : Core) : (wrP i v c).pc = c.pc := by unfold wrP; split <;> rfl
@[simp] theorem wrP_s (i : Nat) (v : BitVec 256) (c : Core) : (wrP i v c).s = c.s := by unfold wrP; split <;> rfl
@[simp] theorem wrP_v (i : Nat) (v : BitVec 256) (c : Core) : (wrP i v c).v = c.v := by unfold wrP; split <;> rfl
@[simp] theorem wrP_w (i : Nat) (v : BitVec 256) (c : Core) : (wrP i v c).w = c.w := by unfold wrP; split <;> rfl
@[simp] theorem wrP_mem (i : Nat) (v : BitVec 256) (c : Core) : (wrP i v c).mem = c.mem := by unfold wrP; split <;> rfl
@[simp] theorem wrP_acc (i : Nat) (v : BitVec 256) (c : Core) : (wrP i v c).acc = c.acc := by unfold wrP; split <;> rfl
@[simp] theorem wrP_tiles (i : Nat) (v : BitVec 256) (c : Core) : (wrP i v c).tiles = c.tiles := by unfold wrP; split <;> rfl
@[simp] theorem wrP_flags (i : Nat) (v : BitVec 256) (c : Core) : (wrP i v c).flags = c.flags := by unfold wrP; split <;> rfl
@[simp] theorem wrP_segFlags (i : Nat) (v : BitVec 256) (c : Core) : (wrP i v c).segFlags = c.segFlags := by unfold wrP; split <;> rfl
@[simp] theorem wrP_outJobs (i : Nat) (v : BitVec 256) (c : Core) : (wrP i v c).outJobs = c.outJobs := by unfold wrP; split <;> rfl
@[simp] theorem wrP_dmas (i : Nat) (v : BitVec 256) (c : Core) : (wrP i v c).dmas = c.dmas := by unfold wrP; split <;> rfl
@[simp] theorem wrP_dmaSeq (i : Nat) (v : BitVec 256) (c : Core) : (wrP i v c).dmaSeq = c.dmaSeq := by unfold wrP; split <;> rfl
@[simp] theorem wrP_ended (i : Nat) (v : BitVec 256) (c : Core) : (wrP i v c).ended = c.ended := by unfold wrP; split <;> rfl
@[simp] theorem wrP_vl (i : Nat) (v : BitVec 256) (c : Core) : (wrP i v c).vl = c.vl := by unfold wrP; split <;> rfl
@[simp] theorem wrP_vfmt (i : Nat) (v : BitVec 256) (c : Core) : (wrP i v c).vfmt = c.vfmt := by unfold wrP; split <;> rfl
@[simp] theorem wrP_vff (i : Nat) (v : BitVec 256) (c : Core) : (wrP i v c).vff = c.vff := by unfold wrP; split <;> rfl
@[simp] theorem wrP_rowGroups (i : Nat) (v : BitVec 256) (c : Core) : (wrP i v c).rowGroups = c.rowGroups := by unfold wrP; split <;> rfl
@[simp] theorem wrP_idle (i : Nat) (v : BitVec 256) (c : Core) : (wrP i v c).idle = c.idle := by unfold wrP; split <;> rfl
@[simp] theorem wrP_slvJob (i : Nat) (v : BitVec 256) (c : Core) : (wrP i v c).slvJob = c.slvJob := by unfold wrP; split <;> rfl
@[simp] theorem wrP_asmJob (i : Nat) (v : BitVec 256) (c : Core) : (wrP i v c).asmJob = c.asmJob := by unfold wrP; split <;> rfl
@[simp] theorem wrP_slvFault (i : Nat) (v : BitVec 256) (c : Core) : (wrP i v c).slvFault = c.slvFault := by unfold wrP; split <;> rfl
@[simp] theorem wrP_slvFaultAddr (i : Nat) (v : BitVec 256) (c : Core) : (wrP i v c).slvFaultAddr = c.slvFaultAddr := by unfold wrP; split <;> rfl
@[simp] theorem wrP_slvSummary (i : Nat) (v : BitVec 256) (c : Core) : (wrP i v c).slvSummary = c.slvSummary := by unfold wrP; split <;> rfl
@[simp] theorem wrP_slvStatus (i : Nat) (v : BitVec 256) (c : Core) : (wrP i v c).slvStatus = c.slvStatus := by unfold wrP; split <;> rfl
@[simp] theorem wrP_slvPrev (i : Nat) (v : BitVec 256) (c : Core) : (wrP i v c).slvPrev = c.slvPrev := by unfold wrP; split <;> rfl
@[simp] theorem wrP_slvFactors (i : Nat) (v : BitVec 256) (c : Core) : (wrP i v c).slvFactors = c.slvFactors := by unfold wrP; split <;> rfl
@[simp] theorem wrP_slvWork (i : Nat) (v : BitVec 256) (c : Core) : (wrP i v c).slvWork = c.slvWork := by unfold wrP; split <;> rfl
@[simp] theorem wrP_slvPoison (i : Nat) (v : BitVec 256) (c : Core) : (wrP i v c).slvPoison = c.slvPoison := by unfold wrP; split <;> rfl
@[simp] theorem wrP_fault (i : Nat) (v : BitVec 256) (c : Core) : (wrP i v c).fault = c.fault := by unfold wrP; split <;> rfl
@[simp] theorem wrP_faultPc (i : Nat) (v : BitVec 256) (c : Core) : (wrP i v c).faultPc = c.faultPc := by unfold wrP; split <;> rfl
@[simp] theorem wrP_faultAddr (i : Nat) (v : BitVec 256) (c : Core) : (wrP i v c).faultAddr = c.faultAddr := by unfold wrP; split <;> rfl
@[simp] theorem wrP_pastFall (i : Nat) (v : BitVec 256) (c : Core) : (wrP i v c).pastFall = c.pastFall := by unfold wrP; split <;> rfl
@[simp] theorem wrP_plan (i : Nat) (v : BitVec 256) (c : Core) : (wrP i v c).plan = c.plan := by unfold wrP; split <;> rfl
@[simp] theorem wrP_heldBy (i : Nat) (v : BitVec 256) (c : Core) : (wrP i v c).heldBy = c.heldBy := by unfold wrP; split <;> rfl
@[simp] theorem wrP_redo (i : Nat) (v : BitVec 256) (c : Core) : (wrP i v c).redo = c.redo := by unfold wrP; split <;> rfl
@[simp] theorem wrP_flagsSince (i : Nat) (v : BitVec 256) (c : Core) : (wrP i v c).flagsSince = c.flagsSince := by unfold wrP; split <;> rfl
@[simp] theorem wrP_segCount (i : Nat) (v : BitVec 256) (c : Core) : (wrP i v c).segCount = c.segCount := by unfold wrP; split <;> rfl

/-- A write to s0 is discarded (06 R197). -/
@[simp] theorem wrS_zero (v : BitVec 64) (c : Core) : wrS 0 v c = c := rfl
/-- A write to p0 is discarded (06 Table 6-1). -/
@[simp] theorem wrP_zero (v : BitVec 256) (c : Core) : wrP 0 v c = c := rfl
/-- s0 reads as zero. -/
@[simp] theorem rdS_zero (c : Core) : rdS c 0 = 0 := rfl
/-- p0 reads as all true. -/
@[simp] theorem rdP_zero (c : Core) : rdP c 0 = BitVec.allOnes 256 := rfl
theorem rdS_wrS_same (i : Nat) (v : BitVec 64) (c : Core) (h : i ≠ 0) : rdS (wrS i v c) i = v := by
  simp [rdS, wrS, h]
theorem rdS_wrS_other (i j : Nat) (v : BitVec 64) (c : Core) (h : j ≠ i) : rdS (wrS i v c) j = rdS c j := by
  unfold wrS
  split
  · rfl
  · simp [rdS, aGet_aSet_other _ _ _ _ h]
theorem rdV_wrV_same (i : Nat) (v : BitVec 2048) (c : Core) : rdV (wrV i v c) i = v := by simp [rdV, wrV]
theorem rdV_wrV_other (i j : Nat) (v : BitVec 2048) (c : Core) (h : j ≠ i) : rdV (wrV i v c) j = rdV c j := by
  simp [rdV, wrV, aGet_aSet_other _ _ _ _ h]
theorem rdP_wrP_same (i : Nat) (v : BitVec 256) (c : Core) (h : i ≠ 0) : rdP (wrP i v c) i = v := by simp [rdP, wrP, h]
theorem rdP_wrP_other (i j : Nat) (v : BitVec 256) (c : Core) (h : j ≠ i) : rdP (wrP i v c) j = rdP c j := by
  unfold wrP
  split
  · rfl
  · simp [rdP, aGet_aSet_other _ _ _ _ h]

end Sys2Proof.Laws
end

