-- ==== Sys2Proof/Laws/Frames.lean ====
section
/-! SUPPORT. What the shared operations that log, signal, answer and send can change: each changes the listed parts and no other. -/
namespace Sys2Proof.Laws
open Sys2Proof Sys2Proof.Machine

/-- A source of PF0 marks itself pending or held, or sends. -/
theorem fire0_frame (v : Nat) (d : Dev) : ∃ x0 x1, fire0 v d = { d with pf0 := x0, out := x1 } := by
  unfold fire0
  split
  · exact ⟨_, _, rfl⟩
  · split <;> exact ⟨_, _, rfl⟩
@[simp] theorem fire0_tide (v : Nat) (d : Dev) : (fire0 v d).tide = d.tide := by obtain ⟨_, _, h⟩ := fire0_frame v d; rw [h]
@[simp] theorem fire0_cores (v : Nat) (d : Dev) : (fire0 v d).cores = d.cores := by obtain ⟨_, _, h⟩ := fire0_frame v d; rw [h]
@[simp] theorem fire0_items (v : Nat) (d : Dev) : (fire0 v d).items = d.items := by obtain ⟨_, _, h⟩ := fire0_frame v d; rw [h]
@[simp] theorem fire0_tensors (v : Nat) (d : Dev) : (fire0 v d).tensors = d.tensors := by obtain ⟨_, _, h⟩ := fire0_frame v d; rw [h]
@[simp] theorem fire0_programs (v : Nat) (d : Dev) : (fire0 v d).programs = d.programs := by obtain ⟨_, _, h⟩ := fire0_frame v d; rw [h]
@[simp] theorem fire0_mem (v : Nat) (d : Dev) : (fire0 v d).mem = d.mem := by obtain ⟨_, _, h⟩ := fire0_frame v d; rw [h]
@[simp] theorem fire0_units (v : Nat) (d : Dev) : (fire0 v d).units = d.units := by obtain ⟨_, _, h⟩ := fire0_frame v d; rw [h]
@[simp] theorem fire0_mbx (v : Nat) (d : Dev) : (fire0 v d).mbx = d.mbx := by obtain ⟨_, _, h⟩ := fire0_frame v d; rw [h]
@[simp] theorem fire0_chans (v : Nat) (d : Dev) : (fire0 v d).chans = d.chans := by obtain ⟨_, _, h⟩ := fire0_frame v d; rw [h]
@[simp] theorem fire0_host (v : Nat) (d : Dev) : (fire0 v d).host = d.host := by obtain ⟨_, _, h⟩ := fire0_frame v d; rw [h]
@[simp] theorem fire0_tel (v : Nat) (d : Dev) : (fire0 v d).tel = d.tel := by obtain ⟨_, _, h⟩ := fire0_frame v d; rw [h]
@[simp] theorem fire0_power (v : Nat) (d : Dev) : (fire0 v d).power = d.power := by obtain ⟨_, _, h⟩ := fire0_frame v d; rw [h]
@[simp] theorem fire0_brg (v : Nat) (d : Dev) : (fire0 v d).brg = d.brg := by obtain ⟨_, _, h⟩ := fire0_frame v d; rw [h]
@[simp] theorem fire0_spare (v : Nat) (d : Dev) : (fire0 v d).spare = d.spare := by obtain ⟨_, _, h⟩ := fire0_frame v d; rw [h]
@[simp] theorem fire0_pair (v : Nat) (d : Dev) : (fire0 v d).pair = d.pair := by obtain ⟨_, _, h⟩ := fire0_frame v d; rw [h]
@[simp] theorem fire0_flash (v : Nat) (d : Dev) : (fire0 v d).flash = d.flash := by obtain ⟨_, _, h⟩ := fire0_frame v d; rw [h]
@[simp] theorem fire0_lnk (v : Nat) (d : Dev) : (fire0 v d).lnk = d.lnk := by obtain ⟨_, _, h⟩ := fire0_frame v d; rw [h]
@[simp] theorem fire0_sec (v : Nat) (d : Dev) : (fire0 v d).sec = d.sec := by obtain ⟨_, _, h⟩ := fire0_frame v d; rw [h]
@[simp] theorem fire0_free (v : Nat) (d : Dev) : (fire0 v d).free = d.free := by obtain ⟨_, _, h⟩ := fire0_frame v d; rw [h]

/-- A source of PF1 marks itself pending or held, or sends. -/
theorem fire1_frame (v : Nat) (d : Dev) : ∃ x0 x1, fire1 v d = { d with pf1 := x0, out := x1 } := by
  unfold fire1
  split
  · exact ⟨_, _, rfl⟩
  · split <;> exact ⟨_, _, rfl⟩
@[simp] theorem fire1_tide (v : Nat) (d : Dev) : (fire1 v d).tide = d.tide := by obtain ⟨_, _, h⟩ := fire1_frame v d; rw [h]
@[simp] theorem fire1_cores (v : Nat) (d : Dev) : (fire1 v d).cores = d.cores := by obtain ⟨_, _, h⟩ := fire1_frame v d; rw [h]
@[simp] theorem fire1_items (v : Nat) (d : Dev) : (fire1 v d).items = d.items := by obtain ⟨_, _, h⟩ := fire1_frame v d; rw [h]
@[simp] theorem fire1_tensors (v : Nat) (d : Dev) : (fire1 v d).tensors = d.tensors := by obtain ⟨_, _, h⟩ := fire1_frame v d; rw [h]
@[simp] theorem fire1_programs (v : Nat) (d : Dev) : (fire1 v d).programs = d.programs := by obtain ⟨_, _, h⟩ := fire1_frame v d; rw [h]
@[simp] theorem fire1_mem (v : Nat) (d : Dev) : (fire1 v d).mem = d.mem := by obtain ⟨_, _, h⟩ := fire1_frame v d; rw [h]
@[simp] theorem fire1_units (v : Nat) (d : Dev) : (fire1 v d).units = d.units := by obtain ⟨_, _, h⟩ := fire1_frame v d; rw [h]
@[simp] theorem fire1_mbx (v : Nat) (d : Dev) : (fire1 v d).mbx = d.mbx := by obtain ⟨_, _, h⟩ := fire1_frame v d; rw [h]
@[simp] theorem fire1_chans (v : Nat) (d : Dev) : (fire1 v d).chans = d.chans := by obtain ⟨_, _, h⟩ := fire1_frame v d; rw [h]
@[simp] theorem fire1_host (v : Nat) (d : Dev) : (fire1 v d).host = d.host := by obtain ⟨_, _, h⟩ := fire1_frame v d; rw [h]
@[simp] theorem fire1_tel (v : Nat) (d : Dev) : (fire1 v d).tel = d.tel := by obtain ⟨_, _, h⟩ := fire1_frame v d; rw [h]
@[simp] theorem fire1_power (v : Nat) (d : Dev) : (fire1 v d).power = d.power := by obtain ⟨_, _, h⟩ := fire1_frame v d; rw [h]
@[simp] theorem fire1_brg (v : Nat) (d : Dev) : (fire1 v d).brg = d.brg := by obtain ⟨_, _, h⟩ := fire1_frame v d; rw [h]
@[simp] theorem fire1_spare (v : Nat) (d : Dev) : (fire1 v d).spare = d.spare := by obtain ⟨_, _, h⟩ := fire1_frame v d; rw [h]
@[simp] theorem fire1_pair (v : Nat) (d : Dev) : (fire1 v d).pair = d.pair := by obtain ⟨_, _, h⟩ := fire1_frame v d; rw [h]
@[simp] theorem fire1_flash (v : Nat) (d : Dev) : (fire1 v d).flash = d.flash := by obtain ⟨_, _, h⟩ := fire1_frame v d; rw [h]
@[simp] theorem fire1_lnk (v : Nat) (d : Dev) : (fire1 v d).lnk = d.lnk := by obtain ⟨_, _, h⟩ := fire1_frame v d; rw [h]
@[simp] theorem fire1_sec (v : Nat) (d : Dev) : (fire1 v d).sec = d.sec := by obtain ⟨_, _, h⟩ := fire1_frame v d; rw [h]
@[simp] theorem fire1_free (v : Nat) (d : Dev) : (fire1 v d).free = d.free := by obtain ⟨_, _, h⟩ := fire1_frame v d; rw [h]

/-- A record enters the queues and may signal (13 R461 to R465). -/
theorem logRec_frame (r : RasRec) (d : Dev) : ∃ x0 x1 x2 x3, logRec r d = { d with ras := x0, pf0 := x1, pf1 := x2, out := x3 } := by
  have h0 : ∀ (b : Bool) (v : Nat) (e : Dev), ∃ x y, (if b = true then fire0 v e else e) = { e with pf0 := x, out := y } := by
    intro b v e
    split
    · exact fire0_frame v e
    · exact ⟨_, _, rfl⟩
  have h1 : ∀ (b : Bool) (v : Nat) (e : Dev), ∃ x y, (if b = true then fire1 v e else e) = { e with pf1 := x, out := y } := by
    intro b v e
    split
    · exact fire1_frame v e
    · exact ⟨_, _, rfl⟩
  have key : ∀ (b0 b1 : Bool) (v0 v1 : Nat) (x : RasBlock) (e : Dev), e = { d with ras := x } → ∃ w0 w1 w2 w3,
      (if b0 = true then fire0 v0 (if b1 = true then fire1 v1 e else e) else (if b1 = true then fire1 v1 e else e))
        = { d with ras := w0, pf0 := w1, pf1 := w2, out := w3 } := by
    intro b0 b1 v0 v1 x e he
    obtain ⟨_, _, e1⟩ := h1 b1 v1 e
    obtain ⟨_, _, e0⟩ := h0 b0 v0 (if b1 = true then fire1 v1 e else e)
    rw [e0, e1, he]
    exact ⟨_, _, _, _, rfl⟩
  exact key _ _ _ _ _ _ rfl
@[simp] theorem logRec_tide (r : RasRec) (d : Dev) : (logRec r d).tide = d.tide := by obtain ⟨_, _, _, _, h⟩ := logRec_frame r d; rw [h]
@[simp] theorem logRec_cores (r : RasRec) (d : Dev) : (logRec r d).cores = d.cores := by obtain ⟨_, _, _, _, h⟩ := logRec_frame r d; rw [h]
@[simp] theorem logRec_items (r : RasRec) (d : Dev) : (logRec r d).items = d.items := by obtain ⟨_, _, _, _, h⟩ := logRec_frame r d; rw [h]
@[simp] theorem logRec_tensors (r : RasRec) (d : Dev) : (logRec r d).tensors = d.tensors := by obtain ⟨_, _, _, _, h⟩ := logRec_frame r d; rw [h]
@[simp] theorem logRec_programs (r : RasRec) (d : Dev) : (logRec r d).programs = d.programs := by obtain ⟨_, _, _, _, h⟩ := logRec_frame r d; rw [h]
@[simp] theorem logRec_mem (r : RasRec) (d : Dev) : (logRec r d).mem = d.mem := by obtain ⟨_, _, _, _, h⟩ := logRec_frame r d; rw [h]
@[simp] theorem logRec_units (r : RasRec) (d : Dev) : (logRec r d).units = d.units := by obtain ⟨_, _, _, _, h⟩ := logRec_frame r d; rw [h]
@[simp] theorem logRec_mbx (r : RasRec) (d : Dev) : (logRec r d).mbx = d.mbx := by obtain ⟨_, _, _, _, h⟩ := logRec_frame r d; rw [h]
@[simp] theorem logRec_chans (r : RasRec) (d : Dev) : (logRec r d).chans = d.chans := by obtain ⟨_, _, _, _, h⟩ := logRec_frame r d; rw [h]
@[simp] theorem logRec_host (r : RasRec) (d : Dev) : (logRec r d).host = d.host := by obtain ⟨_, _, _, _, h⟩ := logRec_frame r d; rw [h]
@[simp] theorem logRec_tel (r : RasRec) (d : Dev) : (logRec r d).tel = d.tel := by obtain ⟨_, _, _, _, h⟩ := logRec_frame r d; rw [h]
@[simp] theorem logRec_power (r : RasRec) (d : Dev) : (logRec r d).power = d.power := by obtain ⟨_, _, _, _, h⟩ := logRec_frame r d; rw [h]
@[simp] theorem logRec_brg (r : RasRec) (d : Dev) : (logRec r d).brg = d.brg := by obtain ⟨_, _, _, _, h⟩ := logRec_frame r d; rw [h]
@[simp] theorem logRec_spare (r : RasRec) (d : Dev) : (logRec r d).spare = d.spare := by obtain ⟨_, _, _, _, h⟩ := logRec_frame r d; rw [h]
@[simp] theorem logRec_pair (r : RasRec) (d : Dev) : (logRec r d).pair = d.pair := by obtain ⟨_, _, _, _, h⟩ := logRec_frame r d; rw [h]
@[simp] theorem logRec_flash (r : RasRec) (d : Dev) : (logRec r d).flash = d.flash := by obtain ⟨_, _, _, _, h⟩ := logRec_frame r d; rw [h]
@[simp] theorem logRec_lnk (r : RasRec) (d : Dev) : (logRec r d).lnk = d.lnk := by obtain ⟨_, _, _, _, h⟩ := logRec_frame r d; rw [h]
@[simp] theorem logRec_sec (r : RasRec) (d : Dev) : (logRec r d).sec = d.sec := by obtain ⟨_, _, _, _, h⟩ := logRec_frame r d; rw [h]
@[simp] theorem logRec_free (r : RasRec) (d : Dev) : (logRec r d).free = d.free := by obtain ⟨_, _, _, _, h⟩ := logRec_frame r d; rw [h]

/-- A record about a unit. -/
theorem logUnit_frame (sev cls kind logical physical : Nat) (d : Dev) : ∃ x0 x1 x2 x3, logUnit sev cls kind logical physical d = { d with ras := x0, pf0 := x1, pf1 := x2, out := x3 } := by
  exact logRec_frame _ d
@[simp] theorem logUnit_tide (sev cls kind logical physical : Nat) (d : Dev) : (logUnit sev cls kind logical physical d).tide = d.tide := by obtain ⟨_, _, _, _, h⟩ := logUnit_frame sev cls kind logical physical d; rw [h]
@[simp] theorem logUnit_cores (sev cls kind logical physical : Nat) (d : Dev) : (logUnit sev cls kind logical physical d).cores = d.cores := by obtain ⟨_, _, _, _, h⟩ := logUnit_frame sev cls kind logical physical d; rw [h]
@[simp] theorem logUnit_items (sev cls kind logical physical : Nat) (d : Dev) : (logUnit sev cls kind logical physical d).items = d.items := by obtain ⟨_, _, _, _, h⟩ := logUnit_frame sev cls kind logical physical d; rw [h]
@[simp] theorem logUnit_tensors (sev cls kind logical physical : Nat) (d : Dev) : (logUnit sev cls kind logical physical d).tensors = d.tensors := by obtain ⟨_, _, _, _, h⟩ := logUnit_frame sev cls kind logical physical d; rw [h]
@[simp] theorem logUnit_programs (sev cls kind logical physical : Nat) (d : Dev) : (logUnit sev cls kind logical physical d).programs = d.programs := by obtain ⟨_, _, _, _, h⟩ := logUnit_frame sev cls kind logical physical d; rw [h]
@[simp] theorem logUnit_mem (sev cls kind logical physical : Nat) (d : Dev) : (logUnit sev cls kind logical physical d).mem = d.mem := by obtain ⟨_, _, _, _, h⟩ := logUnit_frame sev cls kind logical physical d; rw [h]
@[simp] theorem logUnit_units (sev cls kind logical physical : Nat) (d : Dev) : (logUnit sev cls kind logical physical d).units = d.units := by obtain ⟨_, _, _, _, h⟩ := logUnit_frame sev cls kind logical physical d; rw [h]
@[simp] theorem logUnit_mbx (sev cls kind logical physical : Nat) (d : Dev) : (logUnit sev cls kind logical physical d).mbx = d.mbx := by obtain ⟨_, _, _, _, h⟩ := logUnit_frame sev cls kind logical physical d; rw [h]
@[simp] theorem logUnit_chans (sev cls kind logical physical : Nat) (d : Dev) : (logUnit sev cls kind logical physical d).chans = d.chans := by obtain ⟨_, _, _, _, h⟩ := logUnit_frame sev cls kind logical physical d; rw [h]
@[simp] theorem logUnit_host (sev cls kind logical physical : Nat) (d : Dev) : (logUnit sev cls kind logical physical d).host = d.host := by obtain ⟨_, _, _, _, h⟩ := logUnit_frame sev cls kind logical physical d; rw [h]
@[simp] theorem logUnit_tel (sev cls kind logical physical : Nat) (d : Dev) : (logUnit sev cls kind logical physical d).tel = d.tel := by obtain ⟨_, _, _, _, h⟩ := logUnit_frame sev cls kind logical physical d; rw [h]
@[simp] theorem logUnit_power (sev cls kind logical physical : Nat) (d : Dev) : (logUnit sev cls kind logical physical d).power = d.power := by obtain ⟨_, _, _, _, h⟩ := logUnit_frame sev cls kind logical physical d; rw [h]
@[simp] theorem logUnit_brg (sev cls kind logical physical : Nat) (d : Dev) : (logUnit sev cls kind logical physical d).brg = d.brg := by obtain ⟨_, _, _, _, h⟩ := logUnit_frame sev cls kind logical physical d; rw [h]
@[simp] theorem logUnit_spare (sev cls kind logical physical : Nat) (d : Dev) : (logUnit sev cls kind logical physical d).spare = d.spare := by obtain ⟨_, _, _, _, h⟩ := logUnit_frame sev cls kind logical physical d; rw [h]
@[simp] theorem logUnit_pair (sev cls kind logical physical : Nat) (d : Dev) : (logUnit sev cls kind logical physical d).pair = d.pair := by obtain ⟨_, _, _, _, h⟩ := logUnit_frame sev cls kind logical physical d; rw [h]
@[simp] theorem logUnit_flash (sev cls kind logical physical : Nat) (d : Dev) : (logUnit sev cls kind logical physical d).flash = d.flash := by obtain ⟨_, _, _, _, h⟩ := logUnit_frame sev cls kind logical physical d; rw [h]
@[simp] theorem logUnit_lnk (sev cls kind logical physical : Nat) (d : Dev) : (logUnit sev cls kind logical physical d).lnk = d.lnk := by obtain ⟨_, _, _, _, h⟩ := logUnit_frame sev cls kind logical physical d; rw [h]
@[simp] theorem logUnit_sec (sev cls kind logical physical : Nat) (d : Dev) : (logUnit sev cls kind logical physical d).sec = d.sec := by obtain ⟨_, _, _, _, h⟩ := logUnit_frame sev cls kind logical physical d; rw [h]
@[simp] theorem logUnit_free (sev cls kind logical physical : Nat) (d : Dev) : (logUnit sev cls kind logical physical d).free = d.free := by obtain ⟨_, _, _, _, h⟩ := logUnit_frame sev cls kind logical physical d; rw [h]

/-- A record is logged now, later or not at all. -/
theorem logWhenRuns_frame (r : RasRec) (d : Dev) : ∃ x0 x1 x2 x3, logWhenRuns r d = { d with ras := x0, pf0 := x1, pf1 := x2, out := x3 } := by
  unfold logWhenRuns
  split
  · exact logRec_frame _ d
  · split <;> exact ⟨_, _, _, _, rfl⟩
@[simp] theorem logWhenRuns_tide (r : RasRec) (d : Dev) : (logWhenRuns r d).tide = d.tide := by obtain ⟨_, _, _, _, h⟩ := logWhenRuns_frame r d; rw [h]
@[simp] theorem logWhenRuns_cores (r : RasRec) (d : Dev) : (logWhenRuns r d).cores = d.cores := by obtain ⟨_, _, _, _, h⟩ := logWhenRuns_frame r d; rw [h]
@[simp] theorem logWhenRuns_items (r : RasRec) (d : Dev) : (logWhenRuns r d).items = d.items := by obtain ⟨_, _, _, _, h⟩ := logWhenRuns_frame r d; rw [h]
@[simp] theorem logWhenRuns_tensors (r : RasRec) (d : Dev) : (logWhenRuns r d).tensors = d.tensors := by obtain ⟨_, _, _, _, h⟩ := logWhenRuns_frame r d; rw [h]
@[simp] theorem logWhenRuns_programs (r : RasRec) (d : Dev) : (logWhenRuns r d).programs = d.programs := by obtain ⟨_, _, _, _, h⟩ := logWhenRuns_frame r d; rw [h]
@[simp] theorem logWhenRuns_mem (r : RasRec) (d : Dev) : (logWhenRuns r d).mem = d.mem := by obtain ⟨_, _, _, _, h⟩ := logWhenRuns_frame r d; rw [h]
@[simp] theorem logWhenRuns_units (r : RasRec) (d : Dev) : (logWhenRuns r d).units = d.units := by obtain ⟨_, _, _, _, h⟩ := logWhenRuns_frame r d; rw [h]
@[simp] theorem logWhenRuns_mbx (r : RasRec) (d : Dev) : (logWhenRuns r d).mbx = d.mbx := by obtain ⟨_, _, _, _, h⟩ := logWhenRuns_frame r d; rw [h]
@[simp] theorem logWhenRuns_chans (r : RasRec) (d : Dev) : (logWhenRuns r d).chans = d.chans := by obtain ⟨_, _, _, _, h⟩ := logWhenRuns_frame r d; rw [h]
@[simp] theorem logWhenRuns_host (r : RasRec) (d : Dev) : (logWhenRuns r d).host = d.host := by obtain ⟨_, _, _, _, h⟩ := logWhenRuns_frame r d; rw [h]
@[simp] theorem logWhenRuns_tel (r : RasRec) (d : Dev) : (logWhenRuns r d).tel = d.tel := by obtain ⟨_, _, _, _, h⟩ := logWhenRuns_frame r d; rw [h]
@[simp] theorem logWhenRuns_power (r : RasRec) (d : Dev) : (logWhenRuns r d).power = d.power := by obtain ⟨_, _, _, _, h⟩ := logWhenRuns_frame r d; rw [h]
@[simp] theorem logWhenRuns_brg (r : RasRec) (d : Dev) : (logWhenRuns r d).brg = d.brg := by obtain ⟨_, _, _, _, h⟩ := logWhenRuns_frame r d; rw [h]
@[simp] theorem logWhenRuns_spare (r : RasRec) (d : Dev) : (logWhenRuns r d).spare = d.spare := by obtain ⟨_, _, _, _, h⟩ := logWhenRuns_frame r d; rw [h]
@[simp] theorem logWhenRuns_pair (r : RasRec) (d : Dev) : (logWhenRuns r d).pair = d.pair := by obtain ⟨_, _, _, _, h⟩ := logWhenRuns_frame r d; rw [h]
@[simp] theorem logWhenRuns_flash (r : RasRec) (d : Dev) : (logWhenRuns r d).flash = d.flash := by obtain ⟨_, _, _, _, h⟩ := logWhenRuns_frame r d; rw [h]
@[simp] theorem logWhenRuns_lnk (r : RasRec) (d : Dev) : (logWhenRuns r d).lnk = d.lnk := by obtain ⟨_, _, _, _, h⟩ := logWhenRuns_frame r d; rw [h]
@[simp] theorem logWhenRuns_sec (r : RasRec) (d : Dev) : (logWhenRuns r d).sec = d.sec := by obtain ⟨_, _, _, _, h⟩ := logWhenRuns_frame r d; rw [h]
@[simp] theorem logWhenRuns_free (r : RasRec) (d : Dev) : (logWhenRuns r d).free = d.free := by obtain ⟨_, _, _, _, h⟩ := logWhenRuns_frame r d; rw [h]

/-- An entry of the repair log, or the record that it is full (14 R477). -/
theorem repairLog_frame (kind cause physical code : Nat) (sector : BitVec 64) (d : Dev) : ∃ x0 x1 x2 x3 x4, repairLog kind cause physical code sector d = { d with ras := x0, pf0 := x1, pf1 := x2, out := x3, flash := x4 } := by
  unfold repairLog
  split
  · obtain ⟨_, _, _, _, h⟩ := logUnit_frame 3 0x0F0A kind physical physical d
    rw [h]
    exact ⟨_, _, _, _, _, rfl⟩
  · exact ⟨_, _, _, _, _, rfl⟩
@[simp] theorem repairLog_tide (kind cause physical code : Nat) (sector : BitVec 64) (d : Dev) : (repairLog kind cause physical code sector d).tide = d.tide := by obtain ⟨_, _, _, _, _, h⟩ := repairLog_frame kind cause physical code sector d; rw [h]
@[simp] theorem repairLog_cores (kind cause physical code : Nat) (sector : BitVec 64) (d : Dev) : (repairLog kind cause physical code sector d).cores = d.cores := by obtain ⟨_, _, _, _, _, h⟩ := repairLog_frame kind cause physical code sector d; rw [h]
@[simp] theorem repairLog_items (kind cause physical code : Nat) (sector : BitVec 64) (d : Dev) : (repairLog kind cause physical code sector d).items = d.items := by obtain ⟨_, _, _, _, _, h⟩ := repairLog_frame kind cause physical code sector d; rw [h]
@[simp] theorem repairLog_tensors (kind cause physical code : Nat) (sector : BitVec 64) (d : Dev) : (repairLog kind cause physical code sector d).tensors = d.tensors := by obtain ⟨_, _, _, _, _, h⟩ := repairLog_frame kind cause physical code sector d; rw [h]
@[simp] theorem repairLog_programs (kind cause physical code : Nat) (sector : BitVec 64) (d : Dev) : (repairLog kind cause physical code sector d).programs = d.programs := by obtain ⟨_, _, _, _, _, h⟩ := repairLog_frame kind cause physical code sector d; rw [h]
@[simp] theorem repairLog_mem (kind cause physical code : Nat) (sector : BitVec 64) (d : Dev) : (repairLog kind cause physical code sector d).mem = d.mem := by obtain ⟨_, _, _, _, _, h⟩ := repairLog_frame kind cause physical code sector d; rw [h]
@[simp] theorem repairLog_units (kind cause physical code : Nat) (sector : BitVec 64) (d : Dev) : (repairLog kind cause physical code sector d).units = d.units := by obtain ⟨_, _, _, _, _, h⟩ := repairLog_frame kind cause physical code sector d; rw [h]
@[simp] theorem repairLog_mbx (kind cause physical code : Nat) (sector : BitVec 64) (d : Dev) : (repairLog kind cause physical code sector d).mbx = d.mbx := by obtain ⟨_, _, _, _, _, h⟩ := repairLog_frame kind cause physical code sector d; rw [h]
@[simp] theorem repairLog_chans (kind cause physical code : Nat) (sector : BitVec 64) (d : Dev) : (repairLog kind cause physical code sector d).chans = d.chans := by obtain ⟨_, _, _, _, _, h⟩ := repairLog_frame kind cause physical code sector d; rw [h]
@[simp] theorem repairLog_host (kind cause physical code : Nat) (sector : BitVec 64) (d : Dev) : (repairLog kind cause physical code sector d).host = d.host := by obtain ⟨_, _, _, _, _, h⟩ := repairLog_frame kind cause physical code sector d; rw [h]
@[simp] theorem repairLog_tel (kind cause physical code : Nat) (sector : BitVec 64) (d : Dev) : (repairLog kind cause physical code sector d).tel = d.tel := by obtain ⟨_, _, _, _, _, h⟩ := repairLog_frame kind cause physical code sector d; rw [h]
@[simp] theorem repairLog_power (kind cause physical code : Nat) (sector : BitVec 64) (d : Dev) : (repairLog kind cause physical code sector d).power = d.power := by obtain ⟨_, _, _, _, _, h⟩ := repairLog_frame kind cause physical code sector d; rw [h]
@[simp] theorem repairLog_brg (kind cause physical code : Nat) (sector : BitVec 64) (d : Dev) : (repairLog kind cause physical code sector d).brg = d.brg := by obtain ⟨_, _, _, _, _, h⟩ := repairLog_frame kind cause physical code sector d; rw [h]
@[simp] theorem repairLog_spare (kind cause physical code : Nat) (sector : BitVec 64) (d : Dev) : (repairLog kind cause physical code sector d).spare = d.spare := by obtain ⟨_, _, _, _, _, h⟩ := repairLog_frame kind cause physical code sector d; rw [h]
@[simp] theorem repairLog_pair (kind cause physical code : Nat) (sector : BitVec 64) (d : Dev) : (repairLog kind cause physical code sector d).pair = d.pair := by obtain ⟨_, _, _, _, _, h⟩ := repairLog_frame kind cause physical code sector d; rw [h]
@[simp] theorem repairLog_lnk (kind cause physical code : Nat) (sector : BitVec 64) (d : Dev) : (repairLog kind cause physical code sector d).lnk = d.lnk := by obtain ⟨_, _, _, _, _, h⟩ := repairLog_frame kind cause physical code sector d; rw [h]
@[simp] theorem repairLog_sec (kind cause physical code : Nat) (sector : BitVec 64) (d : Dev) : (repairLog kind cause physical code sector d).sec = d.sec := by obtain ⟨_, _, _, _, _, h⟩ := repairLog_frame kind cause physical code sector d; rw [h]
@[simp] theorem repairLog_free (kind cause physical code : Nat) (sector : BitVec 64) (d : Dev) : (repairLog kind cause physical code sector d).free = d.free := by obtain ⟨_, _, _, _, _, h⟩ := repairLog_frame kind cause physical code sector d; rw [h]

/-- A mailbox response is stored and may signal (03 R76). -/
theorem answer_frame (m status detail : Nat) (body : Bytes) (d : Dev) : ∃ x0 x1 x2, answer m status detail body d = { d with mbx := x0, pf0 := x1, out := x2 } := by
  simp only [answer]
  split
  · obtain ⟨_, _, h⟩ := fire0_frame _ _
    rw [h]
    exact ⟨_, _, _, rfl⟩
  · exact ⟨_, _, _, rfl⟩
@[simp] theorem answer_tide (m status detail : Nat) (body : Bytes) (d : Dev) : (answer m status detail body d).tide = d.tide := by obtain ⟨_, _, _, h⟩ := answer_frame m status detail body d; rw [h]
@[simp] theorem answer_cores (m status detail : Nat) (body : Bytes) (d : Dev) : (answer m status detail body d).cores = d.cores := by obtain ⟨_, _, _, h⟩ := answer_frame m status detail body d; rw [h]
@[simp] theorem answer_items (m status detail : Nat) (body : Bytes) (d : Dev) : (answer m status detail body d).items = d.items := by obtain ⟨_, _, _, h⟩ := answer_frame m status detail body d; rw [h]
@[simp] theorem answer_tensors (m status detail : Nat) (body : Bytes) (d : Dev) : (answer m status detail body d).tensors = d.tensors := by obtain ⟨_, _, _, h⟩ := answer_frame m status detail body d; rw [h]
@[simp] theorem answer_programs (m status detail : Nat) (body : Bytes) (d : Dev) : (answer m status detail body d).programs = d.programs := by obtain ⟨_, _, _, h⟩ := answer_frame m status detail body d; rw [h]
@[simp] theorem answer_mem (m status detail : Nat) (body : Bytes) (d : Dev) : (answer m status detail body d).mem = d.mem := by obtain ⟨_, _, _, h⟩ := answer_frame m status detail body d; rw [h]
@[simp] theorem answer_units (m status detail : Nat) (body : Bytes) (d : Dev) : (answer m status detail body d).units = d.units := by obtain ⟨_, _, _, h⟩ := answer_frame m status detail body d; rw [h]
@[simp] theorem answer_chans (m status detail : Nat) (body : Bytes) (d : Dev) : (answer m status detail body d).chans = d.chans := by obtain ⟨_, _, _, h⟩ := answer_frame m status detail body d; rw [h]
@[simp] theorem answer_host (m status detail : Nat) (body : Bytes) (d : Dev) : (answer m status detail body d).host = d.host := by obtain ⟨_, _, _, h⟩ := answer_frame m status detail body d; rw [h]
@[simp] theorem answer_tel (m status detail : Nat) (body : Bytes) (d : Dev) : (answer m status detail body d).tel = d.tel := by obtain ⟨_, _, _, h⟩ := answer_frame m status detail body d; rw [h]
@[simp] theorem answer_power (m status detail : Nat) (body : Bytes) (d : Dev) : (answer m status detail body d).power = d.power := by obtain ⟨_, _, _, h⟩ := answer_frame m status detail body d; rw [h]
@[simp] theorem answer_brg (m status detail : Nat) (body : Bytes) (d : Dev) : (answer m status detail body d).brg = d.brg := by obtain ⟨_, _, _, h⟩ := answer_frame m status detail body d; rw [h]
@[simp] theorem answer_spare (m status detail : Nat) (body : Bytes) (d : Dev) : (answer m status detail body d).spare = d.spare := by obtain ⟨_, _, _, h⟩ := answer_frame m status detail body d; rw [h]
@[simp] theorem answer_pair (m status detail : Nat) (body : Bytes) (d : Dev) : (answer m status detail body d).pair = d.pair := by obtain ⟨_, _, _, h⟩ := answer_frame m status detail body d; rw [h]
@[simp] theorem answer_flash (m status detail : Nat) (body : Bytes) (d : Dev) : (answer m status detail body d).flash = d.flash := by obtain ⟨_, _, _, h⟩ := answer_frame m status detail body d; rw [h]
@[simp] theorem answer_lnk (m status detail : Nat) (body : Bytes) (d : Dev) : (answer m status detail body d).lnk = d.lnk := by obtain ⟨_, _, _, h⟩ := answer_frame m status detail body d; rw [h]
@[simp] theorem answer_sec (m status detail : Nat) (body : Bytes) (d : Dev) : (answer m status detail body d).sec = d.sec := by obtain ⟨_, _, _, h⟩ := answer_frame m status detail body d; rw [h]
@[simp] theorem answer_free (m status detail : Nat) (body : Bytes) (d : Dev) : (answer m status detail body d).free = d.free := by obtain ⟨_, _, _, h⟩ := answer_frame m status detail body d; rw [h]

/-- A refusal is stored and may signal (03 R77). -/
theorem refuse_frame (m reason off : Nat) (d : Dev) : ∃ x0 x1 x2, refuse m reason off d = { d with mbx := x0, pf0 := x1, out := x2 } := by
  exact answer_frame m _ _ _ d
@[simp] theorem refuse_tide (m reason off : Nat) (d : Dev) : (refuse m reason off d).tide = d.tide := by obtain ⟨_, _, _, h⟩ := refuse_frame m reason off d; rw [h]
@[simp] theorem refuse_cores (m reason off : Nat) (d : Dev) : (refuse m reason off d).cores = d.cores := by obtain ⟨_, _, _, h⟩ := refuse_frame m reason off d; rw [h]
@[simp] theorem refuse_items (m reason off : Nat) (d : Dev) : (refuse m reason off d).items = d.items := by obtain ⟨_, _, _, h⟩ := refuse_frame m reason off d; rw [h]
@[simp] theorem refuse_tensors (m reason off : Nat) (d : Dev) : (refuse m reason off d).tensors = d.tensors := by obtain ⟨_, _, _, h⟩ := refuse_frame m reason off d; rw [h]
@[simp] theorem refuse_programs (m reason off : Nat) (d : Dev) : (refuse m reason off d).programs = d.programs := by obtain ⟨_, _, _, h⟩ := refuse_frame m reason off d; rw [h]
@[simp] theorem refuse_mem (m reason off : Nat) (d : Dev) : (refuse m reason off d).mem = d.mem := by obtain ⟨_, _, _, h⟩ := refuse_frame m reason off d; rw [h]
@[simp] theorem refuse_units (m reason off : Nat) (d : Dev) : (refuse m reason off d).units = d.units := by obtain ⟨_, _, _, h⟩ := refuse_frame m reason off d; rw [h]
@[simp] theorem refuse_chans (m reason off : Nat) (d : Dev) : (refuse m reason off d).chans = d.chans := by obtain ⟨_, _, _, h⟩ := refuse_frame m reason off d; rw [h]
@[simp] theorem refuse_host (m reason off : Nat) (d : Dev) : (refuse m reason off d).host = d.host := by obtain ⟨_, _, _, h⟩ := refuse_frame m reason off d; rw [h]
@[simp] theorem refuse_tel (m reason off : Nat) (d : Dev) : (refuse m reason off d).tel = d.tel := by obtain ⟨_, _, _, h⟩ := refuse_frame m reason off d; rw [h]
@[simp] theorem refuse_power (m reason off : Nat) (d : Dev) : (refuse m reason off d).power = d.power := by obtain ⟨_, _, _, h⟩ := refuse_frame m reason off d; rw [h]
@[simp] theorem refuse_brg (m reason off : Nat) (d : Dev) : (refuse m reason off d).brg = d.brg := by obtain ⟨_, _, _, h⟩ := refuse_frame m reason off d; rw [h]
@[simp] theorem refuse_spare (m reason off : Nat) (d : Dev) : (refuse m reason off d).spare = d.spare := by obtain ⟨_, _, _, h⟩ := refuse_frame m reason off d; rw [h]
@[simp] theorem refuse_pair (m reason off : Nat) (d : Dev) : (refuse m reason off d).pair = d.pair := by obtain ⟨_, _, _, h⟩ := refuse_frame m reason off d; rw [h]
@[simp] theorem refuse_flash (m reason off : Nat) (d : Dev) : (refuse m reason off d).flash = d.flash := by obtain ⟨_, _, _, h⟩ := refuse_frame m reason off d; rw [h]
@[simp] theorem refuse_lnk (m reason off : Nat) (d : Dev) : (refuse m reason off d).lnk = d.lnk := by obtain ⟨_, _, _, h⟩ := refuse_frame m reason off d; rw [h]
@[simp] theorem refuse_sec (m reason off : Nat) (d : Dev) : (refuse m reason off d).sec = d.sec := by obtain ⟨_, _, _, h⟩ := refuse_frame m reason off d; rw [h]
@[simp] theorem refuse_free (m reason off : Nat) (d : Dev) : (refuse m reason off d).free = d.free := by obtain ⟨_, _, _, h⟩ := refuse_frame m reason off d; rw [h]

/-- A security response is stored and may signal (16 R535). -/
theorem secAnswer_frame (reason off : Nat) (body : Bytes) (d : Dev) : ∃ x0 x1 x2, secAnswer reason off body d = { d with sec := x0, pf1 := x1, out := x2 } := by
  simp only [secAnswer]
  split
  · obtain ⟨_, _, h⟩ := fire1_frame _ _
    rw [h]
    exact ⟨_, _, _, rfl⟩
  · exact ⟨_, _, _, rfl⟩
@[simp] theorem secAnswer_tide (reason off : Nat) (body : Bytes) (d : Dev) : (secAnswer reason off body d).tide = d.tide := by obtain ⟨_, _, _, h⟩ := secAnswer_frame reason off body d; rw [h]
@[simp] theorem secAnswer_cores (reason off : Nat) (body : Bytes) (d : Dev) : (secAnswer reason off body d).cores = d.cores := by obtain ⟨_, _, _, h⟩ := secAnswer_frame reason off body d; rw [h]
@[simp] theorem secAnswer_items (reason off : Nat) (body : Bytes) (d : Dev) : (secAnswer reason off body d).items = d.items := by obtain ⟨_, _, _, h⟩ := secAnswer_frame reason off body d; rw [h]
@[simp] theorem secAnswer_tensors (reason off : Nat) (body : Bytes) (d : Dev) : (secAnswer reason off body d).tensors = d.tensors := by obtain ⟨_, _, _, h⟩ := secAnswer_frame reason off body d; rw [h]
@[simp] theorem secAnswer_programs (reason off : Nat) (body : Bytes) (d : Dev) : (secAnswer reason off body d).programs = d.programs := by obtain ⟨_, _, _, h⟩ := secAnswer_frame reason off body d; rw [h]
@[simp] theorem secAnswer_mem (reason off : Nat) (body : Bytes) (d : Dev) : (secAnswer reason off body d).mem = d.mem := by obtain ⟨_, _, _, h⟩ := secAnswer_frame reason off body d; rw [h]
@[simp] theorem secAnswer_units (reason off : Nat) (body : Bytes) (d : Dev) : (secAnswer reason off body d).units = d.units := by obtain ⟨_, _, _, h⟩ := secAnswer_frame reason off body d; rw [h]
@[simp] theorem secAnswer_mbx (reason off : Nat) (body : Bytes) (d : Dev) : (secAnswer reason off body d).mbx = d.mbx := by obtain ⟨_, _, _, h⟩ := secAnswer_frame reason off body d; rw [h]
@[simp] theorem secAnswer_chans (reason off : Nat) (body : Bytes) (d : Dev) : (secAnswer reason off body d).chans = d.chans := by obtain ⟨_, _, _, h⟩ := secAnswer_frame reason off body d; rw [h]
@[simp] theorem secAnswer_host (reason off : Nat) (body : Bytes) (d : Dev) : (secAnswer reason off body d).host = d.host := by obtain ⟨_, _, _, h⟩ := secAnswer_frame reason off body d; rw [h]
@[simp] theorem secAnswer_tel (reason off : Nat) (body : Bytes) (d : Dev) : (secAnswer reason off body d).tel = d.tel := by obtain ⟨_, _, _, h⟩ := secAnswer_frame reason off body d; rw [h]
@[simp] theorem secAnswer_power (reason off : Nat) (body : Bytes) (d : Dev) : (secAnswer reason off body d).power = d.power := by obtain ⟨_, _, _, h⟩ := secAnswer_frame reason off body d; rw [h]
@[simp] theorem secAnswer_brg (reason off : Nat) (body : Bytes) (d : Dev) : (secAnswer reason off body d).brg = d.brg := by obtain ⟨_, _, _, h⟩ := secAnswer_frame reason off body d; rw [h]
@[simp] theorem secAnswer_spare (reason off : Nat) (body : Bytes) (d : Dev) : (secAnswer reason off body d).spare = d.spare := by obtain ⟨_, _, _, h⟩ := secAnswer_frame reason off body d; rw [h]
@[simp] theorem secAnswer_pair (reason off : Nat) (body : Bytes) (d : Dev) : (secAnswer reason off body d).pair = d.pair := by obtain ⟨_, _, _, h⟩ := secAnswer_frame reason off body d; rw [h]
@[simp] theorem secAnswer_flash (reason off : Nat) (body : Bytes) (d : Dev) : (secAnswer reason off body d).flash = d.flash := by obtain ⟨_, _, _, h⟩ := secAnswer_frame reason off body d; rw [h]
@[simp] theorem secAnswer_lnk (reason off : Nat) (body : Bytes) (d : Dev) : (secAnswer reason off body d).lnk = d.lnk := by obtain ⟨_, _, _, h⟩ := secAnswer_frame reason off body d; rw [h]
@[simp] theorem secAnswer_free (reason off : Nat) (body : Bytes) (d : Dev) : (secAnswer reason off body d).free = d.free := by obtain ⟨_, _, _, h⟩ := secAnswer_frame reason off body d; rw [h]

/-- A packet goes into a link's queue (11 R356 to R367). -/
theorem transmit_frame (st : Nat) (h : PacketHeader) (bs : Bytes) (d : Dev) : ∃ x0 x1, transmit st h bs d = { d with lnk := x0, out := x1 } := by
  simp only [transmit]
  split <;> exact ⟨_, _, rfl⟩
@[simp] theorem transmit_tide (st : Nat) (h : PacketHeader) (bs : Bytes) (d : Dev) : (transmit st h bs d).tide = d.tide := by obtain ⟨_, _, e⟩ := transmit_frame st h bs d; rw [e]
@[simp] theorem transmit_cores (st : Nat) (h : PacketHeader) (bs : Bytes) (d : Dev) : (transmit st h bs d).cores = d.cores := by obtain ⟨_, _, e⟩ := transmit_frame st h bs d; rw [e]
@[simp] theorem transmit_items (st : Nat) (h : PacketHeader) (bs : Bytes) (d : Dev) : (transmit st h bs d).items = d.items := by obtain ⟨_, _, e⟩ := transmit_frame st h bs d; rw [e]
@[simp] theorem transmit_tensors (st : Nat) (h : PacketHeader) (bs : Bytes) (d : Dev) : (transmit st h bs d).tensors = d.tensors := by obtain ⟨_, _, e⟩ := transmit_frame st h bs d; rw [e]
@[simp] theorem transmit_programs (st : Nat) (h : PacketHeader) (bs : Bytes) (d : Dev) : (transmit st h bs d).programs = d.programs := by obtain ⟨_, _, e⟩ := transmit_frame st h bs d; rw [e]
@[simp] theorem transmit_mem (st : Nat) (h : PacketHeader) (bs : Bytes) (d : Dev) : (transmit st h bs d).mem = d.mem := by obtain ⟨_, _, e⟩ := transmit_frame st h bs d; rw [e]
@[simp] theorem transmit_units (st : Nat) (h : PacketHeader) (bs : Bytes) (d : Dev) : (transmit st h bs d).units = d.units := by obtain ⟨_, _, e⟩ := transmit_frame st h bs d; rw [e]
@[simp] theorem transmit_mbx (st : Nat) (h : PacketHeader) (bs : Bytes) (d : Dev) : (transmit st h bs d).mbx = d.mbx := by obtain ⟨_, _, e⟩ := transmit_frame st h bs d; rw [e]
@[simp] theorem transmit_chans (st : Nat) (h : PacketHeader) (bs : Bytes) (d : Dev) : (transmit st h bs d).chans = d.chans := by obtain ⟨_, _, e⟩ := transmit_frame st h bs d; rw [e]
@[simp] theorem transmit_host (st : Nat) (h : PacketHeader) (bs : Bytes) (d : Dev) : (transmit st h bs d).host = d.host := by obtain ⟨_, _, e⟩ := transmit_frame st h bs d; rw [e]
@[simp] theorem transmit_tel (st : Nat) (h : PacketHeader) (bs : Bytes) (d : Dev) : (transmit st h bs d).tel = d.tel := by obtain ⟨_, _, e⟩ := transmit_frame st h bs d; rw [e]
@[simp] theorem transmit_power (st : Nat) (h : PacketHeader) (bs : Bytes) (d : Dev) : (transmit st h bs d).power = d.power := by obtain ⟨_, _, e⟩ := transmit_frame st h bs d; rw [e]
@[simp] theorem transmit_brg (st : Nat) (h : PacketHeader) (bs : Bytes) (d : Dev) : (transmit st h bs d).brg = d.brg := by obtain ⟨_, _, e⟩ := transmit_frame st h bs d; rw [e]
@[simp] theorem transmit_spare (st : Nat) (h : PacketHeader) (bs : Bytes) (d : Dev) : (transmit st h bs d).spare = d.spare := by obtain ⟨_, _, e⟩ := transmit_frame st h bs d; rw [e]
@[simp] theorem transmit_pair (st : Nat) (h : PacketHeader) (bs : Bytes) (d : Dev) : (transmit st h bs d).pair = d.pair := by obtain ⟨_, _, e⟩ := transmit_frame st h bs d; rw [e]
@[simp] theorem transmit_flash (st : Nat) (h : PacketHeader) (bs : Bytes) (d : Dev) : (transmit st h bs d).flash = d.flash := by obtain ⟨_, _, e⟩ := transmit_frame st h bs d; rw [e]
@[simp] theorem transmit_sec (st : Nat) (h : PacketHeader) (bs : Bytes) (d : Dev) : (transmit st h bs d).sec = d.sec := by obtain ⟨_, _, e⟩ := transmit_frame st h bs d; rw [e]
@[simp] theorem transmit_free (st : Nat) (h : PacketHeader) (bs : Bytes) (d : Dev) : (transmit st h bs d).free = d.free := by obtain ⟨_, _, e⟩ := transmit_frame st h bs d; rw [e]

/-- A packet of this module enters the torus or waits (11 R389, R394). -/
theorem inject_frame (p : Pos) (vl use : Nat) (bs : Bytes) (d : Dev) : ∃ x0 x1, inject p vl use bs d = { d with lnk := x0, out := x1 } := by
  simp only [inject]
  split
  · exact transmit_frame _ _ _ d
  · exact ⟨_, _, rfl⟩
  · exact ⟨_, _, rfl⟩
@[simp] theorem inject_tide (p : Pos) (vl use : Nat) (bs : Bytes) (d : Dev) : (inject p vl use bs d).tide = d.tide := by obtain ⟨_, _, h⟩ := inject_frame p vl use bs d; rw [h]
@[simp] theorem inject_cores (p : Pos) (vl use : Nat) (bs : Bytes) (d : Dev) : (inject p vl use bs d).cores = d.cores := by obtain ⟨_, _, h⟩ := inject_frame p vl use bs d; rw [h]
@[simp] theorem inject_items (p : Pos) (vl use : Nat) (bs : Bytes) (d : Dev) : (inject p vl use bs d).items = d.items := by obtain ⟨_, _, h⟩ := inject_frame p vl use bs d; rw [h]
@[simp] theorem inject_tensors (p : Pos) (vl use : Nat) (bs : Bytes) (d : Dev) : (inject p vl use bs d).tensors = d.tensors := by obtain ⟨_, _, h⟩ := inject_frame p vl use bs d; rw [h]
@[simp] theorem inject_programs (p : Pos) (vl use : Nat) (bs : Bytes) (d : Dev) : (inject p vl use bs d).programs = d.programs := by obtain ⟨_, _, h⟩ := inject_frame p vl use bs d; rw [h]
@[simp] theorem inject_mem (p : Pos) (vl use : Nat) (bs : Bytes) (d : Dev) : (inject p vl use bs d).mem = d.mem := by obtain ⟨_, _, h⟩ := inject_frame p vl use bs d; rw [h]
@[simp] theorem inject_units (p : Pos) (vl use : Nat) (bs : Bytes) (d : Dev) : (inject p vl use bs d).units = d.units := by obtain ⟨_, _, h⟩ := inject_frame p vl use bs d; rw [h]
@[simp] theorem inject_mbx (p : Pos) (vl use : Nat) (bs : Bytes) (d : Dev) : (inject p vl use bs d).mbx = d.mbx := by obtain ⟨_, _, h⟩ := inject_frame p vl use bs d; rw [h]
@[simp] theorem inject_chans (p : Pos) (vl use : Nat) (bs : Bytes) (d : Dev) : (inject p vl use bs d).chans = d.chans := by obtain ⟨_, _, h⟩ := inject_frame p vl use bs d; rw [h]
@[simp] theorem inject_host (p : Pos) (vl use : Nat) (bs : Bytes) (d : Dev) : (inject p vl use bs d).host = d.host := by obtain ⟨_, _, h⟩ := inject_frame p vl use bs d; rw [h]
@[simp] theorem inject_tel (p : Pos) (vl use : Nat) (bs : Bytes) (d : Dev) : (inject p vl use bs d).tel = d.tel := by obtain ⟨_, _, h⟩ := inject_frame p vl use bs d; rw [h]
@[simp] theorem inject_power (p : Pos) (vl use : Nat) (bs : Bytes) (d : Dev) : (inject p vl use bs d).power = d.power := by obtain ⟨_, _, h⟩ := inject_frame p vl use bs d; rw [h]
@[simp] theorem inject_brg (p : Pos) (vl use : Nat) (bs : Bytes) (d : Dev) : (inject p vl use bs d).brg = d.brg := by obtain ⟨_, _, h⟩ := inject_frame p vl use bs d; rw [h]
@[simp] theorem inject_spare (p : Pos) (vl use : Nat) (bs : Bytes) (d : Dev) : (inject p vl use bs d).spare = d.spare := by obtain ⟨_, _, h⟩ := inject_frame p vl use bs d; rw [h]
@[simp] theorem inject_pair (p : Pos) (vl use : Nat) (bs : Bytes) (d : Dev) : (inject p vl use bs d).pair = d.pair := by obtain ⟨_, _, h⟩ := inject_frame p vl use bs d; rw [h]
@[simp] theorem inject_flash (p : Pos) (vl use : Nat) (bs : Bytes) (d : Dev) : (inject p vl use bs d).flash = d.flash := by obtain ⟨_, _, h⟩ := inject_frame p vl use bs d; rw [h]
@[simp] theorem inject_sec (p : Pos) (vl use : Nat) (bs : Bytes) (d : Dev) : (inject p vl use bs d).sec = d.sec := by obtain ⟨_, _, h⟩ := inject_frame p vl use bs d; rw [h]
@[simp] theorem inject_free (p : Pos) (vl use : Nat) (bs : Bytes) (d : Dev) : (inject p vl use bs d).free = d.free := by obtain ⟨_, _, h⟩ := inject_frame p vl use bs d; rw [h]

/-- A fold of operations that change only the links and what is sent changes only those. -/
theorem foldl_frame {α : Type} (f : Dev → α → Dev) (hf : ∀ d a, ∃ x y, f d a = { d with lnk := x, out := y }) (l : List α) :
    ∀ d : Dev, ∃ x y, l.foldl f d = { d with lnk := x, out := y } := by
  induction l with
  | nil => exact fun d => ⟨_, _, rfl⟩
  | cons a t ih =>
    intro d
    obtain ⟨_, _, h⟩ := hf d a
    obtain ⟨x, y, e⟩ := ih (f d a)
    exact ⟨x, y, by rw [List.foldl_cons, e, h]⟩

/-- What is sent is noted and enters the torus. -/
theorem send_frame (x : Sent) (d : Dev) : ∃ x0 x1, send x d = { d with lnk := x0, out := x1 } := by
  have hf : ∀ (f : Option Nat × Nat × Bytes) (l : List Nat) (e : Dev), ∃ x y, l.foldl (fun (d : Dev) s =>
      match neighbourOf d d.lnk.pos s with
      | some q => transmit s { dst := q, src := d.lnk.pos, partId := d.lnk.partId, length := f.2.2.length, use := f.2.1, vl := 4 } f.2.2 d
      | none => d) e = { e with lnk := x, out := y } := by
    intro f l e
    refine foldl_frame _ (fun d s => ?_) l e
    split
    · exact transmit_frame _ _ _ d
    · exact ⟨_, _, rfl⟩
  simp only [send]
  split
  · obtain ⟨_, _, h⟩ := inject_frame _ _ _ _ { d with out := { d.out with sent := d.out.sent ++ [x] } }
    exact ⟨_, _, h⟩
  · obtain ⟨_, _, h⟩ := hf _ _ { d with out := { d.out with sent := d.out.sent ++ [x] } }
    exact ⟨_, _, h⟩
  · exact ⟨_, _, rfl⟩
@[simp] theorem send_tide (x : Sent) (d : Dev) : (send x d).tide = d.tide := by obtain ⟨_, _, h⟩ := send_frame x d; rw [h]
@[simp] theorem send_cores (x : Sent) (d : Dev) : (send x d).cores = d.cores := by obtain ⟨_, _, h⟩ := send_frame x d; rw [h]
@[simp] theorem send_items (x : Sent) (d : Dev) : (send x d).items = d.items := by obtain ⟨_, _, h⟩ := send_frame x d; rw [h]
@[simp] theorem send_tensors (x : Sent) (d : Dev) : (send x d).tensors = d.tensors := by obtain ⟨_, _, h⟩ := send_frame x d; rw [h]
@[simp] theorem send_programs (x : Sent) (d : Dev) : (send x d).programs = d.programs := by obtain ⟨_, _, h⟩ := send_frame x d; rw [h]
@[simp] theorem send_mem (x : Sent) (d : Dev) : (send x d).mem = d.mem := by obtain ⟨_, _, h⟩ := send_frame x d; rw [h]
@[simp] theorem send_units (x : Sent) (d : Dev) : (send x d).units = d.units := by obtain ⟨_, _, h⟩ := send_frame x d; rw [h]
@[simp] theorem send_mbx (x : Sent) (d : Dev) : (send x d).mbx = d.mbx := by obtain ⟨_, _, h⟩ := send_frame x d; rw [h]
@[simp] theorem send_chans (x : Sent) (d : Dev) : (send x d).chans = d.chans := by obtain ⟨_, _, h⟩ := send_frame x d; rw [h]
@[simp] theorem send_host (x : Sent) (d : Dev) : (send x d).host = d.host := by obtain ⟨_, _, h⟩ := send_frame x d; rw [h]
@[simp] theorem send_tel (x : Sent) (d : Dev) : (send x d).tel = d.tel := by obtain ⟨_, _, h⟩ := send_frame x d; rw [h]
@[simp] theorem send_power (x : Sent) (d : Dev) : (send x d).power = d.power := by obtain ⟨_, _, h⟩ := send_frame x d; rw [h]
@[simp] theorem send_brg (x : Sent) (d : Dev) : (send x d).brg = d.brg := by obtain ⟨_, _, h⟩ := send_frame x d; rw [h]
@[simp] theorem send_spare (x : Sent) (d : Dev) : (send x d).spare = d.spare := by obtain ⟨_, _, h⟩ := send_frame x d; rw [h]
@[simp] theorem send_pair (x : Sent) (d : Dev) : (send x d).pair = d.pair := by obtain ⟨_, _, h⟩ := send_frame x d; rw [h]
@[simp] theorem send_flash (x : Sent) (d : Dev) : (send x d).flash = d.flash := by obtain ⟨_, _, h⟩ := send_frame x d; rw [h]
@[simp] theorem send_sec (x : Sent) (d : Dev) : (send x d).sec = d.sec := by obtain ⟨_, _, h⟩ := send_frame x d; rw [h]
@[simp] theorem send_free (x : Sent) (d : Dev) : (send x d).free = d.free := by obtain ⟨_, _, h⟩ := send_frame x d; rw [h]

/-- A broadcast of this module leaves (14 R490). -/
theorem mgmtSend_frame (f : Nat → Sent) (d : Dev) : ∃ x0 x1, mgmtSend f d = { d with lnk := x0, out := x1 } := by
  simp only [mgmtSend]
  obtain ⟨_, _, h⟩ := send_frame (f d.lnk.mgmtSeq) { d with lnk := { d.lnk with mgmtSeq := d.lnk.mgmtSeq + 1 } }
  rw [h]
  exact ⟨_, _, rfl⟩
@[simp] theorem mgmtSend_tide (f : Nat → Sent) (d : Dev) : (mgmtSend f d).tide = d.tide := by obtain ⟨_, _, h⟩ := mgmtSend_frame f d; rw [h]
@[simp] theorem mgmtSend_cores (f : Nat → Sent) (d : Dev) : (mgmtSend f d).cores = d.cores := by obtain ⟨_, _, h⟩ := mgmtSend_frame f d; rw [h]
@[simp] theorem mgmtSend_items (f : Nat → Sent) (d : Dev) : (mgmtSend f d).items = d.items := by obtain ⟨_, _, h⟩ := mgmtSend_frame f d; rw [h]
@[simp] theorem mgmtSend_tensors (f : Nat → Sent) (d : Dev) : (mgmtSend f d).tensors = d.tensors := by obtain ⟨_, _, h⟩ := mgmtSend_frame f d; rw [h]
@[simp] theorem mgmtSend_programs (f : Nat → Sent) (d : Dev) : (mgmtSend f d).programs = d.programs := by obtain ⟨_, _, h⟩ := mgmtSend_frame f d; rw [h]
@[simp] theorem mgmtSend_mem (f : Nat → Sent) (d : Dev) : (mgmtSend f d).mem = d.mem := by obtain ⟨_, _, h⟩ := mgmtSend_frame f d; rw [h]
@[simp] theorem mgmtSend_units (f : Nat → Sent) (d : Dev) : (mgmtSend f d).units = d.units := by obtain ⟨_, _, h⟩ := mgmtSend_frame f d; rw [h]
@[simp] theorem mgmtSend_mbx (f : Nat → Sent) (d : Dev) : (mgmtSend f d).mbx = d.mbx := by obtain ⟨_, _, h⟩ := mgmtSend_frame f d; rw [h]
@[simp] theorem mgmtSend_chans (f : Nat → Sent) (d : Dev) : (mgmtSend f d).chans = d.chans := by obtain ⟨_, _, h⟩ := mgmtSend_frame f d; rw [h]
@[simp] theorem mgmtSend_host (f : Nat → Sent) (d : Dev) : (mgmtSend f d).host = d.host := by obtain ⟨_, _, h⟩ := mgmtSend_frame f d; rw [h]
@[simp] theorem mgmtSend_tel (f : Nat → Sent) (d : Dev) : (mgmtSend f d).tel = d.tel := by obtain ⟨_, _, h⟩ := mgmtSend_frame f d; rw [h]
@[simp] theorem mgmtSend_power (f : Nat → Sent) (d : Dev) : (mgmtSend f d).power = d.power := by obtain ⟨_, _, h⟩ := mgmtSend_frame f d; rw [h]
@[simp] theorem mgmtSend_brg (f : Nat → Sent) (d : Dev) : (mgmtSend f d).brg = d.brg := by obtain ⟨_, _, h⟩ := mgmtSend_frame f d; rw [h]
@[simp] theorem mgmtSend_spare (f : Nat → Sent) (d : Dev) : (mgmtSend f d).spare = d.spare := by obtain ⟨_, _, h⟩ := mgmtSend_frame f d; rw [h]
@[simp] theorem mgmtSend_pair (f : Nat → Sent) (d : Dev) : (mgmtSend f d).pair = d.pair := by obtain ⟨_, _, h⟩ := mgmtSend_frame f d; rw [h]
@[simp] theorem mgmtSend_flash (f : Nat → Sent) (d : Dev) : (mgmtSend f d).flash = d.flash := by obtain ⟨_, _, h⟩ := mgmtSend_frame f d; rw [h]
@[simp] theorem mgmtSend_sec (f : Nat → Sent) (d : Dev) : (mgmtSend f d).sec = d.sec := by obtain ⟨_, _, h⟩ := mgmtSend_frame f d; rw [h]
@[simp] theorem mgmtSend_free (f : Nat → Sent) (d : Dev) : (mgmtSend f d).free = d.free := by obtain ⟨_, _, h⟩ := mgmtSend_frame f d; rw [h]

/-- An armed mask changes the memory-side dies only (10 R348). -/
theorem flipOn_frame (ks : List SectorKey) (d : Dev) : ∃ x0, flipOn ks d = { d with mem := x0 } := by
  simp only [flipOn]
  split
  · split <;> exact ⟨_, rfl⟩
  · exact ⟨_, rfl⟩
@[simp] theorem flipOn_tide (ks : List SectorKey) (d : Dev) : (flipOn ks d).tide = d.tide := by obtain ⟨_, h⟩ := flipOn_frame ks d; rw [h]
@[simp] theorem flipOn_cores (ks : List SectorKey) (d : Dev) : (flipOn ks d).cores = d.cores := by obtain ⟨_, h⟩ := flipOn_frame ks d; rw [h]
@[simp] theorem flipOn_items (ks : List SectorKey) (d : Dev) : (flipOn ks d).items = d.items := by obtain ⟨_, h⟩ := flipOn_frame ks d; rw [h]
@[simp] theorem flipOn_tensors (ks : List SectorKey) (d : Dev) : (flipOn ks d).tensors = d.tensors := by obtain ⟨_, h⟩ := flipOn_frame ks d; rw [h]
@[simp] theorem flipOn_programs (ks : List SectorKey) (d : Dev) : (flipOn ks d).programs = d.programs := by obtain ⟨_, h⟩ := flipOn_frame ks d; rw [h]
@[simp] theorem flipOn_units (ks : List SectorKey) (d : Dev) : (flipOn ks d).units = d.units := by obtain ⟨_, h⟩ := flipOn_frame ks d; rw [h]
@[simp] theorem flipOn_mbx (ks : List SectorKey) (d : Dev) : (flipOn ks d).mbx = d.mbx := by obtain ⟨_, h⟩ := flipOn_frame ks d; rw [h]
@[simp] theorem flipOn_chans (ks : List SectorKey) (d : Dev) : (flipOn ks d).chans = d.chans := by obtain ⟨_, h⟩ := flipOn_frame ks d; rw [h]
@[simp] theorem flipOn_host (ks : List SectorKey) (d : Dev) : (flipOn ks d).host = d.host := by obtain ⟨_, h⟩ := flipOn_frame ks d; rw [h]
@[simp] theorem flipOn_tel (ks : List SectorKey) (d : Dev) : (flipOn ks d).tel = d.tel := by obtain ⟨_, h⟩ := flipOn_frame ks d; rw [h]
@[simp] theorem flipOn_power (ks : List SectorKey) (d : Dev) : (flipOn ks d).power = d.power := by obtain ⟨_, h⟩ := flipOn_frame ks d; rw [h]
@[simp] theorem flipOn_brg (ks : List SectorKey) (d : Dev) : (flipOn ks d).brg = d.brg := by obtain ⟨_, h⟩ := flipOn_frame ks d; rw [h]
@[simp] theorem flipOn_spare (ks : List SectorKey) (d : Dev) : (flipOn ks d).spare = d.spare := by obtain ⟨_, h⟩ := flipOn_frame ks d; rw [h]
@[simp] theorem flipOn_pair (ks : List SectorKey) (d : Dev) : (flipOn ks d).pair = d.pair := by obtain ⟨_, h⟩ := flipOn_frame ks d; rw [h]
@[simp] theorem flipOn_flash (ks : List SectorKey) (d : Dev) : (flipOn ks d).flash = d.flash := by obtain ⟨_, h⟩ := flipOn_frame ks d; rw [h]
@[simp] theorem flipOn_lnk (ks : List SectorKey) (d : Dev) : (flipOn ks d).lnk = d.lnk := by obtain ⟨_, h⟩ := flipOn_frame ks d; rw [h]
@[simp] theorem flipOn_sec (ks : List SectorKey) (d : Dev) : (flipOn ks d).sec = d.sec := by obtain ⟨_, h⟩ := flipOn_frame ks d; rw [h]
@[simp] theorem flipOn_free (ks : List SectorKey) (d : Dev) : (flipOn ks d).free = d.free := by obtain ⟨_, h⟩ := flipOn_frame ks d; rw [h]

end Sys2Proof.Laws
end

