-- ==== Sys2Proof/Laws/Rows.lean ====
section
/-! SUPPORT. What the rows of instructions and of commands come to, once for all of them: a core's word, a mailbox command, a security
command, a link row. -/
namespace Sys2Proof.Laws
open Sys2Proof Sys2Proof.Machine

/-! ### A core's word -/

/-- A row acts on nothing where no core stands at its word. -/
theorem coreRow_idle {l : Nat} {w : BitVec 64} {mine : Bool} {f : Dev → Core → CRes} {d : Dev} (h : coreAt d l w = none) :
    coreRow l w mine f d = d := by
  simp [coreRow, h]

/-- A row acts on nothing for a word of another row. -/
theorem coreRow_other {l : Nat} {w : BitVec 64} {f : Dev → Core → CRes} (d : Dev) : coreRow l w false f d = d := by
  unfold coreRow
  split <;> rfl

/-- What a row of a core comes to at its word. -/
theorem coreRow_settle {l : Nat} {w : BitVec 64} {mine : Bool} {f : Dev → Core → CRes} {d : Dev} {c : Core} (h : AtWord d l w c)
    (hm : mine = true) : coreRow l w mine f d = coreSettle l d c (f d c) := by
  simp only [AtWord] at h
  simp [coreRow, h, hm]

/-- A word that completes, and is not the last of the segment, moves the core to the next word. -/
theorem coreRow_ok {l : Nat} {w : BitVec 64} {mine : Bool} {f : Dev → Core → CRes} {d d' : Dev} {c c' : Core} (h : Runs d l w c)
    (hm : mine = true) (hf : f d c = done d' c') (hp : c'.pc = c.pc) (hs : coreCode d' c' = coreCode d c) :
    coreRow l w mine f d = setCore l { c' with pc := c'.pc + 1 } d' := by
  have n : ¬ (coreCode d' { c' with pc := c'.pc + 1 }).length ≤ c'.pc + 1 := by
    have e : coreCode d' { c' with pc := c'.pc + 1 } = coreCode d c := hs
    have := h.2
    rw [e, hp]
    omega
  rw [coreRow_settle h.1 hm, hf]
  unfold coreSettle done
  exact if_neg (fun x => n (of_decide_eq_true (Bool.and_eq_true _ _ ▸ x).2))

/-- A word that faults ends the segment. -/
theorem coreRow_fault {l : Nat} {w : BitVec 64} {mine : Bool} {f : Dev → Core → CRes} {d d' : Dev} {c : Core} {code addr : Nat}
    (h : AtWord d l w c) (hm : mine = true) (hf : f d c = .fault code addr d') : coreRow l w mine f d = coreFault l code addr d' c := by
  simp [coreRow_settle h hm, hf, coreSettle]

/-- A word that waits changes nothing. -/
theorem coreRow_stall {l : Nat} {w : BitVec 64} {mine : Bool} {f : Dev → Core → CRes} {d : Dev} {c : Core} (h : AtWord d l w c)
    (hm : mine = true) (hf : f d c = .stall) : coreRow l w mine f d = d := by
  simp [coreRow_settle h hm, hf, coreSettle]

/-- The segment's code depends on the programs, the program and the segment alone. -/
theorem coreCode_congr {d d' : Dev} {c c' : Core} (hd : d'.programs = d.programs) (hp : c'.prog = c.prog) (hs : c'.seg = c.seg) :
    coreCode d' c' = coreCode d c := by
  simp [coreCode, hd, hp, hs]

@[simp] theorem coreCode_wrS (i : Nat) (v : BitVec 64) (d : Dev) (c : Core) : coreCode d (wrS i v c) = coreCode d c := by simp [coreCode]
@[simp] theorem coreCode_wrV (i : Nat) (v : BitVec 2048) (d : Dev) (c : Core) : coreCode d (wrV i v c) = coreCode d c := rfl
@[simp] theorem coreCode_wrP (i : Nat) (v : BitVec 256) (d : Dev) (c : Core) : coreCode d (wrP i v c) = coreCode d c := by simp [coreCode]
@[simp] theorem coreCode_raise (f : BitVec 4) (d : Dev) (c : Core) : coreCode d (raise f c) = coreCode d c := rfl

/-- A core that runs a word stands in the working window with its clocks running. -/
theorem atWord_runs {d : Dev} {l : Nat} {w : BitVec 64} {c : Core} (h : AtWord d l w c) :
    aGet d.cores l = some c ∧ clocksRun d = true ∧ d.tide.phase = .work ∧ c.run = true ∧ (coreCode d c)[c.pc]? = some w := by
  unfold AtWord coreAt at h
  split at h
  · rename_i k hk
    split at h
    · rename_i hw
      cases h
      unfold coreRuns at hk
      split at hk
      · rename_i k' hk'
        split at hk
        · rename_i hr
          cases hk
          simp only [Bool.and_eq_true, beq_iff_eq] at hr
          exact ⟨hk', hr.1.1, hr.1.2, hr.2, hw⟩
        · cases hk
      · cases hk
    · cases h
  · cases h

/-- The state after a word that completes. -/
theorem eff_coreRow_ok {l : Nat} {w : BitVec 64} {mine : Bool} {f : Dev → Core → CRes} {s : State} {d' : Dev} {c c' : Core}
    (h : Runs s.dev l w c) (hm : mine = true) (hf : f s.dev c = done d' c') (hp : c'.pc = c.pc) (hs : coreCode d' c' = coreCode s.dev c) :
    eff (coreRow l w mine f) s = .next (s.advanced l c' d') := by
  simp only [eff, State.onDev, State.advanced, coreRow_ok h hm hf hp hs]

/-- The state after a word that faults. -/
theorem eff_coreRow_fault {l : Nat} {w : BitVec 64} {mine : Bool} {f : Dev → Core → CRes} {s : State} {d' : Dev} {c : Core} {code addr : Nat}
    (h : AtWord s.dev l w c) (hm : mine = true) (hf : f s.dev c = .fault code addr d') :
    eff (coreRow l w mine f) s = .next { s with dev := coreFault l code addr d' c } := by
  simp only [eff, State.onDev, coreRow_fault h hm hf]

/-! ### A mailbox command -/

/-- A command that its mailbox does not hold in progress has no effect. -/
theorem mbxRow_idle {m op : Nat} {f : Dev → Bytes → MRes} {d : Dev} (h : mbxRuns d m op = false) : mbxRow m op f d = d := by
  simp [mbxRow, h]

/-- A command that is taken and done answers DONE. -/
theorem mbxRow_ok {m op : Nat} {f : Dev → Bytes → MRes} {d d' : Dev} {body : Bytes} (h : Asks d m op) (hf : f d (request d m) = .ok d' body) :
    mbxRow m op f d = answer m 0 0 body d' := by
  have e : f d (memRead (mbx d m).cmd 0 16384) = .ok d' body := hf
  simp [mbxRow, h.1, h.2, e]

/-- A command that is taken and refused changes nothing else. -/
theorem mbxRow_no {m op r off : Nat} {f : Dev → Bytes → MRes} {d : Dev} (h : Asks d m op) (hf : f d (request d m) = .no r off) :
    mbxRow m op f d = refuse m r off d := by
  have e : f d (memRead (mbx d m).cmd 0 16384) = .no r off := hf
  simp [mbxRow, h.1, h.2, e]

/-- A command that stays in progress leaves its mailbox BUSY. -/
theorem mbxRow_busy {m op : Nat} {f : Dev → Bytes → MRes} {d d' : Dev} (h : Asks d m op) (hf : f d (request d m) = .busy d') :
    mbxRow m op f d = d' := by
  have e : f d (memRead (mbx d m).cmd 0 16384) = .busy d' := hf
  simp [mbxRow, h.1, h.2, e]

/-- The state after a command that is done. -/
theorem eff_mbxRow_ok {m op : Nat} {f : Dev → Bytes → MRes} {s : State} {d' : Dev} {body : Bytes} (h : Asks s.dev m op)
    (hf : f s.dev (request s.dev m) = .ok d' body) : eff (mbxRow m op f) s = .next (s.answered m body d') := by
  simp only [eff, State.onDev, State.answered, mbxRow_ok h hf]

/-- The state after a command that is refused. -/
theorem eff_mbxRow_no {m op r off : Nat} {f : Dev → Bytes → MRes} {s : State} (h : Asks s.dev m op)
    (hf : f s.dev (request s.dev m) = .no r off) : eff (mbxRow m op f) s = .next (s.refused m r off) := by
  simp only [eff, State.onDev, State.refused, mbxRow_no h hf]

/-- The state after a command that stays in progress. -/
theorem eff_mbxRow_busy {m op : Nat} {f : Dev → Bytes → MRes} {s : State} {d' : Dev} (h : Asks s.dev m op)
    (hf : f s.dev (request s.dev m) = .busy d') : eff (mbxRow m op f) s = .next { s with dev := d' } := by
  simp only [eff, State.onDev, mbxRow_busy h hf]

/-- A handle field that names a live object of its kind. -/
theorem withHandle_ok {d : Dev} {kind off : Nat} {cmd : Bytes} {f : Nat → MRes} (h : handleOk d kind (BitVec.ofNat 64 (fieldLe cmd off 8)) = true) :
    withHandle d kind cmd off f = f (hIdx (BitVec.ofNat 64 (fieldLe cmd off 8))) := by
  simp [withHandle, h]

/-- A handle field that does not is refused with BAD_HANDLE at its offset (03 R80). -/
theorem withHandle_no {d : Dev} {kind off : Nat} {cmd : Bytes} {f : Nat → MRes} (h : handleOk d kind (BitVec.ofNat 64 (fieldLe cmd off 8)) = false) :
    withHandle d kind cmd off f = .no rBadHandle off := by
  simp [withHandle, h]

/-! ### A security command -/

/-- A security command that is taken and done answers DONE. -/
theorem secRow_done {op : Nat} {g : Fuses → Dev → SRes} {s : State} {f : Fuses} {d : Dev} {body : Bytes} (h : SecRuns s.dev op)
    (hg : g s.fuses s.dev = .done f d body) : secRow op g s = .next (s.secDone f d body) := by
  obtain ⟨h1, h2, h3, h4⟩ := h
  simp [secRow, h1, h2, h3, h4, hg, State.secDone]

/-- A security command that is refused changes nothing else. -/
theorem secRow_no {op r off : Nat} {g : Fuses → Dev → SRes} {s : State} (h : SecRuns s.dev op) (hg : g s.fuses s.dev = .no r off) :
    secRow op g s = .next (s.secRefused r off) := by
  obtain ⟨h1, h2, h3, h4⟩ := h
  simp [secRow, h1, h2, h3, h4, hg, State.secRefused, State.onDev]

/-! ### A link row -/

/-- A link row acts on a link in one of its states. -/
theorem linkRow_in {st ln : Nat} {g : Nat → Bool} {f : Link → Dev → Dev} {d : Dev} (hc : clocksRun d = true) (hr : d.lnk.run = true)
    (hs : st < 6) (hl : ln < 4) (hg : g (linkOf d st ln).state = true) : linkRow st ln g f d = f (linkOf d st ln) d := by
  simp [linkRow, hc, hr, hs, hl, hg]

/-- It acts on no other link. -/
theorem linkRow_out {st ln : Nat} {g : Nat → Bool} {f : Link → Dev → Dev} {d : Dev} (hg : g (linkOf d st ln).state = false) :
    linkRow st ln g f d = d := by
  simp [linkRow, hg]

/-- A link reads back as it was set. -/
theorem linkOf_setLink_same {st ln : Nat} {k : Link} {d : Dev} (h : 4 * st + ln < d.lnk.links.length) : linkOf (setLink st ln k d) st ln = k := by
  simp [linkOf, setLink, h]

/-- Setting a link leaves the others alone. -/
theorem linkOf_setLink_other {st ln i j : Nat} {k : Link} {d : Dev} (h : 4 * i + j ≠ 4 * st + ln) :
    linkOf (setLink st ln k d) i j = linkOf d i j := by
  simp only [linkOf, setLink]
  rw [List.getElem?_set_ne (Ne.symm h)]

/-! ### Stacks -/

/-- A stack after a change of it. -/
theorem stack_onStack_same {k : Nat} {f : Stack → Stack} {d : Dev} (h : k < d.mem.hbm.length) : stack (onStack k f d) k = f (stack d k) := by
  simp [stack, onStack, modAt, h]

/-- A change of a stack leaves the others alone. -/
theorem stack_onStack_other {k j : Nat} {f : Stack → Stack} {d : Dev} (h : j ≠ k) : stack (onStack k f d) j = stack d j := by
  simp only [stack, onStack, modAt]
  split
  · rw [List.getElem?_set_ne (Ne.symm h)]
  · rfl

/-! ### Stored bytes of the reset state -/

/-- Every byte store of the reset state is in canonical form. -/
theorem reset_memory_wf : Memory.wf State.reset.dev.host = true ∧ Memory.wf State.reset.dev.sec.req = true ∧
    Memory.wf State.reset.dev.sec.rsp = true ∧ Memory.wf State.reset.dev.mem.flipMask = true ∧ State.reset.dev.tensors = [] ∧
    (∀ x ∈ State.reset.dev.cores, Memory.wf x.2.mem = true) ∧
    (∀ x ∈ State.reset.dev.mbx, Memory.wf x.2.cmd = true ∧ Memory.wf x.2.rsp = true) := by
  refine ⟨rfl, rfl, rfl, rfl, rfl, ?_, ?_⟩
  · intro x hx
    cases hx
  · intro x hx
    cases hx

end Sys2Proof.Laws
end

