-- ==== Sys2Proof/Laws/All.lean ====
section
/-! SUPPORT. All lemmas about the model's operations. -/
end

