-- ==== Sys2Proof/WellFormed.lean ====
section
/-! DEFINITION. When a command's operands lie in the ranges that the spec gives them: mailboxes (03 R69), logical cores
(01 R22), slots (03 R81), straits and links (11 R349), functions (15 R497), and the widths of fields. A command is a record of
what happens at the module's edge; one that is not well formed cannot happen. -/
namespace Sys2Proof

/-- The operands of the command lie in their ranges. -/
def Instr.wf (i : Instr) : Bool :=
  match i with
  | .channelCreate m => decide (m < 64)
  | .channelDestroy m => decide (m < 64)
  | .channelQuery m => decide (m < 64)
  | .tensorCreate m => decide (m < 64)
  | .tensorDestroy m => decide (m < 64)
  | .tensorQuery m => decide (m < 64)
  | .tensorSetRetain m => decide (m < 64)
  | .tensorMap m => decide (m < 64)
  | .tensorUnmap m => decide (m < 64)
  | .programCreate m => decide (m < 64)
  | .programDestroy m => decide (m < 64)
  | .programQuery m => decide (m < 64)
  | .hintSet m => decide (m < 64)
  | .hintClear m => decide (m < 64)
  | .hintQuery m => decide (m < 64)
  | .planCreate m => decide (m < 64)
  | .planDestroy m => decide (m < 64)
  | .planQuery m => decide (m < 64)
  | .factorSetCreate m => decide (m < 64)
  | .factorSetDestroy m => decide (m < 64)
  | .warmSetCreate m => decide (m < 64)
  | .warmSetDestroy m => decide (m < 64)
  | .warmSetClear m => decide (m < 64)
  | .groupCreate m => decide (m < 64)
  | .groupDestroy m => decide (m < 64)
  | .groupQuery m => decide (m < 64)
  | .pairSet m => decide (m < 64)
  | .pairQuery m => decide (m < 64)
  | .pairClear m => decide (m < 64)
  | .stepOpen m => decide (m < 64)
  | .stepQuery m => decide (m < 64)
  | .stepAbort m => decide (m < 64)
  | .stateLoad m => decide (m < 64)
  | .spareArm m => decide (m < 64)
  | .spareAdopt m => decide (m < 64)
  | .adoptQuery m => decide (m < 64)
  | .ledgerRead m => decide (m < 64)
  | .lossScaleSet m => decide (m < 64)
  | .lossScaleQuery m => decide (m < 64)
  | .flagsQuery m => decide (m < 64)
  | .flagsClear m => decide (m < 64)
  | .masterConfig m => decide (m < 64)
  | .masterQuery m => decide (m < 64)
  | .scaleConfig m => decide (m < 64)
  | .scaleQuery m => decide (m < 64)
  | .memQuery m => decide (m < 64)
  | .memLocate m => decide (m < 64)
  | .scrubStart m => decide (m < 64)
  | .scrubQuery m => decide (m < 64)
  | .scrubCancel m => decide (m < 64)
  | .pageRetire m => decide (m < 64)
  | .bankRetire m => decide (m < 64)
  | .retireQuery m => decide (m < 64)
  | .unitQuery m => decide (m < 64)
  | .coreFlags m => decide (m < 64)
  | .unitTest m => decide (m < 64)
  | .unitRetire m => decide (m < 64)
  | .testQuery m => decide (m < 64)
  | .laneMove m => decide (m < 64)
  | .mdTest m => decide (m < 64)
  | .stackTest m => decide (m < 64)
  | .stackReturn m => decide (m < 64)
  | .repairLogRead m => decide (m < 64)
  | .repairLogClear m => decide (m < 64)
  | .getIdentity => true
  | .getAttestCert => true
  | .attest => true
  | .configLog => true
  | .svnCommit => true
  | .revokeSlot => true
  | .lifecycleSet => true
  | .mbxDoorbell m _ _ => decide (m < 64)
  | .secCmd _ => true
  | .subTail slot _ _ => decide (slot < 4096)
  | .outHead slot _ => decide (slot < 4096)
  | .tidRateReqGo _ => true
  | .tidReplanGo => true
  | .tidCtlRunStart _ => true
  | .tidCtlRunStop _ => true
  | .lnkCtlRunStart _ => true
  | .lnkCtlRunStop _ => true
  | .lnkPlanLoad => true
  | .acceptDegraded => true
  | .lnkLinkRetry st ln => decide (st < 6) && decide (ln < 4)
  | .pwrCtlOn _ => true
  | .brgGoFuseLoad => true
  | .brgGoBist => true
  | .brgGoReconcile => true
  | .brgGoHbmTraining => true
  | .brgGoImageVerify => true
  | .brgGoControlCores => true
  | .brgGoLinkTraining => true
  | .brgGoPlan => true
  | .brgGoSpare => true
  | .bringupStepDone n _ => decide (0 < n) && decide (n ≤ 11)
  | .bringupStepTimeout n _ => decide (0 < n) && decide (n ≤ 11)
  | .fwlWrite off bytes => decide (off < 2 ^ 64) && decide (bytes.length ≤ 2 ^ 24)
  | .frzFreezeWrite _ => true
  | .frzRelease _ => true
  | .rasPop pf => decide (pf < 2)
  | .stormClear pf => decide (pf < 2)
  | .rstClear => true
  | .msixUnmask pf vec => decide (pf < 2) && decide (vec < 2048)
  | .tidCountLoRead => true
  | .rcRegisterRead pf off => decide (pf < 2) && decide (off < 2 ^ 64)
  | .registerWrite pf off bytes => decide (pf < 2) && decide (off < 2 ^ 64) && decide (bytes.length ≤ 4096)
  | .bar2Read off len => decide (off < 2 ^ 64) && decide (len ≤ 4096)
  | .bar2Write off bytes => decide (off < 2 ^ 64) && decide (bytes.length ≤ 4096)
  | .configRequest fn _ off _ => decide (fn < 256) && decide (off < 2 ^ 64)
  | .hostReadError _ _ => true
  | .busMasterEnableChange _ => true
  | .d3hotEntry pf => decide (pf < 2)
  | .d0Entry pf => decide (pf < 2)
  | .flrPf0 => true
  | .flrPf0Apply => true
  | .flrPf1 => true
  | .hostLinkDown => true
  | .perstAssert => true
  | .perstDeassert _ _ => true
  | .freezeNFall => true
  | .freezeTideReached => true
  | .frzAccess _ _ => true
  | .frzFreeze => true
  | .idcode => true
  | .sample => true
  | .bypass _ => true
  | .tideEdge => true
  | .slackStart _ => true
  | .latchGuard => true
  | .stepStartTide => true
  | .rateChangeApply => true
  | .replanApply => true
  | .edgeMarker st ln _ => decide (st < 6) && decide (ln < 4)
  | .gatherMarker st ln _ => decide (st < 6) && decide (ln < 4)
  | .decisionMarker st ln _ => decide (st < 6) && decide (ln < 4)
  | .freezeMarker st ln _ => decide (st < 6) && decide (ln < 4)
  | .voteForwardDeadline => true
  | .masterDecision => true
  | .decisionCloseTime => true
  | .markerMissLimit => true
  | .tideRefEdge => true
  | .tideRefLost => true
  | .segmentStart l => decide (l < 1152)
  | .segmentBoundReached l => decide (l < 1152)
  | .engineRampDown l => decide (l < 1152)
  | .scalarIntegerOp l _ => decide (l < 1152)
  | .div l _ => decide (l < 1152)
  | .scalarFloatOp l _ => decide (l < 1152)
  | .li l _ => decide (l < 1152)
  | .lih l _ => decide (l < 1152)
  | .conditionalBranch l _ => decide (l < 1152)
  | .call l _ => decide (l < 1152)
  | .jr l _ => decide (l < 1152)
  | .callr l _ => decide (l < 1152)
  | .coreMemoryLoad l _ => decide (l < 1152)
  | .coreMemoryStore l _ => decide (l < 1152)
  | .wset l _ => decide (l < 1152)
  | .wget l _ => decide (l < 1152)
  | .wclr l _ => decide (l < 1152)
  | .dmain l _ => decide (l < 1152)
  | .dmaout l _ => decide (l < 1152)
  | .dmaComplete l => decide (l < 1152)
  | .ldw l _ => decide (l < 1152)
  | .stw l _ => decide (l < 1152)
  | .vldw l _ => decide (l < 1152)
  | .vstw l _ => decide (l < 1152)
  | .vldc l _ => decide (l < 1152)
  | .vstc l _ => decide (l < 1152)
  | .cvt l _ => decide (l < 1152)
  | .matrixInstruction l _ => decide (l < 1152)
  | .matrixEndComplete l => decide (l < 1152)
  | .rowrd l _ => decide (l < 1152)
  | .rowwr l _ => decide (l < 1152)
  | .ewt l _ => decide (l < 1152)
  | .ewv l _ => decide (l < 1152)
  | .ews l _ => decide (l < 1152)
  | .asm l _ => decide (l < 1152)
  | .slvs l _ => decide (l < 1152)
  | .solverComplete l => decide (l < 1152)
  | .slvw l _ => decide (l < 1152)
  | .slvq l _ => decide (l < 1152)
  | .frd l _ => decide (l < 1152)
  | .fclr l _ => decide (l < 1152)
  | .csrr l _ => decide (l < 1152)
  | .csrw l _ => decide (l < 1152)
  | .nop l _ => decide (l < 1152)
  | .fence l _ => decide (l < 1152)
  | .waitd l _ => decide (l < 1152)
  | .waite l _ => decide (l < 1152)
  | .waita l _ => decide (l < 1152)
  | .segend l _ => decide (l < 1152)
  | .vgrant l _ => decide (l < 1152)
  | .vgranti l _ => decide (l < 1152)
  | .vgrantrd l _ => decide (l < 1152)
  | .predicateLogic l _ => decide (l < 1152)
  | .pwhile l _ => decide (l < 1152)
  | .pcount l _ => decide (l < 1152)
  | .pfirst l _ => decide (l < 1152)
  | .vectorFloatOp l _ => decide (l < 1152)
  | .vectorApproximation l _ => decide (l < 1152)
  | .vectorIntegerOp l _ => decide (l < 1152)
  | .vectorCompare l _ => decide (l < 1152)
  | .vredsum l _ => decide (l < 1152)
  | .vredsump l _ => decide (l < 1152)
  | .vslideup l _ => decide (l < 1152)
  | .vslidedn l _ => decide (l < 1152)
  | .vperm l _ => decide (l < 1152)
  | .vcompress l _ => decide (l < 1152)
  | .vmerge l _ => decide (l < 1152)
  | .vbcast l _ => decide (l < 1152)
  | .vexts l _ => decide (l < 1152)
  | .vinss l _ => decide (l < 1152)
  | .vmov l _ => decide (l < 1152)
  | .vgather l _ => decide (l < 1152)
  | .vscatter l _ => decide (l < 1152)
  | .vldff l _ => decide (l < 1152)
  | .vgatherff l _ => decide (l < 1152)
  | .vcvtp l _ => decide (l < 1152)
  | .run slot seq => decide (slot < 4096) && decide (seq < 2 ^ 64)
  | .hostToTensor slot seq => decide (slot < 4096) && decide (seq < 2 ^ 64)
  | .tensorToHost slot seq => decide (slot < 4096) && decide (seq < 2 ^ 64)
  | .tensorToTensor slot seq => decide (slot < 4096) && decide (seq < 2 ^ 64)
  | .solve slot seq p iters => decide (slot < 4096) && decide (seq < 2 ^ 64) && decide (p < 2 ^ 32) && decide (iters < 2 ^ 32)
  | .adjoint slot seq p iters => decide (slot < 4096) && decide (seq < 2 ^ 64) && decide (p < 2 ^ 32) && decide (iters < 2 ^ 32)
  | .tangent slot seq p iters => decide (slot < 4096) && decide (seq < 2 ^ 64) && decide (p < 2 ^ 32) && decide (iters < 2 ^ 32)
  | .assemble slot seq p => decide (slot < 4096) && decide (seq < 2 ^ 64) && decide (p < 2 ^ 32)
  | .allReduce slot seq => decide (slot < 4096) && decide (seq < 2 ^ 64)
  | .reduceScatter slot seq => decide (slot < 4096) && decide (seq < 2 ^ 64)
  | .allGather slot seq => decide (slot < 4096) && decide (seq < 2 ^ 64)
  | .broadcast slot seq => decide (slot < 4096) && decide (seq < 2 ^ 64)
  | .allToAll slot seq => decide (slot < 4096) && decide (seq < 2 ^ 64)
  | .send slot seq => decide (slot < 4096) && decide (seq < 2 ^ 64)
  | .recv slot seq => decide (slot < 4096) && decide (seq < 2 ^ 64)
  | .update slot seq n => decide (slot < 4096) && decide (seq < 2 ^ 64) && decide (n < 2 ^ 32)
  | .seal slot seq => decide (slot < 4096) && decide (seq < 2 ^ 64)
  | .itemBudgetExpiry slot seq => decide (slot < 4096) && decide (seq < 2 ^ 64)
  | .collectiveGraceExpiry slot seq => decide (slot < 4096) && decide (seq < 2 ^ 64)
  | .joinLimitExpiry slot seq => decide (slot < 4096) && decide (seq < 2 ^ 64)
  | .chunkStart slot seq chunk => decide (slot < 4096) && decide (seq < 2 ^ 64) && decide (chunk < 2 ^ 32)
  | .join src _ => decide (src.x < 64) && decide (src.y < 64) && decide (src.z < 64)
  | .start src _ => decide (src.x < 64) && decide (src.y < 64) && decide (src.z < 64)
  | .data src _ bytes => decide (src.x < 64) && decide (src.y < 64) && decide (src.z < 64) && decide (bytes.length ≤ 4032)
  | .ack src _ => decide (src.x < 64) && decide (src.y < 64) && decide (src.z < 64)
  | .complete src _ => decide (src.x < 64) && decide (src.y < 64) && decide (src.z < 64)
  | .groupDone src _ => decide (src.x < 64) && decide (src.y < 64) && decide (src.z < 64)
  | .abort src _ => decide (src.x < 64) && decide (src.y < 64) && decide (src.z < 64)
  | .leave src _ => decide (src.x < 64) && decide (src.y < 64) && decide (src.z < 64)
  | .lost src _ => decide (src.x < 64) && decide (src.y < 64) && decide (src.z < 64)
  | .reissue src _ => decide (src.x < 64) && decide (src.y < 64) && decide (src.z < 64)
  | .prepass src _ bytes => decide (src.x < 64) && decide (src.y < 64) && decide (src.z < 64) && decide (bytes.length ≤ 4032)
  | .fail src _ => decide (src.x < 64) && decide (src.y < 64) && decide (src.z < 64)
  | .pair src _ => decide (src.x < 64) && decide (src.y < 64) && decide (src.z < 64)
  | .pairReply src _ verdict => decide (src.x < 64) && decide (src.y < 64) && decide (src.z < 64) && decide (verdict < 256)
  | .fillRead src _ => decide (src.x < 64) && decide (src.y < 64) && decide (src.z < 64)
  | .fillData src _ bytes => decide (src.x < 64) && decide (src.y < 64) && decide (src.z < 64) && decide (bytes.length ≤ 4032)
  | .adoptReq src _ _ pos => decide (src.x < 64) && decide (src.y < 64) && decide (src.z < 64) && decide (pos.x < 64) && decide (pos.y < 64) && decide (pos.z < 64)
  | .adoptReply src code => decide (src.x < 64) && decide (src.y < 64) && decide (src.z < 64) && decide (code < 256)
  | .decisionReq src step => decide (src.x < 64) && decide (src.y < 64) && decide (src.z < 64) && decide (step < 2 ^ 32)
  | .decisionReply src _ => decide (src.x < 64) && decide (src.y < 64) && decide (src.z < 64)
  | .ferryData src _ bytes => decide (src.x < 64) && decide (src.y < 64) && decide (src.z < 64) && decide (bytes.length ≤ 4032)
  | .ferryAck src step fseq => decide (src.x < 64) && decide (src.y < 64) && decide (src.z < 64) && decide (step < 2 ^ 32) && decide (fseq < 2 ^ 32)
  | .record src _ bytes => decide (src.x < 64) && decide (src.y < 64) && decide (src.z < 64) && decide (bytes.length ≤ 4032)
  | .ledger src _ bytes => decide (src.x < 64) && decide (src.y < 64) && decide (src.z < 64) && decide (bytes.length ≤ 4032)
  | .reseed src _ bytes => decide (src.x < 64) && decide (src.y < 64) && decide (src.z < 64) && decide (bytes.length ≤ 4032)
  | .ferryResendTimer fseq => decide (fseq < 2 ^ 32)
  | .straitState arr mseq pos _ _ tide => decide (arr < 6) && decide (mseq < 2 ^ 32) && decide (pos.x < 64) && decide (pos.y < 64) && decide (pos.z < 64) && decide (tide < 2 ^ 64)
  | .deviceFailed arr mseq pos _ tide => decide (arr < 6) && decide (mseq < 2 ^ 32) && decide (pos.x < 64) && decide (pos.y < 64) && decide (pos.z < 64) && decide (tide < 2 ^ 64)
  | .adopted arr mseq pos _ tide => decide (arr < 6) && decide (mseq < 2 ^ 32) && decide (pos.x < 64) && decide (pos.y < 64) && decide (pos.z < 64) && decide (tide < 2 ^ 64)
  | .spareFillComplete => true
  | .packetForward st _ bytes => decide (st < 6) && decide (bytes.length ≤ 4032)
  | .packetEopTimeout st ln ch => decide (st < 6) && decide (ln < 4) && decide (ch < 16)
  | .dataFlit st ln _ => decide (st < 6) && decide (ln < 4)
  | .nak st ln _ => decide (st < 6) && decide (ln < 4)
  | .replayTimeout st ln => decide (st < 6) && decide (ln < 4)
  | .replayLimit st ln => decide (st < 6) && decide (ln < 4)
  | .spareReq st ln pos lane _ => decide (st < 6) && decide (ln < 4) && decide (pos < 16) && decide (lane < 18)
  | .spareAck st ln pos lane _ => decide (st < 6) && decide (ln < 4) && decide (pos < 16) && decide (lane < 18)
  | .laneFault st ln lane => decide (st < 6) && decide (ln < 4) && decide (lane < 18)
  | .ident st ln _ => decide (st < 6) && decide (ln < 4)
  | .identPeriod => true
  | .delayProbe st ln _ => decide (st < 6) && decide (ln < 4)
  | .delayReply st ln _ _ => decide (st < 6) && decide (ln < 4)
  | .failover st ln lostLn _ => decide (st < 6) && decide (ln < 4) && decide (lostLn < 4)
  | .controlRepeatTimer st ln => decide (st < 6) && decide (ln < 4)
  | .linkSignalDetected st ln _ => decide (st < 6) && decide (ln < 4)
  | .linkNoSignalTimer st ln => decide (st < 6) && decide (ln < 4)
  | .equaliseDone st ln _ => decide (st < 6) && decide (ln < 4)
  | .alignDone st ln => decide (st < 6) && decide (ln < 4)
  | .linkStateTimeout st ln => decide (st < 6) && decide (ln < 4)
  | .qualifyWindowEnd st ln bits _ => decide (st < 6) && decide (ln < 4) && decide (bits < 2 ^ 64)
  | .retrainDone st ln => decide (st < 6) && decide (ln < 4)
  | .linkLossOfSignal st ln => decide (st < 6) && decide (ln < 4)
  | .discoveryDeadline => true
  | .causewayLaneThreshold cw lane => decide (cw < 44) && decide (lane < 256)
  | .causewayLaneFail cw lane => decide (cw < 44) && decide (lane < 256)
  | .accBankThreshold l bank _ => decide (l < 1152) && decide (bank < 8)
  | .coreLost cl p cause => decide (cl < 6) && decide (p < 208) && decide (cause < 256)
  | .coreFillComplete cl _ _ => decide (cl < 6)
  | .controlCoreLost ccp => decide (ccp < 16)
  | .reductionUnitFailure ld ru => decide (ld < 2) && decide (ru < 36)
  | .holmBistPeriod _ _ => true
  | .unitTestComplete ticket _ => decide (ticket < 2 ^ 32)
  | .stackLost k => decide (k < 24)
  | .restripeComplete k => decide (k < 24)
  | .resaltStart region => decide (region < 2 ^ 32)
  | .resaltComplete region => decide (region < 2 ^ 32)
  | .scrubComplete sid => decide (sid < 2 ^ 32)
  | .retirementComplete ticket => decide (ticket < 2 ^ 32)
  | .powerDomainFault k => decide (k < 20)
  | .vinLow mv => decide (mv < 65536)
  | .vinHigh mv => decide (mv < 65536)
  | .inputProtection mv => decide (mv < 65536)
  | .inputLockout mv => decide (mv < 65536)
  | .converterStop cause _ => decide (cause < 16)
  | .thermalTrip d temp => decide (d < 6) && decide (temp < 65536)
  | .thermalTripClear d temp => decide (d < 6) && decide (temp < 65536)
  | .thermalShutdown unit temp => decide (unit < 39) && decide (temp < 65536)
  | .hotWarning unit temp => decide (unit < 39) && decide (temp < 65536)
  | .electricalThrottle avg => decide (avg < 65536)
  | .electricalThrottleClear avg => decide (avg < 65536)
  | .coolantWarm inlet => decide (inlet < 65536)
  | .attestCertReady => true
  | .smbReadVin => true
  | .smbReadIin => true
  | .smbReadPin => true
  | .smbReadTemp => true
  | .smbReadInlet => true
  | .smbReadOutlet => true
  | .smbReadStatus => true
  | .smbReadLastOff => true
  | .smbReadSerial => true
  | .smbReadCapEff => true
  | .smbAlertResponse => true
  | .smbUnassignedCommand _ => true
  | .softStart mv => decide (mv < 65536)
  | .powerDomainGood k => decide (k < 20)
  | .hostLinkUp => true
  | .coolantWarmEnd inlet => decide (inlet < 65536)
  | .vinInRange mv => decide (mv < 65536)

end Sys2Proof
end

