-- ==== Sys2Proof/Laws/PerInstr.lean ====
section
/-! SUPPORT. Family Routing, one lemma per constructor: a well-formed command names only mailboxes (03 R69), channel slots (03 R81),
logical cores (01 R22), functions (15 R497), straits and links (11 R349) that the module has. -/

set_option Elab.async false

namespace Sys2Proof.Laws.Routing
open Sys2Proof

/-- A part of the module that a command names. -/
inductive Part where
  | mailbox (m : Nat)
  | slot (n : Nat)
  | core (l : Nat)
  | function (f : Nat)
  | strait (st : Nat)
  | link (st ln : Nat)
  deriving DecidableEq, Repr

/-- The module has the part. -/
def Part.there : Part → Bool
  | .mailbox m => decide (m < 64)
  | .slot n => decide (n < 4096)
  | .core l => decide (l < 1152)
  | .function f => decide (f < 2)
  | .strait st => decide (st < 6)
  | .link st ln => decide (st < 6) && decide (ln < 4)

/-- The parts that a command names. -/
def parts : Instr → List Part
  | .channelCreate m => [.mailbox m]
  | .channelDestroy m => [.mailbox m]
  | .channelQuery m => [.mailbox m]
  | .tensorCreate m => [.mailbox m]
  | .tensorDestroy m => [.mailbox m]
  | .tensorQuery m => [.mailbox m]
  | .tensorSetRetain m => [.mailbox m]
  | .tensorMap m => [.mailbox m]
  | .tensorUnmap m => [.mailbox m]
  | .programCreate m => [.mailbox m]
  | .programDestroy m => [.mailbox m]
  | .programQuery m => [.mailbox m]
  | .hintSet m => [.mailbox m]
  | .hintClear m => [.mailbox m]
  | .hintQuery m => [.mailbox m]
  | .planCreate m => [.mailbox m]
  | .planDestroy m => [.mailbox m]
  | .planQuery m => [.mailbox m]
  | .factorSetCreate m => [.mailbox m]
  | .factorSetDestroy m => [.mailbox m]
  | .warmSetCreate m => [.mailbox m]
  | .warmSetDestroy m => [.mailbox m]
  | .warmSetClear m => [.mailbox m]
  | .groupCreate m => [.mailbox m]
  | .groupDestroy m => [.mailbox m]
  | .groupQuery m => [.mailbox m]
  | .pairSet m => [.mailbox m]
  | .pairQuery m => [.mailbox m]
  | .pairClear m => [.mailbox m]
  | .stepOpen m => [.mailbox m]
  | .stepQuery m => [.mailbox m]
  | .stepAbort m => [.mailbox m]
  | .stateLoad m => [.mailbox m]
  | .spareArm m => [.mailbox m]
  | .spareAdopt m => [.mailbox m]
  | .adoptQuery m => [.mailbox m]
  | .ledgerRead m => [.mailbox m]
  | .lossScaleSet m => [.mailbox m]
  | .lossScaleQuery m => [.mailbox m]
  | .flagsQuery m => [.mailbox m]
  | .flagsClear m => [.mailbox m]
  | .masterConfig m => [.mailbox m]
  | .masterQuery m => [.mailbox m]
  | .scaleConfig m => [.mailbox m]
  | .scaleQuery m => [.mailbox m]
  | .memQuery m => [.mailbox m]
  | .memLocate m => [.mailbox m]
  | .scrubStart m => [.mailbox m]
  | .scrubQuery m => [.mailbox m]
  | .scrubCancel m => [.mailbox m]
  | .pageRetire m => [.mailbox m]
  | .bankRetire m => [.mailbox m]
  | .retireQuery m => [.mailbox m]
  | .unitQuery m => [.mailbox m]
  | .coreFlags m => [.mailbox m]
  | .unitTest m => [.mailbox m]
  | .unitRetire m => [.mailbox m]
  | .testQuery m => [.mailbox m]
  | .laneMove m => [.mailbox m]
  | .mdTest m => [.mailbox m]
  | .stackTest m => [.mailbox m]
  | .stackReturn m => [.mailbox m]
  | .repairLogRead m => [.mailbox m]
  | .repairLogClear m => [.mailbox m]
  | .mbxDoorbell m _ _ => [.mailbox m]
  | .subTail slot _ _ => [.slot slot]
  | .outHead slot _ => [.slot slot]
  | .lnkLinkRetry st ln => [.link st ln]
  | .rasPop pf => [.function pf]
  | .stormClear pf => [.function pf]
  | .msixUnmask pf _ => [.function pf]
  | .rcRegisterRead pf _ => [.function pf]
  | .registerWrite pf _ _ => [.function pf]
  | .d3hotEntry pf => [.function pf]
  | .d0Entry pf => [.function pf]
  | .edgeMarker st ln _ => [.link st ln]
  | .gatherMarker st ln _ => [.link st ln]
  | .decisionMarker st ln _ => [.link st ln]
  | .freezeMarker st ln _ => [.link st ln]
  | .segmentStart l => [.core l]
  | .segmentBoundReached l => [.core l]
  | .engineRampDown l => [.core l]
  | .scalarIntegerOp l _ => [.core l]
  | .div l _ => [.core l]
  | .scalarFloatOp l _ => [.core l]
  | .li l _ => [.core l]
  | .lih l _ => [.core l]
  | .conditionalBranch l _ => [.core l]
  | .call l _ => [.core l]
  | .jr l _ => [.core l]
  | .callr l _ => [.core l]
  | .coreMemoryLoad l _ => [.core l]
  | .coreMemoryStore l _ => [.core l]
  | .wset l _ => [.core l]
  | .wget l _ => [.core l]
  | .wclr l _ => [.core l]
  | .dmain l _ => [.core l]
  | .dmaout l _ => [.core l]
  | .dmaComplete l => [.core l]
  | .ldw l _ => [.core l]
  | .stw l _ => [.core l]
  | .vldw l _ => [.core l]
  | .vstw l _ => [.core l]
  | .vldc l _ => [.core l]
  | .vstc l _ => [.core l]
  | .cvt l _ => [.core l]
  | .matrixInstruction l _ => [.core l]
  | .matrixEndComplete l => [.core l]
  | .rowrd l _ => [.core l]
  | .rowwr l _ => [.core l]
  | .ewt l _ => [.core l]
  | .ewv l _ => [.core l]
  | .ews l _ => [.core l]
  | .asm l _ => [.core l]
  | .slvs l _ => [.core l]
  | .solverComplete l => [.core l]
  | .slvw l _ => [.core l]
  | .slvq l _ => [.core l]
  | .frd l _ => [.core l]
  | .fclr l _ => [.core l]
  | .csrr l _ => [.core l]
  | .csrw l _ => [.core l]
  | .nop l _ => [.core l]
  | .fence l _ => [.core l]
  | .waitd l _ => [.core l]
  | .waite l _ => [.core l]
  | .waita l _ => [.core l]
  | .segend l _ => [.core l]
  | .vgrant l _ => [.core l]
  | .vgranti l _ => [.core l]
  | .vgrantrd l _ => [.core l]
  | .predicateLogic l _ => [.core l]
  | .pwhile l _ => [.core l]
  | .pcount l _ => [.core l]
  | .pfirst l _ => [.core l]
  | .vectorFloatOp l _ => [.core l]
  | .vectorApproximation l _ => [.core l]
  | .vectorIntegerOp l _ => [.core l]
  | .vectorCompare l _ => [.core l]
  | .vredsum l _ => [.core l]
  | .vredsump l _ => [.core l]
  | .vslideup l _ => [.core l]
  | .vslidedn l _ => [.core l]
  | .vperm l _ => [.core l]
  | .vcompress l _ => [.core l]
  | .vmerge l _ => [.core l]
  | .vbcast l _ => [.core l]
  | .vexts l _ => [.core l]
  | .vinss l _ => [.core l]
  | .vmov l _ => [.core l]
  | .vgather l _ => [.core l]
  | .vscatter l _ => [.core l]
  | .vldff l _ => [.core l]
  | .vgatherff l _ => [.core l]
  | .vcvtp l _ => [.core l]
  | .run slot _ => [.slot slot]
  | .hostToTensor slot _ => [.slot slot]
  | .tensorToHost slot _ => [.slot slot]
  | .tensorToTensor slot _ => [.slot slot]
  | .solve slot _ _ _ => [.slot slot]
  | .adjoint slot _ _ _ => [.slot slot]
  | .tangent slot _ _ _ => [.slot slot]
  | .assemble slot _ _ => [.slot slot]
  | .allReduce slot _ => [.slot slot]
  | .reduceScatter slot _ => [.slot slot]
  | .allGather slot _ => [.slot slot]
  | .broadcast slot _ => [.slot slot]
  | .allToAll slot _ => [.slot slot]
  | .send slot _ => [.slot slot]
  | .recv slot _ => [.slot slot]
  | .update slot _ _ => [.slot slot]
  | .seal slot _ => [.slot slot]
  | .itemBudgetExpiry slot _ => [.slot slot]
  | .collectiveGraceExpiry slot _ => [.slot slot]
  | .joinLimitExpiry slot _ => [.slot slot]
  | .chunkStart slot _ _ => [.slot slot]
  | .straitState arr _ _ _ _ _ => [.strait arr]
  | .deviceFailed arr _ _ _ _ => [.strait arr]
  | .adopted arr _ _ _ _ => [.strait arr]
  | .packetForward st _ _ => [.strait st]
  | .packetEopTimeout st ln _ => [.link st ln]
  | .dataFlit st ln _ => [.link st ln]
  | .nak st ln _ => [.link st ln]
  | .replayTimeout st ln => [.link st ln]
  | .replayLimit st ln => [.link st ln]
  | .spareReq st ln _ _ _ => [.link st ln]
  | .spareAck st ln _ _ _ => [.link st ln]
  | .laneFault st ln _ => [.link st ln]
  | .ident st ln _ => [.link st ln]
  | .delayProbe st ln _ => [.link st ln]
  | .delayReply st ln _ _ => [.link st ln]
  | .failover st ln _ _ => [.link st ln]
  | .controlRepeatTimer st ln => [.link st ln]
  | .linkSignalDetected st ln _ => [.link st ln]
  | .linkNoSignalTimer st ln => [.link st ln]
  | .equaliseDone st ln _ => [.link st ln]
  | .alignDone st ln => [.link st ln]
  | .linkStateTimeout st ln => [.link st ln]
  | .qualifyWindowEnd st ln _ _ => [.link st ln]
  | .retrainDone st ln => [.link st ln]
  | .linkLossOfSignal st ln => [.link st ln]
  | .accBankThreshold l _ _ => [.core l]
  | _ => []

/-- A well-formed command names only parts that the module has. -/
def Statement (i : Instr) : Prop := i.wf = true → (parts i).all Part.there = true

/-- A command whose one check is its one part's. -/
theorem alone {a : Bool} (h : a = true) : (a && true) = true := by simp [h]

theorem channelCreate (m : Nat) : Statement (.channelCreate m) := alone
theorem channelDestroy (m : Nat) : Statement (.channelDestroy m) := alone
theorem channelQuery (m : Nat) : Statement (.channelQuery m) := alone
theorem tensorCreate (m : Nat) : Statement (.tensorCreate m) := alone
theorem tensorDestroy (m : Nat) : Statement (.tensorDestroy m) := alone
theorem tensorQuery (m : Nat) : Statement (.tensorQuery m) := alone
theorem tensorSetRetain (m : Nat) : Statement (.tensorSetRetain m) := alone
theorem tensorMap (m : Nat) : Statement (.tensorMap m) := alone
theorem tensorUnmap (m : Nat) : Statement (.tensorUnmap m) := alone
theorem programCreate (m : Nat) : Statement (.programCreate m) := alone
theorem programDestroy (m : Nat) : Statement (.programDestroy m) := alone
theorem programQuery (m : Nat) : Statement (.programQuery m) := alone
theorem hintSet (m : Nat) : Statement (.hintSet m) := alone
theorem hintClear (m : Nat) : Statement (.hintClear m) := alone
theorem hintQuery (m : Nat) : Statement (.hintQuery m) := alone
theorem planCreate (m : Nat) : Statement (.planCreate m) := alone
theorem planDestroy (m : Nat) : Statement (.planDestroy m) := alone
theorem planQuery (m : Nat) : Statement (.planQuery m) := alone
theorem factorSetCreate (m : Nat) : Statement (.factorSetCreate m) := alone
theorem factorSetDestroy (m : Nat) : Statement (.factorSetDestroy m) := alone
theorem warmSetCreate (m : Nat) : Statement (.warmSetCreate m) := alone
theorem warmSetDestroy (m : Nat) : Statement (.warmSetDestroy m) := alone
theorem warmSetClear (m : Nat) : Statement (.warmSetClear m) := alone
theorem groupCreate (m : Nat) : Statement (.groupCreate m) := alone
theorem groupDestroy (m : Nat) : Statement (.groupDestroy m) := alone
theorem groupQuery (m : Nat) : Statement (.groupQuery m) := alone
theorem pairSet (m : Nat) : Statement (.pairSet m) := alone
theorem pairQuery (m : Nat) : Statement (.pairQuery m) := alone
theorem pairClear (m : Nat) : Statement (.pairClear m) := alone
theorem stepOpen (m : Nat) : Statement (.stepOpen m) := alone
theorem stepQuery (m : Nat) : Statement (.stepQuery m) := alone
theorem stepAbort (m : Nat) : Statement (.stepAbort m) := alone
theorem stateLoad (m : Nat) : Statement (.stateLoad m) := alone
theorem spareArm (m : Nat) : Statement (.spareArm m) := alone
theorem spareAdopt (m : Nat) : Statement (.spareAdopt m) := alone
theorem adoptQuery (m : Nat) : Statement (.adoptQuery m) := alone
theorem ledgerRead (m : Nat) : Statement (.ledgerRead m) := alone
theorem lossScaleSet (m : Nat) : Statement (.lossScaleSet m) := alone
theorem lossScaleQuery (m : Nat) : Statement (.lossScaleQuery m) := alone
theorem flagsQuery (m : Nat) : Statement (.flagsQuery m) := alone
theorem flagsClear (m : Nat) : Statement (.flagsClear m) := alone
theorem masterConfig (m : Nat) : Statement (.masterConfig m) := alone
theorem masterQuery (m : Nat) : Statement (.masterQuery m) := alone
theorem scaleConfig (m : Nat) : Statement (.scaleConfig m) := alone
theorem scaleQuery (m : Nat) : Statement (.scaleQuery m) := alone
theorem memQuery (m : Nat) : Statement (.memQuery m) := alone
theorem memLocate (m : Nat) : Statement (.memLocate m) := alone
theorem scrubStart (m : Nat) : Statement (.scrubStart m) := alone
theorem scrubQuery (m : Nat) : Statement (.scrubQuery m) := alone
theorem scrubCancel (m : Nat) : Statement (.scrubCancel m) := alone
theorem pageRetire (m : Nat) : Statement (.pageRetire m) := alone
theorem bankRetire (m : Nat) : Statement (.bankRetire m) := alone
theorem retireQuery (m : Nat) : Statement (.retireQuery m) := alone
theorem unitQuery (m : Nat) : Statement (.unitQuery m) := alone
theorem coreFlags (m : Nat) : Statement (.coreFlags m) := alone
theorem unitTest (m : Nat) : Statement (.unitTest m) := alone
theorem unitRetire (m : Nat) : Statement (.unitRetire m) := alone
theorem testQuery (m : Nat) : Statement (.testQuery m) := alone
theorem laneMove (m : Nat) : Statement (.laneMove m) := alone
theorem mdTest (m : Nat) : Statement (.mdTest m) := alone
theorem stackTest (m : Nat) : Statement (.stackTest m) := alone
theorem stackReturn (m : Nat) : Statement (.stackReturn m) := alone
theorem repairLogRead (m : Nat) : Statement (.repairLogRead m) := alone
theorem repairLogClear (m : Nat) : Statement (.repairLogClear m) := alone
theorem getIdentity : Statement (.getIdentity) := fun _ => rfl
theorem getAttestCert : Statement (.getAttestCert) := fun _ => rfl
theorem attest : Statement (.attest) := fun _ => rfl
theorem configLog : Statement (.configLog) := fun _ => rfl
theorem svnCommit : Statement (.svnCommit) := fun _ => rfl
theorem revokeSlot : Statement (.revokeSlot) := fun _ => rfl
theorem lifecycleSet : Statement (.lifecycleSet) := fun _ => rfl
theorem mbxDoorbell (m : Nat) (tag : BitVec 32) (host : HostStores) : Statement (.mbxDoorbell m tag host) := alone
theorem secCmd (op : BitVec 8) : Statement (.secCmd op) := fun _ => rfl
theorem subTail (slot : Nat) (v : BitVec 32) (host : HostStores) : Statement (.subTail slot v host) := alone
theorem outHead (slot : Nat) (v : BitVec 32) : Statement (.outHead slot v) := alone
theorem tidRateReqGo (v : BitVec 32) : Statement (.tidRateReqGo v) := fun _ => rfl
theorem tidReplanGo : Statement (.tidReplanGo) := fun _ => rfl
theorem tidCtlRunStart (v : BitVec 32) : Statement (.tidCtlRunStart v) := fun _ => rfl
theorem tidCtlRunStop (v : BitVec 32) : Statement (.tidCtlRunStop v) := fun _ => rfl
theorem lnkCtlRunStart (v : BitVec 32) : Statement (.lnkCtlRunStart v) := fun _ => rfl
theorem lnkCtlRunStop (v : BitVec 32) : Statement (.lnkCtlRunStop v) := fun _ => rfl
theorem lnkPlanLoad : Statement (.lnkPlanLoad) := fun _ => rfl
theorem acceptDegraded : Statement (.acceptDegraded) := fun _ => rfl
theorem lnkLinkRetry (st : Nat) (ln : Nat) : Statement (.lnkLinkRetry st ln) := alone
theorem pwrCtlOn (v : BitVec 32) : Statement (.pwrCtlOn v) := fun _ => rfl
theorem brgGoFuseLoad : Statement (.brgGoFuseLoad) := fun _ => rfl
theorem brgGoBist : Statement (.brgGoBist) := fun _ => rfl
theorem brgGoReconcile : Statement (.brgGoReconcile) := fun _ => rfl
theorem brgGoHbmTraining : Statement (.brgGoHbmTraining) := fun _ => rfl
theorem brgGoImageVerify : Statement (.brgGoImageVerify) := fun _ => rfl
theorem brgGoControlCores : Statement (.brgGoControlCores) := fun _ => rfl
theorem brgGoLinkTraining : Statement (.brgGoLinkTraining) := fun _ => rfl
theorem brgGoPlan : Statement (.brgGoPlan) := fun _ => rfl
theorem brgGoSpare : Statement (.brgGoSpare) := fun _ => rfl
theorem bringupStepDone (n : Nat) (rep : StepReport) : Statement (.bringupStepDone n rep) := fun _ => rfl
theorem bringupStepTimeout (n : Nat) (mask : BitVec 32) : Statement (.bringupStepTimeout n mask) := fun _ => rfl
theorem fwlWrite (off : Nat) (bytes : List (BitVec 8)) : Statement (.fwlWrite off bytes) := fun _ => rfl
theorem frzFreezeWrite (v : BitVec 32) : Statement (.frzFreezeWrite v) := fun _ => rfl
theorem frzRelease (v : BitVec 32) : Statement (.frzRelease v) := fun _ => rfl
theorem rasPop (pf : Nat) : Statement (.rasPop pf) := alone
theorem stormClear (pf : Nat) : Statement (.stormClear pf) := alone
theorem rstClear : Statement (.rstClear) := fun _ => rfl
theorem msixUnmask (pf : Nat) (vec : Nat) : Statement (.msixUnmask pf vec) := by
  intro h
  change (decide (pf < 2) && decide (vec < 2048)) = true at h
  change (decide (pf < 2) && true) = true
  simp only [Bool.and_eq_true, Bool.and_true, decide_eq_true_eq] at h ⊢
  simp [h]
theorem tidCountLoRead : Statement (.tidCountLoRead) := fun _ => rfl
theorem rcRegisterRead (pf : Nat) (off : Nat) : Statement (.rcRegisterRead pf off) := by
  intro h
  change (decide (pf < 2) && decide (off < 2 ^ 64)) = true at h
  change (decide (pf < 2) && true) = true
  simp only [Bool.and_eq_true, Bool.and_true, decide_eq_true_eq] at h ⊢
  simp [h]
theorem registerWrite (pf : Nat) (off : Nat) (bytes : List (BitVec 8)) : Statement (.registerWrite pf off bytes) := by
  intro h
  change (decide (pf < 2) && decide (off < 2 ^ 64) && decide (bytes.length ≤ 4096)) = true at h
  change (decide (pf < 2) && true) = true
  simp only [Bool.and_eq_true, Bool.and_true, decide_eq_true_eq] at h ⊢
  simp [h]
theorem bar2Read (off : Nat) (len : Nat) : Statement (.bar2Read off len) := fun _ => rfl
theorem bar2Write (off : Nat) (bytes : List (BitVec 8)) : Statement (.bar2Write off bytes) := fun _ => rfl
theorem configRequest (fn : Nat) (write : Bool) (off : Nat) (v : BitVec 32) : Statement (.configRequest fn write off v) := fun _ => rfl
theorem hostReadError (addr : BitVec 64) (what : ReadFor) : Statement (.hostReadError addr what) := fun _ => rfl
theorem busMasterEnableChange (v : Bool) : Statement (.busMasterEnableChange v) := fun _ => rfl
theorem d3hotEntry (pf : Nat) : Statement (.d3hotEntry pf) := alone
theorem d0Entry (pf : Nat) : Statement (.d0Entry pf) := alone
theorem flrPf0 : Statement (.flrPf0) := fun _ => rfl
theorem flrPf0Apply : Statement (.flrPf0Apply) := fun _ => rfl
theorem flrPf1 : Statement (.flrPf1) := fun _ => rfl
theorem hostLinkDown : Statement (.hostLinkDown) := fun _ => rfl
theorem perstAssert : Statement (.perstAssert) := fun _ => rfl
theorem perstDeassert (feedId : BitVec 4) (addrSel : BitVec 2) : Statement (.perstDeassert feedId addrSel) := fun _ => rfl
theorem freezeNFall : Statement (.freezeNFall) := fun _ => rfl
theorem freezeTideReached : Statement (.freezeTideReached) := fun _ => rfl
theorem frzAccess (sel : BitVec 32) (off : BitVec 32) : Statement (.frzAccess sel off) := fun _ => rfl
theorem frzFreeze : Statement (.frzFreeze) := fun _ => rfl
theorem idcode : Statement (.idcode) := fun _ => rfl
theorem sample : Statement (.sample) := fun _ => rfl
theorem bypass (code : BitVec 8) : Statement (.bypass code) := fun _ => rfl
theorem tideEdge : Statement (.tideEdge) := fun _ => rfl
theorem slackStart (inp : SlackInputs) : Statement (.slackStart inp) := fun _ => rfl
theorem latchGuard : Statement (.latchGuard) := fun _ => rfl
theorem stepStartTide : Statement (.stepStartTide) := fun _ => rfl
theorem rateChangeApply : Statement (.rateChangeApply) := fun _ => rfl
theorem replanApply : Statement (.replanApply) := fun _ => rfl
theorem edgeMarker (st : Nat) (ln : Nat) (mk : Marker) : Statement (.edgeMarker st ln mk) := alone
theorem gatherMarker (st : Nat) (ln : Nat) (mk : Marker) : Statement (.gatherMarker st ln mk) := alone
theorem decisionMarker (st : Nat) (ln : Nat) (mk : Marker) : Statement (.decisionMarker st ln mk) := alone
theorem freezeMarker (st : Nat) (ln : Nat) (mk : Marker) : Statement (.freezeMarker st ln mk) := alone
theorem voteForwardDeadline : Statement (.voteForwardDeadline) := fun _ => rfl
theorem masterDecision : Statement (.masterDecision) := fun _ => rfl
theorem decisionCloseTime : Statement (.decisionCloseTime) := fun _ => rfl
theorem markerMissLimit : Statement (.markerMissLimit) := fun _ => rfl
theorem tideRefEdge : Statement (.tideRefEdge) := fun _ => rfl
theorem tideRefLost : Statement (.tideRefLost) := fun _ => rfl
theorem segmentStart (l : Nat) : Statement (.segmentStart l) := alone
theorem segmentBoundReached (l : Nat) : Statement (.segmentBoundReached l) := alone
theorem engineRampDown (l : Nat) : Statement (.engineRampDown l) := alone
theorem scalarIntegerOp (l : Nat) (w : BitVec 64) : Statement (.scalarIntegerOp l w) := alone
theorem div (l : Nat) (w : BitVec 64) : Statement (.div l w) := alone
theorem scalarFloatOp (l : Nat) (w : BitVec 64) : Statement (.scalarFloatOp l w) := alone
theorem li (l : Nat) (w : BitVec 64) : Statement (.li l w) := alone
theorem lih (l : Nat) (w : BitVec 64) : Statement (.lih l w) := alone
theorem conditionalBranch (l : Nat) (w : BitVec 64) : Statement (.conditionalBranch l w) := alone
theorem call (l : Nat) (w : BitVec 64) : Statement (.call l w) := alone
theorem jr (l : Nat) (w : BitVec 64) : Statement (.jr l w) := alone
theorem callr (l : Nat) (w : BitVec 64) : Statement (.callr l w) := alone
theorem coreMemoryLoad (l : Nat) (w : BitVec 64) : Statement (.coreMemoryLoad l w) := alone
theorem coreMemoryStore (l : Nat) (w : BitVec 64) : Statement (.coreMemoryStore l w) := alone
theorem wset (l : Nat) (w : BitVec 64) : Statement (.wset l w) := alone
theorem wget (l : Nat) (w : BitVec 64) : Statement (.wget l w) := alone
theorem wclr (l : Nat) (w : BitVec 64) : Statement (.wclr l w) := alone
theorem dmain (l : Nat) (w : BitVec 64) : Statement (.dmain l w) := alone
theorem dmaout (l : Nat) (w : BitVec 64) : Statement (.dmaout l w) := alone
theorem dmaComplete (l : Nat) : Statement (.dmaComplete l) := alone
theorem ldw (l : Nat) (w : BitVec 64) : Statement (.ldw l w) := alone
theorem stw (l : Nat) (w : BitVec 64) : Statement (.stw l w) := alone
theorem vldw (l : Nat) (w : BitVec 64) : Statement (.vldw l w) := alone
theorem vstw (l : Nat) (w : BitVec 64) : Statement (.vstw l w) := alone
theorem vldc (l : Nat) (w : BitVec 64) : Statement (.vldc l w) := alone
theorem vstc (l : Nat) (w : BitVec 64) : Statement (.vstc l w) := alone
theorem cvt (l : Nat) (w : BitVec 64) : Statement (.cvt l w) := alone
theorem matrixInstruction (l : Nat) (w : BitVec 64) : Statement (.matrixInstruction l w) := alone
theorem matrixEndComplete (l : Nat) : Statement (.matrixEndComplete l) := alone
theorem rowrd (l : Nat) (w : BitVec 64) : Statement (.rowrd l w) := alone
theorem rowwr (l : Nat) (w : BitVec 64) : Statement (.rowwr l w) := alone
theorem ewt (l : Nat) (w : BitVec 64) : Statement (.ewt l w) := alone
theorem ewv (l : Nat) (w : BitVec 64) : Statement (.ewv l w) := alone
theorem ews (l : Nat) (w : BitVec 64) : Statement (.ews l w) := alone
theorem asm (l : Nat) (w : BitVec 64) : Statement (.asm l w) := alone
theorem slvs (l : Nat) (w : BitVec 64) : Statement (.slvs l w) := alone
theorem solverComplete (l : Nat) : Statement (.solverComplete l) := alone
theorem slvw (l : Nat) (w : BitVec 64) : Statement (.slvw l w) := alone
theorem slvq (l : Nat) (w : BitVec 64) : Statement (.slvq l w) := alone
theorem frd (l : Nat) (w : BitVec 64) : Statement (.frd l w) := alone
theorem fclr (l : Nat) (w : BitVec 64) : Statement (.fclr l w) := alone
theorem csrr (l : Nat) (w : BitVec 64) : Statement (.csrr l w) := alone
theorem csrw (l : Nat) (w : BitVec 64) : Statement (.csrw l w) := alone
theorem nop (l : Nat) (w : BitVec 64) : Statement (.nop l w) := alone
theorem fence (l : Nat) (w : BitVec 64) : Statement (.fence l w) := alone
theorem waitd (l : Nat) (w : BitVec 64) : Statement (.waitd l w) := alone
theorem waite (l : Nat) (w : BitVec 64) : Statement (.waite l w) := alone
theorem waita (l : Nat) (w : BitVec 64) : Statement (.waita l w) := alone
theorem segend (l : Nat) (w : BitVec 64) : Statement (.segend l w) := alone
theorem vgrant (l : Nat) (w : BitVec 64) : Statement (.vgrant l w) := alone
theorem vgranti (l : Nat) (w : BitVec 64) : Statement (.vgranti l w) := alone
theorem vgrantrd (l : Nat) (w : BitVec 64) : Statement (.vgrantrd l w) := alone
theorem predicateLogic (l : Nat) (w : BitVec 64) : Statement (.predicateLogic l w) := alone
theorem pwhile (l : Nat) (w : BitVec 64) : Statement (.pwhile l w) := alone
theorem pcount (l : Nat) (w : BitVec 64) : Statement (.pcount l w) := alone
theorem pfirst (l : Nat) (w : BitVec 64) : Statement (.pfirst l w) := alone
theorem vectorFloatOp (l : Nat) (w : BitVec 64) : Statement (.vectorFloatOp l w) := alone
theorem vectorApproximation (l : Nat) (w : BitVec 64) : Statement (.vectorApproximation l w) := alone
theorem vectorIntegerOp (l : Nat) (w : BitVec 64) : Statement (.vectorIntegerOp l w) := alone
theorem vectorCompare (l : Nat) (w : BitVec 64) : Statement (.vectorCompare l w) := alone
theorem vredsum (l : Nat) (w : BitVec 64) : Statement (.vredsum l w) := alone
theorem vredsump (l : Nat) (w : BitVec 64) : Statement (.vredsump l w) := alone
theorem vslideup (l : Nat) (w : BitVec 64) : Statement (.vslideup l w) := alone
theorem vslidedn (l : Nat) (w : BitVec 64) : Statement (.vslidedn l w) := alone
theorem vperm (l : Nat) (w : BitVec 64) : Statement (.vperm l w) := alone
theorem vcompress (l : Nat) (w : BitVec 64) : Statement (.vcompress l w) := alone
theorem vmerge (l : Nat) (w : BitVec 64) : Statement (.vmerge l w) := alone
theorem vbcast (l : Nat) (w : BitVec 64) : Statement (.vbcast l w) := alone
theorem vexts (l : Nat) (w : BitVec 64) : Statement (.vexts l w) := alone
theorem vinss (l : Nat) (w : BitVec 64) : Statement (.vinss l w) := alone
theorem vmov (l : Nat) (w : BitVec 64) : Statement (.vmov l w) := alone
theorem vgather (l : Nat) (w : BitVec 64) : Statement (.vgather l w) := alone
theorem vscatter (l : Nat) (w : BitVec 64) : Statement (.vscatter l w) := alone
theorem vldff (l : Nat) (w : BitVec 64) : Statement (.vldff l w) := alone
theorem vgatherff (l : Nat) (w : BitVec 64) : Statement (.vgatherff l w) := alone
theorem vcvtp (l : Nat) (w : BitVec 64) : Statement (.vcvtp l w) := alone
theorem run (slot : Nat) (seq : Nat) : Statement (.run slot seq) := by
  intro h
  change (decide (slot < 4096) && decide (seq < 2 ^ 64)) = true at h
  change (decide (slot < 4096) && true) = true
  simp only [Bool.and_eq_true, Bool.and_true, decide_eq_true_eq] at h ⊢
  simp [h]
theorem hostToTensor (slot : Nat) (seq : Nat) : Statement (.hostToTensor slot seq) := by
  intro h
  change (decide (slot < 4096) && decide (seq < 2 ^ 64)) = true at h
  change (decide (slot < 4096) && true) = true
  simp only [Bool.and_eq_true, Bool.and_true, decide_eq_true_eq] at h ⊢
  simp [h]
theorem tensorToHost (slot : Nat) (seq : Nat) : Statement (.tensorToHost slot seq) := by
  intro h
  change (decide (slot < 4096) && decide (seq < 2 ^ 64)) = true at h
  change (decide (slot < 4096) && true) = true
  simp only [Bool.and_eq_true, Bool.and_true, decide_eq_true_eq] at h ⊢
  simp [h]
theorem tensorToTensor (slot : Nat) (seq : Nat) : Statement (.tensorToTensor slot seq) := by
  intro h
  change (decide (slot < 4096) && decide (seq < 2 ^ 64)) = true at h
  change (decide (slot < 4096) && true) = true
  simp only [Bool.and_eq_true, Bool.and_true, decide_eq_true_eq] at h ⊢
  simp [h]
theorem solve (slot : Nat) (seq : Nat) (p : Nat) (iters : Nat) : Statement (.solve slot seq p iters) := by
  intro h
  change (decide (slot < 4096) && decide (seq < 2 ^ 64) && decide (p < 2 ^ 32) && decide (iters < 2 ^ 32)) = true at h
  change (decide (slot < 4096) && true) = true
  simp only [Bool.and_eq_true, Bool.and_true, decide_eq_true_eq] at h ⊢
  simp [h]
theorem adjoint (slot : Nat) (seq : Nat) (p : Nat) (iters : Nat) : Statement (.adjoint slot seq p iters) := by
  intro h
  change (decide (slot < 4096) && decide (seq < 2 ^ 64) && decide (p < 2 ^ 32) && decide (iters < 2 ^ 32)) = true at h
  change (decide (slot < 4096) && true) = true
  simp only [Bool.and_eq_true, Bool.and_true, decide_eq_true_eq] at h ⊢
  simp [h]
theorem tangent (slot : Nat) (seq : Nat) (p : Nat) (iters : Nat) : Statement (.tangent slot seq p iters) := by
  intro h
  change (decide (slot < 4096) && decide (seq < 2 ^ 64) && decide (p < 2 ^ 32) && decide (iters < 2 ^ 32)) = true at h
  change (decide (slot < 4096) && true) = true
  simp only [Bool.and_eq_true, Bool.and_true, decide_eq_true_eq] at h ⊢
  simp [h]
theorem assemble (slot : Nat) (seq : Nat) (p : Nat) : Statement (.assemble slot seq p) := by
  intro h
  change (decide (slot < 4096) && decide (seq < 2 ^ 64) && decide (p < 2 ^ 32)) = true at h
  change (decide (slot < 4096) && true) = true
  simp only [Bool.and_eq_true, Bool.and_true, decide_eq_true_eq] at h ⊢
  simp [h]
theorem allReduce (slot : Nat) (seq : Nat) : Statement (.allReduce slot seq) := by
  intro h
  change (decide (slot < 4096) && decide (seq < 2 ^ 64)) = true at h
  change (decide (slot < 4096) && true) = true
  simp only [Bool.and_eq_true, Bool.and_true, decide_eq_true_eq] at h ⊢
  simp [h]
theorem reduceScatter (slot : Nat) (seq : Nat) : Statement (.reduceScatter slot seq) := by
  intro h
  change (decide (slot < 4096) && decide (seq < 2 ^ 64)) = true at h
  change (decide (slot < 4096) && true) = true
  simp only [Bool.and_eq_true, Bool.and_true, decide_eq_true_eq] at h ⊢
  simp [h]
theorem allGather (slot : Nat) (seq : Nat) : Statement (.allGather slot seq) := by
  intro h
  change (decide (slot < 4096) && decide (seq < 2 ^ 64)) = true at h
  change (decide (slot < 4096) && true) = true
  simp only [Bool.and_eq_true, Bool.and_true, decide_eq_true_eq] at h ⊢
  simp [h]
theorem broadcast (slot : Nat) (seq : Nat) : Statement (.broadcast slot seq) := by
  intro h
  change (decide (slot < 4096) && decide (seq < 2 ^ 64)) = true at h
  change (decide (slot < 4096) && true) = true
  simp only [Bool.and_eq_true, Bool.and_true, decide_eq_true_eq] at h ⊢
  simp [h]
theorem allToAll (slot : Nat) (seq : Nat) : Statement (.allToAll slot seq) := by
  intro h
  change (decide (slot < 4096) && decide (seq < 2 ^ 64)) = true at h
  change (decide (slot < 4096) && true) = true
  simp only [Bool.and_eq_true, Bool.and_true, decide_eq_true_eq] at h ⊢
  simp [h]
theorem send (slot : Nat) (seq : Nat) : Statement (.send slot seq) := by
  intro h
  change (decide (slot < 4096) && decide (seq < 2 ^ 64)) = true at h
  change (decide (slot < 4096) && true) = true
  simp only [Bool.and_eq_true, Bool.and_true, decide_eq_true_eq] at h ⊢
  simp [h]
theorem recv (slot : Nat) (seq : Nat) : Statement (.recv slot seq) := by
  intro h
  change (decide (slot < 4096) && decide (seq < 2 ^ 64)) = true at h
  change (decide (slot < 4096) && true) = true
  simp only [Bool.and_eq_true, Bool.and_true, decide_eq_true_eq] at h ⊢
  simp [h]
theorem update (slot : Nat) (seq : Nat) (n : Nat) : Statement (.update slot seq n) := by
  intro h
  change (decide (slot < 4096) && decide (seq < 2 ^ 64) && decide (n < 2 ^ 32)) = true at h
  change (decide (slot < 4096) && true) = true
  simp only [Bool.and_eq_true, Bool.and_true, decide_eq_true_eq] at h ⊢
  simp [h]
theorem itemBudgetExpiry (slot : Nat) (seq : Nat) : Statement (.itemBudgetExpiry slot seq) := by
  intro h
  change (decide (slot < 4096) && decide (seq < 2 ^ 64)) = true at h
  change (decide (slot < 4096) && true) = true
  simp only [Bool.and_eq_true, Bool.and_true, decide_eq_true_eq] at h ⊢
  simp [h]
theorem collectiveGraceExpiry (slot : Nat) (seq : Nat) : Statement (.collectiveGraceExpiry slot seq) := by
  intro h
  change (decide (slot < 4096) && decide (seq < 2 ^ 64)) = true at h
  change (decide (slot < 4096) && true) = true
  simp only [Bool.and_eq_true, Bool.and_true, decide_eq_true_eq] at h ⊢
  simp [h]
theorem joinLimitExpiry (slot : Nat) (seq : Nat) : Statement (.joinLimitExpiry slot seq) := by
  intro h
  change (decide (slot < 4096) && decide (seq < 2 ^ 64)) = true at h
  change (decide (slot < 4096) && true) = true
  simp only [Bool.and_eq_true, Bool.and_true, decide_eq_true_eq] at h ⊢
  simp [h]
theorem chunkStart (slot : Nat) (seq : Nat) (chunk : Nat) : Statement (.chunkStart slot seq chunk) := by
  intro h
  change (decide (slot < 4096) && decide (seq < 2 ^ 64) && decide (chunk < 2 ^ 32)) = true at h
  change (decide (slot < 4096) && true) = true
  simp only [Bool.and_eq_true, Bool.and_true, decide_eq_true_eq] at h ⊢
  simp [h]
theorem join (src : Pos) (h : CollHeader) : Statement (.join src h) := fun _ => rfl
theorem start (src : Pos) (h : CollHeader) : Statement (.start src h) := fun _ => rfl
theorem data (src : Pos) (h : CollHeader) (bytes : List (BitVec 8)) : Statement (.data src h bytes) := fun _ => rfl
theorem ack (src : Pos) (h : CollHeader) : Statement (.ack src h) := fun _ => rfl
theorem complete (src : Pos) (h : CollHeader) : Statement (.complete src h) := fun _ => rfl
theorem groupDone (src : Pos) (h : CollHeader) : Statement (.groupDone src h) := fun _ => rfl
theorem abort (src : Pos) (h : CollHeader) : Statement (.abort src h) := fun _ => rfl
theorem leave (src : Pos) (h : CollHeader) : Statement (.leave src h) := fun _ => rfl
theorem lost (src : Pos) (h : CollHeader) : Statement (.lost src h) := fun _ => rfl
theorem reissue (src : Pos) (h : CollHeader) : Statement (.reissue src h) := fun _ => rfl
theorem prepass (src : Pos) (h : CollHeader) (bytes : List (BitVec 8)) : Statement (.prepass src h bytes) := fun _ => rfl
theorem fail (src : Pos) (h : CollHeader) : Statement (.fail src h) := fun _ => rfl
theorem pair (src : Pos) (p : PairPayload) : Statement (.pair src p) := fun _ => rfl
theorem pairReply (src : Pos) (p : PairPayload) (verdict : Nat) : Statement (.pairReply src p verdict) := fun _ => rfl
theorem fillRead (src : Pos) (r : FillRead) : Statement (.fillRead src r) := fun _ => rfl
theorem fillData (src : Pos) (h : FerryHeader) (bytes : List (BitVec 8)) : Statement (.fillData src h bytes) := fun _ => rfl
theorem adoptReq (src : Pos) (serial : BitVec 64) (feedId : BitVec 4) (pos : Pos) : Statement (.adoptReq src serial feedId pos) := fun _ => rfl
theorem adoptReply (src : Pos) (code : Nat) : Statement (.adoptReply src code) := fun _ => rfl
theorem decisionReq (src : Pos) (step : Nat) : Statement (.decisionReq src step) := fun _ => rfl
theorem decisionReply (src : Pos) (word : BitVec 32) : Statement (.decisionReply src word) := fun _ => rfl
theorem ferryData (src : Pos) (h : FerryHeader) (bytes : List (BitVec 8)) : Statement (.ferryData src h bytes) := fun _ => rfl
theorem ferryAck (src : Pos) (step : Nat) (fseq : Nat) : Statement (.ferryAck src step fseq) := fun _ => rfl
theorem record (src : Pos) (h : FerryHeader) (bytes : List (BitVec 8)) : Statement (.record src h bytes) := fun _ => rfl
theorem ledger (src : Pos) (h : FerryHeader) (bytes : List (BitVec 8)) : Statement (.ledger src h bytes) := fun _ => rfl
theorem reseed (src : Pos) (h : FerryHeader) (bytes : List (BitVec 8)) : Statement (.reseed src h bytes) := fun _ => rfl
theorem ferryResendTimer (fseq : Nat) : Statement (.ferryResendTimer fseq) := fun _ => rfl
theorem straitState (arr : Nat) (mseq : Nat) (pos : Pos) (lost : BitVec 6) (active : BitVec 24) (tide : Nat) : Statement (.straitState arr mseq pos lost active tide) := by
  intro h
  change (decide (arr < 6) && decide (mseq < 2 ^ 32) && decide (pos.x < 64) && decide (pos.y < 64) && decide (pos.z < 64) && decide (tide < 2 ^ 64)) = true at h
  change (decide (arr < 6) && true) = true
  simp only [Bool.and_eq_true, Bool.and_true, decide_eq_true_eq] at h ⊢
  simp [h]
theorem deviceFailed (arr : Nat) (mseq : Nat) (pos : Pos) (cls : BitVec 16) (tide : Nat) : Statement (.deviceFailed arr mseq pos cls tide) := by
  intro h
  change (decide (arr < 6) && decide (mseq < 2 ^ 32) && decide (pos.x < 64) && decide (pos.y < 64) && decide (pos.z < 64) && decide (tide < 2 ^ 64)) = true at h
  change (decide (arr < 6) && true) = true
  simp only [Bool.and_eq_true, Bool.and_true, decide_eq_true_eq] at h ⊢
  simp [h]
theorem adopted (arr : Nat) (mseq : Nat) (pos : Pos) (serial : BitVec 64) (tide : Nat) : Statement (.adopted arr mseq pos serial tide) := by
  intro h
  change (decide (arr < 6) && decide (mseq < 2 ^ 32) && decide (pos.x < 64) && decide (pos.y < 64) && decide (pos.z < 64) && decide (tide < 2 ^ 64)) = true at h
  change (decide (arr < 6) && true) = true
  simp only [Bool.and_eq_true, Bool.and_true, decide_eq_true_eq] at h ⊢
  simp [h]
theorem spareFillComplete : Statement (.spareFillComplete) := fun _ => rfl
theorem packetForward (st : Nat) (h : PacketHeader) (bytes : List (BitVec 8)) : Statement (.packetForward st h bytes) := by
  intro h
  change (decide (st < 6) && decide (bytes.length ≤ 4032)) = true at h
  change (decide (st < 6) && true) = true
  simp only [Bool.and_eq_true, Bool.and_true, decide_eq_true_eq] at h ⊢
  simp [h]
theorem packetEopTimeout (st : Nat) (ln : Nat) (ch : Nat) : Statement (.packetEopTimeout st ln ch) := by
  intro h
  change (decide (st < 6) && decide (ln < 4) && decide (ch < 16)) = true at h
  change ((decide (st < 6) && decide (ln < 4)) && true) = true
  simp only [Bool.and_eq_true, Bool.and_true, decide_eq_true_eq] at h ⊢
  simp [h]
theorem dataFlit (st : Nat) (ln : Nat) (f : Flit) : Statement (.dataFlit st ln f) := alone
theorem nak (st : Nat) (ln : Nat) (seq : BitVec 12) : Statement (.nak st ln seq) := alone
theorem replayTimeout (st : Nat) (ln : Nat) : Statement (.replayTimeout st ln) := alone
theorem replayLimit (st : Nat) (ln : Nat) : Statement (.replayLimit st ln) := alone
theorem spareReq (st : Nat) (ln : Nat) (pos : Nat) (lane : Nat) (seq : BitVec 12) : Statement (.spareReq st ln pos lane seq) := by
  intro h
  change (decide (st < 6) && decide (ln < 4) && decide (pos < 16) && decide (lane < 18)) = true at h
  change ((decide (st < 6) && decide (ln < 4)) && true) = true
  simp only [Bool.and_eq_true, Bool.and_true, decide_eq_true_eq] at h ⊢
  simp [h]
theorem spareAck (st : Nat) (ln : Nat) (pos : Nat) (lane : Nat) (seq : BitVec 12) : Statement (.spareAck st ln pos lane seq) := by
  intro h
  change (decide (st < 6) && decide (ln < 4) && decide (pos < 16) && decide (lane < 18)) = true at h
  change ((decide (st < 6) && decide (ln < 4)) && true) = true
  simp only [Bool.and_eq_true, Bool.and_true, decide_eq_true_eq] at h ⊢
  simp [h]
theorem laneFault (st : Nat) (ln : Nat) (lane : Nat) : Statement (.laneFault st ln lane) := by
  intro h
  change (decide (st < 6) && decide (ln < 4) && decide (lane < 18)) = true at h
  change ((decide (st < 6) && decide (ln < 4)) && true) = true
  simp only [Bool.and_eq_true, Bool.and_true, decide_eq_true_eq] at h ⊢
  simp [h]
theorem ident (st : Nat) (ln : Nat) (id : IdentPayload) : Statement (.ident st ln id) := alone
theorem identPeriod : Statement (.identPeriod) := fun _ => rfl
theorem delayProbe (st : Nat) (ln : Nat) (stamp : BitVec 64) : Statement (.delayProbe st ln stamp) := alone
theorem delayReply (st : Nat) (ln : Nat) (roundTrip : Nat) (turnaround : Nat) : Statement (.delayReply st ln roundTrip turnaround) := alone
theorem failover (st : Nat) (ln : Nat) (lostLn : Nat) (seq : BitVec 12) : Statement (.failover st ln lostLn seq) := by
  intro h
  change (decide (st < 6) && decide (ln < 4) && decide (lostLn < 4)) = true at h
  change ((decide (st < 6) && decide (ln < 4)) && true) = true
  simp only [Bool.and_eq_true, Bool.and_true, decide_eq_true_eq] at h ⊢
  simp [h]
theorem controlRepeatTimer (st : Nat) (ln : Nat) : Statement (.controlRepeatTimer st ln) := alone
theorem linkSignalDetected (st : Nat) (ln : Nat) (lanes : BitVec 18) : Statement (.linkSignalDetected st ln lanes) := alone
theorem linkNoSignalTimer (st : Nat) (ln : Nat) : Statement (.linkNoSignalTimer st ln) := alone
theorem equaliseDone (st : Nat) (ln : Nat) (lanes : BitVec 18) : Statement (.equaliseDone st ln lanes) := alone
theorem alignDone (st : Nat) (ln : Nat) : Statement (.alignDone st ln) := alone
theorem linkStateTimeout (st : Nat) (ln : Nat) : Statement (.linkStateTimeout st ln) := alone
theorem qualifyWindowEnd (st : Nat) (ln : Nat) (bits : Nat) (errs : List Nat) : Statement (.qualifyWindowEnd st ln bits errs) := by
  intro h
  change (decide (st < 6) && decide (ln < 4) && decide (bits < 2 ^ 64)) = true at h
  change ((decide (st < 6) && decide (ln < 4)) && true) = true
  simp only [Bool.and_eq_true, Bool.and_true, decide_eq_true_eq] at h ⊢
  simp [h]
theorem retrainDone (st : Nat) (ln : Nat) : Statement (.retrainDone st ln) := alone
theorem linkLossOfSignal (st : Nat) (ln : Nat) : Statement (.linkLossOfSignal st ln) := alone
theorem discoveryDeadline : Statement (.discoveryDeadline) := fun _ => rfl
theorem causewayLaneThreshold (cw : Nat) (lane : Nat) : Statement (.causewayLaneThreshold cw lane) := fun _ => rfl
theorem causewayLaneFail (cw : Nat) (lane : Nat) : Statement (.causewayLaneFail cw lane) := fun _ => rfl
theorem accBankThreshold (l : Nat) (bank : Nat) (uncorrectable : Bool) : Statement (.accBankThreshold l bank uncorrectable) := by
  intro h
  change (decide (l < 1152) && decide (bank < 8)) = true at h
  change (decide (l < 1152) && true) = true
  simp only [Bool.and_eq_true, Bool.and_true, decide_eq_true_eq] at h ⊢
  simp [h]
theorem coreLost (cl : Nat) (p : Nat) (cause : Nat) : Statement (.coreLost cl p cause) := fun _ => rfl
theorem coreFillComplete (cl : Nat) (ok : Bool) (remaining : Nat) : Statement (.coreFillComplete cl ok remaining) := fun _ => rfl
theorem controlCoreLost (ccp : Nat) : Statement (.controlCoreLost ccp) := fun _ => rfl
theorem reductionUnitFailure (ld : Nat) (ru : Nat) : Statement (.reductionUnitFailure ld ru) := fun _ => rfl
theorem holmBistPeriod (badCores : List (Nat × Nat)) (badCc : List Nat) : Statement (.holmBistPeriod badCores badCc) := fun _ => rfl
theorem unitTestComplete (ticket : Nat) (r : TestResult) : Statement (.unitTestComplete ticket r) := fun _ => rfl
theorem stackLost (k : Nat) : Statement (.stackLost k) := fun _ => rfl
theorem restripeComplete (k : Nat) : Statement (.restripeComplete k) := fun _ => rfl
theorem resaltStart (region : Nat) : Statement (.resaltStart region) := fun _ => rfl
theorem resaltComplete (region : Nat) : Statement (.resaltComplete region) := fun _ => rfl
theorem scrubComplete (sid : Nat) : Statement (.scrubComplete sid) := fun _ => rfl
theorem retirementComplete (ticket : Nat) : Statement (.retirementComplete ticket) := fun _ => rfl
theorem powerDomainFault (k : Nat) : Statement (.powerDomainFault k) := fun _ => rfl
theorem vinLow (mv : Nat) : Statement (.vinLow mv) := fun _ => rfl
theorem vinHigh (mv : Nat) : Statement (.vinHigh mv) := fun _ => rfl
theorem inputProtection (mv : Nat) : Statement (.inputProtection mv) := fun _ => rfl
theorem inputLockout (mv : Nat) : Statement (.inputLockout mv) := fun _ => rfl
theorem converterStop (cause : Nat) (written : Bool) : Statement (.converterStop cause written) := fun _ => rfl
theorem thermalTrip (d : Nat) (temp : Nat) : Statement (.thermalTrip d temp) := fun _ => rfl
theorem thermalTripClear (d : Nat) (temp : Nat) : Statement (.thermalTripClear d temp) := fun _ => rfl
theorem thermalShutdown (unit : Nat) (temp : Nat) : Statement (.thermalShutdown unit temp) := fun _ => rfl
theorem hotWarning (unit : Nat) (temp : Nat) : Statement (.hotWarning unit temp) := fun _ => rfl
theorem electricalThrottle (avg : Nat) : Statement (.electricalThrottle avg) := fun _ => rfl
theorem electricalThrottleClear (avg : Nat) : Statement (.electricalThrottleClear avg) := fun _ => rfl
theorem coolantWarm (inlet : Nat) : Statement (.coolantWarm inlet) := fun _ => rfl
theorem attestCertReady : Statement (.attestCertReady) := fun _ => rfl
theorem smbReadVin : Statement (.smbReadVin) := fun _ => rfl
theorem smbReadIin : Statement (.smbReadIin) := fun _ => rfl
theorem smbReadPin : Statement (.smbReadPin) := fun _ => rfl
theorem smbReadTemp : Statement (.smbReadTemp) := fun _ => rfl
theorem smbReadInlet : Statement (.smbReadInlet) := fun _ => rfl
theorem smbReadOutlet : Statement (.smbReadOutlet) := fun _ => rfl
theorem smbReadStatus : Statement (.smbReadStatus) := fun _ => rfl
theorem smbReadLastOff : Statement (.smbReadLastOff) := fun _ => rfl
theorem smbReadSerial : Statement (.smbReadSerial) := fun _ => rfl
theorem smbReadCapEff : Statement (.smbReadCapEff) := fun _ => rfl
theorem smbAlertResponse : Statement (.smbAlertResponse) := fun _ => rfl
theorem smbUnassignedCommand (code : BitVec 8) : Statement (.smbUnassignedCommand code) := fun _ => rfl
theorem softStart (mv : Nat) : Statement (.softStart mv) := fun _ => rfl
theorem powerDomainGood (k : Nat) : Statement (.powerDomainGood k) := fun _ => rfl
theorem hostLinkUp : Statement (.hostLinkUp) := fun _ => rfl
theorem coolantWarmEnd (inlet : Nat) : Statement (.coolantWarmEnd inlet) := fun _ => rfl
theorem vinInRange (mv : Nat) : Statement (.vinInRange mv) := fun _ => rfl

end Sys2Proof.Laws.Routing

theorem Sys2Proof.Laws.Routing.seal (slot : Nat) (seq : Nat) : Sys2Proof.Laws.Routing.Statement (.seal slot seq) := by
  intro h
  change (decide (slot < 4096) && decide (seq < 2 ^ 64)) = true at h
  change (decide (slot < 4096) && true) = true
  simp only [Bool.and_eq_true, Bool.and_true, decide_eq_true_eq] at h ⊢
  simp [h]
end

