-- ==== Sys2Proof/Tests/Slice0.lean ====
section
/-! SUPPORT. Tests. A `wf_` theorem refuses an ill-formed command; a `wit_` theorem shows a state and operands that meet the hypotheses of
the obligation it names, clause by clause, and what the row then does there; its expected results are worked out by hand from the rule
that its comment cites. -/
set_option Elab.async false

namespace Sys2Proof.Tests
open Sys2Proof Sys2Proof.Machine

/-- The outcome is a next state with the property. -/
def ran (r : Res) (p : State → Bool) : Bool := match r with | .next t => p t | _ => false
/-- The outcome is a next state whose device has the property. -/
def dev (r : Res) (p : Dev → Bool) : Bool := ran r (fun t => p t.dev)
/-- The outcome is the state itself. -/
def kept (r : Res) (s : State) : Bool := ran r (fun t => decide (t = s))

/-- A device that is up: firmware runs, the tide generator runs, and it is the working window of a tide. -/
def up : Dev :=
  { ({} : Dev) with
    ophal := 3, power := { on := 0xFFFFF, good := 0xFFFFF }
    brg := { steps := List.replicate 11 { state := 2 }, lastPassed := 11, ready := true }
    tide := { ({} : Dev).tide with run := true, phase := .work, count := 100 } }

theorem wit_up : clocksRun up = true ∧ firmwareRuns up = true ∧ serves up = true := by decide +kernel

/-! ### Cores -/

/-- A word of the core's code. -/
def cw (major func rd ra rb low : Nat) : BitVec 64 :=
  BitVec.ofNat 64 (major * 2 ^ 58 + func * 2 ^ 52 + rd * 2 ^ 47 + ra * 2 ^ 42 + rb * 2 ^ 37 + low)

/-- Core 0 of a device that is up runs a segment of item 1; tensor 2 holds four FP32 numbers, 1, 2, 3 and 4. -/
def code (ws : List (BitVec 64)) (c : Core) : State :=
  { dev := setCore 0 { c with run := true, prog := 1, item := 1 } { up with
      programs := [(1, { segs := [{ code := ws }] })]
      items := [(1, { order := 1, stage := .admitted, insts := [(0, {})] })]
      tensors := [(2, { gen := 1, fmt := 2, dims := [4], place0 := { region := 0, row := 0, rows := 1 }
                        ep0 := memWrite [] 0 (toLe 4 0x3F800000 ++ toLe 4 0x40000000 ++ toLe 4 0x40400000 ++ toLe 4 0x40800000) })] } }

def core0 (s : State) : Core := (aGet s.dev.cores 0).getD {}
def core1 (s : State) (p : Core → Bool) : Bool := p (core0 s)

/-- Core 0 runs the word, and it is not the last. -/
def runsB (s : State) (w : BitVec 64) : Bool := decide (coreAt s.dev 0 w = some (core0 s)) && decide ((core0 s).pc + 1 < (coreCode s.dev (core0 s)).length)

theorem runs_of {s : State} {w : BitVec 64} (h : runsB s w = true) : Runs s.dev 0 w (core0 s) := by
  simp only [runsB, Bool.and_eq_true, decide_eq_true_eq] at h
  exact h

/-- s1 = 100, s2 = 7, s3 = -5, s4 = 0x100, s5 = 1.5 and s6 = 2.0 in FP64. -/
def regs0 : Core :=
  { s := [(1, 100), (2, 7), (3, BitVec.ofInt 64 (-5)), (4, 0x100), (5, 0x3FF8000000000000), (6, 0x4000000000000000)], vl := 4 }

/-- The word runs on these registers, and the core after it has the property. -/
def one (i : Nat → BitVec 64 → Instr) (w : BitVec 64) (c : Core) (p : Core → Bool) : Bool :=
  let s := code [w, 0] c
  runsB s w && ran (exec (i 0 w) s) (fun t => core1 t (fun k => p k && k.pc == 1))
/-- The same for a word that faults with a code. -/
def faults (i : Nat → BitVec 64 → Instr) (w : BitVec 64) (c : Core) (n : Nat) : Bool :=
  let s := code [w, 0] c
  ran (exec (i 0 w) s) (fun t => core1 t (fun k => k.fault == BitVec.ofNat 16 n && !k.run))

/-- 06 R198, R199: 100 + 7, 100 - 7, -5 < 7 signed but not unsigned, shifts by the low six bits, and the division corners. -/
theorem wit_ScalarArithmeticResults :
    one .scalarIntegerOp (cw 1 0 10 1 2 0) regs0 (fun k => rdS k 10 == 107) = true ∧
    one .scalarIntegerOp (cw 2 1 10 1 0 7) regs0 (fun k => rdS k 10 == 93) = true ∧
    one .scalarIntegerOp (cw 1 16 10 3 2 0) regs0 (fun k => rdS k 10 == 1) = true ∧
    one .scalarIntegerOp (cw 1 17 10 3 2 0) regs0 (fun k => rdS k 10 == 0) = true ∧
    one .scalarIntegerOp (cw 1 13 10 3 2 0) regs0 (fun k => rdS k 10 == BitVec.ofInt 64 (-1)) = true ∧
    one .scalarIntegerOp (cw 1 0 0 1 2 0) regs0 (fun k => rdS k 0 == 0) = true ∧
    one .div (cw 1 3 10 3 2 0) regs0 (fun k => rdS k 10 == 0) = true ∧
    one .div (cw 1 4 10 1 0 0) regs0 (fun k => rdS k 10 == BitVec.allOnes 64) = true ∧
    one .div (cw 1 6 10 1 0 0) regs0 (fun k => rdS k 10 == 100) = true ∧
    one .div (cw 1 5 10 3 2 0) regs0 (fun k => rdS k 10 == BitVec.ofInt 64 (-5)) = true ∧
    one .scalarFloatOp (cw 1 0x20 10 5 6 0) regs0 (fun k => rdS k 10 == 0x400C000000000000) = true ∧
    one .scalarFloatOp (cw 1 0x28 10 5 6 0) regs0 (fun k => rdS k 10 == 1) = true ∧
    one .li (cw 4 0 10 0 0 0 ||| 0x7FFFFFFFFFFF) regs0 (fun k => rdS k 10 == BitVec.ofInt 64 (-1)) = true ∧
    one .lih (cw 4 1 1 0 0 0xABCD) regs0 (fun k => rdS k 1 == 0xABCD000000000064) = true := by decide +kernel

/-- 06 R200: branches from word 0 of two, to word 1, and outside the code. -/
theorem wit_BranchesAndCalls :
    one .conditionalBranch (cw 8 1 0 1 2 3) regs0 (fun _ => true) = true ∧
    one .conditionalBranch (cw 8 2 0 1 2 1) regs0 (fun _ => true) = true ∧
    faults .conditionalBranch (cw 8 0 0 0 0 2) regs0 0x101 = true ∧
    faults .conditionalBranch (cw 8 0 0 0 0 0xFFFFFFFF) regs0 0x101 = true ∧
    ran (exec (.conditionalBranch 0 (cw 8 1 0 1 2 0)) (code [cw 8 1 0 1 2 0] regs0)) (fun t => core1 t (fun k => k.fault == 0x10B && !k.run)) = true ∧
    one .call (cw 8 8 31 0 0 1) regs0 (fun k => rdS k 31 == 1) = true ∧
    faults .call (cw 8 8 31 0 0 2) regs0 0x101 = true ∧
    one .jr (cw 8 9 0 7 0 0) { regs0 with s := [(7, 1)] } (fun _ => true) = true ∧
    faults .jr (cw 8 9 0 1 0 0) regs0 0x101 = true ∧
    one .callr (cw 8 10 31 7 0 0) { regs0 with s := [(7, 1)] } (fun k => rdS k 31 == 1) = true ∧
    faults .callr (cw 8 10 31 1 0 0) regs0 0x101 = true := by decide +kernel

/-- A core whose memory holds a window descriptor of tensor 2 (FP32, four elements) at 0x100, and bytes FF 80 00 00 at 0x40. -/
def windowed : Core :=
  { regs0 with
    mem := memWrite (memWrite [] 0x40 [0xFF, 0x80]) 0x100
      (toLe 8 (2 * 2 ^ 56 + 1 * 2 ^ 32 + 2) ++ zeros 8 ++ toLe 4 4 ++ toLe 4 1 ++ toLe 4 1 ++ toLe 4 1 ++ zeros 24 ++ toLe 1 1 ++ toLe 1 3 ++ zeros 6)
    w := [(3, { tensor := 2, fmt := 2, base := 0, ext := [4, 1, 1, 1], str := [0, 0, 0], rd := true, wr := true })] }

/-- 06 R201, R193, R202: sign and zero extension of the byte 0xFF; the top of core memory; windows. -/
theorem wit_CoreMemoryAndWindowSetup :
    one .coreMemoryLoad (cw 0x10 0 10 0 0 0x40) windowed (fun k => rdS k 10 == 0xFF) = true ∧
    one .coreMemoryLoad (cw 0x10 1 10 0 0 0x40) windowed (fun k => rdS k 10 == BitVec.ofInt 64 (-1)) = true ∧
    one .coreMemoryLoad (cw 0x10 2 10 0 0 0x40) windowed (fun k => rdS k 10 == 0x80FF) = true ∧
    one .coreMemoryStore (cw 0x10 11 3 0 0 (cmSize - 8)) windowed (fun k => memRead k.mem (cmSize - 8) 1 == [0xFB]) = true ∧
    faults .coreMemoryStore (cw 0x10 11 3 0 0 (cmSize - 4)) windowed 0x102 = true ∧
    one .wset (cw 0xC 0 0 4 0 (5 * 2 ^ 28)) windowed (fun k => (rdW k 5).isSome) = true ∧
    one .wget (cw 0xC 1 0 4 0 (6 * 2 ^ 28)) windowed (fun k => memRead k.mem 0x100 64 == zeros 64) = true ∧
    one .wclr (cw 0xC 2 0 0 0 (3 * 2 ^ 28)) windowed (fun k => rdW k 3 == none) = true := by decide +kernel

/-- 06 R202: two FP32 elements of tensor 2 to 0x200 and two of 0x200 to the tensor, and the end of the oldest DMA. -/
theorem wit_DmaMovesItsElements :
    (let c := { windowed with s := [(1, 0x200), (2, 2), (7, 0)] }
     one .dmain (cw 0xC 3 0 1 7 (2 * 2 ^ 32 + 3 * 2 ^ 28 + 2 ^ 20)) c (fun k =>
        memRead k.mem 0x200 8 == [0, 0, 0x80, 0x3F, 0, 0, 0, 0x40] && k.dmas.length == 1) = true ∧
     one .dmain (cw 0xC 3 0 1 7 (3 * 2 ^ 28 + 2 ^ 20)) c (fun k => k.dmas.length == 0) = true ∧
     one .dmaout (cw 0xC 4 0 1 7 (2 * 2 ^ 32 + 3 * 2 ^ 28 + 2 ^ 20)) c (fun k => k.dmas.length == 1) = true) ∧
    dev (exec (.dmaout 0 (cw 0xC 4 0 1 7 (2 * 2 ^ 32 + 3 * 2 ^ 28 + 2 ^ 20))) (code [cw 0xC 4 0 1 7 (2 * 2 ^ 32 + 3 * 2 ^ 28 + 2 ^ 20), 0]
      { windowed with s := [(1, 0x200), (2, 2), (7, 0)] })) (fun d => ((aGet d.tensors 2).map (fun t => memRead t.ep0 0 12))
        == some [0, 0, 0, 0, 0, 0, 0, 0, 0, 0, 0x40, 0x40]) = true ∧
    ran (exec (.dmaComplete 0) (code [0, 0] { windowed with dmas := [{ flags := 1, seq := 4 }, { seq := 5 }] }))
      (fun t => core1 t (fun k => k.dmas.length == 1 && k.flags == 1)) = true := by decide +kernel

/-- 06 R203, R204: element 1 (2.0) of the window in each direction, core memory bytes into a vector, and FP64 1.5 to FP32. -/
theorem wit_ConvertingAccesses :
    (let c := { windowed with s := [(1, 0x200), (2, 1), (5, 0x3FF8000000000000)], v := [(1, vOf 32 [7, 8, 9, 10])], vl := 2 }
     one .ldw (cw 0x11 0 10 0 2 (3 * 2 ^ 28)) c (fun k => rdS k 10 == 0x4000000000000000) = true ∧
     one .stw (cw 0x11 1 5 0 2 (3 * 2 ^ 28)) c (fun _ => true) = true ∧
     one .vldw (cw 0x12 0 1 0 2 (3 * 2 ^ 28 + 2 ^ 20)) c (fun k => (vElems (rdV k 1) 32).take 3 == [0x40000000, 0x40400000, 9]) = true ∧
     one .vstw (cw 0x12 1 1 0 2 (3 * 2 ^ 28 + 2 ^ 20)) c (fun _ => true) = true ∧
     one .vldc (cw 0x12 2 1 1 0 (2 ^ 20)) { c with mem := memWrite [] 0x200 [1, 2, 3, 4, 5, 6, 7, 8, 9] }
       (fun k => (vElems (rdV k 1) 32).take 3 == [0x04030201, 0x08070605, 9]) = true ∧
     one .vstc (cw 0x12 3 1 1 0 (2 ^ 20)) c (fun k => memRead k.mem 0x200 12 == toLe 4 7 ++ toLe 4 8 ++ toLe 4 0) = true ∧
     one .cvt (cw 0x20 0 10 5 0 (0 * 2 ^ 32 + 2 ^ 20)) c (fun k => rdS k 10 == 0x3FC00000) = true ∧
     one .cvt (cw 0x20 0 2 1 0 (2 ^ 36 + 1 * 2 ^ 32)) { c with v := [(1, vOf 32 [0x3FC00000, 0x40000000])] }
       (fun k => (vElems (rdV k 2) 64).take 2 == [0x3FF8000000000000, 0x4000000000000000]) = true) := by decide +kernel

/-- An 8 × 8 FP32 tile with K = 8 of which one row, one column and one step are valid: 2.0 at 0x1000 times 3.0 at 0x2000. -/
def mats : Core :=
  { s := [(8, 0x1000), (9, 0x2000), (10, 32), (11, 32), (12, 0), (13, 8), (14, 0x10101), (15, 0x3000)]
    mem := memWrite (memWrite (memWrite [] 0x1000 (toLe 4 0x40000000)) 0x2000 (toLe 4 0x40400000)) 0x3000
      (toLe 8 2 ++ toLe 8 0x4000) }
/-- A matrix word: FP32, mode 0, group 0, operands from s8; `low` sets BEGIN (bit 40) and END (bit 41). -/
def mw (low : Nat) : BitVec 64 := BitVec.ofNat 64 (0x18 * 2 ^ 58 + 4 * 2 ^ 55 + 2 ^ 32 + low)
def tile0 : AccTile := { m := 8, n := 8, mValid := 1, nValid := 1 }

/-- 05 R164, R165, R177: 2.0 × 3.0 = 6.0 (0x40C00000) in slot 0, and its way to core memory at 0x4000. -/
theorem wit_MatrixInstructionAccumulates :
    one .matrixInstruction (mw (2 ^ 40)) mats (fun k => memRead k.acc 0 4 == toLe 4 0x40C00000 && k.tiles == [tile0] && k.flags == 0) = true ∧
    one .matrixInstruction (mw (3 * 2 ^ 40)) mats (fun k => k.outJobs.map (·.outs) == [[(0x4000, 0x40C00000)]]) = true ∧
    ran (exec (.matrixEndComplete 0) (code [0, 0] { mats with
        outJobs := [{ tile := tile0, desc := toLe 8 2 ++ toLe 8 0x4000 ++ zeros 48, outs := [(0x4000, 0x40C00000)], flags := 8 }]
        tiles := [{ tile0 with ending := true }] }))
      (fun t => core1 t (fun k => memRead k.mem 0x4000 4 == toLe 4 0x40C00000 && k.tiles == [] && k.outJobs == [] && k.flags == 8)) = true := by
  decide +kernel

/-- A row-access or element-wise word. -/
def aw (func : Nat) (low : Nat) : BitVec 64 := BitVec.ofNat 64 (0x19 * 2 ^ 58 + func * 2 ^ 55 + low)

/-- 05 R155, R180: element (0, 0) is 2.0; plus 3.0 of a tile, plus 3.0 of a vector, times 1.5. -/
theorem wit_TileRowsAndElementWise :
    (let c := { mats with tiles := [tile0, { tile0 with base := 4 }]
                          acc := memWrite (memWrite [] 0 (toLe 4 0x40000000)) (4 * 4096) (toLe 4 0x40400000)
                          v := [(1, vOf 32 [0x40400000])], s := [(5, 0x3FC00000)] }
     one .rowrd (aw 0 (2 * 2 ^ 32)) c (fun k => vElem (rdV k 2) 32 0 == 0x40000000) = true ∧
     one .rowwr (aw 1 (1 * 2 ^ 32 + 7 * 2 ^ 22)) c (fun k => memRead k.acc (7 * 128) 4 == toLe 4 0x40400000) = true ∧
     one .ewt (aw 2 (4 * 2 ^ 40)) c (fun k => memRead k.acc 0 4 == toLe 4 0x40A00000) = true ∧
     one .ewv (aw 3 (1 * 2 ^ 32)) c (fun k => memRead k.acc 0 4 == toLe 4 0x40A00000) = true ∧
     one .ews (aw 4 (5 * 2 ^ 27)) c (fun k => memRead k.acc 0 4 == toLe 4 0x40400000) = true) := by decide +kernel

/-- 06 R207, 08 R280: the units start, end and report. -/
theorem wit_SolverInvocation :
    one .asm (cw 0x1C 0 0 4 0 0) regs0 (fun k => k.asmJob.isSome) = true ∧
    one .slvs (cw 0x1C 1 0 4 4 0) regs0 (fun k => k.slvJob.isSome) = true ∧
    one .slvw (cw 0x1C 2 10 0 0 0) { regs0 with slvSummary := 5 } (fun k => rdS k 10 == 5) = true ∧
    faults .slvw (cw 0x1C 2 10 0 0 0) { regs0 with slvFault := some 0x401 } 0x401 = true ∧
    one .slvq (cw 0x1C 3 10 0 0 0) { regs0 with slvStatus := [9] } (fun k => rdS k 10 == 9) = true ∧
    dev (exec (.slvq 0 (cw 0x1C 3 10 0 2 0)) (code [cw 0x1C 3 10 0 2 0, 0] regs0)) (fun d => d.free == 0) = true ∧
    ran (exec (.solverComplete 0) (code [0, 0] { regs0 with asmJob := some { stores := [(0x40, [1])] } }))
      (fun t => core1 t (fun k => k.asmJob == none && memRead k.mem 0x40 1 == [1])) = true ∧
    ran (exec (.solverComplete 0) (code [0, 0] { regs0 with slvJob := some { status := [3] } }))
      (fun t => core1 t (fun k => k.slvJob == none && k.slvStatus == [3])) = true := by decide +kernel

/-- 06 R208: the flags 0101 read as 5; clearing bits 0 and 1 leaves 4; VLENB reads 256; 0x700 and 0x7FF are privileged. -/
theorem wit_FlagsAndCsrs :
    (let c := { regs0 with flags := 5 }
     one .frd (cw 0x24 0 10 0 0 0) c (fun k => rdS k 10 == 5) = true ∧
     one .fclr (cw 0x24 1 0 0 0 3) c (fun k => k.flags == 4) = true ∧
     one .csrr (cw 0x24 2 10 0 0 0x102) c (fun k => rdS k 10 == 256) = true ∧
     one .csrr (cw 0x24 2 10 0 0 0x018) c (fun k => rdS k 10 == 0) = true ∧
     one .csrr (cw 0x24 2 10 0 0 0x800) c (fun k => rdS k 10 == 0) = true ∧
     faults .csrr (cw 0x24 2 10 0 0 0x700) c 0x109 = true ∧ faults .csrr (cw 0x24 2 10 0 0 0x7FF) c 0x109 = true ∧
     one .csrw (cw 0x24 3 0 2 0 0) c (fun k => k.flags == 0) = true ∧
     faults .csrw (cw 0x24 3 0 2 0 0x010) c 0x109 = true ∧ faults .csrw (cw 0x24 3 0 2 0 0x7FF) c 0x109 = true ∧
     one .csrw (cw 0x24 3 0 2 0 0x200) c (fun k => k.flags == 5) = true) := by decide +kernel

/-- 06 R209, R185: the waits complete when nothing is held, and SEGEND ends the segment naming the last word of the list or none. -/
theorem wit_SynchronisationAndSegmentEnd :
    one .nop (cw 0x28 0 0 0 0 0) regs0 (fun _ => true) = true ∧ one .fence (cw 0x28 1 0 0 0 0) { regs0 with dmas := [{ isIn := true }] } (fun _ => true) = true ∧
    one .waitd (cw 0x28 2 0 0 0 1) { regs0 with dmas := [{}] } (fun _ => true) = true ∧ one .waite (cw 0x28 3 0 0 0 0) regs0 (fun _ => true) = true ∧
    one .waita (cw 0x28 4 0 0 0 0) regs0 (fun _ => true) = true ∧
    dev (exec (.segend 0 (cw 0x28 5 0 1 0 0)) (code [cw 0x28 5 0 1 0 0] { regs0 with s := [(1, 0xFFFF), (24, 8)] })) (fun d =>
      (((aGet d.items 1).bind (fun i => aGet i.insts 0)).map (fun n => (n.next, n.carry.head?, n.fresh))) == some (0xFFFF, some 8, 101)) = true ∧
    faults .segend (cw 0x28 5 0 1 0 0) { regs0 with s := [(1, 1)] } 0x10A = true ∧
    faults .segend (cw 0x28 5 0 0 0 0) { regs0 with tiles := [tile0] } 0x206 = true := by decide +kernel

/-- 06 R186, R214, 05 R182. -/
theorem wit_SegmentEvents :
    (let s := code [0, 0] { regs0 with plan := [(1, 0, 0)] }
     let idle : State := { s with dev := setCore 0 { core0 s with run := false, pc := 9 } s.dev }
     ran (exec (.segmentStart 0) idle) (fun t => core1 t (fun k => k.run && k.pc == 0 && k.plan == [] && k.s.all (fun x => x.2 == 0 || x.1 != 1))) = true ∧
     dev (exec (.segmentBoundReached 0) s) (fun d => d.tide.overruns == 1 && ((aGet d.items 1).map (·.status)) == some 0x11) = true ∧
     ran (exec (.engineRampDown 0) (code [0, 0] { regs0 with rowGroups := 8 })) (fun t => core1 t (fun k => k.rowGroups == 0)) = true) := by
  decide +kernel

/-- 07 R220 to R223: 100 elements asked of 32 (FP64), of 64 (FP32); predicates; PWHILE at 5 of 7. -/
theorem wit_GrantsAndPredicates :
    (let c := { regs0 with p := [(1, 0b1100), (2, 0b1010)], s := [(1, 100), (2, 7), (8, 5)] }
     one .vgrant (cw 0x30 0 10 1 0 0) c (fun k => rdS k 10 == 32 && k.vl == 32) = true ∧
     one .vgranti (cw 0x30 1 10 0 0 (2 ^ 24 + 50)) c (fun k => rdS k 10 == 50 && k.vl == 50 && k.vfmt == 1) = true ∧
     one .vgrantrd (cw 0x30 2 10 0 0 0) c (fun k => rdS k 10 == 4) = true ∧
     one .predicateLogic (cw 0x30 8 3 1 2 0) c (fun k => rdP k 3 == 0b1000) = true ∧
     one .predicateLogic (cw 0x30 10 3 1 2 0) c (fun k => rdP k 3 == 0b0100) = true ∧
     one .predicateLogic (cw 0x30 11 0 1 2 0) c (fun k => rdP k 0 == BitVec.allOnes 256) = true ∧
     one .pwhile (cw 0x30 13 3 8 2 0) c (fun k => rdP k 3 == 0b11) = true ∧
     one .pcount (cw 0x30 16 10 1 0 0) c (fun k => rdS k 10 == 2) = true ∧
     one .pfirst (cw 0x30 17 10 1 0 0) c (fun k => rdS k 10 == 2) = true ∧
     one .pfirst (cw 0x30 17 10 4 0 0) c (fun k => rdS k 10 == 4) = true) := by decide +kernel

/-- FP32 vectors 1, 2, 3, 4 and 2, 2, 2, 2; predicate 1 has elements 0 and 2; VL is 3. -/
def vecs : Core :=
  { regs0 with vl := 3, p := [(1, 0b0101)]
               v := [(1, vOf 32 [0x3F800000, 0x40000000, 0x40400000, 0x40800000]), (2, vOf 32 (List.replicate 4 0x40000000)), (3, vOf 32 [9, 9, 9, 9])]
               s := [(5, 0x3FF8000000000000), (1, 100)] }
def first4 (k : Core) (r wd : Nat) : List Nat := (vElems (rdV k r) wd).take 4
/-- Predicate 1 and FP32 for both formats. -/
def p1 : Nat := 2 ^ 28 + 2 ^ 24 + 2 ^ 20

/-- 07 R222, R226, R227, R236: 1 + 2 and 3 + 2 in the active elements, the others keep 9. -/
theorem wit_VectorArithmeticActsOnActiveElements :
    one .vectorFloatOp (cw 0x31 0 3 1 2 p1) vecs (fun k => first4 k 3 32 == [0x40400000, 9, 0x40A00000, 9]) = true ∧
    one .vectorFloatOp (cw 0x31 2 3 1 5 (p1 + 2 ^ 15)) vecs (fun k => first4 k 3 32 == [0x3FC00000, 9, 0x40900000, 9]) = true ∧
    one .vectorApproximation (cw 0x31 0x10 3 1 0 p1) vecs (fun k => k.vl == 3) = true ∧
    one .vectorIntegerOp (cw 0x32 0 3 1 2 (2 ^ 28 + 7 * 2 ^ 24)) { vecs with v := [(1, vOf 32 [1, 2, 3, 4]), (2, vOf 32 [5, 5, 5, 5]), (3, vOf 32 [9, 9, 9, 9])] }
      (fun k => (first4 k 3 32).take 2 == [6, 9]) = true ∧
    one .vectorCompare (cw 0x33 3 4 1 2 p1) vecs (fun k => rdP k 4 == 0b001) = true := by decide +kernel

/-- 07 R228 to R231, R235: 1 + 3 = 4 over the active elements; slides by one; the moves. -/
theorem wit_ReductionsAndPermutations :
    one .vredsum (cw 0x34 0 3 1 0 p1) vecs (fun k => first4 k 3 32 == [0x40800000, 9, 9, 9]) = true ∧
    one .vredsum (cw 0x34 4 3 1 0 p1) vecs (fun k => first4 k 3 32 == [0x40400000, 9, 9, 9]) = true ∧
    one .vredsump (cw 0x34 1 3 1 0 p1) vecs (fun k => first4 k 3 32 == [0x40800000, 9, 9, 9]) = true ∧
    one .vslideup (cw 0x35 0 3 1 0 (p1 + 1)) vecs (fun k => first4 k 3 32 == [9, 9, 0x40000000, 9]) = true ∧
    one .vslidedn (cw 0x35 1 3 1 0 (p1 + 1)) vecs (fun k => first4 k 3 32 == [0x40000000, 9, 0x40800000, 9]) = true ∧
    one .vcompress (cw 0x35 3 3 1 0 p1) vecs (fun k => first4 k 3 32 == [0x3F800000, 0x40400000, 9, 9]) = true ∧
    one .vmerge (cw 0x35 4 3 1 2 p1) vecs (fun k => first4 k 3 32 == [0x3F800000, 0x40000000, 0x40400000, 9]) = true ∧
    one .vbcast (cw 0x35 5 3 5 0 p1) vecs (fun k => first4 k 3 32 == [0x3FC00000, 9, 0x3FC00000, 9]) = true ∧
    one .vexts (cw 0x35 6 10 1 0 (p1 + 3)) vecs (fun k => rdS k 10 == 0x40800000) = true ∧
    one .vinss (cw 0x35 7 3 1 0 (p1 + 3)) vecs (fun k => first4 k 3 32 == [9, 9, 9, 100]) = true ∧
    one .vmov (cw 0x35 8 3 1 0 p1) vecs (fun k => first4 k 3 32 == [0x3F800000, 9, 0x40400000, 9]) = true ∧
    one .vperm (cw 0x35 2 3 1 2 (2 ^ 28 + 2 ^ 24 + 7 * 2 ^ 20)) { vecs with v := [(1, vOf 32 [1, 2, 3, 4]), (2, vOf 32 [3, 0, 0xFFFFFFFF]), (3, vOf 32 [9, 9, 9, 9])] }
      (fun k => (first4 k 3 32).take 2 == [4, 9]) = true ∧
    one .vcvtp (cw 0x37 0 3 1 0 (2 ^ 28 + 0 * 2 ^ 24 + 2 ^ 20)) vecs (fun k => (first4 k 3 64)[0]? == some 0x3FF0000000000000) = true := by decide +kernel

/-- The first two words of a window index of tensor 2 in INT32 indices. -/
def gath : Core := { windowed with v := [(2, vOf 32 [3, 0, 1, 2]), (3, vOf 32 [9, 9, 9, 9])], vl := 2, s := [(1, 0), (2, 3)] }
/-- 07 R232 to R234: elements 3 and 0 gathered and scattered; first-fault loads from 3 stop after one element. -/
theorem wit_GatherScatterAndFirstFault :
    (let o := 2 ^ 24 + 7 * 2 ^ 20 + 3 * 2 ^ 16
     one .vgather (cw 0x36 0 3 1 2 o) gath (fun k => first4 k 3 32 == [0x40800000, 0x3F800000, 9, 9]) = true ∧
     one .vscatter (cw 0x36 1 3 1 2 o) gath (fun _ => true) = true ∧
     one .vldff (cw 0x36 2 3 1 0 o) gath (fun k => first4 k 3 32 == [0x3F800000, 0x40000000, 9, 9] && k.vff == 0 && k.vl == 2) = true ∧
     one .vldff (cw 0x36 2 3 2 0 o) gath (fun k => first4 k 3 32 == [0x40800000, 9, 9, 9] && k.vff == 0x1080001 && k.vl == 1) = true ∧
     one .vgatherff (cw 0x36 3 3 1 2 o) gath (fun k => first4 k 3 32 == [0x40800000, 0x3F800000, 9, 9] && k.vff == 0) = true ∧
     one .vgatherff (cw 0x36 3 3 1 2 o) { gath with v := [(2, vOf 32 [3, 4]), (3, vOf 32 [9, 9])] } (fun k => k.vff == 0x1080001 && k.vl == 1) = true) := by
  decide +kernel

/-! ### Mailboxes -/

/-- A device in which mailbox 63 holds a command in progress. -/
def ask (op : Nat) (body : Bytes) (d : Dev) : State :=
  { dev := setMbx 63 { state := 1, cmd := memWrite [] 0 (toLe 2 op ++ zeros 14 ++ body) } d }
def asksB (d : Dev) (op : Nat) : Bool := mbxRuns d 63 op && !spareRefuses d op
theorem asks_of {d : Dev} {op : Nat} (h : asksB d op = true) : Asks d 63 op := by
  simp only [asksB, Bool.and_eq_true, Bool.not_eq_true'] at h
  exact h

/-- The command is taken and answers DONE with a body that begins so, over a device with the property. -/
def answers (i : Nat → Instr) (op : Nat) (body : Bytes) (d : Dev) (want : Bytes) (p : Dev → Bool) : Bool :=
  let s := ask op body d
  asksB s.dev op && dev (exec (i 63) s) (fun e =>
    let b := mbx e 63
    b.state == 2 && memRead b.rsp 8 4 == zeros 4 && memRead b.rsp 16 want.length == want && p e)
/-- The command is taken and refused with a reason at an offset. -/
def refuses (i : Nat → Instr) (op : Nat) (body : Bytes) (d : Dev) (reason off : Nat) : Bool :=
  let s := ask op body d
  asksB s.dev op && dev (exec (i 63) s) (fun e =>
    let b := mbx e 63
    b.state == 2 && memRead b.rsp 8 8 == toLe 4 0x30 ++ toLe 4 (reason * 65536 + off))
/-- The command is taken and refused at an offset that the spec leaves open, so that the response is not evaluated. -/
def refusesR (i : Nat → Instr) (op : Nat) (body : Bytes) (d : Dev) : Bool :=
  let s := ask op body d
  asksB s.dev op && dev (exec (i 63) s) (fun e => (mbx e 63).state == 2)

def hd (kind gen idx : Nat) : Bytes := toLe 8 (mkHandle kind gen idx).toNat
def yes (_ : Dev) : Bool := true

/-- A host whose firmware requests may go out, with memory space enabled. -/
def hosted : Dev := { up with pf0 := { up.pf0 with memEnable := true, busMaster := true }, pf1 := { up.pf1 with memEnable := true, busMaster := true } }
def ringing (n : Nat) (req : Bytes) : State := { dev := setMbx 0 { state := n, req := memWrite [] 0 req } hosted }

/-- 03 R70, R71, R77: FLAGS_QUERY with its tag, one with another tag (TAG_MISMATCH at 4), and a doorbell while BUSY. -/
theorem wit_DoorbellAcceptsOrRefuses :
    (let good := toLe 2 0x0703 ++ toLe 2 16 ++ toLe 4 9 ++ toLe 2 0 ++ toLe 2 0 ++ zeros 4
     pf0Up hosted = true ∧ serves hosted = true ∧
     dev (exec (.mbxDoorbell 0 9 []) (ringing 0 good)) (fun d => (mbx d 0).state == 1 && (mbx d 0).tag == 9 && memRead (mbx d 0).cmd 0 2 == [3, 7]) = true ∧
     dev (exec (.mbxDoorbell 0 8 []) (ringing 2 good)) (fun d => (mbx d 0).state == 2 && memRead (mbx d 0).rsp 12 4 == toLe 4 (3 * 65536 + 4)) = true ∧
     dev (exec (.mbxDoorbell 0 9 []) (ringing 1 good)) (fun d => (mbx d 0).lost && (mbx d 0).state == 1) = true) := by decide +kernel

/-- A device with channel 1 (generation 5) in slot 4095: 64 submission entries, index 10 of 20 read. -/
def chand : Dev :=
  { hosted with chans := [(4095, { gen := 5, index := 1, kind := 2, subLog2 := 6, outLog2 := 6, subHead := 10, subTail := 20, outTail := 8 })] }
def createBody (kind slot : Nat) : Bytes := toLe 1 kind ++ toLe 1 6 ++ toLe 1 6 ++ [0] ++ toLe 2 0xFFFF ++ toLe 2 slot ++ toLe 8 0x1000 ++ toLe 8 0x2000

/-- 03 R82 to R91, with the tail at its last allowed place (10 + 64 = 74) and one beyond. -/
theorem wit_ChannelCommandsAndDoorbells :
    answers .channelCreate 0x0101 (createBody 5 4095) hosted (hd 1 1 1 ++ toLe 2 4095) (fun d => (aGet d.chans 4095).isSome) = true ∧
    refuses .channelCreate 0x0101 (createBody 6 4095) hosted 7 16 = true ∧ refuses .channelCreate 0x0101 (createBody 1 4096) hosted 7 22 = true ∧
    dev (exec (.channelDestroy 63) (ask 0x0102 (hd 1 5 1) chand)) (fun d => ((aGet d.chans 4095).map (·.draining)) == some true) = true ∧
    answers .channelQuery 0x0103 (hd 1 5 1) chand (toLe 1 2 ++ toLe 1 1 ++ toLe 2 4095 ++ toLe 4 10 ++ toLe 4 20) yes = true ∧
    dev (exec (.subTail 4095 74 []) { dev := chand }) (fun d => ((aGet d.chans 4095).map (·.subTail)) == some 74) = true ∧
    dev (exec (.subTail 4095 75 []) { dev := chand }) (fun d => ((aGet d.chans 4095).map (fun c => (c.subTail, c.badIndex))) == some (20, true)) = true ∧
    dev (exec (.outHead 4095 8) { dev := chand }) (fun d => ((aGet d.chans 4095).map (·.outHead)) == some 8) = true ∧
    dev (exec (.outHead 4095 9) { dev := chand }) (fun d => ((aGet d.chans 4095).map (·.badIndex)) == some true) = true := by decide +kernel

/-- A device with region 0 on stacks 0 to 2 and in it tensor 2 (FP32, role INPUT, 1024 elements) and tensor 3, a parameter. -/
def held : Dev :=
  { hosted with
    mem := { hosted.mem with regions := [(0, { width := 3, onStacks := [0, 1, 2], granules := [0, 0, 0], parity := true })] }
    tensors := [(2, { gen := 1, fmt := 2, dims := [1024], parity := true, place0 := { region := 0, row := 0, rows := 32 } }),
                (3, { gen := 1, fmt := 2, role := 2, dims := [16], parity := true, place0 := { region := 0, row := 32, rows := 1 }
                      place1 := some { region := 0, row := 33, rows := 1 } })] }
def tensorBody (fmt role rank : Nat) : Bytes := toLe 1 fmt ++ toLe 1 role ++ toLe 1 0 ++ toLe 1 rank ++ toLe 4 0 ++ toLe 4 16 ++ zeros 28

/-- 03 R108 to R112. -/
theorem wit_TensorCommandsAnswer :
    answers .tensorCreate 0x0201 (tensorBody 2 0 1) hosted (hd 2 1 1) (fun d => d.tensors.length == 1) = true ∧
    answers .tensorCreate 0x0201 (tensorBody 2 2 1) hosted (hd 2 1 1) (fun d => d.tensors.length == 1) = true ∧
    refuses .tensorCreate 0x0201 (tensorBody 2 0 0) hosted 7 19 = true ∧ refuses .tensorCreate 0x0201 (tensorBody 2 0 9) hosted 7 19 = true ∧
    answers .tensorDestroy 0x0202 (hd 2 1 2) held [] (fun d => (aGet d.tensors 2).isNone) = true ∧
    refuses .tensorDestroy 0x0202 (hd 2 1 2) { held with tensors := aMod held.tensors 2 (fun t => { t with workingOf := some 3 }) } 0x12 16 = true ∧
    answers .tensorQuery 0x0203 (hd 2 1 2) held (toLe 1 2 ++ toLe 1 0 ++ toLe 1 1 ++ toLe 1 1 ++ toLe 4 0 ++ toLe 4 1024) yes = true ∧
    refuses .tensorSetRetain 0x0204 (hd 2 1 2) { held with tensors := aMod held.tensors 2 (fun t => { t with lost := true }) } rTensorLost 16 = true ∧
    answers .tensorSetRetain 0x0204 (hd 2 1 2 ++ toLe 1 1) held [] (fun d => ((aGet d.tensors 2).map (·.retain)) == some true) = true ∧
    refuses .tensorSetRetain 0x0204 (hd 2 1 2 ++ toLe 1 2) held 7 24 = true ∧
    (asksB (ask 0x0205 (hd 2 1 2 ++ toLe 8 0 ++ toLe 8 4096) held).dev 0x0205 && !(bar2Gaps held 4096).isEmpty && pageEnd ((aGet held.tensors 2).getD {}) == 4096) = true ∧
    answers .tensorUnmap 0x0206 (toLe 8 4096) { held with maps := [{ off := 4096, len := 4096, tensor := 2 }] } [] (fun d => d.maps == []) = true ∧
    refuses .tensorUnmap 0x0206 (toLe 8 0) { held with maps := [{ off := 4096, len := 4096, tensor := 2 }] } 7 16 = true := by decide +kernel

/-- An image of one NOP (06 Tables 6-11 and 6-12): its code at 64 and its segment record at 72. -/
def image : Bytes :=
  toLe 4 0x49564347 ++ toLe 2 1 ++ toLe 1 1 ++ [0] ++ toLe 4 1 ++ toLe 4 0 ++ toLe 4 64 ++ zeros 4 ++ toLe 8 72 ++ toLe 8 64 ++ zeros 16 ++ zeros 8
    ++ toLe 8 (0x28 * 2 ^ 58) ++ toLe 4 0 ++ toLe 4 1 ++ toLe 4 32 ++ toLe 4 0
def programmed : Dev := { chand with programs := [(7, { gen := 1, hint := some { clusters := 0x3F, mode := 2 } })], host := memWrite [] 0x1000 image }

/-- 03 R113 to R116. -/
theorem wit_ProgramsAndHintsAnswer :
    answers .programCreate 0x0301 (toLe 8 0x1000 ++ toLe 4 88) programmed (hd 3 1 1) (fun d => ((aGet d.programs 1).map (·.segs.length)) == some 1) = true ∧
    refuses .programCreate 0x0301 (toLe 8 0x1008 ++ toLe 4 88) programmed rBadAddress 16 = true ∧
    refuses .programCreate 0x0301 (toLe 8 0x1000 ++ toLe 4 87) programmed 0xB 16 = true ∧
    kept (exec (.programCreate 63) (ask 0x0301 (toLe 8 0x1000 ++ toLe 4 88) up)) (ask 0x0301 (toLe 8 0x1000 ++ toLe 4 88) up) = true ∧
    answers .programDestroy 0x0302 (hd 3 1 7) programmed [] (fun d => d.programs == []) = true ∧
    refuses .programDestroy 0x0302 (hd 3 1 7) { programmed with items := [(1, { kind := 1, op := 1, desc := zeros 16 ++ hd 3 1 7 ++ zeros 40, stage := .admitted })] } 9 16 = true ∧
    answers .programQuery 0x0303 (hd 3 1 7) programmed (hd 3 1 7) yes = true ∧
    answers .hintSet 0x0801 (hd 3 1 7 ++ [63, 1]) programmed [] (fun d => ((aGet d.programs 7).bind (·.hint)).map (·.mode) == some 1) = true ∧
    answers .hintClear 0x0802 (hd 3 1 7) programmed [] (fun d => ((aGet d.programs 7).bind (·.hint)) == none) = true ∧
    answers .hintQuery 0x0803 (hd 3 1 7) programmed [0x3F, 2] yes = true ∧
    answers .hintSet 0x0801 (hd 1 5 1 ++ [1, 2]) programmed [] (fun d => ((aGet d.chans 4095).bind (·.hint)).map (·.mode) == some 2) = true ∧
    answers .hintClear 0x0802 (hd 1 5 1) programmed [] (fun d => ((aGet d.chans 4095).bind (·.hint)) == none) = true := by decide +kernel

/-- Plan 4, factor set 6, warm-start set 7 and group 5, all of generation 1, on a member of a partition of one. -/
def objects : Dev :=
  { held with
    lnk := { held.lnk with planLoaded := true, partId := 1 }
    plans := [(4, { gen := 1, workBytes := 64, desc := toLe 1 1 ++ toLe 1 1 ++ zeros 2 ++ toLe 4 4 ++ zeros 6 ++ toLe 2 1 ++ zeros 48 })]
    factors := [(6, { gen := 1, plan := mkHandle 4 1 9, problems := 1 })], warms := [(7, { gen := 1, n := 4, slots := 1 })]
    groups := [(5, { gen := 1, gid := 9, members := [{}] })] }
/-- A dense Cholesky plan of order 4 in FP64. -/
def planBody : Bytes := toLe 1 1 ++ toLe 1 1 ++ zeros 2 ++ toLe 4 4 ++ zeros 6 ++ toLe 2 1 ++ zeros 48 ++ zeros 24
def groupBody (gid n : Nat) : Bytes := toLe 4 gid ++ [1] ++ zeros 3 ++ toLe 4 n ++ zeros 20 ++ zeros 4

/-- 08 R254 to R283, 12 R401, R403. A plan's scratch memory is a free value: it decides PLAN_CREATE and FACTOR_SET_CREATE. -/
theorem wit_SolverObjectsAndGroupsAnswer :
    asksB (ask 0x0401 planBody objects).dev 0x0401 = true ∧ (planBad (slice planBody 0 64) false == none) = true ∧
    answers .planDestroy 0x0402 (hd 4 1 4) objects [] (fun d => d.plans == []) = true ∧
    answers .planQuery 0x0403 (hd 4 1 4) objects (hd 4 1 4 ++ toLe 4 64) yes = true ∧
    (asksB (ask 0x0411 (hd 4 1 4 ++ toLe 4 1) objects).dev 0x0411 && (alloc true 4096 objects).isSome) = true ∧
    answers .factorSetDestroy 0x0412 (hd 6 1 6) objects [] (fun d => d.factors == []) = true ∧
    answers .warmSetCreate 0x0421 (toLe 4 262144 ++ toLe 4 1) objects (hd 7 1 1) (fun d => d.warms.length == 2) = true ∧
    answers .warmSetDestroy 0x0422 (hd 7 1 7) objects [] (fun d => d.warms == []) = true ∧
    answers .warmSetClear 0x0423 (hd 7 1 7) { objects with warms := [(7, { gen := 1, n := 4, slots := 1, ep0 := [(0, { sig := 4 })] })] } []
      (fun d => ((aGet d.warms 7).map (·.ep0)) == some []) = true ∧
    answers .groupCreate 0x0501 (groupBody 7 1) objects (hd 5 1 1) (fun d => ((aGet d.groups 1).map (·.members.length)) == some 1) = true ∧
    answers .groupDestroy 0x0502 (hd 5 1 5) objects [] (fun d => d.groups == []) = true ∧
    answers .groupQuery 0x0503 (hd 5 1 5) objects (toLe 4 9 ++ toLe 4 0 ++ toLe 4 1) yes = true := by decide +kernel

/-- With scratch memory of at most 1,984 KiB the plan of `planBody` is good. -/
theorem wit_SolverObjectsAndGroupsAnswer_plan (h : Config.workBytes (slice (toLe 2 0x0401 ++ zeros 14 ++ planBody) 16 64) ≤ 1984 * 1024) :
    planCheck objects (toLe 2 0x0401 ++ zeros 14 ++ planBody) [] [] = none := by
  have n : ¬ 1984 * 1024 < Config.workBytes (slice (toLe 2 0x0401 ++ zeros 14 ++ planBody) 16 64) := Nat.not_lt.mpr h
  have e : planBad (slice (toLe 2 0x0401 ++ zeros 14 ++ planBody) 16 64) false = none := by decide +kernel
  unfold planCheck
  simp only [e, n, if_false]
  decide +kernel

/-- Two members; this one at (0, 0, 0) and its partner at (1, 0, 0). -/
def twins : Dev :=
  { objects with lnk := { objects.lnk with dim := { x := 2, y := 1, z := 1 } }, pair := { state := 2, partner := { x := 1 } }
                 tide := { objects.tide with holdover := false } }
def single : Dev := { twins with pair := {} }
def pos (x : Nat) : Bytes := [BitVec.ofNat 8 x, 0, 0]
def newborn : Dev := { up with lnk := { up.lnk with planLoaded := false }, spare := { armed := true } }

/-- 13 R433, R449, R450, R456 and Table 13-12. -/
theorem wit_PairAndSpareCommandsAnswer :
    (asksB (ask 0x0601 (pos 1 ++ [0] ++ toLe 8 4096 ++ toLe 8 4096) single).dev 0x0601 && (takeLagoon 1 8192 [] single).isSome) = true ∧
    refuses .pairSet 0x0601 (pos 2 ++ [0] ++ toLe 8 4096 ++ toLe 8 4096) single 7 16 = true ∧
    answers .pairQuery 0x0602 [] twins ([2, 0, 0, 0] ++ pos 1) yes = true ∧
    refusesR .pairClear 0x0603 [] single = true ∧
    answers .pairClear 0x0603 [] twins [] (fun d => d.pair.state == 0) = true ∧
    refusesR .spareArm 0x0631 [] twins = true ∧
    answers .spareArm 0x0631 [] up [] (fun d => d.spare.armed) = true ∧
    answers .spareAdopt 0x0632 (pos 1 ++ [0] ++ [2, 1, 1, 0] ++ toLe 2 1 ++ [0, 0] ++ pos 0 ++ [0] ++ pos 1 ++ [0] ++ pos 0 ++ [0]) newborn []
      (fun d => d.lnk.pos == { x := 1 } && d.spare.state == 1 && d.lnk.planLoaded) = true ∧
    answers .adoptQuery 0x0633 [] { twins with spare := { state := 3, filled := 8 } } ([3, 0] ++ zeros 6 ++ toLe 8 8) yes = true ∧
    answers .ledgerRead 0x0634 (toLe 8 7 ++ toLe 4 1) { twins with spare := { state := 4, ledger := [toLe 8 7 ++ toLe 8 3 ++ zeros 16] } }
      (toLe 4 0 ++ toLe 4 1) yes = true := by decide +kernel

/-- 13 R441, R466, R565, R435. TIDE_COUNT is 100: a step starts no earlier than 102. -/
theorem wit_StepAndStateCommandsAnswer :
    answers .stepOpen 0x0611 (toLe 4 1 ++ zeros 4 ++ toLe 8 102) twins [] (fun d => d.step.state == .scheduled && d.step.startTide == 102) = true ∧
    answers .stepOpen 0x0611 (toLe 4 1 ++ zeros 4 ++ toLe 8 65636) twins [] yes = true ∧
    refuses .stepOpen 0x0611 (toLe 4 1 ++ zeros 4 ++ toLe 8 102) { twins with step := { state := .scheduled } } 9 16 = true ∧
    refuses .stepOpen 0x0611 (toLe 4 1 ++ zeros 4 ++ toLe 8 102) single 0x12 16 = true ∧
    refuses .stepOpen 0x0611 (toLe 4 1 ++ zeros 4 ++ toLe 8 102) { twins with step := { lastCommitted := 1 } } 7 16 = true ∧
    answers .stepQuery 0x0612 [] { twins with step := { state := .running, num := 5 } } ([2, 0] ++ zeros 2 ++ toLe 4 5) yes = true ∧
    answers .stepAbort 0x0613 (toLe 4 5) { twins with step := { state := .running, num := 5 } } [] (fun d => d.step.abortReq) = true ∧
    refuses .stepAbort 0x0613 (toLe 4 6) { twins with step := { state := .running, num := 5 } } 7 16 = true ∧
    refuses .stateLoad 0x0621 (hd 2 1 2 ++ toLe 8 0x1000 ++ toLe 8 0 ++ toLe 8 4) twins 0x12 16 = true ∧
    kept (exec (.stateLoad 63) (ask 0x0621 (hd 2 1 3 ++ toLe 8 0x1000 ++ toLe 8 0 ++ toLe 8 4) { twins with pf0 := up.pf0 }))
      (ask 0x0621 (hd 2 1 3 ++ toLe 8 0x1000 ++ toLe 8 0 ++ toLe 8 4) { twins with pf0 := up.pf0 }) = true ∧
    answers .stateLoad 0x0621 (hd 2 1 3 ++ toLe 8 0x1000 ++ toLe 8 0 ++ toLe 8 64) { twins with host := memWrite [] 0x1000 [1, 2, 3, 4] } (toLe 4 0)
      (fun d => ((aGet d.tensors 3).map (fun (t : Tensor) => memRead t.ep0 0 5)) == some [1, 2, 3, 4, 0]) = true := by decide +kernel

/-- Tensor 3 is a parameter in FP16 with a working copy 4 in FP8. -/
def trained : Dev :=
  { twins with tensors := aSet (aMod twins.tensors 3 (fun t => { t with working := some 4 })) 4 { gen := 1, fmt := 5, role := 2, dims := [16], workingOf := some 3, scale := some { mode := 2, amaxes := [5, 9] } } }

/-- 09 R309, R316 to R319. -/
theorem wit_NumericsCommandsAnswer :
    answers .lossScaleSet 0x0701 ([24, 0, 24, 0] ++ toLe 4 1000000 ++ zeros 8) twins [] (fun d => d.loss.exp == 24 && d.loss.interval == 1000000) = true ∧
    refuses .lossScaleSet 0x0701 ([25, 0, 24, 0] ++ toLe 4 1 ++ zeros 8) twins 7 16 = true ∧
    answers .lossScaleQuery 0x0702 [] { twins with loss := { exp := 3, lo := 1, hi := 5, interval := 7 } } ([3, 1, 5, 0] ++ toLe 4 7) yes = true ∧
    answers .flagsQuery 0x0703 [] { twins with devFlags := 9 } (toLe 4 9) yes = true ∧
    answers .flagsClear 0x0704 [] { twins with devFlags := 9 } [] (fun d => d.devFlags == 0) = true ∧
    refuses .masterConfig 0x0711 (hd 2 1 2 ++ [1, 0]) twins 0x12 16 = true ∧
    answers .masterConfig 0x0711 (hd 2 1 3 ++ [0, 0]) twins (toLe 8 0 ++ toLe 8 0) yes = true ∧
    answers .masterQuery 0x0712 (hd 2 1 3) trained ([0, 0] ++ zeros 6 ++ hd 2 1 4) yes = true ∧
    answers .scaleConfig 0x0721 (hd 2 1 4 ++ [1, 3, 64, 0x82]) trained []
      (fun d => ((aGet d.tensors 4).bind (·.scale)).map (fun r => (r.window, r.exp)) == some (64, -126)) = true ∧
    answers .scaleQuery 0x0722 (hd 2 1 4) trained ([2, 1, 16, 0, 2]) yes = true := by decide +kernel

/-- A device with a scrub 8 that runs, one that is over, and a ticket of a retirement. -/
def scrubbed : Dev :=
  { held with mem := { held.mem with scrubs := [{ sid := 8, state := 0, scanned := 64 }, { sid := 9, state := 1 }]
                                     nextScrub := 10, retires := [{ ticket := 3, stack := 23, done := 1, total := 2, todo := [5] }], nextTicket := 4 } }

/-- 10 R339, R342, R343, R346. -/
theorem wit_MemoryCommandsAnswer :
    answers .memQuery 0x0841 [] held (toLe 4 18429 ++ toLe 4 18430) yes = true ∧
    (asksB (ask 0x0842 (hd 2 1 2 ++ toLe 8 4095 ++ [0]) held).dev 0x0842 && tBytes ((aGet held.tensors 2).getD {}) == 4096) = true ∧
    (asksB (ask 0x0842 (hd 2 1 3 ++ toLe 8 63 ++ [1]) held).dev 0x0842 && tSecured ((aGet held.tensors 3).getD {})) = true ∧
    refuses .memLocate 0x0842 (hd 2 1 2 ++ toLe 8 4096 ++ [0]) held 7 24 = true ∧
    answers .scrubStart 0x0851 (hd 2 1 2 ++ toLe 8 4032 ++ toLe 8 0) scrubbed (toLe 4 10)
      (fun d => (d.mem.scrubs.getLast?.map (fun x => (x.off, x.len))) == some (4032, 64)) = true ∧
    answers .scrubStart 0x0851 (zeros 24) scrubbed (toLe 4 10) (fun d => d.mem.nextScrub == 11) = true ∧
    answers .scrubQuery 0x0852 (toLe 4 8) scrubbed ([0, 0] ++ zeros 6 ++ toLe 8 64) yes = true ∧
    answers .scrubCancel 0x0853 (toLe 4 8) scrubbed [] (fun d => (d.mem.scrubs.head?.map (·.state)) == some 2) = true ∧
    refuses .scrubQuery 0x0852 (toLe 4 7) scrubbed 7 16 = true ∧ refuses .scrubCancel 0x0853 (toLe 4 7) scrubbed 7 16 = true ∧
    answers .pageRetire 0x0861 ([23, 0] ++ toLe 2 18431) scrubbed (toLe 4 4) (fun d => (stack d 23).retired == [18431]) = true ∧
    answers .bankRetire 0x0862 [23, 31, 47, 0] scrubbed (toLe 4 4) (fun d => (stack d 23).retired.length == 384) = true ∧
    refuses .pageRetire 0x0861 ([24, 0] ++ toLe 2 0) scrubbed 7 16 = true ∧ refuses .pageRetire 0x0861 ([23, 0] ++ toLe 2 18432) scrubbed 7 18 = true ∧
    answers .retireQuery 0x0863 (toLe 4 3) scrubbed ([0, 0, 0, 0] ++ toLe 2 1 ++ toLe 2 2) yes = true ∧
    refuses .retireQuery 0x0863 (toLe 4 2) scrubbed 7 16 = true := by decide +kernel

/-- Core 1151 on physical core 207 of cluster 5, a holm beside it, a finished ticket, and an ACTIVE link (5, 3) with holm lanes. -/
def units : Dev :=
  { scrubbed with
    units := { scrubbed.units with
      bind := [(0, (0, 0)), (1151, (5, 207))], holms := [(5, 206), (0, 1)], ccIn := [0, 1, 2, 3, 4, 5, 6, 7, 8, 9, 10, 11], ccHolms := [12, 13]
      tickets := [{ id := 6, state := 1, res := { logicAct := 5 } }], nextTicket := 7 }
    flash := { scrubbed.flash with log := [{ kind := 1, cause := 2 }] }
    lnk := { scrubbed.lnk with run := true, links := scrubbed.lnk.links.set 23 { state := 7, rxMap := List.range 16, txMap := List.range 16, cls := List.replicate 18 0 } } }
def onTest : Dev := onStack 23 (fun x => { x with testing := true, passed := true }) { units with mem := { units.mem with regions := [] } }

/-- 14 R477, R486 to R489, 11 R373. -/
theorem wit_UnitCommandsAnswer :
    answers .unitQuery 0x0F01 (toLe 4 1 ++ toLe 4 1151) units (toLe 4 (5 * 65536 + 207) ++ [0, 1]) yes = true ∧
    refuses .unitQuery 0x0F01 (toLe 4 1 ++ toLe 4 1152) units 7 20 = true ∧
    answers .coreFlags 0x0F02 (toLe 4 1151) { units with cores := [(1151, { flagsSince := 9, segCount := 3 })] } (toLe 4 9 ++ toLe 4 3) yes = true ∧
    answers .unitTest 0x0F03 ([1, 3, 0, 0] ++ toLe 4 (5 * 65536 + 207)) units (toLe 4 7) (fun d => d.units.testing == [(1, 0x500CF)]) = true ∧
    answers .unitTest 0x0F03 ([1, 1, 0, 0] ++ toLe 4 (5 * 65536 + 206)) units (toLe 4 7) yes = true ∧
    answers .unitRetire 0x0F04 ([2, 0, 0, 0] ++ toLe 4 12) units (toLe 4 7) yes = true ∧
    answers .testQuery 0x0F05 (toLe 4 6) units ([1] ++ zeros 7 ++ toLe 8 5) yes = true ∧
    answers .laneMove 0x0F06 [5, 3, 15, 0] units [] (fun d => (linkOf d 5 3).moves.length == 1) = true ∧
    answers .mdTest 0x0F07 [5, 0, 0, 0] { units with tensors := [] } (toLe 4 7) (fun d => d.units.tickets.length == 2) = true ∧
    answers .stackTest 0x0F08 [23, 0, 0, 0] { units with tensors := [] } (toLe 4 7) (fun d => (stack d 23).testing) = true ∧
    answers .stackReturn 0x0F09 [23, 0, 0, 0] onTest (toLe 4 7) (fun d => d.mem.returning == [23]) = true ∧
    answers .repairLogRead 0x0F0A (toLe 4 1) units (toLe 4 1 ++ toLe 4 0) yes = true ∧
    answers .repairLogRead 0x0F0A (toLe 4 0) units (toLe 4 1 ++ toLe 4 1 ++ [1, 2]) yes = true ∧
    answers .repairLogClear 0x0F0B [] units [] (fun d => d.flash.log == []) = true ∧
    dev (exec (.repairLogClear 63) { ask 0x0F0B [] units with fuses := { deployed := true } }) (fun d => (mbx d 63).state == 2 && d.flash.log.length == 1) = true := by
  decide +kernel

/-- 00 R11, 03 R80: a handle of another generation is BAD_HANDLE at 16. -/
theorem wit_StaleHandlesAreRefused :
    refuses .channelQuery 0x0103 (hd 1 6 1) chand 6 16 = true ∧ refuses .tensorQuery 0x0203 (hd 2 2 2) held 6 16 = true ∧
    refuses .tensorDestroy 0x0202 (hd 3 1 2) held 6 16 = true ∧ refuses .programQuery 0x0303 (hd 3 2 7) programmed 6 16 = true ∧
    refuses .planQuery 0x0403 (hd 4 2 4) objects 6 16 = true ∧ refuses .factorSetDestroy 0x0412 (hd 6 2 6) objects 6 16 = true ∧
    refuses .warmSetClear 0x0423 (hd 7 2 7) objects 6 16 = true ∧ refuses .groupQuery 0x0503 (hd 5 2 5) objects 6 16 = true ∧
    refuses .stateLoad 0x0621 (hd 2 2 3) twins 6 16 = true ∧ refuses .scaleQuery 0x0722 (hd 2 2 4) trained 6 16 = true := by decide +kernel

/-! ### Security -/

/-- A security engine with a command in progress, over a slot-0 image of SVN 3 with its identity known. -/
def secure (op : Nat) (req : Bytes) (f : Fuses) (ready : Bool) : State :=
  { fuses := f
    dev := { hosted with
      serial := 0x1122334455667788
      sec := { hosted.sec with state := 1, opcode := BitVec.ofNat 8 op, identityOk := true, imageSvn := 3, imageSlot := 0, attestReady := ready
                               attestKey := some 0, req := memWrite [] 0 req, events := [zeros 32] } } }
def secB (s : State) (op : Nat) : Bool := clocksRun s.dev && brgPassed s.dev 8 && s.dev.sec.state == 1 && s.dev.sec.opcode.toNat == op
theorem sec_of {s : State} {op : Nat} (h : secB s op = true) : SecRuns s.dev op := by
  simp only [secB, Bool.and_eq_true, beq_iff_eq] at h
  exact ⟨h.1.1.1, h.1.1.2, h.1.2, h.2⟩
/-- The command is taken, and it ends with a status, a body that begins so, and fuses with the property. -/
def secures (i : Instr) (op : Nat) (s : State) (status : Nat) (want : Bytes) (p : Fuses → Bool) : Bool :=
  secB s op && ran (exec i s) (fun t => t.dev.sec.state == 2 && memRead t.dev.sec.rsp 0 1 == toLe 1 status && memRead t.dev.sec.rsp 16 want.length == want && p t.fuses)
def keys : Fuses := { keyHash := [List.replicate 32 1, List.replicate 32 1, List.replicate 32 0] }
def any (_ : Fuses) : Bool := true

/-- 16 R532 to R535. A returned module is lifecycle 3; its offsets of NOT_ALLOWED are open. -/
theorem wit_SecurityCommandsAnswer :
    (pf1Open hosted && dev (exec (.secCmd 7) { dev := hosted }) (fun d => d.sec.state == 1 && d.sec.opcode == 7)) = true ∧
    dev (exec (.secCmd 8) { dev := hosted }) (fun d => d.sec.state == 2) = true ∧
    dev (exec (.secCmd 1) (secure 1 [] {} true)) (fun d => d.sec.cmdLost && d.sec.state == 1) = true ∧
    secures .getIdentity 1 (secure 1 [] {} true) 0 (zeros 8) any = true ∧
    (secB (secure 1 [] { deployed := true, returned := true } true) 1 && lifecycle { deployed := true, returned := true } == 3) = true ∧
    secures .getAttestCert 2 (secure 2 [] {} true) 0 [] any = true ∧
    kept (exec .getAttestCert (secure 2 [] {} false)) (secure 2 [] {} false) = true ∧
    secB (secure 3 [] {} true) 3 = true ∧ kept (exec .attest (secure 3 [] {} false)) (secure 3 [] {} false) = true ∧
    secures .configLog 4 (secure 4 (toLe 4 1) {} true) 0 (toLe 4 1 ++ toLe 4 0) any = true ∧
    secures .configLog 4 (secure 4 (toLe 4 2) {} true) 0x30 [] any = true ∧
    (let s := secure 2 [] {} false
     clocksRun s.dev && s.dev.brg.ready && !s.dev.sec.attestReady && s.dev.sec.attestKey.isSome) = true := by decide +kernel

/-- 16 R527 to R532: the floor moves to 3; slot 1 falls while slot 0 stands; DEPLOYED and RETURNED. -/
theorem wit_FuseCommandsBlowTheirFuses :
    secures .svnCommit 5 (secure 5 [] { floor := 3 } true) 0 [3] (fun f => f.floor == 3) = true ∧
    (secB (secure 5 [] { floor := 2 } true) 5 && ran (exec .svnCommit (secure 5 [] { floor := 2 } true)) (fun t => t.fuses.floor == 3)) = true ∧
    secures .revokeSlot 6 (secure 6 [3] keys true) 0x30 [] any = true ∧ secB (secure 6 [0] keys true) 6 = true ∧
    ran (exec .revokeSlot (secure 6 [1] keys true)) (fun t => t.fuses.revoked == 2) = true ∧
    secures .revokeSlot 6 (secure 6 [1] { keys with revoked := 2 } true) 0 [2] any = true ∧
    secures .lifecycleSet 7 (secure 7 [3] {} true) 0x30 [] any = true ∧
    secures .lifecycleSet 7 (secure 7 ([3, 0, 0, 0] ++ toLe 4 0) { deployed := true } true) 0x30 [] any = true ∧
    ran (exec .lifecycleSet (secure 7 [1] {} true)) (fun t => t.fuses.deployed && !t.fuses.returned) = true ∧
    ran (exec .lifecycleSet (secure 7 ([3, 0, 0, 0] ++ toLe 4 0x55667788) { deployed := true } true)) (fun t => t.fuses.returned && t.fuses.seedErased) = true := by
  decide +kernel

/-- 16 R535: a response without a message, held by a masked vector, and sent. -/
theorem wit_SecurityResponseIsWhatTheHostReads :
    (let d := fun (on masked master : Bool) => { hosted with
       sec := { hosted.sec with enable := on, vector := 5 }, pf1 := { hosted.pf1 with fnMask := masked, busMaster := master, table := [(5, { mask := false })] } }
     (secAnswer 0 0 [7] (d false false true)).out.msgs = [] ∧ (secAnswer 0 0 [7] (d true true true)).pf1.pba = [5] ∧
     (secAnswer 0 0 [7] (d true false true)).out.msgs = [(1, 5)] ∧ (secAnswer 0 0 [7] (d true false false)).pf1.held = [5]) := by decide +kernel

/-! ### Registers and bring-up -/

/-- The device before step n: the steps below it have passed, step n is in state k, and both functions answer. -/
def brings (n k : Nat) : Dev :=
  { hosted with ophal := 0, tide := {}, brg := { steps := (List.replicate 11 { state := 2 }).take (n - 1) ++ [{ state := k }] ++ List.replicate (11 - n) {}, lastPassed := n - 1 } }
/-- A command runs on a device and leaves one with the property. -/
def does (c : Instr) (d : Dev) (p : Dev → Bool) : Bool := dev (exec c { dev := d }) p
/-- A step stands so. -/
def steps (n st cause : Nat) (d : Dev) : Bool :=
  let b := (d.brg.steps[n - 1]?).getD {}
  b.state == st && b.cause.toNat == cause
def fwImage : Bytes := toLe 4 0x4D494647 ++ toLe 2 1 ++ [0, 3] ++ zeros 88
def imagedBy (len : Nat) (d : Dev) : Dev := { d with brg := { d.brg with fwl := memWrite [] 0 fwImage, fwLen := BitVec.ofNat _ len } }

/-- 14 R467 to R471: PD16 follows PD14, PD15 may not overtake PD16, nothing is cleared in service. -/
theorem wit_PowerDomainsRampInOrder :
    (let d := { brings 2 0 with power := { on := 0x4000, good := 0x4000 } }
     does (.pwrCtlOn 0x10000) d (fun e => e.power.ramping == some 16 && steps 2 1 0 e && !e.power.orderErr) = true ∧
     does (.pwrCtlOn 0x8000) d (fun e => e.power.orderErr && e.power.on == 0x4000) = true ∧
     does (.pwrCtlOn 0xFFFFE) hosted (fun e => e.power.orderErr && e.power.on == 0xFFFFF) = true ∧
     does (.powerDomainGood 16) { d with power := { d.power with on := 0x1C000, ramping := some 16 } } (fun e => e.power.good == 0x14000 && e.power.ramping == some 15) = true ∧
     does (.powerDomainFault 19) { brings 2 1 with power := { on := 0xFFFFF, good := 0xFFFFF } } (fun e => e.power.good == 0x7FFFF && e.power.fault == 0x80000) = true ∧
     does (.bringupStepTimeout 2 0x80000) (brings 2 1) (fun e => steps 2 4 2 e && e.power.fault == 0x80000) = true ∧
     does (.bringupStepTimeout 3 7) (brings 3 1) (steps 3 4 1) = true ∧ does (.bringupStepTimeout 11 0) (brings 11 1) (steps 11 4 1) = true ∧
     does (.bringupStepTimeout 4 0x10001) { brings 4 1 with brg := { (brings 4 1).brg with bstState := List.replicate 20 1 } }
       (fun e => steps 4 4 1 e && e.brg.bstState[0]? == some 3 && e.brg.bstState[1]? == some 1) = true ∧
     does (.bringupStepTimeout 9 0) (brings 9 1) (fun e => steps 9 4 1 e && ((e.brg.steps[8]?).map (·.detail)) == some 15) = true ∧
     does (.bringupStepTimeout 10 0) { brings 10 1 with lnk := { up.lnk with planState := 3 } } (steps 10 4 11) = true) := by decide +kernel

/-- 14 R470, R472: each GO at its place, and out of order. -/
theorem wit_BringUpStepsStart :
    does .brgGoFuseLoad (brings 3 0) (steps 3 1 0) = true ∧ does .brgGoFuseLoad (brings 3 4) (fun e => e.brg.orderErr && steps 3 4 0 e) = true ∧
    does .brgGoReconcile (brings 5 0) (steps 5 1 0) = true ∧ does .brgGoHbmTraining (brings 6 0) (steps 6 1 0) = true ∧
    does .brgGoControlCores (brings 8 0) (steps 8 1 0) = true ∧
    does .brgGoBist (brings 4 0) (fun e => steps 4 1 0 e && e.brg.bstState[16]? == some 1 && e.brg.bstState[14]? == some 0) = true ∧
    does .brgGoBist (brings 3 0) (fun e => e.brg.orderErr) = true ∧
    does .brgGoImageVerify (brings 7 4) (fun e => steps 7 1 0 e && e.brg.tries == 1) = true ∧
    does .brgGoImageVerify { brings 7 4 with brg := { (brings 7 4).brg with tries := 3 } } (fun e => e.brg.orderErr && steps 7 4 0 e) = true ∧
    does .brgGoLinkTraining (brings 9 0) (fun e => steps 9 1 0 e && (linkOf e 5 3).state == 1) = true ∧ does .brgGoLinkTraining (brings 8 0) (·.brg.orderErr) = true ∧
    does .brgGoPlan (brings 10 0) (fun e => steps 10 4 10 e && e.lnk.refuse == 2) = true ∧
    does .brgGoPlan { brings 10 0 with lnk := { up.lnk with partId := 1 } } (fun e => steps 10 1 0 e && e.lnk.planLoaded) = true ∧
    does .brgGoSpare (brings 10 0) (fun e => steps 10 2 0 e && steps 11 1 0 e && e.brg.sparePath) = true ∧
    does .brgGoPlan (brings 9 0) (·.brg.orderErr) = true ∧ does .brgGoSpare (brings 9 0) (·.brg.orderErr) = true := by decide +kernel

/-- 14 R474, R476, 10 R335, 16 R525. -/
theorem wit_BringUpStepsEnd :
    (let ends := fun (n : Nat) (r : StepReport) (d : Dev) (p : Dev → Bool) => brgState d n == 1 && does (.bringupStepDone n r) d p
     let b4 := { brings 5 1 with brg := { (brings 5 1).brg with bstLogicOk := List.replicate 20 true, bstMemOk := List.replicate 20 true } }
     ends 2 {} (brings 2 1) (steps 2 2 0) = true ∧ ends 3 { fuseBad := some 9 } (brings 3 1) (fun e => steps 3 4 3 e && e.brg.fusFailed) = true ∧
     ends 3 { fuseCorrected := true } (brings 3 1) (fun e => steps 3 2 0 e && e.brg.fusCorrected) = true ∧
     ends 4 { coreFail := [(5, 207)] } (brings 4 1) (fun e => steps 4 2 0 e && e.brg.bstFailed[5]? == some 1) = true ∧
     ends 5 {} { b4 with brg := { b4.brg with bstMemOk := (List.replicate 20 true).set 16 false } } (steps 5 4 4) = true ∧
     ends 5 { logBad := true } b4 (steps 5 4 6) = true ∧
     ends 6 {} (brings 6 1) (steps 6 2 0) = true ∧ ends 6 { stacksBad := [23] } (brings 6 1) (fun e => steps 6 3 0x21 e && (stack e 23).lost && e.brg.waitRecs.length == 2) = true ∧
     ends 6 { stacksBad := [0, 23] } (brings 6 1) (fun e => steps 6 4 7 e && ((e.brg.steps[5]?).map (·.detail)) == some 0x800001) = true ∧
     ends 7 {} (imagedBy 29889 (brings 7 1)) (fun e => steps 7 4 8 e && e.sec.imageReason == 2) = true ∧
     ends 8 { ccLoadFail := [0, 1, 2, 3, 4] } { brings 8 1 with units := { up.units with ccIn := List.range 12, ccHolms := [] } } (steps 8 4 9) = true ∧
     ends 9 {} { brings 9 1 with lnk := { up.lnk with links := List.replicate 24 { state := 6 } } } (steps 9 2 0) = true ∧
     ends 10 {} { brings 10 1 with lnk := { up.lnk with planState := 3 }, tide := { up.tide with roleNow := 1 } } (fun e => steps 10 2 0 e && steps 11 1 0 e) = true ∧
     ends 10 {} { brings 10 1 with lnk := { up.lnk with planState := 5 }, tide := { up.tide with locked := true } } (steps 10 3 0x23) = true ∧
     ends 11 {} { brings 11 1 with sec := { up.sec with major := 1, minor := 2 } } (fun e => e.brg.ready && e.ophal == 0x10002) = true) := by decide +kernel

/-- 14 Table 14-4: eight control cores are enough. -/
theorem wit_Step8Passes :
    (let d := { brings 8 1 with units := { up.units with ccIn := List.range 8, ccHolms := [] } }
     brgState d 8 = 1 ∧ clocksRun d = true ∧ 8 ≤ (d.units.ccIn ++ d.units.ccHolms).length) := by decide +kernel

/-- 16 R525: the image, of SVN 3, is accepted when its signature verifies, which Config leaves open. -/
theorem wit_ImageAccepted
    (h : Config.slhVerify (memRead (memWrite [] 0 fwImage) 32 64) (memRead (memWrite [] 0 fwImage) 0 (96 + 0)) (memRead (memWrite [] 0 fwImage) (96 + 0) 29792) = true) :
    imageReason { keyHash := [sha256 (zeros 64)] } (imagedBy 29888 (brings 7 1)) = 0 := by
  simp only [imageReason]
  rw [if_neg (by decide +kernel), if_neg (by decide +kernel), if_neg (by decide +kernel), if_neg (by decide +kernel), if_neg (by decide +kernel), if_neg (by decide +kernel)]
  exact if_pos h

/-- A device at (0, 0, 0) of a 2 by 1 by 1 partition with wrap, whose X+ and X- straits lead to (1, 0, 0). -/
def planned : Dev := { hosted with lnk := { up.lnk with dim := { x := 2, y := 1, z := 1 }, wrap := 1, partId := 7 } }

/-- 11 R381, R385, R386: a plan of part 7, one of part 0, a deadline with every strait there and with two missing. -/
theorem wit_PlanLoadAndDiscovery :
    does .lnkPlanLoad planned (fun e => e.lnk.planLoaded && e.lnk.planState == 2 && e.sec.queued.length == 1) = true ∧
    does .lnkPlanLoad hosted (fun e => !e.lnk.planLoaded && e.lnk.planState == 6 && e.lnk.refuse == 2) = true ∧
    (let live := { planned with lnk := { planned.lnk with planLoaded := true, planState := 2, links := List.replicate 24 { state := 7 } } }
     (judgeStraits live).lnk.planState = 3 ∧ does .discoveryDeadline live (fun e => e.lnk.planState == 3) = true) ∧
    (let dark := { planned with lnk := { planned.lnk with planLoaded := true, planState := 2 } }
     does .discoveryDeadline dark (fun e => e.lnk.planState == 4 && e.lnk.missing == 3) = true ∧
     does .acceptDegraded { dark with lnk := { dark.lnk with planState := 4, missing := 3 } }
       (fun e => e.lnk.planState == 5 && e.tide.treeStale && (straitOf e 0).accepted && !(straitOf e 2).accepted) = true) ∧
    does (.lnkCtlRunStart 1) hosted (fun e => e.lnk.run && (linkOf e 5 3).state == 1) = true ∧
    (let on := { hosted with tide := {}, lnk := { up.lnk with run := true, links := List.replicate 24 { state := 10, cause := 5 } } }
     does (.lnkCtlRunStop 0) on (fun e => !e.lnk.run && (linkOf e 0 0).state == 0 && (linkOf e 5 3).cause == 0) = true ∧
     does (.lnkLinkRetry 5 3) on (fun e => (linkOf e 5 3).state == 1 && (linkOf e 5 2).state == 10) = true) := by decide +kernel

/-- Queues of records: one on PF0, 129 on PF1; entry 5 of the table masked with its message pending. -/
def queues : Dev :=
  { hosted with
    ras := { up.ras with pf0 := { recs := [{ sev := 15 }] }, pf1 := { recs := List.replicate 129 { sev := 3 }, storm := true, lost := 4 } }
    rst := { up.rst with complete := true, entries := [zeros 64] }
    tide := { up.tide with count := 0x100000002, overruns := 3, throttles := 4 }
    pf0 := { hosted.pf0 with pba := [2047], table := [(2047, {})] }
    lnk := { up.lnk with links := (List.replicate 24 {}).set 23 { crcErr := 9 } } }

/-- 13 R464, R465, 15 R508, 02 R64, R68. -/
theorem wit_RegisterRowsActUnderTheirKinds :
    does (.fwlWrite 16777212 [1, 2, 3, 4]) queues (fun e => memRead e.brg.fwl 16777212 4 == [1, 2, 3, 4]) = true ∧
    does (.rasPop 1) queues (fun e => e.ras.pf1.recs.length == 128) = true ∧ does (.rasPop 0) queues (fun e => e.ras.pf0.recs == []) = true ∧
    does (.stormClear 1) queues (fun e => e.ras.pf1.storm) = true ∧
    does (.stormClear 1) { queues with ras := { queues.ras with pf1 := { queues.ras.pf1 with recs := List.replicate 128 { sev := 3 } } } } (fun e => !e.ras.pf1.storm) = true ∧
    does .rstClear queues (fun e => e.rst.entries == []) = true ∧
    does (.msixUnmask 0 2047) queues (fun e => e.out.msgs == [(0, 2047)] && e.pf0.pba == [] && !(msixEntry e.pf0 2047).mask) = true ∧
    does .tidCountLoRead queues (fun e => e.out.rd == 2 && e.tide.countHi == 1) = true ∧
    does (.rcRegisterRead 1 0x28028) queues (fun e => e.out.rd == 0x40003 && e.tide.overruns == 0) = true ∧
    does (.rcRegisterRead 1 0x18004) queues (fun e => e.out.rd == 4 && e.ras.pf1.lost == 0) = true ∧
    does (.rcRegisterRead 1 0x23E30) queues (fun e => e.out.rd == 9 && (linkOf e 5 3).crcErr == 0) = true ∧
    does (.registerWrite 0 0x107E8 (toLe 4 0x87FF)) queues (fun e => (mbx e 63).enable && (mbx e 63).vector == 2047) = true ∧
    does (.registerWrite 0 (0x20000 + 16384 * 63 + 16380) [1, 2, 3, 4]) queues (fun e => memRead (mbx e 63).req 16380 4 == [1, 2, 3, 4]) = true ∧
    does (.registerWrite 1 0x1800C (toLe 4 0xA805)) queues (fun e => e.ras.pf1.enable && e.ras.pf1.minSev == 5 && e.ras.pf1.vector == 5) = true ∧
    does (.registerWrite 1 0x20004 (toLe 4 0x3F0001)) queues (fun e => e.lnk.pos == { x := 1, y := 0, z := 63 }) = true ∧
    does (.registerWrite 1 0x20004 (toLe 4 1)) { queues with lnk := { queues.lnk with run := true } } (fun e => e.lnk.writeRejected && e.lnk.pos == {}) = true := by decide +kernel

/-- 15 R498 to R504, 03 R111: BAR2 maps the first KiB of tensor 2 at 0x10000 and the whole of the secured tensor 3 behind it. -/
def mapped : Dev := { held with maps := [{ off := 0x10000, len := 1024, tensor := 2, tOff := 3072 }, { off := 0x10400, len := tBytes ((aGet held.tensors 3).getD {}), tensor := 3 }]
                                chans := [(4095, {})] }

theorem wit_ConfigurationAndBar2Requests :
    does (.configRequest 2 false 0 0) mapped (fun e => e.out.cpl == 2) = true ∧ does (.configRequest 0 false 0 0) mapped (fun e => e.out.rd == 0x00181F8B) = true ∧
    does (.configRequest 1 false 0 0) mapped (fun e => e.out.rd == 0x00191F8B && e.out.cpl == 1) = true ∧ does (.configRequest 1 true 0x44 3) mapped (·.pf1.d3) = true ∧
    does (.bar2Read 0x10000 1025) mapped (fun e => e.out.cpl == 2 && e.pf0.aerUr) = true ∧
    does (.bar2Read 0x10000 1024) { mapped with tensors := aSet mapped.tensors 2 { (aGet mapped.tensors 2).getD {} with ep0 := memWrite [] 4095 [7] } }
      (fun e => e.out.cpl == 1 && e.out.rdBytes.length == 1024 && e.out.rdBytes.getLast? == some 7) = true ∧
    does (.bar2Read 0xFFFF 4) mapped (fun e => e.out.cpl == 2) = true ∧
    does (.bar2Write 0x103FC [1, 2, 3, 4]) mapped (fun e => memRead ((aGet e.tensors 2).getD {}).ep0 4092 4 == [1, 2, 3, 4] && !e.pf0.aerUr) = true ∧
    does (.bar2Write 0x10400 [1]) mapped (fun e => e.pf0.aerUr && e.pf0.aerAdvisory && ((aGet e.tensors 3).getD {}).ep0 == ((aGet mapped.tensors 3).getD {}).ep0) = true ∧
    does (.hostReadError 0x1234 (.descriptor 4095)) mapped (fun e => e.ras.hostErr == [4095] && e.ras.pf1.recs.length == 1) = true ∧
    kept (exec (.hostReadError 0x1234 (.descriptor 4095)) { dev := { mapped with ras := { mapped.ras with hostErr := [4095] } } })
      { dev := { mapped with ras := { mapped.ras with hostErr := [4095] } } } = true ∧
    dev (exec (.hostReadError 0x1234 (.request 63 24)) (ask 0x0301 [] mapped)) (fun e => (mbx e 63).state == 2 && memRead (mbx e 63).rsp 8 8 == toLe 4 0x30 ++ toLe 4 (rBadAddress * 65536 + 24)) = true := by
  decide +kernel

/-- A host whose message 5 on PF0 and 6 on PF1 wait for Bus Master Enable, with every entry unmasked. -/
def waiting : Dev :=
  { hosted with pf0 := { hosted.pf0 with busMaster := false, held := [5], table := [(5, { mask := false })] }, pf1 := { hosted.pf1 with held := [], busMaster := true } }

/-- 15 R505 to R511, R518 to R520. The waiting message goes with vector 5 alone unmasked; the hypothesis of the second clause takes every entry unmasked, so its state has no message. -/
theorem wit_FunctionsStopAndReset :
    does (.busMasterEnableChange false) { waiting with pf1 := { waiting.pf1 with held := [6], table := [(6, { mask := false })] } } (fun e => !e.pf0.busMaster && e.out.msgs == [(1, 6)]) = true ∧
    does (.busMasterEnableChange true) waiting (fun e => e.pf0.busMaster && e.pf0.held == [] && e.out.msgs == [(0, 5)]) = true ∧
    does (.d3hotEntry 0) hosted (·.pf0.d3) = true ∧ does (.d3hotEntry 1) hosted (·.pf1.d3) = true ∧
    does (.d0Entry 0) { hosted with pf0 := { hosted.pf0 with d3 := true } } (fun e => !e.pf0.d3 && e.out.ltr == 1) = true ∧
    does (.d0Entry 1) { hosted with pf1 := { hosted.pf1 with d3 := true } } (fun e => !e.pf1.d3 && e.out.ltr == 0) = true ∧
    does .flrPf0 hosted (fun e => e.rst.pending && e.rst.inProgress && e.rst.flrs == 1 && !pf0Up e) = true ∧
    does .flrPf1 { brings 8 0 with rst := { up.rst with enable := true } } (fun e => !e.rst.enable && !e.pf1.memEnable) = true ∧
    does .hostLinkDown hosted (fun e => e.rst.hostDown && e.rst.pending && e.rst.pf1Pending) = true ∧
    does .hostLinkUp { hosted with rst := { up.rst with hostDown := true } } (fun e => !e.rst.hostDown) = true ∧
    does .perstAssert held (fun e => e.tel.perst && e.tensors == [] && !clocksRun e && brgState e 2 == 0) = true ∧
    does (.perstDeassert 3 2) { up with tel := { up.tel with perst := true } } (fun e => e.tel.feedId == 3 && e.tel.addrSel == 2 && !e.tel.perst) = true := by decide +kernel

/-- 15 R512 to R515: a slack ends the FLR; tensor 2 falls, the secured tensor 3 stays. -/
theorem wit_ResetFreesTheHostsObjects :
    (let d := { held with rst := { up.rst with pending := true }, tide := { up.tide with phase := .slack }, items := [], chans := [(0, {})] }
     clocksRun d = true ∧ d.rst.skipSlack = false ∧ tSecured ((aGet d.tensors 3).getD {}) = true ∧
     does .flrPf0Apply d (fun e => e.chans == [] && (aGet e.tensors 2).isNone && (aGet e.tensors 3).isSome && e.rst.entries.length == 1 && !e.rst.inProgress) = true) := by decide +kernel

/-! ### The tide -/

/-- A module at (0, 0, 0) of the two of `planned`, every link ACTIVE; it sets the tide as the master. -/
def master : Dev :=
  { planned with
    tide := { up.tide with roleNow := 1, roleCtl := 1 }
    lnk := { planned.lnk with run := true, planLoaded := true, links := List.replicate 24 { state := 7 }, straits := List.replicate 6 { lost := false } } }
/-- The other of the two: its parent lies over strait 0 and a child over strait 1. -/
def member : Dev := { master with tide := { up.tide with parent := some 0, children := [1] } }
def stopped : Dev := { master with frz := { up.frz with frozen := true, partition := true } }
def mk (t : Nat) : Marker := { partId := 7, tide := t, freezeTide := t }

/-- 14 R491 to R495; the open bytes of a readout are not looked at. -/
theorem wit_FreezeAndReadout :
    does (.frzFreezeWrite 1) master (fun e => e.frz.frozen && e.frz.source == 2 && !e.frz.late && e.frz.tide == 100) = true ∧
    does (.frzFreezeWrite 3) { master with tide := {} } (fun e => e.frz.frozen && e.frz.tide == 0) = true ∧
    does (.frzFreezeWrite 3) master (fun e => !e.frz.frozen && e.frz.due == some 102 && e.frz.partition) = true ∧
    does (.frzRelease 0x100) stopped (fun e => !e.frz.frozen && !e.frz.holdEdge) = true ∧
    does (.frzRelease 0x100) { stopped with tide := member.tide } (fun e => !e.frz.frozen && e.frz.holdEdge && !clocksRun e) = true ∧
    does .freezeNFall master (fun e => e.frz.frozen && e.frz.source == 1) = true ∧ does .freezeNFall { master with frz := { up.frz with pinEnable := false } } (fun e => !e.frz.frozen) = true ∧
    does (.freezeMarker 5 3 (mk 100)) master (fun e => e.frz.frozen && e.frz.late && e.frz.source == 3) = true ∧
    does (.freezeMarker 5 3 (mk 101)) master (fun e => !e.frz.frozen && e.frz.due == some 101 && e.lnk.freezeSeen == [101]) = true ∧
    does .freezeTideReached { master with frz := { up.frz with due := some 100, dueSource := 3 } } (fun e => e.frz.frozen && e.frz.partition) = true ∧
    does .freezeTideReached { master with frz := { up.frz with due := some 101 } } (fun e => !e.frz.frozen) = true ∧
    does (.frzAccess 1 2) stopped (fun e => e.out.ir == 0x10 && e.frz.sel == 1 && e.frz.off == 2) = true ∧
    does .frzFreeze master (fun e => e.out.ir == 0x11 && e.frz.frozen && e.frz.source == 2) = true ∧
    dev (exec (.frzAccess 1 2) { dev := stopped, fuses := { deployed := true } }) (fun e => e.out.ir == 0xFF && e.frz.sel == 0) = true ∧
    dev (exec .frzFreeze { dev := master, fuses := { deployed := true } }) (fun e => e.out.ir == 0xFF && !e.frz.frozen) = true ∧
    does .idcode master (fun e => e.out.rdBytes == [0xA7, 0x82, 0x71, 0xA4]) = true ∧ does .sample master (fun e => e.out.ir == 2) = true ∧
    does (.bypass 0x77) master (fun e => e.out.ir == 0xFF && e.out.rdBytes == []) = true := by decide +kernel

/-- 02 R34, R59, R65, R66: 171,500 cycles fit the window of rate 20 and slack 4 (02 R36), and 98 hops do not close at rate 40. -/
theorem wit_TideControlAndPlannedChanges :
    (let fits := fun (n : Nat) => { master with programs := [(1, { segs := [{ bound := n }] })] }
     let far := { master with tide := { master.tide with depth := 98 } }
     let plan := fun (m b : Pos) (t : Nat) (dim : Pos) (rate : Nat) => { master with
       tide := { master.tide with replanMaster := m, replanBackup := b, replanTide := BitVec.ofNat 64 t, rate := rate }, lnk := { master.lnk with dim := dim, wrap := 0 } }
     let two : Pos := { x := 2, y := 1, z := 1 }
     let one_ : Pos := { x := 1, y := 0, z := 0 }
     does (.tidCtlRunStart 3) { master with tide := { ({} : Dev).tide with roleCtl := 1, start := 9 } } (fun e => e.tide.run && e.tide.count == 9 && e.tide.roleNow == 1) = true ∧
     does (.tidCtlRunStop 2) master (fun e => !e.tide.run && e.tide.count == 100) = true ∧ does (.tidCtlRunStop 2) { master with chans := [(0, {})] } (fun e => e.tide.run) = true ∧
     does (.tidRateReqGo 0x80000414) member (fun e => e.tide.rateState == 6 && e.tide.reqRate == 20) = true ∧
     does (.tidRateReqGo 0x80000403) master (fun e => e.tide.rateState == 3) = true ∧ does (.tidRateReqGo 0x80001128) master (fun e => e.tide.rateState == 3) = true ∧
     does (.tidRateReqGo 0x80000414) (fits 171501) (fun e => e.tide.rateState == 4) = true ∧
     does (.tidRateReqGo 0x80000414) (fits 171500) (fun e => e.tide.rateState == 1 && e.tide.announced == some { rate := 20, slack := 4, tide := 102 }) = true ∧
     does (.tidRateReqGo 0x80000228) far (fun e => e.tide.rateState == 5) = true ∧
     does .rateChangeApply { master with tide := { master.tide with announced := some { rate := 40, slack := 2, tide := 100 }, rateState := 1 } }
       (fun e => e.tide.rate == 40 && e.tide.slack == 2 && e.tide.rateState == 2) = true ∧
     does .tidReplanGo (plan {} {} 102 two 20) (fun e => e.tide.replanState == 3) = true ∧ does .tidReplanGo (plan {} one_ 101 two 20) (fun e => e.tide.replanState == 4) = true ∧
     does .tidReplanGo (plan {} one_ 65637 two 20) (fun e => e.tide.replanState == 4) = true ∧
     does .tidReplanGo (plan {} one_ 65636 { x := 64, y := 64, z := 64 } 20) (fun e => e.tide.replanState == 5) = true ∧
     does .tidReplanGo (plan {} one_ 102 { x := 64, y := 64, z := 1 } 40) (fun e => e.tide.replanState == 6) = true ∧
     does .tidReplanGo (plan {} one_ 102 two 20) (fun e => e.tide.replanState == 1 && e.tide.replanNew == some ({}, one_, 102)) = true ∧
     does .replanApply { plan {} {} 100 two 20 with tide := { master.tide with replanNew := some (one_, {}, 100), replanTide := 55 } }
       (fun e => e.tide.roleNow == 2 && e.tide.master == one_ && e.tide.replanState == 2) = true) := by decide +kernel

def inPhase (p : Phase) (d : Dev) : Dev := { d with tide := { d.tide with phase := p } }

/-- A HOST_TO_TENSOR that names tensor 2 of `held`, and the slack that may admit it. -/
def toAdmit : Item := { stage := .consumed, kind := 3, op := 1, order := 5, desc := zeros 16 ++ toLe 8 (mkHandle 2 1 2).toNat ++ zeros 40 }
def consumedOne : Dev := inPhase .slack { master with tensors := held.tensors, pf0 := hosted.pf0, items := [(5, toAdmit)], tide := { master.tide with late := some (9, {}) } }

/-- 02 R34, R40, R43, R62, 13 R441, R455. -/
theorem wit_TidePhasesAndEdges :
    does .latchGuard (inPhase .slack master) (fun e => e.tide.phase == .guard) = true ∧ does .latchGuard master (fun e => e.tide.phase == .work) = true ∧
    (let d := consumedOne
     firmwareRuns d = true ∧ orderWait d toAdmit = (none, false) ∧ mustWait d toAdmit = false ∧ admitHandles d toAdmit = none ∧
     does .latchGuard d (fun e => (aGet e.items 5).any (fun i => decide (i.stage = .admitted) && i.admTide == 101)) = true) ∧
    does .tideEdge (inPhase .guard { member with tide := { member.tide with adoptCount := some 7 } }) (fun e => e.tide.count == 8 && e.tide.phase == .work) = true ∧
    does .tideEdge (inPhase .guard { master with tel := { up.tel with cap := { active := 1, staged := 2, late := some 3 } } })
      (fun e => e.tide.count == 101 && e.tel.cap.active == 2 && e.tel.cap.staged == 3) = true ∧
    does .tideEdge master (fun e => e.tide.count == 100) = true ∧
    does (.slackStart {}) { brings 8 0 with tide := master.tide, cores := [(3, { run := true })] } (fun e => e.tide.phase == .slack && !((aGet e.cores 3).getD {}).run) = true ∧
    does (.slackStart {}) { master with sec := { up.sec with queued := [(2, [1])] } } (fun e => e.tide.phase == .slack && e.sec.queued.length == 0) = true ∧
    does (.slackStart {}) (inPhase .guard master) (fun e => e.tide.phase == .guard) = true ∧
    does .stepStartTide { master with step := { up.step with state := .scheduled, startTide := 100 } } (fun e => e.step.state == .running) = true ∧
    does .stepStartTide { master with step := { up.step with state := .scheduled, startTide := 101 } } (fun e => e.step.state == .scheduled) = true := by decide +kernel

/-- 02 R37 to R42, R65. -/
theorem wit_MarkersDisciplineTheTide :
    does (.edgeMarker 1 0 (mk 9)) member (fun e => e.tide.markerSeen && e.tide.adoptCount == none) = true ∧
    does (.edgeMarker 0 3 { mk 9 with announce := true, rate := 30, slack := 5 }) member
      (fun e => e.tide.adoptCount == some 9 && e.tide.locked && e.tide.announced == some { rate := 30, slack := 5, tide := 11 }) = true ∧
    does .markerMissLimit { member with tide := { member.tide with missed := 3 } } (fun e => !e.tide.holdover) = true ∧
    does .markerMissLimit { member with tide := { member.tide with missed := 4, locked := true, roleNow := 2 } }
      (fun e => e.tide.holdover && !e.tide.locked && e.tide.roleNow == 3 && e.ras.seq == 2) = true ∧
    does .markerMissLimit { master with tide := { master.tide with missed := 9 } } (fun e => e.tide.holdover && e.tide.roleNow == 1) = true ∧
    does .tideRefEdge { master with tide := { master.tide with refSel := true } } (fun e => e.tide.refLocked) = true ∧
    does .tideRefLost { master with tide := { master.tide with refSel := true, refLocked := true } } (fun e => e.tide.refHeld && e.tel.refLost && e.tel.alert) = true ∧
    does .tideRefEdge master (fun e => !e.tide.refLocked) = true := by decide +kernel

/-- 02 R56: a child that is idle beside one that votes READY in step 5, and a missing one. -/
theorem wit_VoteContributionsCombine :
    (let a : Contribution := { step := 5, idle := false, ready := true }
     combineVotes a [a] false = a ∧ combineVotes a [{}] false = { step := 0, idle := true, ready := true, no := true, cause := 16 } ∧
     combineVotes a [] true = { step := 5, idle := false, ready := false, no := true, cause := 8 }) := by decide +kernel

/-- A member and a master with step 5 running. -/
def voting (d : Dev) : Dev :=
  { d with step := { up.step with state := .running, num := 5 }, vote := { up.vote with own := { step := 5, idle := false, ready := true } } }

/-- 02 R55 to R60. -/
theorem wit_TheVoteWave :
    (let yes5 : Contribution := { step := 5, idle := false, ready := true }
     let word := fun (n : Nat) => { mk 100 with decision := BitVec.ofNat 32 n }
     let lone := { voting master with tide := { master.tide with children := [1] } }
     let heard := fun (v : Contribution) => { lone with vote := { lone.vote with kids := [{ strait := 1, vote := v }] } }
     does (.gatherMarker 1 0 { mk 100 with vote := yes5 }) (voting member) (fun e => e.vote.kids == [{ strait := 1, vote := yes5 }]) = true ∧
     does (.gatherMarker 2 0 (mk 100)) (voting member) (fun e => e.vote.kids == [] && !e.tide.markerSeen) = true ∧
     does (.decisionMarker 1 0 (word 1)) (voting member) (fun e => !e.vote.received) = true ∧
     does (.decisionMarker 0 0 (word 0x5000A)) (voting member) (fun e => e.step.decision == some 0x5000A && e.tide.lastDecision == 0x5000A) = true ∧
     does (.decisionMarker 0 0 (word 0x50001)) (voting member) (fun e => e.step.decision == some 0x50001) = true ∧
     does (.decisionMarker 0 0 (word 0x60001)) (voting member) (fun e => e.tide.decisionLost && e.step.decision == none) = true ∧
     does (.decisionMarker 0 0 (word 0x50003)) (voting member) (fun e => e.vote.received && e.step.decision == none) = true ∧
     does .voteForwardDeadline (voting member) (fun e => e.vote.forwarded && e.out.sent.length == 4) = true ∧
     does .masterDecision lone (fun e => e.tide.lastDecision.toNat % 4 == 2 && e.tide.lastDecision.toNat / 4 % 64 == 8) = true ∧
     does .masterDecision (heard yes5) (fun e => e.tide.lastDecision == 0x50001) = true ∧
     does .masterDecision (heard { yes5 with ready := false }) (fun e => e.tide.lastDecision == 0x50003 && e.vote.pendingWaves == 1) = true ∧
     (let late := heard { yes5 with ready := false }
      does .masterDecision { late with vote := { late.vote with pendingWaves := 7 } } (fun e => e.tide.lastDecision.toNat % 4 == 2 && e.vote.pendingWaves == 0) = true) ∧
     does .decisionCloseTime (voting member) (fun e => e.tide.decisionLost && e.tide.lost == 1 && e.step.decision == none) = true ∧
     does .decisionCloseTime { voting member with step := {} } (fun e => e.tide.decisionLost && e.tide.lost == 0) = true ∧
     (let after60 := { voting member with tide := { member.tide with decisionLost := true, lost := 1 } }
      does (.edgeMarker 1 0 (mk 9)) after60 (fun e => e.tide.decisionLost && e.spare.reentry && e.step.decision == none) = true ∧
      does .markerMissLimit { after60 with tide := { after60.tide with missed := 4 } } (fun e => e.tide.decisionLost && e.step.decision == some 0x50022) = true)) := by decide +kernel

/-! ### Items -/

/-- A device with one admitted item, of channel slot 4095 and SEQ 7. -/
def works (it : Item) (d : Dev) : Dev := { d with items := [(1, { it with order := 1, slot := 4095, seq := 7, stage := .admitted, admTide := 100 })] }
/-- The item when a row has acted, and that it was found before. -/
def after (c : Instr) (it : Item) (d : Dev) (p : Item → Bool) : Bool :=
  (findItem (works it d) 4095 7).isSome && does c (works it d) (fun e => (aGet e.items 1).any p)
def open5 (verdict : Nat) (d : Dev) : Dev := { d with step := { up.step with state := .running, num := 5, verdict := verdict, verdictOf := true } }
def thing (i : Nat) : BitVec 64 := mkHandle 2 1 i

/-- Parameter 3 (sixteen FP32 ones), its gradient 5 and its moment 6: SGD with LR 0.5. -/
def learner : Dev :=
  { held with tensors := held.tensors ++ [(5, { gen := 1, fmt := 2, role := 5, dims := [16], parity := true, place0 := { region := 0, row := 40, rows := 1 } }),
      (6, { gen := 1, fmt := 2, role := 3, dims := [16], parity := true, place0 := { region := 0, row := 41, rows := 1 }, place1 := some { region := 0, row := 42, rows := 1 } })] }
def sgd : Bytes :=
  [1, 0, 0, 0, 0, 0, 0, 0] ++ toLe 8 (thing 3).toNat ++ toLe 8 (thing 5).toNat ++ toLe 8 (thing 6).toNat ++ zeros 16 ++ toLe 8 0x3FE0000000000000 ++ zeros 72

/-- 03 R96 to R98, 09 R306 to R308. Sixteen bytes of host memory at 64 go to offset 4080 of tensor 2. -/
theorem wit_TransfersRunsAndUpdatesWork :
    (let h := { held with host := memWrite [] 64 [9, 8, 7, 6] }
     let send := fun (op : Nat) (off : Nat) => ({ kind := 3, op := op, object := thing 2, arg0 := 64, arg1 := BitVec.ofNat 64 off, arg2 := 16 } : Item)
     let t2 := fun (e : Dev) (o n : Nat) => memRead ((aGet e.tensors 2).getD {}).ep0 o n
     after (.run 4095 7) { kind := 1, op := 1, insts := [(0, { next := 0xFFFF })] } h (·.work) = true ∧
     after (.run 4095 7) { kind := 1, op := 1, insts := [(0, { next := 0xFFFF }), (1, {})] } h (fun i => !i.work) = true ∧
     after (.hostToTensor 4095 7) (send 1 4080) h (fun i => i.work && i.status == 0 && i.progress == 16) = true ∧
     does (.hostToTensor 4095 7) (works (send 1 4080) h) (fun e => t2 e 4080 5 == [9, 8, 7, 6, 0]) = true ∧
     after (.hostToTensor 4095 7) (send 1 4080) { h with pf0 := { h.pf0 with busMaster := false } } (fun i => !i.work) = true ∧
     does (.tensorToHost 4095 7) (works (send 2 0) { h with tensors := aMod h.tensors 2 (fun t => { t with ep0 := [(0, 3)] }) }) (fun e => memRead e.host 64 4 == [3, 0, 0, 0]) = true ∧
     (itemWorks (works (send 1 4080) h) ((findItem (works (send 1 4080) h) 4095 7).getD {}) 3 1) = true ∧
     does (.tensorToTensor 4095 7) (works { send 3 0 with arg0 := thing 2, arg3 := 4080 } { h with tensors := aMod h.tensors 2 (fun t => { t with ep0 := [(0, 3)] }) })
       (fun e => t2 e 4080 1 == [3]) = true ∧
     after (.update 4095 7 4) { kind := 5, op := 1, step := 5, upd := sgd } (open5 2 learner) (fun i => i.work && i.status == 1 && i.detail == 1) = true ∧
     after (.update 4095 7 4) { kind := 5, op := 1, step := 5, upd := sgd } (open5 0 learner) (fun i => !i.work && i.progress == 0) = true ∧
     after (.update 4095 7 4) { kind := 5, op := 1, step := 5, upd := sgd } (open5 1 learner) (fun i => !i.work && i.progress == 4) = true ∧
     after (.update 4095 7 99) { kind := 5, op := 1, step := 5, upd := sgd } (open5 1 learner) (fun i => i.work && i.progress == 16) = true ∧
     after (.seal 4095 7) { kind := 5, op := 2, step := 5 } (open5 0 held) (fun i => !i.work) = true ∧
     after (.seal 4095 7) { kind := 5, op := 2, step := 5 } (open5 1 held) (fun i => i.work && i.status == 0) = true ∧
     after (.seal 4095 7) { kind := 5, op := 2, step := 5 } (open5 2 held) (fun i => i.work && i.status == 1) = true ∧
     after (.itemBudgetExpiry 4095 7) { kind := 1, budget := 1 } (inPhase .slack held) (fun i => i.work && i.status == 0x11 && i.detail == 0x4FFFF) = true ∧
     after (.itemBudgetExpiry 4095 7) { kind := 1, budget := 2 } (inPhase .slack held) (fun i => !i.work) = true ∧
     after (.itemBudgetExpiry 4095 7) { kind := 1 } (inPhase .slack held) (fun i => !i.work) = true ∧
     after (.itemBudgetExpiry 4095 7) { kind := 1, budget := 1 } held (fun i => !i.work) = true ∧
     after (.itemBudgetExpiry 4095 7) { kind := 1, budget := 1, work := true } held (fun i => i.status == 0) = true) := by decide +kernel

/-- Plan 4: one FP64 equation with Cholesky, RETAIN; tensors 10 to 13 hold A = 4, b = 8, x and the status; factor set 6. -/
def solving : Dev :=
  let one := fun (f v row : Nat) => ({ gen := 1, fmt := f, dims := [1], parity := true, ep0 := memWrite [] 0 (toLe 8 v), place0 := { region := 0, row := row, rows := 1 } } : Tensor)
  { held with
    plans := [(4, { gen := 1, desc := [1, 1, 0, 0] ++ toLe 4 1 ++ zeros 3 ++ [1] ++ zeros 2 ++ [1, 0] ++ zeros 48 })]
    factors := [(6, { gen := 1, plan := mkHandle 4 1 4, problems := 1 })]
    cores := [(191, { heldBy := [(1, 0)] })]
    tensors := [(10, one 1 0x4010000000000000 0), (11, one 1 0x4020000000000000 1), (12, one 1 0 2), (13, one 0x12 0 3)] }
def problem (op : Nat) : Item :=
  { kind := 2, op := op, object := mkHandle 4 1 4, arg1 := mkHandle 6 1 6, arg3 := 0x100000000, probs := [(0, { core := some 191 })]
    upd := zeros 16 ++ toLe 8 (thing 10).toNat ++ toLe 8 (thing 11).toNat ++ toLe 8 (thing 12).toNat ++ toLe 8 (thing 13).toNat ++ zeros 16 }

/-- 08 R245, R246, R268 to R270, R284: x = 2 with 1000 units; none ends with 0; without retained factors the state is NO_FACTORS. -/
theorem wit_SolverItemsSolveTheirProblems :
    (let plain := { solving with plans := [(4, { gen := 1, desc := [1, 1, 0, 0] ++ toLe 4 1 ++ zeros 6 ++ [1, 0] ++ zeros 48 })] }
     let ended := fun (i : Item) => i.work && i.probs.all (fun x => x.2.word.isSome && x.2.core == none)
     after (.solve 4095 7 0 0) (problem 1) plain (fun i => !i.work && (aGet i.probs 0).any (fun q => q.core == some 191)) = true ∧
     after (.solve 4095 7 0 1000) (problem 1) plain ended = true ∧
     does (.solve 4095 7 0 1000) (works (problem 1) plain) (fun e =>
       memRead ((aGet e.tensors 12).getD {}).ep0 0 8 == toLe 8 0x4000000000000000 && ((aGet e.cores 191).getD {}).heldBy == []) = true ∧
     after (.adjoint 4095 7 0 1000) (problem 2) solving ended = true ∧
     after (.tangent 4095 7 0 1000) (problem 3) solving ended = true ∧
     (let asm := { solving with plans := aMod solving.plans 4 (fun p => { p with asm := zeros 64 }) }
      after (.assemble 4095 7 0) { problem 4 with upd := (problem 4).upd.set 24 0 |>.set 31 0 } asm (fun _ => true) = true ∧
      (match assembled (problem 4) (itemPlan (works (problem 4) asm) (problem 4)) 0 false (works (problem 4) asm) with
        | .ok _ v => decide (v.1 = [0])
        | .bad _ _ => false) = true)) := by decide +kernel

/-! ### Collectives -/

/-- Group 8 of (0, 0, 0) and (1, 0, 0), this module being rank 0. -/
def pairUp : Dev :=
  { master with
    mem := held.mem, tensors := held.tensors, pair := { state := 2, partner := { x := 1 } }
    groups := [(8, { gen := 1, gid := 0x55, members := [{}, { x := 1 }], rank := 0, dg := 1, digest := 0x77 })] }
/-- An ALL_REDUCE of four FP32 numbers of tensor 2 onto tensor 2. -/
def launch : Launch := { mode := 1, redop := 1, num := 1, src := thing 2, dst := thing 2, dstOff := 8, count := 4, group := 8, joinLimit := 64 }
def coll (op : Nat) (l : Launch) : Item := { kind := 4, op := op, object := mkHandle 5 1 8, launch := some l }
/-- What the module said, without the flits that carry it. -/
def said (e : Dev) : List Sent := e.out.sent.filter (fun x => match x with | .flit .. => false | .packet .. => false | _ => true)
def partner : Pos := { x := 1 }
def head : CollHeader := { gid := 0x55, launch := 1, digest := 0x77, rank := 1 }

/-- 12 R404 to R425. -/
theorem wit_CollectiveItemsRunTheirLaunches :
    (let ends := fun (op : Nat) (c : Instr) => after c (coll op { launch with running := true, completeSent := true, endTide := some 100, plan := some (90, 200) }) pairUp
       (fun i => i.work && i.status == 0)
     let runs := fun (op : Nat) (c : Instr) => after c (coll op { launch with plan := some (100, 200) }) pairUp (fun i => i.launch.any (·.running))
     ends 1 (.allReduce 4095 7) = true ∧ ends 2 (.reduceScatter 4095 7) = true ∧ ends 3 (.allGather 4095 7) = true ∧ ends 4 (.broadcast 4095 7) = true ∧
     ends 5 (.allToAll 4095 7) = true ∧ ends 6 (.send 4095 7) = true ∧ ends 7 (.recv 4095 7) = true ∧
     runs 1 (.allReduce 4095 7) = true ∧ runs 3 (.allGather 4095 7) = true ∧
     after (.allReduce 4095 7) (coll 1 launch) pairUp (fun i => i.launch.any (fun l => !l.running)) = true ∧
     after (.chunkStart 4095 7 0) (coll 1 { launch with running := true, plan := some (90, 200) }) pairUp (fun i => i.launch.any (fun l => l.started == [0])) = true ∧
     after (.chunkStart 4095 7 0) (coll 1 launch) pairUp (fun i => i.launch.any (fun l => l.started == [])) = true ∧
     after (.collectiveGraceExpiry 4095 7) (coll 1 { launch with plan := some (90, 99) }) (inPhase .slack pairUp) (fun i => i.work && i.status == 0x11 && i.detail == 0x3FFFF) = true ∧
     after (.collectiveGraceExpiry 4095 7) (coll 1 { launch with plan := some (90, 100) }) (inPhase .slack pairUp) (fun i => !i.work) = true ∧
     after (.collectiveGraceExpiry 4095 7) (coll 1 { launch with plan := some (90, 99) }) pairUp (fun i => !i.work) = true ∧
     after (.joinLimitExpiry 4095 7) (coll 1 { launch with joinLimit := 0 }) pairUp (fun i => i.work || i.launch.any (·.verdictSent)) = true ∧
     after (.joinLimitExpiry 4095 7) (coll 1 { launch with joinLimit := 0 }) { pairUp with groups := aMod pairUp.groups 8 (fun g => { g with rank := 1 }) }
       (fun i => i.work && i.status == 0x14 && i.detail == 0x20000) = true ∧
     after (.joinLimitExpiry 4095 7) (coll 1 { launch with joinLimit := 1 }) pairUp (fun i => !i.work && i.launch.any (fun l => !l.verdictSent)) = true) := by decide +kernel

/-- 12 R409 to R430. -/
theorem wit_CollectivePacketsActOnTheLaunch :
    (let got := fun (c : Instr) (op : Nat) (l : Launch) (p : Launch → Bool) => after c (coll op l) pairUp (fun i => i.launch.any p)
     let went := fun (c : Instr) (op : Nat) (l : Launch) (n : Nat) => does c (works (coll op l) pairUp) (fun e => (said e).length == n)
     let lone := { pairUp with groups := aMod pairUp.groups 8 (fun g => { g with rank := 1 }) }
     let run := { launch with running := true, plan := some (90, 200), started := [0] }
     serves pairUp = true ∧
     does (.join partner { head with gid := 1 }) pairUp (fun e => e.lnk.drop == 1) = true ∧ does (.reissue partner { head with digest := 1 }) pairUp (fun e => e.lnk.drop == 1) = true ∧
     does (.join partner head) pairUp (fun e => e.earlyJoins == [(0x55, 1, 1)]) = true ∧
     does (.join partner head) { pairUp with abandoned := [(0x55, 1, 99)] } (fun e => e.earlyJoins == [] && (said e).length == 1) = true ∧
     kept (exec (.data partner head []) { dev := pairUp }) { dev := pairUp } = true ∧
     got (.join partner head) 1 launch (fun l => l.joins == [1]) = true ∧
     got (.start partner { head with tides := 0x0000009600000066 }) 1 launch (fun l => l.plan == some (0x66, 0x96)) = true ∧
     got (.start partner { head with tides := 0x0000009600000066 }) 1 run (fun l => l.plan == some (90, 200)) = true ∧
     got (.complete partner head) 1 launch (fun l => l.completes == [1]) = true ∧
     got (.groupDone partner { head with tides := 0x66 }) 1 run (fun l => l.endTide == some 0x66) = true ∧
     after (.abort partner { head with cause := 2 }) (coll 1 run) pairUp (fun i => i.work && i.status == 0x14 && i.detail == 0x20001) = true ∧
     after (.abort partner { head with cause := 2 }) (coll 1 { run with endTide := some 101 }) pairUp (fun i => !i.work) = true ∧
     (after (.leave partner { head with cause := 5 }) (coll 1 run) pairUp (fun i => i.launch.any (·.verdictSent))) = true ∧
     (after (.fail partner { head with cause := 5 }) (coll 1 run) lone (fun i => i.launch.any (fun l => !l.verdictSent))) = true ∧
     got (.ack partner { head with rank := 0, phase := 1 }) 1 { run with unacked := [(ackKey 2 0 0 0 1, 1), (ackKey 2 0 0 0 2, 1)] } (fun l => l.unacked == [(ackKey 2 0 0 0 2, 1)]) = true ∧
     went (.lost partner { head with cause := 0 }) 3 run 1 = true ∧ got (.lost partner { head with cause := 3 }) 1 run (·.verdictSent) = true ∧
     got (.reissue partner { head with chunk := 1 }) 3 run (fun l => l.unacked == []) = true ∧ got (.reissue partner head) 3 run (fun l => l.unacked.length == 1) = true ∧
     got (.data partner { head with packets := 2 } [1, 2]) 3 run (fun l => l.parts.length == 1) = true ∧
     (let bs := toLe 8 0x400000003F800000 ++ toLe 8 0
      got (.data partner { head with check := crc64 bs } bs) 3 { run with dstOff := 100 } (fun l => l.parts == [] && l.written.length == 1) = true ∧
      got (.data partner { head with check := crc64 bs + 1 } bs) 3 { run with dstOff := 100 } (fun l => l.written == []) = true ∧
      got (.prepass partner { head with packets := 2 } [0]) 2 run (fun l => l.parts.length == 1) = true)) := by decide +kernel

/-! ### Pairing, adoption and links -/

def paired1 : Dev := { pairUp with pair := { state := 1, partner := partner, ownBudget := 4096, partnerBudget := 8192 }, tel := { up.tel with feedId := 2 } }
def offer (feed : Nat) : PairPayload := { pos := partner, feedId := BitVec.ofNat 4 feed, ownBudget := 8192, partnerBudget := 4096 }
def ferried (h : FerryHeader) (bs : Bytes) : FerryHeader := { h with check := ferryCheck h bs }

/-- 13 R433 to R440, R455. CHECK is taken as it is computed and not evaluated. -/
theorem wit_PairingAndFerryPackets :
    (let p := { pairUp with pair := { pairUp.pair with unacked := [{ use := 4, hdr := { step := 0, fseq := 9 }, bytes := [1] }], exposed := true } }
     clocksRun p = true ∧ paired p = true ∧ p.pair.partner = partner ∧
     does (.pair partner (offer 1)) pairUp (fun e => e.pair.state == 2 && (said e).length == 1) = true ∧
     does (.pairReply partner (offer 1) 2) pairUp (fun e => e.pair.state == 2 && e.pair.partnerExposed == false) = true ∧
     does (.pair partner (offer 2)) paired1 (fun e => e.pair.state == 4 && (said e).length == 1) = true ∧
     does (.pairReply partner (offer 1) 2) paired1 (fun e => e.pair.state == 2 && e.pair.exposed && e.pair.partnerExposed) = true ∧
     does (.pairReply partner (offer 1) 0) paired1 (fun e => e.pair.state == 1) = true ∧
     does (.pairReply partner { offer 1 with ownBudget := 1 } 5) paired1 (fun e => e.pair.state == 5 && e.pair.lagoonRegions == []) = true ∧
     does (.ferryAck partner 0 9) p (fun e => e.pair.unacked == [] && !e.pair.exposed) = true ∧ does (.ferryAck partner 1 9) p (fun e => e.pair.unacked.length == 1) = true ∧
     does (.ferryAck { x := 2 } 0 9) p (fun e => e.pair.unacked.length == 1) = true ∧
     does (.ferryResendTimer 9) p (fun e => (said e).length == 1) = true ∧ does (.ferryResendTimer 8) p (fun e => said e == []) = true) := by decide +kernel
theorem wit_PairingAndFerryPackets_check (h : FerryHeader) (bs : Bytes) :
    (ferried h bs).check = ferryCheck (ferried h bs) bs ∧ ({ h with check := ferryCheck h bs + 1 } : FerryHeader).check ≠ ferryCheck { h with check := ferryCheck h bs + 1 } bs := by
  refine ⟨rfl, ?_⟩
  have e : ferryCheck { h with check := ferryCheck h bs + 1 } bs = ferryCheck h bs := rfl
  rw [e]
  show ferryCheck h bs + 1 ≠ ferryCheck h bs
  generalize ferryCheck h bs = x
  bv_omega

/-- 13 R447 to R459, 11 R394, 14 R490. -/
theorem wit_AdoptionAndManagementPackets :
    (let lost := { pairUp with lnk := { pairUp.lnk with lostPos := [partner] }, tel := { up.tel with feedId := 2 } }
     let no := fun (n : Nat) (d : Dev) (src : Pos) (feed : Nat) => does (.adoptReq src 8 (BitVec.ofNat 4 feed) partner) d (fun e => said e == [.adoptReply src n]) = true
     let spare := { pairUp with spare := { up.spare with state := 1, reentry := true } }
     let filling := { pairUp with spare := { up.spare with state := 2, fillLeft := [{ obj := 3, len := 3 }, { obj := 4, len := 3 }] } }
     let h : FerryHeader := { obj := 3 }
     no 1 lost {} 1 ∧ no 2 pairUp partner 1 ∧ no 3 lost partner 2 ∧ no 4 { lost with spare := { up.spare with adoptedBy := [(partner, 7)] } } partner 1 ∧
     does (.adoptReq partner 8 1 partner) lost (fun e => e.pair.state == 2 && e.pair.partnerSerial == 8 && e.spare.adoptedBy == [(partner, 8)]) = true ∧
     does (.adoptReply partner 0) spare (fun e => e.spare.state == 2) = true ∧ does (.adoptReply partner 3) spare (fun e => e.spare.state != 2) = true ∧
     does (.fillRead partner { obj := 3, len := 4032 }) pairUp (fun e => (said e).length == 1) = true ∧
     does (.fillData partner (ferried h [1, 2, 3]) [1, 2, 3]) filling (fun e => e.spare.fillLeft == [{ obj := 4, len := 3 }] && e.spare.filled == 3 && e.spare.state == 2) = true ∧
     does (.fillData partner (ferried h [1, 2]) [1, 2]) filling (fun e => e.spare.fillLeft.length == 2) = true ∧
     does (.fillData partner (ferried h [1, 2, 3]) [1, 2, 3]) { filling with spare := { filling.spare with fillLeft := [{ obj := 3, len := 3 }] } } (fun e => e.spare.state == 3) = true ∧
     does .spareFillComplete { spare with spare := { up.spare with state := 3 } } (fun e => e.spare.state == 4 && e.lnk.adopted == [({}, 0)]) = true ∧
     does .spareFillComplete spare (fun e => e.spare.state == 1) = true ∧
     does (.decisionReq partner 5) { pairUp with vote := { up.vote with history := [(5, 0x50001)] } } (fun e => said e == [.decisionReply partner 0x50001]) = true ∧
     does (.decisionReply {} 0) spare (fun e => e.spare.reqSent && said e == [.adoptReq partner 0 0 {}]) = true ∧
     does (.decisionReply {} 0) { spare with pair := { spare.pair with state := 6 } } (fun e => e.spare.reqSent) = true ∧
     does (.straitState 1 4 partner 3 0 90) pairUp (fun e => e.lnk.recs.length == 1 && e.tide.treeStale && e.lnk.mgmtSeen == [(partner, 4)]) = true ∧
     does (.straitState 1 4 partner 3 0 90) { pairUp with lnk := { pairUp.lnk with mgmtSeen := [(partner, 4)] } } (fun e => e.lnk.recs == []) = true ∧
     does (.deviceFailed 1 4 partner 0x104 90) pairUp (fun e => e.lnk.announced == [partner]) = true ∧
     does (.adopted 1 4 partner 6 90) pairUp (fun e => e.lnk.adopted == [(partner, 6)]) = true) := by decide +kernel

/-- Link (5, 3) of `master` in a state. -/
def link (n : Nat) (f : Link → Link) (d : Dev) : Dev := { d with lnk := { d.lnk with links := d.lnk.links.set 23 (f { state := n }) } }
def on (c : Instr) (n : Nat) (f : Link → Link) (p : Link → Bool) : Bool := does c (link n f master) (fun e => p (linkOf e 5 3))
def gone (c : Instr) (n : Nat) (cause : Nat) : Bool := on c n id (fun k => k.state == 10 && k.cause == cause)

/-- 11 R363, R371, R377 to R384, 01 R17, R18: sixteen lanes are enough; an offset of 1500 (150 ns) is not too long. -/
theorem wit_LinksTrainAndQualify :
    on (.linkSignalDetected 5 3 0x3FFFC) 1 id (fun k => k.state == 2) = true ∧ on (.linkSignalDetected 5 3 0x3FFF8) 1 id (fun k => k.state == 1 && k.lanesSeen == 0x3FFF8) = true ∧
    on (.linkNoSignalTimer 5 3) 1 id (fun k => k.state == 1 && k.cause == 1) = true ∧
    on (.equaliseDone 5 3 0x3FFFC) 2 id (fun k => k.state == 3 && k.rxMap == (List.range 18).drop 2) = true ∧
    on (.alignDone 5 3) 3 id (fun k => k.state == 4 && k.asking == some 5) = true ∧ does (.delayProbe 5 3 9) (link 9 id master) (fun e => e.out.sent == [.delay 6 5 3 9]) = true ∧
    on (.delayReply 5 3 3010 10) 4 id (fun k => k.state == 5 && k.delay == 1500) = true ∧ gone (.delayReply 5 3 3012 10) 4 4 = true ∧
    on (.delayReply 5 3 3012 10) 9 id (fun k => k.state == 9 && k.delay == 1501) = true ∧
    gone (.linkStateTimeout 5 3) 2 2 = true ∧ gone (.linkStateTimeout 5 3) 3 3 = true ∧ gone (.linkStateTimeout 5 3) 4 4 = true ∧ gone (.linkStateTimeout 5 3) 9 6 = true ∧
    on (.qualifyWindowEnd 5 3 (10 ^ 12 - 1) []) 5 id (fun k => k.state == 5) = true ∧
    on (.qualifyWindowEnd 5 3 (10 ^ 12) []) 5 (fun k => { k with lanesSeen := 0x3FFFF }) (fun k => k.state == 6 && k.cls == List.replicate 18 0) = true ∧
    on (.qualifyWindowEnd 5 3 (10 ^ 12) []) 5 (fun k => { k with lanesSeen := 0x7FFF }) (fun k => k.state == 10 && k.cause == 5) = true ∧
    on (.retrainDone 5 3) 9 (fun k => { k with sameReplays := 8 }) (fun k => k.state == 7 && k.sameReplays == 0) = true ∧
    on (.linkLossOfSignal 5 3) 7 id (fun k => k.state != 7) = true ∧ does (.ident 5 3 { serial := 9 }) (link 6 id master) (fun e => (straitOf e 5).serial == 9 && (straitOf e 5).neighValid) = true ∧
    does .identPeriod master (fun e => e.out.sent.length == 24) = true ∧ does (.controlRepeatTimer 5 3) (link 4 (fun k => { k with asking := some 5 }) master) (fun e => e.out.sent == [.delay 5 5 3 0]) = true ∧
    does (.controlRepeatTimer 5 3) (link 7 (fun k => { k with asking := some 2, moves := [(0, 16)] }) master) (fun e => e.out.sent == [.control 2 5 3 3 0 0 16]) = true ∧
    kept (exec (.controlRepeatTimer 5 3) { dev := master }) { dev := master } = true ∧
    (let moves := fun (c : Instr) (d : Dev) (p : Dev → Bool) => does c d (fun e => !e.units.cwDue.isEmpty && e.units.cwSpare == d.units.cwSpare && p (causewaySlack e))
     let spent := { master with units := { up.units with cwSpare := [(2, 33)] } }
     moves (.causewayLaneThreshold 2 33) master (fun e => e.units.cwSpare == [(2, 33)]) = true ∧
     moves (.causewayLaneFail 2 34) spent (fun e => e.units.cwHalf == [(2, 34)] && e.units.cwSpare == [(2, 33)]) = true ∧
     moves (.causewayLaneFail 2 33) spent (fun e => e.units.cwHalf == [(2, 33)]) = true ∧
     moves (.causewayLaneThreshold 2 34) spent (fun e => e.units.cwHalf == []) = true ∧
     does (.causewayLaneFail 44 0) spent (fun e => e.units.cwDue == []) = true) := by decide +kernel

/-- A flit of a SEQ with its CRC. -/
def flit (seq : Nat) (sop eop : Bool) (bs : Bytes) : Flit :=
  let f : Flit := { seq := BitVec.ofNat 12 seq, ack := 4095, ch := 12, sop := sop, eop := eop, valid := bs.length, payload := bs }
  { f with crc := crc32c (flitBytes f) }

/-- 11 R359, R366 to R368: a good flit, and one whose CRC is off by one. -/
theorem wit_FlitsReplayAndPacketsRoute_flits (seq : Nat) (sop eop : Bool) (bs : Bytes) :
    flitGood (flit seq sop eop bs) = true ∧ flitGood { flit seq sop eop bs with crc := (flit seq sop eop bs).crc + 1 } = false := by
  have e : ∀ c, flitBytes { flit seq sop eop bs with crc := c } = flitBytes (flit seq sop eop bs) := fun _ => rfl
  have k : (flit seq sop eop bs).crc = crc32c (flitBytes (flit seq sop eop bs)) := rfl
  constructor
  · unfold flitGood
    rw [← k, beq_self_eq_true]
    rfl
  · unfold flitGood
    rw [e, ← k]
    have n : ∀ x : BitVec 32, (x + 1 == x) = false := fun x => by
      rw [beq_eq_false_iff_ne]
      bv_omega
    simp only [n, Bool.and_false]

/-- 11 R369 to R374, R389, R397. -/
theorem wit_FlitsReplayAndPacketsRoute :
    (let k := fun (f : Link → Link) => link 7 f master
     let buf := [flit 1 true false [1], flit 2 false true [2]]
     clocksRun (k id) = true ∧ master.lnk.run = true ∧ (linkOf (k id) 5 3).state = 7 ∧ (k id).lnk.links.length = 24 ∧
     does (.nak 5 3 2) (k (fun k => { k with replayBuf := buf, txSeq := 3 })) (fun e => (linkOf e 5 3).replayBuf.length == 1 && e.out.sent.length == 1) = true ∧
     kept (exec (.replayTimeout 5 3) { dev := k id }) { dev := k id } = true ∧
     does (.replayTimeout 5 3) (k (fun k => { k with replayBuf := buf })) (fun e => (linkOf e 5 3).sameReplays == 1 && e.out.sent.length == 2) = true ∧
     on (.replayLimit 5 3) 7 (fun k => { k with sameReplays := 8 }) (fun k => k.state == 9) = true ∧ on (.replayLimit 5 3) 7 (fun k => { k with sameReplays := 7 }) (fun k => k.state == 7) = true ∧
     on (.laneFault 5 3 15) 7 (fun k => { k with cls := List.replicate 18 0 }) (fun k => k.moves == [(15, 16)] && k.asking == some 2) = true ∧
     on (.laneFault 5 3 15) 7 id (fun k => k.state != 7) = true ∧
     on (.spareReq 5 3 15 17 9) 7 id (fun k => k.txMap[15]? == some 17) = true ∧
     on (.spareAck 5 3 15 17 9) 7 (fun k => { k with moves := [(15, 17)] }) (fun k => k.rxMap[15]? == some 17 && k.cls[15]? == some 2 && k.moves == []) = true ∧
     does (.failover 5 2 3 1) (k (fun k => { k with replayBuf := buf })) (fun e => (linkOf e 5 3).replayBuf == []) = true ∧
     on (.packetEopTimeout 5 3 12) 7 (fun k => { k with partials := [(12, [1]), (13, [2])] }) (fun k => k.partials == [(13, [2])]) = true ∧
     does (.packetForward 5 { partId := 8 } []) master (fun e => e.lnk.drop == 1) = true ∧ does (.packetForward 5 { partId := 7, dst := { x := 2 } } []) master (fun e => e.lnk.drop == 1) = true ∧
     does (.packetForward 5 { partId := 7, use := 0x70 } []) master (fun _ => true) = true ∧
     (match wayOf master (some 5) { partId := 7, dst := partner } with | .out s _ _ => s == 0 | _ => false) = true) := by decide +kernel

/-! ### Units, memory and power -/

/-- Core 0 on (0, 3) and core 1 on (0, 4), a holm (0, 5); control cores 0 to 11 with holms 12 and 13. -/
def spares : Dev :=
  { held with units := { up.units with bind := [(0, (0, 3)), (1, (0, 4))], holms := [(0, 5)], ccIn := List.range 12, ccHolms := [13, 12] } }
def bare : Dev := { spares with units := { spares.units with holms := [], ccHolms := [] } }
/-- One region on stacks 0 to 2 that has been hot for sixteen tides. -/
def hot (r : Region) (d : Dev) : Dev :=
  { d with mem := { d.mem with regions := [(0, { r with width := 3, onStacks := [0, 1, 2], granules := [0, 0, 0], parity := true, hotRun := 16 })] } }
def moved : Region := { moving := some ([0, 1, 2], [7, 8, 9], 5) }
def good1 : TestResult := {}
def ticket (t : Ticket) : Dev := { spares with units := { spares.units with tickets := [t] } }

/-- 01 R20 to R28, 05 R156, 14 R478 to R486, 10 R326 to R343. -/
theorem wit_UnitsMemoryAndRepair :
    does (.accBankThreshold 0 7 false) spares (fun e => e.units.bankDue == [(0, 3, 7, 0)] && bankPhys e (0, 3) 7 == 7 && bankPhys (banksAtSlack e) (0, 3) 7 == 8) = true ∧
    does (.accBankThreshold 0 0 true) { spares with cores := [(0, { run := true })], units := { spares.units with banksUsed := [(0, 3)] } }
      (fun e => !((aGet e.cores 0).getD {}).run && (banksAtSlack e).units.retired == [(0, 3)]) = true ∧
    does (.coreLost 0 3 0) { spares with units := { spares.units with retired := [(0, 3)] } } (fun e => e.units.fills == []) = true ∧
    does (.coreLost 0 3 0) spares (fun e => e.units.fills == [{ l := 0, p := 5, cl := 0 }] && e.units.retired == [(0, 3)] && e.units.bind == [(1, (0, 4))]) = true ∧
    does (.coreLost 0 3 0) bare (fun e => e.units.shared == [0] && aGet e.units.bind 0 == some (0, 4)) = true ∧
    does (.coreFillComplete 0 true 0) { spares with units := { spares.units with fills := [{ l := 9, p := 5, cl := 0 }] } }
      (fun e => aGet e.units.bind 9 == some (0, 5) && e.units.holms == [] && e.units.fills == []) = true ∧
    does (.coreFillComplete 0 false 0) { spares with units := { spares.units with fills := [{ l := 9, p := 5, cl := 0 }] } } (fun e => e.units.retired == [(0, 5)]) = true ∧
    does (.coreFillComplete 0 true 0) spares (fun e => e.units.holms == [(0, 5)]) = true ∧
    does (.controlCoreLost 13) spares (fun e => e.units.ccHolms == [12] && e.units.ccRetired == [13]) = true ∧
    does (.controlCoreLost 11) spares (fun e => e.units.ccIn[11]? == some 12 && e.units.ccHolms == [13]) = true ∧
    does (.controlCoreLost 11) bare (fun e => e.units.ccIn == List.range 11 ++ [16]) = true ∧ does (.controlCoreLost 15) spares (fun e => e.units.ccRetired == []) = true ∧
    does (.reductionUnitFailure 1 31) spares (fun e => e.units.ruDown == [(1, 31)] && ruPhys e 1 31 == 32) = true ∧
    does (.reductionUnitFailure 1 31) { spares with units := { spares.units with ruDown := [(1, 31)] } } (fun e => e.units.ruMap == []) = true ∧
    does (.holmBistPeriod [(0, 5)] [13]) spares (fun e => e.units.retired == [(0, 5)] && e.units.ccRetired == [13]) = true ∧
    does (.unitTestComplete 6 good1) spares (fun e => e.units.tickets == []) = true ∧
    does (.unitTestComplete 6 good1) (ticket { id := 6, kind := 1, phys := 9 }) (fun e => e.units.holms.contains (0, 9) && (e.units.tickets.map (·.state)) == [1]) = true ∧
    does (.unitTestComplete 6 { good1 with failCount := 1 }) (ticket { id := 6, kind := 1, phys := 9 }) (fun e => e.units.retired == [(0, 9)] && (e.units.tickets.map (·.state)) == [2]) = true ∧
    does (.unitTestComplete 6 good1) (ticket { id := 6, kind := 1, phys := 3 }) (fun e => (e.units.tickets.map (·.state)) == [0]) = true ∧
    does (.unitTestComplete 6 good1) (ticket { id := 6, stack := some 23 }) (fun e => (stack e 23).passed) = true ∧
    does (.unitTestComplete 6 { good1 with memAct := 1 }) (ticket { id := 6, stack := some 23 }) (fun e => (stack e 23).lost) = true ∧
    does (.stackLost 2) spares (fun e => (stack e 2).lost && e.mem.restripes == [0]) = true ∧ does (.stackLost 24) spares (fun e => e.mem.restripes == []) = true ∧
    does (.stackLost 2) { hot {} spares with mem := { (hot {} spares).mem with regions := [(0, { width := 3, onStacks := [0, 1, 2], granules := [0, 0, 0], parity := false })] } }
      (fun e => (aGet e.tensors 2).map (·.lost) == some true) = true ∧
    does (.restripeComplete 2) spares (fun e => (stack e 2).state == 0) = true ∧
    does (.restripeComplete 23) (onStack 23 (fun x => { x with lost := true, state := 2 }) spares) (fun e => (stack e 23).state == 3) = true ∧
    does (.resaltStart 0) (hot {} spares) (fun e => e.mem.resalts == [0] && (region e 0).moving.isSome) = true ∧
    does (.resaltStart 0) (hot {} { spares with mem := { spares.mem with hotCfg := { active := 0x10001103 } } }) (fun e => e.mem.resalts == []) = true ∧
    does (.resaltStart 0) (hot {} { spares with mem := { spares.mem with resalts := [5, 6] } }) (fun e => e.mem.resaltQueue == [0]) = true ∧
    does (.resaltStart 0) (hot { holdUntil := 101 } spares) (fun e => e.mem.resalts == []) = true ∧
    does (.resaltComplete 0) (hot { moved with moved := 8192 } { spares with mem := { spares.mem with resalts := [0] } })
      (fun e => e.mem.resalts == [] && (region e 0).granules == [7, 8, 9] && (region e 0).salt == 5 && (region e 0).lastResalt == some 100) = true ∧
    does (.resaltComplete 0) spares (fun e => (region e 0).lastResalt == none) = true ∧
    does (.scrubComplete 8) scrubbed (fun e => (scrubOf e 8).any (fun x => x.state == 1)) = true ∧ does (.scrubComplete 7) scrubbed (fun e => e.mem.scrubs == scrubbed.mem.scrubs) = true ∧
    does (.scrubComplete 9) scrubbed (fun e => e.mem.scrubs == scrubbed.mem.scrubs) = true ∧
    does (.retirementComplete 3) scrubbed (fun e => (stack e 23).retired == [5] && (e.mem.retires.map (·.done)) == [2]) = true ∧
    does (.retirementComplete 4) scrubbed (fun e => (stack e 23).retired == []) = true := by decide +kernel

def heated (f : Telemetry → Telemetry) : Dev := { master with tel := f master.tel }
def offAs (c : Instr) (w : Nat) : Bool := does c held (fun e => !e.tel.powered && e.flash.lastOff.toNat == w && e.tensors == [] && e.power.good == 0)

/-- 17 R545 to R553, R561, 02 R53, each limit at its edge. -/
theorem wit_InputPowerThrottlesAndTelemetry :
    does (.vinLow 47999) held (fun e => e.tel.vinLow && e.tel.alert && e.tel.powered) = true ∧ does (.vinLow 44000) held (fun e => e.tel.vin == 44000 && e.tel.powered) = true ∧
    does (.vinHigh 58001) held (fun e => e.tel.vinHigh && e.tel.alert) = true ∧ does (.vinHigh 61000) held (fun e => e.tel.powered) = true ∧
    does (.vinInRange 48000) (heated (fun t => { t with vinLow := true })) (fun e => !e.tel.vinLow && e.tel.vin == 48000) = true ∧
    offAs (.inputLockout 43999) 0xFF01 = true ∧ offAs (.inputProtection 61001) 0xFF02 = true ∧ offAs (.converterStop 15 true) 0xFF0F = true ∧
    offAs (.converterStop 2 true) 0xFF02 = true ∧ offAs (.converterStop 0 true) 0xFF00 = true ∧ offAs (.converterStop 1 true) 0xFF01 = true ∧ offAs (.converterStop 2 false) 0xFF0F = true ∧
    offAs (.thermalShutdown 38 1150) (38 * 256 + 3) = true ∧ kept (exec (.softStart 46000) { dev := held }) { dev := held } = true ∧
    does (.inputLockout 0) { held with tel := { up.tel with perst := true } } (fun e => e.flash.lastOff.toNat == 0xFF00) = true ∧
    does (.softStart 46000) (heated (fun t => { t with powered := false })) (fun e => e.tel.powered && e.tel.perst && e.flash.startCount == 1) = true ∧
    does (.thermalTrip 5 1050) master (fun e => e.tel.trips == [5] && e.tel.halved == [5] && e.tel.thermTrips == 1 && e.tide.throttles == 1) = true ∧
    does (.thermalTripClear 5 1000) (heated (fun t => { t with trips := [5], halved := [5] })) (fun e => e.tel.trips == [] && e.tel.halved == [5]) = true ∧
    does (.electricalThrottle 4951) master (fun e => e.tel.elec && e.tel.halved.length == 6 && e.tel.elecTrips == 1) = true ∧
    does (.electricalThrottleClear 4950) (heated (fun t => { t with elec := true })) (fun e => !e.tel.elec) = true ∧
    does (.hotWarning 38 1000) master (fun e => e.tel.hot && e.tel.hbmTemps[23]? == some 1000) = true ∧ does (.hotWarning 6 1000) master (fun e => e.tel.hot && e.tel.halved == []) = true ∧
    does (.coolantWarm 401) master (fun e => e.tel.warm && e.tel.alert) = true ∧ does (.coolantWarmEnd 400) (heated (fun t => { t with warm := true })) (fun e => !e.tel.warm) = true ∧
    (let t := heated (fun t => { t with vin := 0x1234, alert := true })
     does .smbReadVin t (fun e => e.out.rdBytes == [0x34, 0x12] && e.tel.alert) = true ∧ does .smbReadStatus t (fun e => e.out.rdBytes.length == 2 && !e.tel.alert) = true ∧
     does .smbReadIin t (fun e => e.out.rdBytes == [0, 0]) = true ∧ does .smbReadPin t (fun e => e.out.rdBytes == [0, 0]) = true ∧ does .smbReadTemp t (fun e => e.out.rdBytes.length == 2) = true ∧
     does .smbReadInlet t (fun e => e.out.rdBytes == [0xFF, 0xFF]) = true ∧ does .smbReadOutlet t (fun e => e.out.rdBytes == [0xFF, 0xFF]) = true ∧
     does .smbReadLastOff t (fun e => e.out.rdBytes == [0x0F]) = true ∧ does .smbReadSerial t (fun e => e.out.rdBytes == zeros 8) = true ∧ does .smbReadCapEff t (fun e => e.out.rdBytes.length == 2) = true ∧
     does (.smbUnassignedCommand 0x0B) t (fun e => e.out.rdBytes == [0xFF]) = true ∧ does (.smbUnassignedCommand 0) t (fun e => e.out.rdBytes == [0xFF]) = true ∧
     does .smbAlertResponse t (fun e => e.out.rdBytes == [0xB0] && e.tel.alert) = true) := by decide +kernel

/-! ### The whole machine -/

/-- 16 R524 to R529: a doorbell changes no fuse; LIFECYCLE_SET at the front of the queue blows DEPLOYED. -/
theorem wit_OnlySecurityCommandsBlowFuses :
    ran (exec (.mbxDoorbell 0 0 []) { dev := hosted, fuses := { floor := 3 } }) (fun t => decide (t.fuses.floor = 3)) = true := by decide +kernel
theorem wit_FusesOnlyBlowOverARun :
    FusesLegal (secure 7 [1] {} true).fuses ∧
    ran (step { secure 7 [1] {} true with pending := [.lifecycleSet] }) (fun t => t.fuses.deployed && decide (t.pending = [])) = true ∧
    ran (Host.Core.run Sys2Proof.core 2 { secure 7 [1] {} true with pending := [.lifecycleSet] }) (fun t => t.fuses.deployed) = true := by
  refine ⟨?_, by decide +kernel, by decide +kernel⟩
  unfold FusesLegal
  decide +kernel

/-- 00 R7: two bytes over a memory of two; a zero removes its cell. -/
theorem wit_AddressedBytes :
    (let m := memWrite [] 5 [1, 2]
     Memory.wf m = true ∧ memRead (memWrite m 6 [0, 7]) 5 3 = [1, 0, 7] ∧ (memWrite m 6 [0, 7]).length = 2 ∧ (3 : Nat) < 256 ^ 1) := by decide +kernel

theorem test_step_takes_the_front : ran (step { dev := master, pending := [.latchGuard, .tideEdge] }) (fun t => decide (t.pending = [.tideEdge])) = true := by decide +kernel
theorem test_step_idles : kept (step { dev := master }) { dev := master } = true := by decide +kernel
theorem test_no_row_has_bits : decodeTableWord 0 0 = none ∧ decodeTableWord 64 1 = none := by decide +kernel

/-! ### Well-formedness: a term that each check refuses, and one at the edge that it takes -/

theorem wf_refuses_parts : (([.tensorQuery 64, .mbxDoorbell 64 0 [], .subTail 4096 0 [], .outHead 4096 0, .nop 1152 0, .rasPop 2, .msixUnmask 0 2048, .d0Entry 2, .lnkLinkRetry 6 0,
    .lnkLinkRetry 0 4, .edgeMarker 6 0 {}, .packetForward 6 {} [], .straitState 6 0 {} 0 0 0, .failover 0 0 4 0, .packetEopTimeout 0 0 16, .spareReq 0 0 16 0 0, .spareReq 0 0 0 18 0,
    .laneFault 0 0 18, .bringupStepDone 0 {}, .bringupStepDone 12 {}, .bringupStepTimeout 0 0, .accBankThreshold 0 8 false, .coreLost 6 0 0, .coreLost 0 208 0, .coreFillComplete 6 true 0,
    .controlCoreLost 16, .reductionUnitFailure 2 0, .reductionUnitFailure 0 36, .stackLost 24, .powerDomainFault 20, .thermalTrip 6 0, .hotWarning 39 0, .converterStop 16 true,
    .causewayLaneFail 256 0, .causewayLaneFail 0 256] : List Instr).all (fun i => !i.wf)) = true := by decide +kernel
theorem wf_refuses_fields : (([.run 0 (2 ^ 64), .solve 0 0 (2 ^ 32) 0, .solve 0 0 0 (2 ^ 32), .update 0 0 (2 ^ 32), .chunkStart 0 0 (2 ^ 32), .configRequest 256 false 0 0, .rcRegisterRead 0 (2 ^ 64),
    .bar2Read (2 ^ 64) 1, .bar2Read 0 4097, .bar2Write 0 (zeros 4097), .registerWrite 0 0 (zeros 4097), .data {} {} (zeros 4033), .join { x := 64 } {}, .join { y := 64 } {}, .join { z := 64 } {},
    .adoptReq {} 0 0 { x := 64 }, .pairReply {} {} 256, .adoptReply {} 256, .decisionReq {} (2 ^ 32), .ferryAck {} 0 (2 ^ 32), .ferryResendTimer (2 ^ 32), .adopted 0 (2 ^ 32) {} 0 0,
    .adopted 0 0 {} 0 (2 ^ 64), .qualifyWindowEnd 0 0 (2 ^ 64) [], .unitTestComplete (2 ^ 32) {}, .resaltStart (2 ^ 32), .scrubComplete (2 ^ 32), .vinLow 65536, .hotWarning 0 65536,
    .electricalThrottle 65536, .coolantWarm 65536, .coreLost 0 0 256] : List Instr).all (fun i => !i.wf)) = true := by decide +kernel
theorem wf_takes_edges : (([.tensorQuery 63, .subTail 4095 0 [], .nop 1151 0, .msixUnmask 1 2047, .lnkLinkRetry 5 3, .spareReq 5 3 15 17 0, .bringupStepDone 11 {}, .accBankThreshold 1151 7 true,
    .coreLost 5 207 0, .controlCoreLost 15, .reductionUnitFailure 1 35, .stackLost 23, .powerDomainFault 19, .hotWarning 38 1000, .data { x := 63, y := 63, z := 63 } {} (zeros 4032),
    .run 4095 (2 ^ 64 - 1)] : List Instr).all Instr.wf) = true := by decide +kernel

end Sys2Proof.Tests
end

section
/-! Addressed bytes: what a read of a string sees, that a canonical memory is determined by its bytes, and little-endian numbers (00 R7). -/
namespace Sys2Proof.Proofs
open Sys2Proof Sys2Proof.Machine Sys2Proof.Laws

/-! ### Reads -/

theorem memGet_cons (k : Nat) (b : Byte) (t : Mem) (a : Nat) : memGet ((k, b) :: t) a = if k = a then b else memGet t a := rfl

/-- A read takes each byte at its address, whether or not any is listed. -/
theorem memRead_eq_map (m : Mem) (a n : Nat) : memRead m a n = (List.range n).map (fun i => memGet m (a + i)) := by
  have near (i : Nat) (hi : i < n) : memGet (m.filter (fun c => a ≤ c.1 && c.1 < a + n)) (a + i) = memGet m (a + i) :=
    memGet_filter _ (fun b => by simp [hi])
  have agree : (List.range n).map (fun i => memGet (m.filter (fun c => a ≤ c.1 && c.1 < a + n)) (a + i)) =
      (List.range n).map (fun i => memGet m (a + i)) :=
    List.map_congr_left (fun i hi => near i (List.mem_range.mp hi))
  simp only [memRead]
  split
  case isTrue hnone => rw [← agree, List.isEmpty_iff.mp hnone]; simp [memGet, zeros]
  case isFalse => exact agree

@[simp] theorem length_memRead (m : Mem) (a n : Nat) : (memRead m a n).length = n := by simp [memRead_eq_map]

@[simp] theorem memRead_one (m : Mem) (x : Nat) : memRead m x 1 = [memGet m x] := by simp [memRead_eq_map]

/-- Reading the stored range gives the stored bytes. -/
@[simp] theorem memRead_memWrite_same (m : Mem) (a : Nat) (bs : Bytes) : memRead (memWrite m a bs) a bs.length = bs := by
  refine List.ext_getElem (by simp) fun i _ hi => ?_
  simp [memRead_eq_map, memGet_memWrite_in m a bs i hi, hi]

/-- A store of no bytes changes nothing. -/
@[simp] theorem memWrite_zero_nil (m : Mem) : memWrite m 0 [] = m := by simp [memWrite, cellsFrom]

/-! ### A canonical memory is its bytes -/

/-- In a canonical memory every address below the first listed one reads 0. -/
theorem memGet_below_head {a x : Nat} {b : Byte} {t : Mem} (h : Memory.wf ((a, b) :: t) = true) (hx : x < a) :
    memGet ((a, b) :: t) x = 0 := by
  obtain ⟨-, hrise, -⟩ := wf_cons.mp h
  refine memGet_absent fun c hc => ?_
  rcases List.mem_cons.mp hc with rfl | hc
  · exact Nat.ne_of_gt hx
  · exact Nat.ne_of_gt (hx.trans (hrise c hc))

/-- The first listed address of a canonical memory is listed first in each canonical memory with the same bytes. -/
theorem head_le_of_memGet_eq {a k : Nat} {b e : Byte} {t u : Mem} (h : Memory.wf ((a, b) :: t) = true) (h' : Memory.wf ((k, e) :: u) = true)
    (heq : memGet ((k, e) :: u) a = memGet ((a, b) :: t) a) : k ≤ a := by
  by_contra hlt
  rw [memGet_below_head h' (by omega), memGet_cons, if_pos rfl] at heq
  exact (wf_cons.mp h).1 heq.symm

/-- Two canonical memories whose every byte is the same are equal. -/
theorem wf_ext {m : Mem} : ∀ {m' : Mem}, Memory.wf m = true → Memory.wf m' = true → (∀ x, memGet m' x = memGet m x) → m' = m := by
  induction m with
  | nil =>
    intro m' _ h' heq
    cases m' with
    | nil => rfl
    | cons c u => exact absurd (by simpa [memGet] using heq c.1) (wf_cons.mp h').1
  | cons c t ih =>
    obtain ⟨a, b⟩ := c
    intro m' h h' heq
    cases m' with
    | nil => exact absurd (by simpa [memGet] using (heq a).symm) (wf_cons.mp h).1
    | cons c' u =>
      obtain ⟨k, e⟩ := c'
      obtain rfl : k = a := Nat.le_antisymm (head_le_of_memGet_eq h h' (heq a)) (head_le_of_memGet_eq h' h (heq k).symm)
      obtain rfl : e = b := by simpa [memGet_cons] using heq k
      obtain ⟨-, hrise, hw⟩ := wf_cons.mp h
      obtain ⟨-, hrise', hw'⟩ := wf_cons.mp h'
      rw [ih hw hw' fun x => ?_]
      by_cases hx : k = x
      · rw [memGet_absent fun c hc => Nat.ne_of_gt (hx ▸ hrise' c hc), memGet_absent fun c hc => Nat.ne_of_gt (hx ▸ hrise c hc)]
      · simpa [memGet_cons, hx] using heq x

/-- A later store of the same range leaves nothing of the earlier one. -/
theorem memWrite_memWrite {m : Mem} (h : Memory.wf m = true) (a : Nat) {bs cs : Bytes} (hlen : cs.length = bs.length) :
    memWrite (memWrite m a bs) a cs = memWrite m a cs := by
  refine wf_ext (wf_memWrite h a cs) (wf_memWrite (wf_memWrite h a bs) a cs) fun x => ?_
  by_cases hx : x < a ∨ a + cs.length ≤ x
  · rw [memGet_memWrite_out _ _ _ _ hx, memGet_memWrite_out _ _ _ _ hx, memGet_memWrite_out _ _ _ _ (hlen ▸ hx)]
  · obtain ⟨i, rfl⟩ := Nat.exists_eq_add_of_le (show a ≤ x by omega)
    have hi : i < cs.length := by omega
    rw [memGet_memWrite_in _ _ _ _ hi, memGet_memWrite_in _ _ _ _ hi]

/-! ### Little-endian numbers -/

@[simp] theorem length_toLe (n v : Nat) : (toLe n v).length = n := by
  induction n generalizing v with
  | zero => rfl
  | succ n ih => simp [toLe, ih]

/-- The bytes of a number that fits spell that number. -/
theorem ofLe_toLe {n v : Nat} (h : v < 256 ^ n) : ofLe (toLe n v) = v := by
  induction n generalizing v with
  | zero => simp at h; simp [toLe, ofLe, h]
  | succ n ih =>
    have hrest : v / 256 < 256 ^ n := Nat.div_lt_of_lt_mul (by rwa [pow_succ, Nat.mul_comm] at h)
    have hlow : (BitVec.ofNat 8 v).toNat = v % 256 := by simp
    simp only [toLe, ofLe, ih hrest, hlow]
    exact Nat.mod_add_div v 256

/-- Settles O7: the byte-store laws, from the reads after a store and from extensionality of canonical memories. -/
theorem addressedBytes : Obligations.AddressedBytes := by
  intro m a bs h
  refine ⟨wf_memWrite h a bs, memRead_memWrite_same m a bs, fun x hx => ?_, fun cs hlen => memWrite_memWrite h a hlen,
    fun n v hv => ?_, fun m' h' heq => wf_ext h h' fun x => ?_⟩
  · simp [memGet_memWrite_out m a bs x hx]
  · have hread := memRead_memWrite_same m a (toLe n v)
    rw [length_toLe] at hread
    rw [hread, ofLe_toLe hv]
  · simpa using heq x

end Sys2Proof.Proofs
end

section
/-! Mailbox commands that name an object by a handle (00 R11, 03 R80). -/
namespace Sys2Proof.Proofs
open Sys2Proof Sys2Proof.Machine Sys2Proof.Laws

/-- A command that looks its handle up first is refused for a stale one, and nothing else changes. A look-up of a tensor
(`withTensor`) is one of a handle of kind 2, so this covers it too. -/
theorem eff_withHandle_stale {m op kind off : Nat} {s : State} (f : Dev → Bytes → Nat → MRes) (h : Asks s.dev m op)
    (hk : handleOk s.dev kind (BitVec.ofNat 64 (fieldLe (request s.dev m) off 8)) = false) :
    eff (mbxRow m op (fun d c => withHandle d kind c off (f d c))) s = .next (s.refused m rBadHandle off) :=
  eff_mbxRow_no h (withHandle_no hk)

/-- Settles O33: each listed command looks the handle at offset 16 up before anything else, so the one refusal covers them all. -/
theorem staleHandlesAreRefused : Obligations.StaleHandlesAreRefused := by
  intro s m i op kind hi hasks hstale
  simp only [List.mem_cons, Prod.mk.injEq, List.not_mem_nil, or_false] at hi
  rcases hi with h | h | h | h | h | h | h | h | h | h | h | h | h | h | h | h | h | h | h | h | h | h
  all_goals
    obtain ⟨rfl, rfl, rfl⟩ := h
    exact eff_withHandle_stale _ hasks hstale

end Sys2Proof.Proofs
end

section
/-! Register reads and writes (00 R8): what each row does to the field that it names. -/
namespace Sys2Proof.Proofs
open Sys2Proof Sys2Proof.Machine Sys2Proof.Laws

/-! ### Rows that act on the device alone -/

theorem eff_eq_onDev {f g : Dev → Dev} {s : State} (h : f s.dev = g s.dev) : eff f s = .next (s.onDev g) := by
  simp only [eff, State.onDev, h]

theorem eff_eq_dev {f : Dev → Dev} {s : State} {d : Dev} (h : f s.dev = d) : eff f s = .next { s with dev := d } :=
  eff_eq_onDev (g := fun _ => d) h

theorem eff_idle {f : Dev → Dev} {s : State} (h : f s.dev = s.dev) : eff f s = .next s := eff_eq_dev h

/-! ### Which functions take the access -/

theorem pf1Open_iff {d : Dev} : pf1Open d = true ↔ pf1Up d = true ∧ d.frz.frozen = false := by simp [pf1Open]

theorem pf0Writes_iff {d : Dev} : pf0Writes d = true ↔ pf0Up d = true ∧ d.frz.frozen = false := by simp [pf0Writes]

theorem pf0Writes_shut {d : Dev} (h : pf0Up d = false ∨ d.frz.frozen = true) : pf0Writes d = false := by
  rcases h with h | h <;> simp [pf0Writes, h]

/-! ### The firmware window (14 R473) -/

theorem writeFwl_taken {off : Nat} {bs : Bytes} {d : Dev} (ho : pf1Open d = true) (hl : d.brg.fwlLocked = false) (ha : off % 4 = 0)
    (hn : bs.length % 4 = 0) (he : off + bs.length ≤ 16777216) :
    writeFwl off bs d = { d with brg := { d.brg with fwl := memWrite d.brg.fwl off bs } } := by
  simp [writeFwl, ho, hl, ha, hn, he]

theorem writeFwl_dropped {off : Nat} {bs : Bytes} {d : Dev} (h : pf1Open d = false ∨ d.brg.fwlLocked = true ∨ off % 4 ≠ 0 ∨
    bs.length % 4 ≠ 0 ∨ 16777216 < off + bs.length) : writeFwl off bs d = d := by
  refine if_neg fun hall => ?_
  simp only [Bool.and_eq_true, Bool.not_eq_true', decide_eq_true_eq] at hall
  obtain ⟨⟨⟨⟨ho, hl⟩, ha⟩, hn⟩, he⟩ := hall
  rcases h with h | h | h | h | h
  · simp [ho] at h
  · simp [hl] at h
  · exact h ha
  · exact h hn
  · omega

/-! ### The queues of records and the reset ledger (13 R464, 15 R517) -/

theorem onRas_pf1 {f : RasQueue → RasQueue} {d : Dev} (h : pf1Open d = true) :
    onRas 1 f d = { d with ras := { d.ras with pf1 := f d.ras.pf1 } } := by simp [onRas, h]

theorem onRas_pf0 {f : RasQueue → RasQueue} {d : Dev} (h : pf0Writes d = true) :
    onRas 0 f d = { d with ras := { d.ras with pf0 := f d.ras.pf0 } } := by simp [onRas, h]

theorem onRas_pf1_shut {f : RasQueue → RasQueue} {d : Dev} (h : pf1Open d = false) : onRas 1 f d = d := by simp [onRas, h]

theorem onRas_pf0_shut {f : RasQueue → RasQueue} {d : Dev} (h : pf0Writes d = false) : onRas 0 f d = d := by simp [onRas, h]

theorem clearStorm_low {q : RasQueue} (h : q.recs.length ≤ 128) : clearStorm q = { q with storm := false } := if_pos h

theorem clearStorm_high {q : RasQueue} (h : 128 < q.recs.length) : clearStorm q = q := if_neg (Nat.not_le.mpr h)

theorem clearLedger_complete {d : Dev} (hc : d.rst.complete = true) (hp : d.rst.inProgress = false) :
    clearLedger d = { d with rst := { d.rst with entries := [] } } := by simp [clearLedger, hc, hp]

theorem clearLedger_running {d : Dev} (h : d.rst.complete = false ∨ d.rst.inProgress = true) : clearLedger d = d := by
  rcases h with h | h <;> simp [clearLedger, h]

/-! ### MSI-X (15 R508) -/

@[simp] theorem msixEntry_setEntry_same (v : Nat) (e : MsixEntry) (f : PcieFn) : msixEntry (setEntry v e f) v = e := by
  unfold setEntry msixEntry
  split
  case isTrue he => simp [he]
  case isFalse => simp

/-- The one pending vector, unmasked while PF0 may send, sends its message and is pending no longer. -/
theorem firePending0_single {d : Dev} {v : Nat} (hp : d.pf0.pba = [v]) (hm : msixMasked d.pf0 v = false) (hr : pf0Requests d = true) :
    firePending0 d = { d with pf0 := { d.pf0 with pba := [] }, out := { d.out with msgs := d.out.msgs ++ [(0, v)] } } := by
  have hm' : msixMasked { d.pf0 with pba := [] } v = false := hm
  have hr' : pf0Requests { d with pf0 := { d.pf0 with pba := [] } } = true := hr
  simp [firePending0, sortByKey, insertBy, hp, hm, fire0, hm', hr']

/-- The one pending vector sends when its entry is written unmasked. -/
theorem firePending0_setEntry {d : Dev} {v : Nat} {e : MsixEntry} (hp : d.pf0.pba = [v]) (hf : d.pf0.fnMask = false)
    (he : e.mask = false) (hr : pf0Requests d = true) :
    firePending0 { d with pf0 := setEntry v e d.pf0 } =
      { d with pf0 := { setEntry v e d.pf0 with pba := [] }, out := { d.out with msgs := d.out.msgs ++ [(0, v)] } } := by
  have hfn : (setEntry v e d.pf0).fnMask = false := hf
  exact firePending0_single (d := { d with pf0 := setEntry v e d.pf0 }) hp (by simp [msixMasked, hfn, he]) hr

theorem exec_msixUnmask_pf0 {s : State} {v : Nat} (h : pf0Writes s.dev = true) (hv : v < 2048) :
    exec (.msixUnmask 0 v) s = .next (s.onDev (fun d =>
      firePending0 { d with pf0 := setEntry v { msixEntry d.pf0 v with mask := false } d.pf0 })) :=
  eff_eq_onDev (by simp [h, hv])

theorem exec_msixUnmask_pf1 {s : State} {v : Nat} (h : pf1Open s.dev = true) (hv : v < 64) :
    exec (.msixUnmask 1 v) s = .next (s.onDev (fun d =>
      firePending1 { d with pf1 := setEntry v { msixEntry d.pf1 v with mask := false } d.pf1 })) :=
  eff_eq_onDev (by simp [h, hv])

theorem exec_msixUnmask_past_table {s : State} {pf v : Nat} (hv : 2048 ≤ v) : exec (.msixUnmask pf v) s = .next s :=
  eff_idle (by simp [show ¬ v < 2048 by omega, show ¬ v < 64 by omega])

/-! ### Reads of PF1 (00 R8) -/

theorem exec_rcRegisterRead_pf1 {s : State} (h : pf1Open s.dev = true) (off : Nat) :
    exec (.rcRegisterRead 1 off) s = .next (s.onDev (fun d => clearPf1 (off / 4 * 4) (answered (readPf1 s.fuses d (off / 4 * 4)) d))) := by
  obtain ⟨hu, hf⟩ := pf1Open_iff.mp h
  exact eff_eq_onDev (by simp [hu, hf])

theorem readPf1_tid (f : Fuses) (d : Dev) {off : Nat} (hlo : 0x28000 ≤ off) (hhi : off < 0x30000) :
    readPf1 f d off = tidWord d (off - 0x28000) := by
  unfold readPf1
  repeat rw [if_neg (by omega)]
  exact if_pos ⟨hlo, hhi⟩

theorem pack_two (a b i : Nat) : pack [(a, i), (b, 0)] = b + a * 2 ^ i := by simp [pack, Nat.add_comm]

theorem readPf1_tideStats (f : Fuses) (d : Dev) : readPf1 f d 0x28028 = d.tide.overruns + d.tide.throttles * 2 ^ 16 := by
  rw [readPf1_tid f d (by decide) (by decide)]
  exact pack_two _ _ _

theorem clearPf1_tideStats (v : Nat) (d : Dev) : clearPf1 0x28028 (answered v d) = { d with
    tide := { d.tide with throttles := 0, overruns := 0 }, out := { d.out with rd := BitVec.ofNat 64 v, cpl := 1 } } := rfl

/-- A read of an aligned word answers it, then clears what it clears. -/
theorem exec_rcRegisterRead_word {s : State} (h : pf1Open s.dev = true) {off v : Nat} {g : Dev → Dev} (ha : off % 4 = 0)
    (hv : readPf1 s.fuses s.dev off = v) (hg : clearPf1 off (answered v s.dev) = g s.dev) :
    exec (.rcRegisterRead 1 off) s = .next (s.onDev g) := by
  have halign : off / 4 * 4 = off := by omega
  rw [exec_rcRegisterRead_pf1 h, halign]
  exact eff_eq_onDev (by rw [hv, hg])

theorem readPf1_rasLost (f : Fuses) (d : Dev) : readPf1 f d 0x18004 = d.ras.pf1.lost := by simp [readPf1, rasWord]

theorem readPf1_lnk (f : Fuses) (d : Dev) {off : Nat} (hlo : 0x20000 ≤ off) (hhi : off < 0x28000) :
    readPf1 f d off = lnkWord d (off - 0x20000) := by
  unfold readPf1
  repeat rw [if_neg (by omega)]
  exact if_pos ⟨hlo, hhi⟩

/-- The address of a register of a link in PF1 BAR0 (11 R399). -/
def linkReg (st ln r : Nat) : Nat := 0x21000 + st * 0x800 + ln * 0x200 + r

/-- The offset of a link's register in the LNK_ block spells its strait, its link and the register. -/
theorem linkReg_fields {st ln r : Nat} (hl : ln < 4) (hr : r < 0x200) :
    (linkReg st ln r - 0x21000) / 0x800 = st ∧ (linkReg st ln r - 0x21000) / 0x200 % 4 = ln ∧ linkReg st ln r % 0x200 = r := by
  unfold linkReg
  omega

theorem linkReg_range {st ln r : Nat} (hs : st < 6) (hl : ln < 4) (hr : r < 0x200) :
    0x21000 ≤ linkReg st ln r ∧ linkReg st ln r < 0x24000 := by
  unfold linkReg
  omega

theorem readPf1_linkReg (f : Fuses) (d : Dev) {st ln r : Nat} (hs : st < 6) (hl : ln < 4) (hr : r < 0x200) :
    readPf1 f d (linkReg st ln r) = linkWord d st ln r := by
  obtain ⟨hlo, hhi⟩ := linkReg_range hs hl hr
  obtain ⟨hst, hln, hreg⟩ := linkReg_fields (st := st) hl hr
  have hreg' : (linkReg st ln r - 0x20000) % 0x200 = r := by omega
  rw [readPf1_lnk f d (by omega) (by omega)]
  simp only [lnkWord]
  rw [if_neg (by omega), if_pos (by omega), Nat.sub_sub, hst, hln, hreg']

theorem clearPf1_linkReg (d : Dev) {st ln r : Nat} (hs : st < 6) (hl : ln < 4) (hr : r < 0x200) :
    clearPf1 (linkReg st ln r) d = setLink st ln (clearLink (linkOf d st ln) r) d := by
  obtain ⟨hlo, hhi⟩ := linkReg_range hs hl hr
  obtain ⟨hst, hln, hreg⟩ := linkReg_fields (st := st) hl hr
  simp only [clearPf1]
  repeat rw [if_neg (by omega)]
  rw [if_pos ⟨hlo, hhi⟩, hst, hln, hreg]

/-- A read of a link's register answers its word and clears what the register's kind clears. -/
theorem exec_rcRegisterRead_linkReg {s : State} (h : pf1Open s.dev = true) {st ln r : Nat} (hs : st < 6) (hl : ln < 4)
    (hr : r < 0x200) (ha : r % 4 = 0) :
    exec (.rcRegisterRead 1 (linkReg st ln r)) s = .next (s.onDev (fun d =>
      setLink st ln (clearLink (linkOf d st ln) r) (answered (linkWord d st ln r) d))) := by
  have halign : linkReg st ln r % 4 = 0 := by unfold linkReg; omega
  exact exec_rcRegisterRead_word h halign (readPf1_linkReg _ _ hs hl hr) (clearPf1_linkReg _ hs hl hr)

/-! ### Writes of one word (15 R501) -/

theorem writeWords_word (f : Nat → BitVec 32 → Dev → Dev) {off : Nat} (v : BitVec 32) (d : Dev) (ha : off % 4 = 0) :
    writeWords f off (toLe 4 v.toNat) d = f off v d := by
  have hw : Machine.fieldLe (toLe 4 v.toNat) 0 4 = v.toNat := by
    have hs : slice (toLe 4 v.toNat) 0 4 = toLe 4 v.toNat := by simp [slice, toLe]
    rw [Machine.fieldLe, hs, ofLe_toLe (by have := v.isLt; omega)]
  simp [writeWords, ha, hw]

theorem exec_registerWrite_pf0_word {s : State} {off : Nat} {v : BitVec 32} {g : Dev → Dev} (h : pf0Writes s.dev = true)
    (ha : off % 4 = 0) (hout : off < 0x20000 ∨ 0x120000 ≤ off) (hg : writePf0 off v s.dev = g s.dev) :
    exec (.registerWrite 0 off (toLe 4 v.toNat)) s = .next (s.onDev g) := by
  have hout' : ¬ (0x20000 ≤ off ∧ off < 0x120000 ∧ off + (toLe 4 v.toNat).length ≤ 0x120000 ∧ (toLe 4 v.toNat).length ≤ 16384) := by
    omega
  refine eff_eq_onDev ?_
  simp only [regWrite0, h, Bool.not_true, Bool.false_eq_true, if_false, if_neg hout', if_true]
  rw [writeWords_word _ _ _ ha, hg]

theorem exec_registerWrite_pf1_word {s : State} {off : Nat} {v : BitVec 32} {g : Dev → Dev} (h : pf1Open s.dev = true)
    (ha : off % 4 = 0) (hg : writePf1 off v s.dev = g s.dev) :
    exec (.registerWrite 1 off (toLe 4 v.toNat)) s = .next (s.onDev g) := by
  obtain ⟨hu, hf⟩ := pf1Open_iff.mp h
  exact eff_eq_onDev (by simp [regWrite1, hu, hf, writeWords_word _ _ _ ha, hg])

theorem writePf0_mbxVector {m : Nat} (hm : m < 64) (v : BitVec 32) (d : Dev) :
    writePf0 (0x10008 + 32 * m) v d = setMbx m { mbx d m with enable := v.getLsbD 15, vector := v.extractLsb' 0 11 } d := by
  have hidx : (0x10008 + 32 * m - 0x10000) / 32 = m := by omega
  have hreg : (0x10008 + 32 * m - 0x10000) % 32 = 8 := by omega
  unfold writePf0
  rw [if_pos (by omega)]
  simp only [writeMbx, hidx, hreg, if_neg (Nat.not_le.mpr hm)]

theorem writePf1_rasControl (v : BitVec 32) (d : Dev) : writePf1 0x1800C v d = { d with ras := { d.ras with pf1 := { d.ras.pf1 with
    enable := v.getLsbD 15, minSev := v.toNat / 2 ^ 11 % 16, vector := v.extractLsb' 0 11 } } } := rfl

theorem writePf1_position (v : BitVec 32) (d : Dev) :
    writePf1 0x20004 v d = lnkRws 4 (d.lnk.pos == posOfReg v) (fun l => { l with pos := posOfReg v }) d := rfl

/-- The position register is RWS (11 R399): a new value is taken while its block is stopped. -/
theorem writePf1_position_stopped {v : BitVec 32} {d : Dev} (hne : d.lnk.pos ≠ posOfReg v) (h : d.lnk.run = false) :
    writePf1 0x20004 v d = { d with lnk := { d.lnk with pos := posOfReg v } } := by
  simp [writePf1_position, lnkRws, hne, h]

/-- The position register is RWS (11 R399): a new value is rejected and logged while its block runs (02 R64). -/
theorem writePf1_position_running {v : BitVec 32} {d : Dev} (hne : d.lnk.pos ≠ posOfReg v) (h : d.lnk.run = true) :
    writePf1 0x20004 v d = logInfo 0x0001 0x20004 { d with lnk := { d.lnk with writeRejected := true } } := by
  simp [writePf1_position, lnkRws, hne, h, rejectLnk]

/-! ### Request areas (03 R69) -/

theorem mbx_setMbx_same (m : Nat) (b : Mailbox) (d : Dev) : mbx (setMbx m b d) m = b := by simp [mbx]

theorem mbx_setMbx_other {m n : Nat} (b : Mailbox) (d : Dev) (h : n ≠ m) : mbx (setMbx m b d) n = mbx d n := by
  simp [mbx, aGet_aSet_other _ _ _ _ h]

theorem regWrite0_requests {off : Nat} {bs : Bytes} {d : Dev} (h : pf0Writes d = true) (hlo : 0x20000 ≤ off)
    (hhi : off + bs.length ≤ 0x120000) (hlen : 0 < bs.length ∧ bs.length ≤ 16384) : regWrite0 off bs d = writeRequests off bs d := by
  obtain ⟨hpos, hlen⟩ := hlen
  simp only [regWrite0, h, Bool.not_true, Bool.false_eq_true, if_false, if_pos (show 0x20000 ≤ off ∧ off < 0x120000 ∧
    off + bs.length ≤ 0x120000 ∧ bs.length ≤ 16384 by omega)]

/-- A write that stays within one request area stores its bytes there and changes no other part of the device. -/
theorem writeRequests_within {m off : Nat} {bs : Bytes} (d : Dev) (hm : m < 64) (hoff : off < 16384) (hfit : off + bs.length ≤ 16384) :
    ∃ x, writeRequests (0x20000 + 16384 * m + off) bs d = { d with mbx := x } ∧
      (mbx { d with mbx := x } m).req = memWrite (mbx d m).req off bs := by
  have hidx : (0x20000 + 16384 * m + off - 0x20000) / 16384 = m := by omega
  have hpos : (0x20000 + 16384 * m + off - 0x20000) % 16384 = off := by omega
  have htake : bs.take (16384 - off) = bs := List.take_of_length_le (by omega)
  have hdrop : bs.drop (16384 - off) = [] := List.drop_eq_nil_of_le (by omega)
  simp only [writeRequests, hidx, hpos, htake, hdrop, memWrite_zero_nil, if_pos hm]
  have hown : (mbx (setMbx m { mbx d m with req := memWrite (mbx d m).req off bs } d) m).req = memWrite (mbx d m).req off bs := by
    rw [mbx_setMbx_same]
  split
  case isTrue => exact ⟨_, rfl, (congrArg Mailbox.req (mbx_setMbx_other _ _ (by omega))).trans hown⟩
  case isFalse => exact ⟨_, rfl, hown⟩

/-- Settles O41: every clause is one row's effect under the access kind of the field that it names. -/
theorem registerRowsActUnderTheirKinds : Obligations.RegisterRowsActUnderTheirKinds := by
  intro s d
  have open0 (hu : pf0Up d = true) (hf : d.frz.frozen = false) : pf0Writes d = true := pf0Writes_iff.mpr ⟨hu, hf⟩
  refine ⟨fun off bs ho hl ha hn he => eff_eq_onDev (writeFwl_taken ho hl ha hn he),
    fun off bs h => eff_idle (writeFwl_dropped h),
    fun h => ⟨eff_idle (onRas_pf1_shut h), eff_idle (onRas_pf1_shut h), eff_idle (if_neg (ne_true_of_eq_false h))⟩,
    fun h => ⟨eff_idle (onRas_pf0_shut (pf0Writes_shut h)), eff_idle (onRas_pf0_shut (pf0Writes_shut h))⟩,
    fun h hr => eff_idle ((if_pos h).trans (clearLedger_running hr)),
    fun v => ⟨fun hu hf hv => exec_msixUnmask_pf0 (open0 hu hf) hv, fun ho hv => exec_msixUnmask_pf1 ho hv,
      fun hv pf => exec_msixUnmask_past_table hv⟩,
    fun hu hf => eff_eq_onDev (onRas_pf0 (open0 hu hf)),
    fun h => eff_eq_onDev (if_neg (ne_true_of_eq_false h)),
    fun h => eff_eq_onDev (onRas_pf1 h),
    fun hu hf => eff_eq_onDev (onRas_pf0 (open0 hu hf)),
    fun h hq => eff_eq_onDev ((onRas_pf1 h).trans (by rw [clearStorm_low hq])),
    fun h hq => eff_idle ((onRas_pf1 h).trans (by rw [clearStorm_high hq])),
    fun h hc hp => eff_eq_onDev ((if_pos h).trans (clearLedger_complete hc hp)),
    fun v hv hu hf hmask hreq hpba => ?unmaskSends,
    fun h => eff_eq_onDev (if_pos h),
    fun h => ⟨?tideStats, ?rasLost, fun off => exec_rcRegisterRead_pf1 h off, fun st ln hs hl => ?delay, fun st ln hs hl => ?crc⟩,
    fun v => ⟨fun hu hf m hm => ?mbxVector, fun hu hf m off bs hm hfit hne => ?request, fun h => ?rasControl,
      fun h hpos => ⟨fun hr => ?positionSet, fun hr => ?positionRejected⟩⟩⟩
  case unmaskSends =>
    have hsend := firePending0_setEntry (e := { msixEntry d.pf0 v with mask := false }) hpba hmask rfl hreq
    exact ⟨_, (exec_msixUnmask_pf0 (open0 hu hf) hv).trans (eff_eq_dev hsend),
      congrArg MsixEntry.mask (msixEntry_setEntry_same v _ d.pf0), rfl, rfl⟩
  case tideStats => exact exec_rcRegisterRead_word h rfl (readPf1_tideStats _ _) (clearPf1_tideStats _ _)
  case rasLost => exact exec_rcRegisterRead_word h rfl (readPf1_rasLost _ _) rfl
  case delay => exact ⟨_, exec_rcRegisterRead_linkReg h hs hl (r := 0x08) (by omega) rfl, rfl⟩
  case crc => exact exec_rcRegisterRead_linkReg h hs hl (r := 0x30) (by omega) rfl
  case mbxVector => exact exec_registerWrite_pf0_word (open0 hu hf) (by omega) (by omega) (writePf0_mbxVector hm v d)
  case request =>
    have hlen : 0 < bs.length := List.length_pos_iff.mpr hne
    obtain ⟨x, hx, hreq⟩ := writeRequests_within (off := off) d hm (by omega) hfit
    exact ⟨_, eff_eq_dev ((regWrite0_requests (open0 hu hf) (by omega) (by omega) (by omega)).trans hx), hreq, rfl⟩
  case rasControl => exact exec_registerWrite_pf1_word h rfl (writePf1_rasControl v d)
  case positionSet => exact exec_registerWrite_pf1_word h rfl (writePf1_position_stopped hpos hr)
  case positionRejected => exact exec_registerWrite_pf1_word h rfl (writePf1_position_running hpos hr)

end Sys2Proof.Proofs
end

section
/-! The combination of a subtree's contributions (02 R56): what each of its fields says, and that it does not depend on the order of the
children. -/
namespace Sys2Proof.Proofs
open Sys2Proof Sys2Proof.Machine Sys2Proof.Laws

/-! ### Mixed parts -/

/-- An open step meets idleness or another open step. -/
def Mixed (all : List Contribution) : Prop :=
  (∃ x ∈ all, x.idle = false) ∧
    ((∃ x ∈ all, x.idle = true) ∨ ∃ x ∈ all, ∃ y ∈ all, x.idle = false ∧ y.idle = false ∧ x.step ≠ y.step)

theorem mixed_congr {l m : List Contribution} (h : ∀ x, x ∈ l ↔ x ∈ m) : Mixed l ↔ Mixed m := by simp only [Mixed, h]

/-- The step of the first open contribution. -/
def firstStep (all : List Contribution) : BitVec 16 := (((all.filter (fun c => !c.idle)).head?).map (·.step)).getD 0

/-- How a combination detects that its parts are mixed. -/
def mixedVotes (all : List Contribution) : Bool :=
  let opens := all.filter (fun c => !c.idle)
  !opens.isEmpty && (all.any (·.idle) || opens.any (fun c => c.step != firstStep all))

/-- Where one contribution is open, the first open step is the step of an open contribution. -/
theorem firstStep_mem {all : List Contribution} (h : ∃ x ∈ all, x.idle = false) :
    ∃ x ∈ all, x.idle = false ∧ x.step = firstStep all := by
  obtain ⟨x, hx, hi⟩ := h
  cases hopens : all.filter (fun c => !c.idle) with
  | nil => exact absurd (List.mem_filter.mpr ⟨hx, by simp [hi]⟩) (hopens ▸ List.not_mem_nil)
  | cons y t =>
    have hy : y ∈ all.filter (fun c => !c.idle) := hopens ▸ List.mem_cons_self
    obtain ⟨hmem, hyi⟩ := List.mem_filter.mp hy
    exact ⟨y, hmem, by simpa using hyi, by simp [firstStep, hopens]⟩

/-- Some open contribution differs from the first open one exactly where two open ones differ. -/
theorem mixedVotes_iff (all : List Contribution) : mixedVotes all = true ↔ Mixed all := by
  have hopen : (!(all.filter (fun c => !c.idle)).isEmpty) = true ↔ ∃ x ∈ all, x.idle = false := by simp
  have hdiffers : (all.filter (fun c => !c.idle)).any (fun c => c.step != firstStep all) = true ↔
      ∃ x ∈ all, x.idle = false ∧ x.step ≠ firstStep all := by simp
  simp only [mixedVotes, Mixed, Bool.and_eq_true, Bool.or_eq_true, hopen, hdiffers, List.any_eq_true]
  refine and_congr_right fun h => or_congr_right ⟨fun hd => ?_, fun hd => ?_⟩
  · obtain ⟨x, hx, hxi, hne⟩ := hd
    obtain ⟨y, hy, hyi, hfirst⟩ := firstStep_mem h
    exact ⟨x, hx, y, hy, hxi, hyi, hfirst ▸ hne⟩
  · obtain ⟨x, hx, y, hy, hxi, hyi, hne⟩ := hd
    by_cases h : x.step = firstStep all
    · exact ⟨y, hy, hyi, fun hsame => hne (h.trans hsame.symm)⟩
    · exact ⟨x, hx, hxi, h⟩

/-! ### What each field of a combination says -/

theorem combineVotes_eq (own : Contribution) (kids : List Contribution) (missing : Bool) :
    combineVotes own kids missing =
      { step := if (own :: kids).any (·.idle) then 0 else firstStep (own :: kids)
        idle := (own :: kids).any (·.idle)
        ready := !missing && (own :: kids).all (fun c => c.ready || c.idle)
        no := missing || mixedVotes (own :: kids) || (own :: kids).any (·.no)
        cause := (own :: kids).foldl (fun a c => a ||| c.cause) 0 ||| (if missing then 8 else 0) |||
          (if mixedVotes (own :: kids) then 16 else 0) } := rfl

theorem combineVotes_no (own : Contribution) (kids : List Contribution) (missing : Bool) :
    (combineVotes own kids missing).no = true ↔ missing = true ∨ Mixed (own :: kids) ∨ ∃ x ∈ own :: kids, x.no = true := by
  simp only [combineVotes_eq, Bool.or_eq_true, mixedVotes_iff, List.any_eq_true, or_assoc]

theorem combineVotes_idle (own : Contribution) (kids : List Contribution) (missing : Bool) :
    (combineVotes own kids missing).idle = true ↔ ∃ x ∈ own :: kids, x.idle = true := by
  simp only [combineVotes_eq, List.any_eq_true]

theorem combineVotes_ready (own : Contribution) (kids : List Contribution) (missing : Bool) :
    (combineVotes own kids missing).ready = true ↔ missing = false ∧ ∀ x ∈ own :: kids, x.ready = true ∨ x.idle = true := by
  simp only [combineVotes_eq, Bool.and_eq_true, Bool.not_eq_true', List.all_eq_true, Bool.or_eq_true]

/-- Without an idle part the module's own step is the first open one. -/
theorem combineVotes_step (own : Contribution) (kids : List Contribution) (missing : Bool) :
    (combineVotes own kids missing).step = if (combineVotes own kids missing).idle then 0 else own.step := by
  cases hown : own.idle <;> simp [combineVotes_eq, firstStep, hown]

theorem getLsbD_foldl_cause (l : List Contribution) (a : BitVec 6) (i : Nat) :
    (l.foldl (fun a c => a ||| c.cause) a).getLsbD i = true ↔ a.getLsbD i = true ∨ ∃ x ∈ l, x.cause.getLsbD i = true := by
  induction l generalizing a with
  | nil => simp
  | cons c l ih => simp [ih, or_assoc]

/-- A cause that holds under a condition sets its one bit. -/
theorem getLsbD_cause_if {w : BitVec 6} {k : Nat} (hk : k < 6) (hw : w = BitVec.twoPow 6 k) (b : Bool) (i : Nat) :
    (if b then w else 0).getLsbD i = true ↔ i = k ∧ b = true := by
  subst hw
  cases b
  case false => simp
  case true => simp [BitVec.getLsbD_twoPow, hk, eq_comm]

/-- MISSING is bit 3 of a cause, STEP_MISMATCH bit 4 (02 Table 2-5). -/
theorem combineVotes_cause (own : Contribution) (kids : List Contribution) (missing : Bool) (i : Nat) :
    (combineVotes own kids missing).cause.getLsbD i = true ↔
      (∃ x ∈ own :: kids, x.cause.getLsbD i = true) ∨ (i = 3 ∧ missing = true) ∨ (i = 4 ∧ Mixed (own :: kids)) := by
  have hmissing : (if missing then 8 else 0 : BitVec 6).getLsbD i = true ↔ i = 3 ∧ missing = true :=
    getLsbD_cause_if (by decide) (by decide) missing i
  have hmixed : (if mixedVotes (own :: kids) then 16 else 0 : BitVec 6).getLsbD i = true ↔ i = 4 ∧ mixedVotes (own :: kids) = true :=
    getLsbD_cause_if (by decide) (by decide) _ i
  have hnone : (0 : BitVec 6).getLsbD i = true ↔ False := by simp
  simp only [combineVotes_eq, BitVec.getLsbD_or, Bool.or_eq_true, getLsbD_foldl_cause, hmissing, hmixed, mixedVotes_iff, hnone,
    false_or, or_assoc]

/-! ### The order of the children -/

theorem contribution_ext {a b : Contribution} (hstep : a.step = b.step) (hidle : a.idle = b.idle) (hready : a.ready = b.ready)
    (hno : a.no = b.no) (hcause : a.cause = b.cause) : a = b := by
  cases a
  cases b
  simp_all

/-- Every field of a combination asks only which contributions there are. -/
theorem combineVotes_perm (own : Contribution) {kids kids' : List Contribution} (h : kids.Perm kids') (missing : Bool) :
    combineVotes own kids missing = combineVotes own kids' missing := by
  have hmem : ∀ x, x ∈ own :: kids ↔ x ∈ own :: kids' := fun x => (h.cons own).mem_iff
  have hidle : (combineVotes own kids missing).idle = (combineVotes own kids' missing).idle := by
    rw [Bool.eq_iff_iff]
    simp only [combineVotes_idle, hmem]
  refine contribution_ext ?step hidle (Bool.eq_iff_iff.mpr ?ready) (Bool.eq_iff_iff.mpr ?no)
    (BitVec.eq_of_getLsbD_eq fun i _ => Bool.eq_iff_iff.mpr ?cause)
  case step => simp only [combineVotes_step, hidle]
  case ready => simp only [combineVotes_ready, hmem]
  case no => simp only [combineVotes_no, hmem, mixed_congr hmem]
  case cause => simp only [combineVotes_cause, hmem, mixed_congr hmem]

/-- Settles O49: field by field, and by `combineVotes_perm` two children may swap even where the parts are mixed. -/
theorem voteContributionsCombine : Obligations.VoteContributionsCombine := by
  intro own kids missing all c mixed
  refine ⟨combineVotes_no own kids missing, combineVotes_idle own kids missing, combineVotes_ready own kids missing,
    combineVotes_cause own kids missing, fun hown hkids => ?step, fun a b l r hkids => Or.inl ?swap⟩
  case step =>
    have hidle : (combineVotes own kids missing).idle = false := by
      refine Bool.eq_false_iff.mpr fun h => ?_
      obtain ⟨x, hx, hxi⟩ := (combineVotes_idle own kids missing).mp h
      rcases List.mem_cons.mp hx with rfl | hx
      · simp [hown] at hxi
      · simp [(hkids x hx).1] at hxi
    exact (combineVotes_step own kids missing).trans (by simp [hidle])
  case swap =>
    have hperm : (l ++ b :: a :: r).Perm kids := hkids ▸ (List.Perm.swap a b r).append_left l
    exact combineVotes_perm own hperm missing

end Sys2Proof.Proofs
end

section
/-! What the shared operations of the tide leave unchanged: records, markers that go out (11 R361) and a tree that is made anew
(02 R37). -/
namespace Sys2Proof.Proofs
open Sys2Proof Sys2Proof.Machine Sys2Proof.Laws

/-! ### Records -/

/-- The device with another state of the tide generator. -/
def putTide (t : TideBlock) (d : Dev) : Dev := { d with tide := t }

theorem fire0_putTide (v : Nat) (t : TideBlock) (d : Dev) : fire0 v (putTide t d) = putTide t (fire0 v d) := by
  have hreq : pf0Requests (putTide t d) = pf0Requests d := rfl
  simp only [fire0, hreq, apply_ite (putTide t)]
  rfl

theorem fire1_putTide (v : Nat) (t : TideBlock) (d : Dev) : fire1 v (putTide t d) = putTide t (fire1 v d) := by
  simp only [fire1, apply_ite (putTide t)]
  rfl

theorem fireBoth_putTide (p q : Bool) (v w : Nat) (t : TideBlock) (d : Dev) :
    (let e := if p then fire1 v (putTide t d) else putTide t d; if q then fire0 w e else e) =
      putTide t (let e := if p then fire1 v d else d; if q then fire0 w e else e) := by
  cases p <;> cases q <;> simp [fire0_putTide, fire1_putTide]

/-- Logging a record leaves the tide generator alone, and of it depends on the count alone. -/
theorem logRec_putTide (r : RasRec) {t : TideBlock} {d : Dev} (h : tideNow (putTide t d) = tideNow d) :
    logRec r (putTide t d) = putTide t (logRec r d) := by
  unfold logRec
  rw [h]
  refine Eq.trans ?_ (fireBoth_putTide _ _ _ _ t _)
  rfl

/-! ### Markers -/

/-- Markers change the links' state and what is sent. -/
theorem sendMarker_frame (kind : Nat) (mk : Marker) (sts : List Nat) (d : Dev) :
    ∃ x y, sendMarker kind mk sts d = { d with lnk := x, out := y } :=
  foldl_frame _ (fun d st => foldl_frame _ (fun d _ => send_frame _ d) (activeLinks d st) d) sts d

theorem edgeMarkers_frame (d : Dev) : ∃ x y, edgeMarkers d = { d with lnk := x, out := y } := sendMarker_frame _ _ _ d

/-! ### The tree -/

theorem remakeTree_frame (d : Dev) : ∃ depth dist parent children, remakeTree d = { d with tide := { d.tide with
    depth := depth, dist := dist, parent := parent, children := children, treeStale := false } } := ⟨_, _, _, _, rfl⟩

end Sys2Proof.Proofs
end

section
/-! The control registers of the tide, rate changes and replans (02 R34, R64 to R66). -/
namespace Sys2Proof.Proofs
open Sys2Proof Sys2Proof.Machine Sys2Proof.Laws

/-! ### TID_CTL (02 Table 2-11) -/

/-- WRITE_REJECTED is cleared by a 1 in its bit. -/
def clearRejected (v : BitVec 32) (d : Dev) : Dev :=
  if v.getLsbD 31 then { d with tide := { d.tide with writeRejected := false } } else d

/-- The write's fields REF_SEL and ROLE, which are RWS (02 R64). -/
def tidCtlFields (v : BitVec 32) (d : Dev) : Dev :=
  if v.getLsbD 3 = d.tide.refSel ∧ v.extractLsb' 1 2 = d.tide.roleCtl then d
  else if d.tide.run then rejectTid 0 d
  else { d with tide := { d.tide with refSel := v.getLsbD 3, roleCtl := v.extractLsb' 1 2 } }

theorem tidCtlWrite_eq (v : BitVec 32) (d : Dev) : tidCtlWrite v d =
    (let e := tidCtlFields v (clearRejected v d)
     if v.getLsbD 0 && !e.tide.run then tideStart e else if !v.getLsbD 0 && e.tide.run && e.chans.isEmpty then tideStop e else e) := rfl

theorem clearRejected_frame (v : BitVec 32) (d : Dev) :
    ∃ b, clearRejected v d = { d with tide := { d.tide with writeRejected := b } } := by
  unfold clearRejected
  split <;> exact ⟨_, rfl⟩

/-- A rejected write leaves its record and the flag, in whichever order. -/
theorem rejectTid_eq (off : Nat) (d : Dev) : rejectTid off d =
    (let e := logInfo 0x0001 (0x28000 + off) d
     { e with tide := { e.tide with writeRejected := true } }) := by
  have hlog : rejectTid off d = putTide { d.tide with writeRejected := true } (logInfo 0x0001 (0x28000 + off) d) :=
    logRec_putTide _ rfl
  have htide : (logInfo 0x0001 (0x28000 + off) d).tide = d.tide := logRec_tide _ d
  simp only [hlog, putTide, htide]

theorem rejectTid_frame (off : Nat) (d : Dev) : ∃ x y z w,
    rejectTid off d = { d with tide := { d.tide with writeRejected := true }, ras := x, pf0 := y, pf1 := z, out := w } :=
  logRec_frame _ _

section
variable {v : BitVec 32} {d : Dev}

theorem tidCtlFields_same (h : v.getLsbD 3 = d.tide.refSel ∧ v.extractLsb' 1 2 = d.tide.roleCtl) : tidCtlFields v d = d := if_pos h

theorem tidCtlFields_rejected (hr : d.tide.run = true) (h : ¬ (v.getLsbD 3 = d.tide.refSel ∧ v.extractLsb' 1 2 = d.tide.roleCtl)) :
    tidCtlFields v d = rejectTid 0 d := by
  simp only [tidCtlFields, if_neg h, hr, if_true]

/-- While the generator stands still the fields are taken, changed or not. -/
theorem tidCtlFields_stopped (hr : d.tide.run = false) :
    tidCtlFields v d = { d with tide := { d.tide with refSel := v.getLsbD 3, roleCtl := v.extractLsb' 1 2 } } := by
  by_cases h : v.getLsbD 3 = d.tide.refSel ∧ v.extractLsb' 1 2 = d.tide.roleCtl
  · rw [tidCtlFields_same h, h.1, h.2]
  · simp only [tidCtlFields, if_neg h, hr, Bool.false_eq_true, if_false]

/-- While the generator runs the write changes at most WRITE_REJECTED and the records. -/
theorem tidCtlFields_running (hr : d.tide.run = true) : ∃ b x y z w,
    tidCtlFields v (clearRejected v d) = { d with tide := { d.tide with writeRejected := b }, ras := x, pf0 := y, pf1 := z, out := w } := by
  obtain ⟨b, hclear⟩ := clearRejected_frame v d
  rw [hclear]
  by_cases h : v.getLsbD 3 = d.tide.refSel ∧ v.extractLsb' 1 2 = d.tide.roleCtl
  · exact ⟨b, d.ras, d.pf0, d.pf1, d.out, tidCtlFields_same h⟩
  · obtain ⟨x, y, z, w, hreject⟩ := rejectTid_frame 0 { d with tide := { d.tide with writeRejected := b } }
    exact ⟨true, x, y, z, w, (tidCtlFields_rejected (d := { d with tide := { d.tide with writeRejected := b } }) hr h).trans hreject⟩

/-- A write that changes RUN neither way writes its fields. -/
theorem tidCtlWrite_running (hr : d.tide.run = true) (h : v.getLsbD 0 = true ∨ d.chans ≠ []) :
    tidCtlWrite v d = tidCtlFields v (clearRejected v d) := by
  obtain ⟨b, x, y, z, w, hfields⟩ := tidCtlFields_running (v := v) hr
  rw [tidCtlWrite_eq, hfields]
  rcases h with h | h <;> simp [hr, h]

theorem tidCtlWrite_start (hr : d.tide.run = false) (hv : v.getLsbD 0 = true) : tidCtlWrite v d = tideStart
    { clearRejected v d with tide := { (clearRejected v d).tide with refSel := v.getLsbD 3, roleCtl := v.extractLsb' 1 2 } } := by
  obtain ⟨b, hclear⟩ := clearRejected_frame v d
  have hr' : (clearRejected v d).tide.run = false := by rw [hclear]; exact hr
  rw [tidCtlWrite_eq, tidCtlFields_stopped hr']
  simp [hv, hr']

theorem tidCtlWrite_stop (hr : d.tide.run = true) (hv : v.getLsbD 0 = false) (hc : d.chans = []) :
    tidCtlWrite v d = tideStop (tidCtlFields v (clearRejected v d)) := by
  obtain ⟨b, x, y, z, w, hfields⟩ := tidCtlFields_running (v := v) hr
  rw [tidCtlWrite_eq, hfields]
  simp only [hr, hv, hc, Bool.false_and, Bool.not_false, Bool.true_and, Bool.false_eq_true, if_false, List.isEmpty_nil, if_true]

theorem tidCtlWrite_stopped (hr : d.tide.run = false) (hv : v.getLsbD 0 = false) : tidCtlWrite v d =
    { clearRejected v d with tide := { (clearRejected v d).tide with refSel := v.getLsbD 3, roleCtl := v.extractLsb' 1 2 } } := by
  obtain ⟨b, hclear⟩ := clearRejected_frame v d
  have hr' : (clearRejected v d).tide.run = false := by rw [hclear]; exact hr
  rw [tidCtlWrite_eq, tidCtlFields_stopped hr']
  simp only [hr', hv, Bool.false_and, Bool.and_false, Bool.false_eq_true, if_false]

end

/-- What the start of the generator sets, besides the tree that it makes and the markers that it sends. -/
def tideStarted (d : Dev) : Dev :=
  let role : BitVec 2 := if d.tide.roleCtl = 3 then 0 else d.tide.roleCtl
  { d with tide := { d.tide with
    run := true, phase := .work, roleNow := role, acting := d.tide.master, missed := 0, markerSeen := false, edgeTaken := false
    count := if role = 1 then d.tide.start.toNat else d.tide.count } }

theorem tideStart_frame (d : Dev) : ∃ depth dist parent children x y, tideStart d = { tideStarted d with
    tide := { (tideStarted d).tide with depth := depth, dist := dist, parent := parent, children := children, treeStale := false }
    lnk := x, out := y } := by
  have heq : tideStart d = if acts (remakeTree (tideStarted d)) then edgeMarkers (remakeTree (tideStarted d)) else remakeTree (tideStarted d) :=
    rfl
  obtain ⟨depth, dist, parent, children, htree⟩ := remakeTree_frame (tideStarted d)
  obtain ⟨x, y, hmarkers⟩ := edgeMarkers_frame (remakeTree (tideStarted d))
  rw [heq, hmarkers, htree]
  split
  · exact ⟨depth, dist, parent, children, x, y, rfl⟩
  · exact ⟨depth, dist, parent, children, _, _, rfl⟩

/-- What the stop of the generator sets. -/
theorem tideStop_frame (d : Dev) : ∃ x, tideStop d = { eachRwl rwlStop { d with tide := { d.tide with
    run := false, phase := .work, locked := false, holdover := false, announced := none, ratePending := false
    adoptCount := none, replanNew := none, missed := 0 } } with rst := x } := by
  unfold tideStop edgeAnswer
  split
  · exact ⟨_, rfl⟩
  · exact ⟨_, rfl⟩

section
variable {s : State} {v : BitVec 32}

theorem exec_tidCtlRunStart (ho : pf1Open s.dev = true) (hc : clocksRun s.dev = true) (hv : v.getLsbD 0 = true) {d : Dev}
    (h : tidCtlWrite v s.dev = d) : exec (.tidCtlRunStart v) s = .next { s with dev := d } :=
  eff_eq_dev (by simp only [ho, hc, hv, Bool.and_self, if_true, h])

theorem exec_tidCtlRunStop (ho : pf1Open s.dev = true) (hc : clocksRun s.dev = true) (hv : v.getLsbD 0 = false) {d : Dev}
    (h : tidCtlWrite v s.dev = d) : exec (.tidCtlRunStop v) s = .next { s with dev := d } :=
  eff_eq_dev (by simp only [ho, hc, hv, Bool.not_false, Bool.and_self, if_true, h])

end

/-! ### Rate changes (02 R65) -/

theorem acts_iff {d : Dev} : acts d = true ↔ d.tide.roleNow = 1 ∨ d.tide.roleNow = 3 := by simp [acts]

theorem settingOk_iff {rate slack : Nat} : settingOk rate slack = true ↔ 4 ≤ rate ∧ rate ≤ 40 ∧ 2 ≤ slack ∧ slack ≤ 16 := by
  simp [settingOk, and_assoc]

/-- Every segment's bound fits the working window of a setting (02 R36). -/
def SegmentsFit (d : Dev) (rate slack : Nat) : Prop :=
  ∀ p ∈ d.programs, ∀ g ∈ p.2.segs, g.bound ≤ 1750 * (2000000 - 500 * slack * rate) / (1000 * rate)

theorem segmentsFit_iff {d : Dev} {rate slack : Nat} : SegmentsFit d rate slack ↔
    ¬ d.programs.any (fun p => p.2.segs.any (fun g => decide (windowAt 1750 rate slack < g.bound))) = true := by
  simp only [List.any_eq_true, decide_eq_true_eq, not_exists, not_and, Nat.not_lt]
  rfl

theorem closeFits_iff {depth rate slack : Nat} :
    closeFits depth rate slack = true ↔ (200 + 500 * depth) * rate + 500 * slack * rate ≤ 2000000 := by
  simp only [closeFits, decide_eq_true_eq]
  rfl

section
variable {d : Dev} {rate slack : Nat}

theorem rateRefuse_range (h : ¬ settingOk rate slack = true) : rateRefuse d rate slack = 3 := by simp [rateRefuse, h]

theorem rateRefuse_segment (h : settingOk rate slack = true) (hs : ¬ SegmentsFit d rate slack) : rateRefuse d rate slack = 4 := by
  simp only [rateRefuse, h, Bool.not_true, Bool.false_eq_true, if_false, if_pos (not_not.mp (mt segmentsFit_iff.mpr hs))]

theorem rateRefuse_vote (h : settingOk rate slack = true) (hs : SegmentsFit d rate slack) (hc : ¬ closeFits d.tide.depth rate slack = true) :
    rateRefuse d rate slack = 5 := by
  simp [rateRefuse, h, segmentsFit_iff.mp hs, hc]

theorem rateRefuse_taken (h : settingOk rate slack = true) (hs : SegmentsFit d rate slack) (hc : closeFits d.tide.depth rate slack = true) :
    rateRefuse d rate slack = 0 := by
  simp [rateRefuse, h, segmentsFit_iff.mp hs, hc]

end


/-- The device with a requested setting noted (02 Table 2-14). -/
def rateNoted (v : BitVec 32) (d : Dev) : Dev :=
  { d with tide := { d.tide with reqRate := (v.extractLsb' 0 6).toNat, reqSlack := (v.extractLsb' 8 5).toNat } }

section
variable {v : BitVec 32} {d : Dev}

theorem rateReqWrite_follower (h : ¬ acts d = true) : rateReqWrite v d = { d with tide := { d.tide with rateState := 6 } } := by
  simp [rateReqWrite, h]

theorem rateReqWrite_refused {n : Nat} (h : acts d = true) (hv : v.getLsbD 31 = true)
    (hr : rateRefuse d (v.extractLsb' 0 6).toNat (v.extractLsb' 8 5).toNat = n) (hn : n ≠ 0) :
    rateReqWrite v d = { rateNoted v d with tide := { (rateNoted v d).tide with rateState := n } } := by
  have hr' : rateRefuse (rateNoted v d) (v.extractLsb' 0 6).toNat (v.extractLsb' 8 5).toNat = n := hr
  rw [← hr'] at hn ⊢
  unfold rateReqWrite
  rw [if_neg (by simp [h]), if_neg (by simp [hv])]
  exact if_pos hn

/-- A setting that is taken is announced for the tide after the next (02 R65). -/
theorem rateReqWrite_taken (h : acts d = true) (hv : v.getLsbD 31 = true)
    (hr : rateRefuse d (v.extractLsb' 0 6).toNat (v.extractLsb' 8 5).toNat = 0) :
    (rateReqWrite v d).tide = { (rateNoted v d).tide with
      announced := some { rate := (v.extractLsb' 0 6).toNat, slack := (v.extractLsb' 8 5).toNat, tide := d.tide.count + 2 }
      ratePending := true, rateState := 1, applyTide := BitVec.ofNat 24 (d.tide.count + 2) } := by
  unfold rateReqWrite
  rw [if_neg (by simp [h]), if_neg (by simp [hv])]
  refine (congrArg Dev.tide (if_neg (not_not.mpr hr))).trans ?_
  obtain ⟨x, y, hmarkers⟩ := edgeMarkers_frame _
  exact congrArg Dev.tide hmarkers

end

theorem exec_tidRateReqGo {s : State} {v : BitVec 32} (ho : pf1Open s.dev = true) (hc : clocksRun s.dev = true) (hv : v.getLsbD 31 = true)
    {d : Dev} (h : rateReqWrite v s.dev = d) : exec (.tidRateReqGo v) s = .next { s with dev := d } :=
  eff_eq_dev (by simp only [ho, hc, hv, Bool.and_self, if_true, h])

theorem exec_rateChangeApply {s : State} (hc : clocksRun s.dev = true) (hr : s.dev.tide.run = true) :
    exec .rateChangeApply s = .next { s with dev := applyRate s.dev } :=
  eff_eq_dev (by simp only [hc, hr, Bool.and_self, if_true])

theorem applyRate_due {d : Dev} {a : Announced} (h : d.tide.announced = some a) (ht : a.tide ≤ d.tide.count) :
    applyRate d = noteEvent 7 (toLe 1 a.rate ++ toLe 1 a.slack) { d with tide := { d.tide with
      rate := a.rate, slack := a.slack, announced := none, ratePending := false
      rateState := if d.tide.rateState = 1 then 2 else d.tide.rateState } } := by
  simp only [applyRate, h, if_pos ht]

theorem applyRate_early {d : Dev} {a : Announced} (h : d.tide.announced = some a) (ht : d.tide.count < a.tide) : applyRate d = d := by
  simp only [applyRate, h, if_neg (Nat.not_le.mpr ht)]

/-! ### Replans (02 R66) -/

/-- The master and the backup of a replan are two positions of the partition. -/
def ReplanThere (d : Dev) : Prop :=
  inPart d d.tide.replanMaster = true ∧ inPart d d.tide.replanBackup = true ∧ d.tide.replanMaster ≠ d.tide.replanBackup

/-- The tide of a replan lies ahead, and not too far. -/
def ReplanTimely (d : Dev) : Prop :=
  d.tide.count + 2 ≤ d.tide.replanTide.toNat ∧ d.tide.replanTide.toNat ≤ d.tide.count + 65536

section
variable {d : Dev}

theorem replanThere_iff : ReplanThere d ↔
    ¬ (!inPart d d.tide.replanMaster || !inPart d d.tide.replanBackup || d.tide.replanMaster == d.tide.replanBackup) = true := by
  simp [ReplanThere, and_assoc]

theorem replanTimely_iff : ReplanTimely d ↔
    ¬ (d.tide.replanTide.toNat < d.tide.count + 2 ∨ d.tide.count + 65536 < d.tide.replanTide.toNat) := by
  unfold ReplanTimely
  omega

theorem replanRefuse_position (h : ¬ ReplanThere d) : replanRefuse d = 3 := if_pos (not_not.mp (mt replanThere_iff.mpr h))

theorem replanRefuse_tide (h : ReplanThere d) (ht : ¬ ReplanTimely d) : replanRefuse d = 4 :=
  (if_neg (replanThere_iff.mp h)).trans (if_pos (not_not.mp (mt replanTimely_iff.mpr ht)))

/-- A replan whose positions and tide are good is judged by its depth and its close time. -/
theorem replanRefuse_plan (h : ReplanThere d) (ht : ReplanTimely d) : replanRefuse d =
    if 186 < depthOf d.lnk.wrap d.lnk.dim d.tide.replanMaster then 5
    else if !closeFits (depthOf d.lnk.wrap d.lnk.dim d.tide.replanMaster) d.tide.rate d.tide.slack then 6 else 1 :=
  (if_neg (replanThere_iff.mp h)).trans (if_neg (replanTimely_iff.mp ht))

theorem replanGo_refused {n : Nat} (hr : d.tide.run = true) (h : replanRefuse d = n) (hn : n ≠ 1) :
    replanGo d = { d with tide := { d.tide with replanState := n } } := by
  simp only [replanGo, hr, Bool.not_true, Bool.false_eq_true, if_false, h, if_neg hn]

theorem replanGo_taken (hr : d.tide.run = true) (h : replanRefuse d = 1) : replanGo d = { d with tide := { d.tide with
    replanState := 1, replanNew := some (d.tide.replanMaster, d.tide.replanBackup, d.tide.replanTide.toNat) } } := by
  simp only [replanGo, hr, Bool.not_true, Bool.false_eq_true, if_false, h, if_true]

theorem applyReplan_due {m b : Pos} {t : Nat} (h : d.tide.replanNew = some (m, b, t)) (ht : t ≤ d.tide.count) :
    applyReplan d = remakeTree { d with tide := { d.tide with
      master := m, backup := b, acting := m, replanNew := none, replanState := 2
      roleNow := if d.lnk.pos = m then 1 else if d.lnk.pos = b then 2 else 0 } } := by
  simp only [applyReplan, h, if_pos ht]

theorem applyReplan_early {m b : Pos} {t : Nat} (h : d.tide.replanNew = some (m, b, t)) (ht : d.tide.count < t) : applyReplan d = d := by
  simp only [applyReplan, h, if_neg (Nat.not_le.mpr ht)]

end

theorem exec_tidReplanGo {s : State} (ho : pf1Open s.dev = true) (hc : clocksRun s.dev = true) {d : Dev} (h : replanGo s.dev = d) :
    exec .tidReplanGo s = .next { s with dev := d } :=
  eff_eq_dev (by simp only [ho, hc, Bool.and_self, if_true, h])

theorem exec_replanApply {s : State} (hc : clocksRun s.dev = true) (hr : s.dev.tide.run = true) :
    exec .replanApply s = .next { s with dev := applyReplan s.dev } :=
  eff_eq_dev (by simp only [hc, hr, Bool.and_self, if_true])

/-! ### The registers' writes as steps -/

section
variable {s : State}

/-- RUN 1 starts a stopped generator. -/
theorem tidCtlRunStart_starts {v : BitVec 32} (ho : pf1Open s.dev = true) (hc : clocksRun s.dev = true) (hv : v.getLsbD 0 = true)
    (hr : s.dev.tide.run = false) :
    let role := v.extractLsb' 1 2
    ∃ d', exec (.tidCtlRunStart v) s = .next { s with dev := d' } ∧
      d'.tide.run = true ∧ d'.tide.phase = .work ∧ d'.tide.roleNow = (if role = 3 then 0 else role) ∧
      d'.tide.roleCtl = role ∧ d'.tide.refSel = v.getLsbD 3 ∧
      d'.tide.count = (if role = 1 then s.dev.tide.start.toNat else s.dev.tide.count) ∧ d'.tide.acting = s.dev.tide.master ∧
      d'.tensors = s.dev.tensors ∧ d'.mbx = s.dev.mbx := by
  intro role
  obtain ⟨b, hclear⟩ := clearRejected_frame v s.dev
  have hwrite := tidCtlWrite_start hr hv
  rw [hclear] at hwrite
  obtain ⟨_, _, _, _, _, _, hstart⟩ := tideStart_frame _
  refine ⟨_, exec_tidCtlRunStart ho hc hv (hwrite.trans hstart), rfl, rfl, rfl, rfl, rfl, ?_, rfl, rfl, rfl⟩
  have hrole : (if role = 3 then 0 else role) = 1 ↔ role = 1 := by
    by_cases h3 : role = 3
    · rw [if_pos h3, h3]
      decide
    · rw [if_neg h3]
  exact if_congr hrole rfl rfl

/-- RUN 0 stops a generator without channels; an RWL register takes its last write. -/
theorem tidCtlRunStop_stops {v : BitVec 32} (ho : pf1Open s.dev = true) (hc : clocksRun s.dev = true) (hv : v.getLsbD 0 = false)
    (hr : s.dev.tide.run = true) (hchans : s.dev.chans = []) :
    ∃ d', exec (.tidCtlRunStop v) s = .next { s with dev := d' } ∧
      d'.tide.run = false ∧ d'.tide.locked = false ∧ d'.tide.count = s.dev.tide.count ∧ d'.tide.roleCtl = s.dev.tide.roleCtl ∧
      d'.tel.cap.active = s.dev.tel.cap.late.getD s.dev.tel.cap.staged ∧ d'.tensors = s.dev.tensors ∧ d'.lnk = s.dev.lnk := by
  have hwrite := tidCtlWrite_stop hr hv hchans
  obtain ⟨_, _, _, _, _, hfields⟩ := tidCtlFields_running (v := v) hr
  rw [hfields] at hwrite
  obtain ⟨_, hstop⟩ := tideStop_frame _
  exact ⟨_, exec_tidCtlRunStop ho hc hv (hwrite.trans hstop), rfl, rfl, rfl, rfl, rfl, rfl, rfl⟩

/-- A write to a running generator that does not stop it and keeps REF_SEL and ROLE clears WRITE_REJECTED at most. -/
theorem tidCtlWrite_kept {v : BitVec 32} {d : Dev} (hr : d.tide.run = true) (h : v.getLsbD 0 = true ∨ d.chans ≠ [])
    (hsame : v.getLsbD 3 = d.tide.refSel ∧ v.extractLsb' 1 2 = d.tide.roleCtl) : tidCtlWrite v d = clearRejected v d := by
  obtain ⟨b, hclear⟩ := clearRejected_frame v d
  rw [tidCtlWrite_running hr h, hclear]
  exact tidCtlFields_same hsame

/-- One that changes REF_SEL or ROLE is rejected (02 R64). -/
theorem tidCtlWrite_rejected {v : BitVec 32} {d : Dev} (hr : d.tide.run = true) (h : v.getLsbD 0 = true ∨ d.chans ≠ [])
    (hdiff : ¬ (v.getLsbD 3 = d.tide.refSel ∧ v.extractLsb' 1 2 = d.tide.roleCtl)) :
    tidCtlWrite v d = rejectTid 0 (clearRejected v d) := by
  obtain ⟨b, hclear⟩ := clearRejected_frame v d
  rw [tidCtlWrite_running hr h, hclear]
  exact tidCtlFields_rejected hr hdiff

theorem exec_tidReplanGo_stopped (ho : pf1Open s.dev = true) (hc : clocksRun s.dev = true) (hr : s.dev.tide.run = false) :
    exec .tidReplanGo s = .next s :=
  exec_tidReplanGo ho hc (by simp only [replanGo, hr, Bool.not_false, if_true])

end

/-- Settles O46: each write as the case of its check says, and each planned change before and at its tide. -/
theorem tideControlAndPlannedChanges : Obligations.TideControlAndPlannedChanges := by
  intro s d
  refine ⟨fun v ho hc => ?control, fun v ho hc hv => ?rateRequest, fun a ha hc hr => ?rateApplies, exec_tidReplanGo_stopped,
    fun ho hc hr => ?replanRequest, fun m b t hn hc hr => ?replanApplies⟩
  case control =>
    intro d0 role same reject
    have hreject : reject d0 = rejectTid 0 (clearRejected v d) := (rejectTid_eq 0 _).symm
    refine ⟨fun hv hr => tidCtlRunStart_starts ho hc hv hr,
      fun hv hr hs => exec_tidCtlRunStart ho hc hv (tidCtlWrite_kept hr (.inl hv) hs),
      fun hv hr hs => exec_tidCtlRunStart ho hc hv ((tidCtlWrite_rejected hr (.inl hv) hs).trans hreject.symm),
      fun hv hr hn => tidCtlRunStop_stops ho hc hv hr hn,
      fun hv hr hn hs => exec_tidCtlRunStop ho hc hv (tidCtlWrite_kept hr (.inr hn) hs),
      fun hv hr hn hs => exec_tidCtlRunStop ho hc hv ((tidCtlWrite_rejected hr (.inr hn) hs).trans hreject.symm),
      fun hv hr => exec_tidCtlRunStop ho hc hv (tidCtlWrite_stopped hr hv)⟩
  case rateRequest =>
    intro rate slack req inRange segsFit closes refused
    have hrange : inRange ↔ settingOk rate slack = true := settingOk_iff.symm
    have hcloses : closes ↔ closeFits d.tide.depth rate slack = true := closeFits_iff.symm
    refine ⟨fun h1 h3 => exec_tidRateReqGo ho hc hv (rateReqWrite_follower (mt acts_iff.mp (not_or.mpr ⟨h1, h3⟩))), fun hrole => ?_⟩
    have hacts : acts d = true := acts_iff.mpr hrole
    have hrefused {n : Nat} (hn : n ≠ 0) (h : rateRefuse d rate slack = n) : refused n :=
      exec_tidRateReqGo ho hc hv (rateReqWrite_refused hacts hv h hn)
    exact ⟨fun hr => hrefused (by decide) (rateRefuse_range (mt hrange.mpr hr)),
      fun hr hs => hrefused (by decide) (rateRefuse_segment (hrange.mp hr) hs),
      fun hr hs hcl => hrefused (by decide) (rateRefuse_vote (hrange.mp hr) hs (mt hcloses.mpr hcl)),
      fun hr hs hcl => ⟨_, exec_tidRateReqGo ho hc hv rfl, rateReqWrite_taken hacts hv (rateRefuse_taken (hrange.mp hr) hs (hcloses.mp hcl))⟩⟩
  case rateApplies =>
    exact ⟨fun ht => (exec_rateChangeApply hc hr).trans (by rw [applyRate_due ha ht]; rfl),
      fun ht => (exec_rateChangeApply hc hr).trans (by rw [applyRate_early ha ht])⟩
  case replanRequest =>
    intro m b t depth there timely closes refused
    have hcloses : closes ↔ closeFits depth d.tide.rate d.tide.slack = true := closeFits_iff.symm
    have hrefused {n : Nat} (hn : n ≠ 1) (h : replanRefuse d = n) : refused n := exec_tidReplanGo ho hc (replanGo_refused hr h hn)
    refine ⟨fun hp => hrefused (by decide) (replanRefuse_position hp), fun hp ht => hrefused (by decide) (replanRefuse_tide hp ht),
      fun hp ht hd => hrefused (by decide) ((replanRefuse_plan hp ht).trans (if_pos hd)), fun hp ht hd hcl => hrefused (n := 6) (by decide) ?_,
      fun hp ht hd hcl => exec_tidReplanGo ho hc (replanGo_taken hr ?_)⟩
    · rw [replanRefuse_plan hp ht, if_neg (Nat.not_lt.mpr hd), if_pos (by simpa using mt hcloses.mpr hcl)]
    · rw [replanRefuse_plan hp ht, if_neg (Nat.not_lt.mpr hd), if_neg (by simpa using hcloses.mp hcl)]
  case replanApplies =>
    exact ⟨fun ht => (exec_replanApply hc hr).trans (by rw [applyReplan_due hn ht]; rfl),
      fun ht => (exec_replanApply hc hr).trans (by rw [applyReplan_early hn ht])⟩

end Sys2Proof.Proofs
end

section
/-! A decision that reaches the module, that is lost, or that counts as NO (02 R58, R60; 09 R306), and the markers that tell them apart
(02 R41). -/
namespace Sys2Proof.Proofs
open Sys2Proof Sys2Proof.Machine Sys2Proof.Laws

/-! ### The word of a decision (02 Table 2-9) -/

section
variable (step : BitVec 16) (wait : Nat) (cause : BitVec 6) {dec : Nat}

theorem toNat_decisionWord (h : dec < 4) :
    (decisionWord step wait cause dec).toNat = step.toNat * 65536 + min wait 255 * 256 + cause.toNat * 4 + dec := by
  have hstep := step.isLt
  have hcause := cause.isLt
  simp only [decisionWord, BitVec.toNat_ofNat]
  omega

theorem decisionWord_dec (h : dec < 4) : ((decisionWord step wait cause dec).extractLsb' 0 2).toNat = dec := by
  simp only [BitVec.extractLsb'_toNat, toNat_decisionWord step wait cause h, Nat.shiftRight_zero]
  omega

theorem decisionWord_cause (h : dec < 4) : (decisionWord step wait cause dec).extractLsb' 2 6 = cause := by
  have hcause := cause.isLt
  refine BitVec.eq_of_toNat_eq ?_
  simp only [BitVec.extractLsb'_toNat, toNat_decisionWord step wait cause h, Nat.shiftRight_eq_div_pow]
  omega

theorem decisionWord_step (h : dec < 4) : (decisionWord step wait cause dec).extractLsb' 16 16 = step := by
  have hstep := step.isLt
  have hcause := cause.isLt
  refine BitVec.eq_of_toNat_eq ?_
  simp only [BitVec.extractLsb'_toNat, toNat_decisionWord step wait cause h, Nat.shiftRight_eq_div_pow]
  omega

end

/-! ### Out of step (02 R60, 13 R457) -/

theorem announceFailed_frame (cls : Nat) (d : Dev) : ∃ x y, announceFailed cls d = { d with lnk := x, out := y } := by
  obtain ⟨x, y, h⟩ := mgmtSend_frame (fun n => .deviceFailed none n d.lnk.pos (BitVec.ofNat 16 cls) d.tide.count)
    { d with lnk := { d.lnk with announced := addNew d.lnk.announced d.lnk.pos } }
  exact ⟨x, y, h⟩

/-- A module that falls out of step re-enters as a spare does. -/
def outOfStep (d : Dev) : Dev :=
  { d with
    tide := { d.tide with decisionLost := true, lost := 2 }
    spare := { d.spare with reentry := true, state := 1, cause := 0, reqSent := false, filled := 0, total := 0, fillLeft := [] } }

theorem loseDecision_eq {d : Dev} (h : d.tide.lost ≠ 2) :
    ∃ q r, loseDecision d = send q (announceFailed 0x104 (logRec r (outOfStep d))) := ⟨_, _, if_neg h⟩

theorem loseDecision_frame {d : Dev} (h : d.tide.lost ≠ 2) :
    ∃ x y z v w, loseDecision d = { outOfStep d with ras := x, pf0 := y, pf1 := z, lnk := v, out := w } := by
  obtain ⟨q, r, heq⟩ := loseDecision_eq h
  obtain ⟨x, y, z, w, hlog⟩ := logRec_frame r (outOfStep d)
  obtain ⟨v, w, hannounce⟩ := announceFailed_frame 0x104 (logRec r (outOfStep d))
  obtain ⟨v, w, hsend⟩ := send_frame q (announceFailed 0x104 (logRec r (outOfStep d)))
  exact ⟨x, y, z, v, w, by rw [heq, hsend, hannounce, hlog]⟩

/-- A module that is out of step already stays so. -/
theorem loseDecision_again {d : Dev} (h : d.tide.lost = 2) : loseDecision d = d := if_pos h

/-! ### A decision that is taken (02 R58, 09 R306) -/

/-- The word of a decision is noted, and ends a wait for one; a module out of step stays so. -/
def decisionNoted (w : BitVec 32) (d : Dev) : Dev :=
  let dec := (w.extractLsb' 0 2).toNat
  let same := (w.extractLsb' 16 16).toNat == d.step.num % 65536
  let key := if stepIsOpen d && same then d.step.num else (w.extractLsb' 16 16).toNat
  { d with
    tide := { d.tide with lastDecision := w, decisionLost := d.tide.decisionLost && d.tide.lost == 2, lost := if d.tide.lost = 2 then 2 else 0 }
    vote := { d.vote with received := true
                          history := if dec = 1 ∨ dec = 2 then keepDecision key w d.vote.history else d.vote.history } }

/-- The first verdict of a step is kept. -/
def verdictNoted (ver : Nat) (flags : VerdictC) (d : Dev) : Dev :=
  if ver ≠ 0 ∧ d.step.verdict = 0 then
    { d with step := { d.step with verdict := ver, verdictOf := flags.ovf, verdictNv := flags.nv } } else d

theorem verdictNoted_frame (ver : Nat) (flags : VerdictC) (d : Dev) : ∃ x y z,
    verdictNoted ver flags d = { d with step := { d.step with verdict := x, verdictOf := y, verdictNv := z } } := by
  unfold verdictNoted
  split
  · exact ⟨_, _, _, rfl⟩
  · exact ⟨d.step.verdict, d.step.verdictOf, d.step.verdictNv, rfl⟩

/-- A decision applies to the open step: NO to any, YES to the one that it names (02 R58). -/
def Applies (w : BitVec 32) (d : Dev) : Prop :=
  (w.extractLsb' 0 2).toNat = 2 ∨ (w.extractLsb' 0 2).toNat = 1 ∧ (w.extractLsb' 16 16).toNat = d.step.num % 65536

section
variable (w : BitVec 32) (ver : Nat) (flags : VerdictC) {d : Dev}

theorem takeDecision_closed (h : stepIsOpen d = false) : takeDecision w ver flags d = decisionNoted w d := by
  have hb : (!stepIsOpen d) = true := by rw [h]; rfl
  exact if_pos hb

theorem takeDecision_open (h : stepIsOpen d = true) : takeDecision w ver flags d =
    (let e := verdictNoted ver flags (decisionNoted w d)
     let dec := (w.extractLsb' 0 2).toNat
     if dec = 2 ∨ (dec = 1 ∧ ((w.extractLsb' 16 16).toNat == d.step.num % 65536) = true) then
       { e with step := { e.step with decision := some w } }
     else if dec = 1 then loseDecision e
     else e) := by
  have hb : ¬ (!stepIsOpen d) = true := by rw [h]; decide
  exact if_neg hb

theorem takeDecision_applies (ho : stepIsOpen d = true) (h : Applies w d) : ∃ x y z, takeDecision w ver flags d =
    { decisionNoted w d with step := { d.step with verdict := x, verdictOf := y, verdictNv := z, decision := some w } } := by
  obtain ⟨x, y, z, hverdict⟩ := verdictNoted_frame ver flags (decisionNoted w d)
  refine ⟨x, y, z, ?_⟩
  rw [takeDecision_open w ver flags ho, hverdict]
  exact if_pos (by rwa [beq_iff_eq])

/-- YES for another step is lost. -/
theorem takeDecision_loses (ho : stepIsOpen d = true) (h : ¬ Applies w d) (h1 : (w.extractLsb' 0 2).toNat = 1) :
    ∃ x y z, takeDecision w ver flags d =
      loseDecision { decisionNoted w d with step := { d.step with verdict := x, verdictOf := y, verdictNv := z } } := by
  obtain ⟨x, y, z, hverdict⟩ := verdictNoted_frame ver flags (decisionNoted w d)
  refine ⟨x, y, z, ?_⟩
  rw [takeDecision_open w ver flags ho, hverdict]
  exact (if_neg (by rwa [beq_iff_eq])).trans (if_pos h1)

theorem takeDecision_loses_frame (ho : stepIsOpen d = true) (h : ¬ Applies w d) (h1 : (w.extractLsb' 0 2).toNat = 1)
    (hl : d.tide.lost ≠ 2) : ∃ x y z p q r t u, takeDecision w ver flags d =
      { outOfStep { decisionNoted w d with step := { d.step with verdict := x, verdictOf := y, verdictNv := z } } with
        ras := p, pf0 := q, pf1 := r, lnk := t, out := u } := by
  obtain ⟨x, y, z, heq⟩ := takeDecision_loses w ver flags ho h h1
  have hlost : (decisionNoted w d).tide.lost ≠ 2 := by
    show (if d.tide.lost = 2 then 2 else 0) ≠ 2
    rw [if_neg hl]
    decide
  obtain ⟨p, q, r, t, u, hlose⟩ := loseDecision_frame
    (d := { decisionNoted w d with step := { d.step with verdict := x, verdictOf := y, verdictNv := z } }) hlost
  exact ⟨x, y, z, p, q, r, t, u, heq.trans hlose⟩

/-- PENDING and IDLE leave the open step without a decision. -/
theorem takeDecision_pends (ho : stepIsOpen d = true) (h : ¬ Applies w d) (h1 : (w.extractLsb' 0 2).toNat ≠ 1) :
    ∃ x y z, takeDecision w ver flags d =
      { decisionNoted w d with step := { d.step with verdict := x, verdictOf := y, verdictNv := z } } := by
  obtain ⟨x, y, z, hverdict⟩ := verdictNoted_frame ver flags (decisionNoted w d)
  refine ⟨x, y, z, ?_⟩
  rw [takeDecision_open w ver flags ho, hverdict]
  exact (if_neg (by rwa [beq_iff_eq])).trans (if_neg h1)

/-- What a decision that is taken can change. -/
theorem takeDecision_frame (d : Dev) : ∃ a b st sp x y z v u,
    takeDecision w ver flags d = { decisionNoted w d with
      tide := { d.tide with lastDecision := w, decisionLost := a, lost := b }
      step := st, spare := sp, ras := x, pf0 := y, pf1 := z, lnk := v, out := u } ∧
    (d.spare.reentry = true → sp.reentry = true) := by
  by_cases ho : stepIsOpen d = true
  case neg => exact ⟨_, _, _, _, _, _, _, _, _, takeDecision_closed w ver flags (Bool.eq_false_iff.mpr ho), id⟩
  by_cases h : Applies w d
  case pos =>
    obtain ⟨_, _, _, heq⟩ := takeDecision_applies w ver flags ho h
    exact ⟨_, _, _, _, _, _, _, _, _, heq, id⟩
  by_cases h1 : (w.extractLsb' 0 2).toNat = 1
  case neg =>
    obtain ⟨_, _, _, heq⟩ := takeDecision_pends w ver flags ho h h1
    exact ⟨_, _, _, _, _, _, _, _, _, heq, id⟩
  by_cases hl : d.tide.lost = 2
  · obtain ⟨x, y, z, heq⟩ := takeDecision_loses w ver flags ho h h1
    have hagain := loseDecision_again (d := { decisionNoted w d with step := { d.step with verdict := x, verdictOf := y, verdictNv := z } })
      (if_pos hl)
    exact ⟨_, _, _, _, _, _, _, _, _, heq.trans hagain, id⟩
  · obtain ⟨_, _, _, _, _, _, _, _, heq⟩ := takeDecision_loses_frame w ver flags ho h h1 hl
    exact ⟨_, _, _, _, _, _, _, _, _, heq, fun _ => rfl⟩

end

/-! ### No marker and no decision: NO with MISSING (02 R60) -/

/-- The decision that stands in for the one that no module received. -/
def missingDecision (d : Dev) : BitVec 32 := decisionWord (BitVec.ofNat 16 d.step.num) 0 8 2

theorem lossDecided_kept {d : Dev} (h : d.tide.lost ≠ 1) : lossDecided d = d := if_neg h

theorem lossDecided_eq {d : Dev} (h : d.tide.lost = 1) : lossDecided d =
    (let e := takeDecision (missingDecision d) 0 {} { d with tide := { d.tide with lost := 0 } }
     { e with tide := { e.tide with decisionLost := true } }) := if_pos h

theorem missingDecision_applies (d e : Dev) : Applies (missingDecision d) e := Or.inl (decisionWord_dec _ _ _ (by decide))

/-- An open step takes it. -/
theorem lossDecided_open {d : Dev} (h : d.tide.lost = 1) (ho : stepIsOpen d = true) :
    (lossDecided d).tide.lost = 0 ∧ (lossDecided d).tide.lastDecision = missingDecision d ∧
      (lossDecided d).step.decision = some (missingDecision d) := by
  obtain ⟨x, y, z, heq⟩ := takeDecision_applies (missingDecision d) 0 {} (d := { d with tide := { d.tide with lost := 0 } }) ho
    (missingDecision_applies _ _)
  rw [lossDecided_eq h, heq]
  exact ⟨rfl, rfl, rfl⟩

/-- A decision that counts as NO changes what a decision changes, and logs nothing. -/
theorem lossDecided_frame (d : Dev) : ∃ w a b v st,
    lossDecided d = { d with tide := { d.tide with lastDecision := w, decisionLost := a, lost := b }, vote := v, step := st } := by
  by_cases h : d.tide.lost = 1
  case neg => exact ⟨_, _, _, _, _, lossDecided_kept h⟩
  rw [lossDecided_eq h]
  by_cases ho : stepIsOpen d = true
  · obtain ⟨x, y, z, heq⟩ := takeDecision_applies (missingDecision d) 0 {} (d := { d with tide := { d.tide with lost := 0 } }) ho
      (missingDecision_applies _ _)
    rw [heq]
    exact ⟨_, _, _, _, _, rfl⟩
  · rw [takeDecision_closed (d := { d with tide := { d.tide with lost := 0 } }) _ _ _ (Bool.eq_false_iff.mpr ho)]
    exact ⟨_, _, _, _, _, rfl⟩

/-! ### Markers that count (02 R41, R60) -/

/-- A marker that counts ends the count of missed tides and holdover. -/
def markerCounted (d : Dev) : Dev := { d with tide := { d.tide with markerSeen := true, missed := 0, holdover := false } }

theorem markerIn_counted {d : Dev} (h : d.tide.lost ≠ 1) : markerIn d = markerCounted d := if_neg h

/-- Where a decision did not come, markers that come show that the module is out of step. -/
theorem markerIn_lost {d : Dev} (h : d.tide.lost = 1) :
    ∃ x y z v w, markerIn d = { outOfStep (markerCounted d) with ras := x, pf0 := y, pf1 := z, lnk := v, out := w } := by
  have hlost : (markerCounted d).tide.lost ≠ 2 := by show d.tide.lost ≠ 2; omega
  obtain ⟨x, y, z, v, w, hlose⟩ := loseDecision_frame hlost
  exact ⟨x, y, z, v, w, (if_pos h).trans hlose⟩

theorem clocksRun_iff {d : Dev} :
    clocksRun d = true ↔ isOn d = true ∧ d.frz.frozen = false ∧ d.frz.holdEdge = false ∧ isStopped d = false := by
  simp [clocksRun, and_assoc]

theorem markerOk_iff {d : Dev} {st ln : Nat} {mk : Marker} : markerOk d st ln mk = true ↔
    isOn d = true ∧ d.frz.frozen = false ∧ isStopped d = false ∧ d.tide.run = true ∧ st < 6 ∧ ln < 4 ∧
      (linkOf d st ln).state = 7 ∧ mk.partId = d.lnk.partId := by
  simp [markerOk, and_assoc]

end Sys2Proof.Proofs
end

section
/-! The vote wave (02 R55 to R60): contributions that are gathered and forwarded, the master's decision, and decisions that arrive or do
not. -/
namespace Sys2Proof.Proofs
open Sys2Proof Sys2Proof.Machine Sys2Proof.Laws

/-! ### GATHER (02 R55) -/

section
variable {s : State} {st ln : Nat} {mk : Marker}

/-- A child's first contribution of the wave is kept. -/
theorem exec_gatherMarker_kept (hc : clocksRun s.dev = true) (hok : markerOk s.dev st ln mk = true) (hchild : st ∈ s.dev.tide.children)
    (hf : s.dev.vote.forwarded = false) (hfirst : ∀ k ∈ s.dev.vote.kids, k.strait ≠ st) :
    exec (.gatherMarker st ln mk) s = .next (s.onDev (fun d => { d with vote := { d.vote with
      kids := d.vote.kids ++ [{ strait := st, vote := mk.vote, verdict := mk.verdict }] } })) :=
  eff_eq_onDev (by
    have hnone : s.dev.vote.kids.any (fun k => k.strait == st) = false := by simpa using hfirst
    simp [hc, hok, hchild, hf, hnone])

theorem exec_gatherMarker_dropped (hc : clocksRun s.dev = true) (hok : markerOk s.dev st ln mk = true)
    (h : st ∉ s.dev.tide.children ∨ s.dev.vote.forwarded = true ∨ ∃ k ∈ s.dev.vote.kids, k.strait = st) :
    exec (.gatherMarker st ln mk) s = .next s :=
  eff_idle (by
    have htaken : ¬ (s.dev.tide.children.contains st && !s.dev.vote.forwarded && !s.dev.vote.kids.any (fun k => k.strait == st)) = true := by
      rcases h with h | h | h <;> simp [h]
    simp only [hc, hok, Bool.and_self, Bool.not_true, Bool.false_eq_true, if_false, if_neg htaken])

end

/-! ### DECISION (02 R58, R60) -/

/-- Only the parent's first decision of the wave is taken, and never by the module that decides. -/
def TakesDecision (d : Dev) (st : Nat) : Prop := d.tide.parent = some st ∧ acts d = false ∧ d.vote.received = false

/-- What a DECISION marker does once it has counted. -/
def decisionIn (st : Nat) (mk : Marker) (d : Dev) : Dev :=
  if d.tide.parent == some st && !acts d && !d.vote.received then
    takeDecision mk.decision mk.decVerdict mk.verdict
      (sendMarker 3 { bareMarker d with decision := mk.decision, decVerdict := mk.decVerdict, verdict := mk.verdict } (List.range 6) d)
  else d

theorem exec_decisionMarker {s : State} {st ln : Nat} {mk : Marker} (hc : clocksRun s.dev = true) (hok : markerOk s.dev st ln mk = true)
    {d : Dev} (h : decisionIn st mk (markerIn s.dev) = d) : exec (.decisionMarker st ln mk) s = .next { s with dev := d } :=
  eff_eq_dev (by
    simp only [hc, hok, Bool.and_self, Bool.not_true, Bool.false_eq_true, if_false]
    exact h)

section
variable {st : Nat} {mk : Marker} {d : Dev}

theorem takesDecision_iff : TakesDecision d st ↔ (d.tide.parent == some st && !acts d && !d.vote.received) = true := by
  simp [TakesDecision, and_assoc]

theorem decisionIn_taken (h : TakesDecision d st) : ∃ x y,
    decisionIn st mk d = takeDecision mk.decision mk.decVerdict mk.verdict { d with lnk := x, out := y } := by
  obtain ⟨x, y, hsend⟩ := sendMarker_frame 3
    { bareMarker d with decision := mk.decision, decVerdict := mk.decVerdict, verdict := mk.verdict } (List.range 6) d
  exact ⟨x, y, by rw [decisionIn, if_pos (takesDecision_iff.mp h), hsend]⟩

theorem decisionIn_ignored (h : ¬ TakesDecision d st) : decisionIn st mk d = d := if_neg (mt takesDecision_iff.mpr h)

/-- A decision leaves the count of missed tides, and a module that re-enters goes on to do so. -/
theorem decisionIn_missed_reentry (hm : d.tide.missed = 0) (hs : d.spare.reentry = true) :
    (decisionIn st mk d).spare.reentry = true ∧ (decisionIn st mk d).tide.missed = 0 := by
  by_cases h : TakesDecision d st
  · obtain ⟨x, y, heq⟩ := decisionIn_taken (mk := mk) h
    obtain ⟨_, _, _, _, _, _, _, _, _, htake, hre⟩ := takeDecision_frame mk.decision mk.decVerdict mk.verdict { d with lnk := x, out := y }
    rw [heq, htake]
    exact ⟨hre hs, hm⟩
  · rw [decisionIn_ignored h]
    exact ⟨hs, hm⟩

end

/-- A decision that is taken applies to the open step, or leaves it, or is lost (02 R58). -/
theorem takeDecision_cases (w : BitVec 32) (ver : Nat) (flags : VerdictC) (d : Dev) :
    let e := takeDecision w ver flags d
    let kept := d.tide.decisionLost && decide (d.tide.lost = 2)
    e.vote.received = true ∧ e.tide.lastDecision = w ∧
    (stepIsOpen d = false → e.step.decision = d.step.decision ∧ e.tide.decisionLost = kept) ∧
    (stepIsOpen d = true → Applies w d → e.step.decision = some w ∧ e.tide.decisionLost = kept) ∧
    (stepIsOpen d = true → d.tide.lost ≠ 2 → ¬ Applies w d → (w.extractLsb' 0 2).toNat = 1 →
      e.tide.decisionLost = true ∧ e.spare.reentry = true ∧ e.step.decision = d.step.decision) ∧
    (stepIsOpen d = true → ¬ Applies w d → (w.extractLsb' 0 2).toNat ≠ 1 →
      e.step.decision = d.step.decision ∧ e.tide.decisionLost = kept) := by
  intro e kept
  refine ⟨?taken, ?word, fun ho => ?closed, fun ho h => ?applies, fun ho hl h h1 => ?loses, fun ho h h1 => ?pends⟩
  case taken =>
    obtain ⟨_, _, _, _, _, _, _, _, _, htake, _⟩ := takeDecision_frame w ver flags d
    exact congrArg (fun e => e.vote.received) htake
  case word =>
    obtain ⟨_, _, _, _, _, _, _, _, _, htake, _⟩ := takeDecision_frame w ver flags d
    exact congrArg (fun e => e.tide.lastDecision) htake
  case closed =>
    have heq := takeDecision_closed w ver flags ho
    exact ⟨congrArg (fun e => e.step.decision) heq, congrArg (fun e => e.tide.decisionLost) heq⟩
  case applies =>
    obtain ⟨_, _, _, heq⟩ := takeDecision_applies w ver flags ho h
    exact ⟨congrArg (fun e => e.step.decision) heq, congrArg (fun e => e.tide.decisionLost) heq⟩
  case loses =>
    obtain ⟨_, _, _, _, _, _, _, _, heq⟩ := takeDecision_loses_frame w ver flags ho h h1 hl
    exact ⟨congrArg (fun e => e.tide.decisionLost) heq, congrArg (fun e => e.spare.reentry) heq, congrArg (fun e => e.step.decision) heq⟩
  case pends =>
    obtain ⟨_, _, _, heq⟩ := takeDecision_pends w ver flags ho h h1
    exact ⟨congrArg (fun e => e.step.decision) heq, congrArg (fun e => e.tide.decisionLost) heq⟩

/-! ### The master's decision (02 R56, R57) -/

/-- The acting master's choice on its subtree: the decision, its cause and the PENDING waves after it. -/
def masterChoice (d : Dev) : Nat × BitVec 6 × Nat :=
  decide56 (subtree d).1 (subtree d).2.2 d.vote.pendingWaves (d.tide.voteCfg.active.extractLsb' 0 8).toNat

/-- Its word (02 Table 2-9). -/
def masterWord (d : Dev) : BitVec 32 := decisionWord (subtree d).1.step d.vote.pendingWaves (masterChoice d).2.1 (masterChoice d).1

theorem decide56_dec (c : Contribution) (isOpen : Bool) (pending limit : Nat) : (decide56 c isOpen pending limit).1 =
    if c.no = true then 2 else if isOpen = false then 0 else if c.ready = true then 1 else if max limit 1 ≤ pending + 1 then 2 else 3 := by
  simp only [decide56, apply_ite Prod.fst, Bool.not_eq_true']

theorem decide56_lt (c : Contribution) (isOpen : Bool) (pending limit : Nat) : (decide56 c isOpen pending limit).1 < 4 := by
  rw [decide56_dec]
  split_ifs <;> decide

/-- Waves are counted while the decision is PENDING. -/
theorem decide56_waves (c : Contribution) (isOpen : Bool) (pending limit : Nat) : (decide56 c isOpen pending limit).2.2 =
    if (decide56 c isOpen pending limit).1 = 3 then pending + 1 else 0 := by
  unfold decide56
  split_ifs <;> simp_all

theorem waveRuns_iff {d : Dev} (hc : clocksRun d = true) (hr : d.tide.run = true) : waveRuns d = true ↔ d.tide.phase = .work := by
  simp [waveRuns, hc, hr]

/-- The PENDING waves after a decision, and the verdict that the master keeps. -/
def masterNoted (ver : Nat) (ovf nv : Bool) (d : Dev) : Dev :=
  { d with vote := { d.vote with pendingWaves := (masterChoice d).2.2, masterVerdict := ver, masterOf := ovf, masterNv := nv } }

section
variable {s : State}

/-- The acting master broadcasts its decision and takes it itself. -/
theorem exec_masterDecision_eq (h : ¬ (!waveRuns s.dev || !acts s.dev || s.dev.vote.received) = true) :
    ∃ ver fl a b c mk, exec .masterDecision s = .next { s with
      dev := takeDecision (masterWord s.dev) ver fl (sendMarker 3 mk (List.range 6) (masterNoted a b c s.dev)) } :=
  ⟨_, _, _, _, _, _, eff_eq_dev (if_neg h)⟩

theorem exec_masterDecision (hw : waveRuns s.dev = true) (ha : acts s.dev = true) (hv : s.dev.vote.received = false) :
    ∃ d', exec .masterDecision s = .next { s with dev := d' } ∧ d'.vote.received = true ∧ d'.tide.lastDecision = masterWord s.dev ∧
      d'.vote.pendingWaves = (masterChoice s.dev).2.2 := by
  obtain ⟨ver, fl, a, b, c, mk, hexec⟩ := exec_masterDecision_eq (s := s) (by simp [hw, ha, hv])
  obtain ⟨x, y, hsend⟩ := sendMarker_frame 3 mk (List.range 6) (masterNoted a b c s.dev)
  obtain ⟨_, _, _, _, _, _, _, _, _, htake, -⟩ := takeDecision_frame (masterWord s.dev) ver fl { masterNoted a b c s.dev with lnk := x, out := y }
  rw [hsend, htake] at hexec
  exact ⟨_, hexec, rfl, rfl, rfl⟩

theorem exec_masterDecision_idle (h : waveRuns s.dev = false ∨ acts s.dev = false ∨ s.dev.vote.received = true) :
    exec .masterDecision s = .next s := eff_idle (if_pos (by simpa [or_assoc] using h))

/-! ### The deadline of a contribution and the close time (02 R57, R60) -/

theorem exec_voteForwardDeadline_idle (h : waveRuns s.dev = false ∨ acts s.dev = true ∨ s.dev.vote.forwarded = true) :
    exec .voteForwardDeadline s = .next s := eff_idle (if_pos (by simpa [or_assoc] using h))

section
variable (hw : waveRuns s.dev = true) (ha : acts s.dev = false) (hf : s.dev.vote.forwarded = false)
include hw ha hf

theorem exec_voteForwardDeadline_parent {st : Nat} (hp : s.dev.tide.parent = some st) :
    exec .voteForwardDeadline s = .next (s.onDev (fun d =>
      sendMarker 2 { bareMarker d with vote := (subtree s.dev).1, verdict := (subtree s.dev).2.1 } [st]
        { d with vote := { d.vote with forwarded := true } })) :=
  eff_eq_onDev (by simp only [hw, ha, hf, hp, Bool.not_true, Bool.or_self, Bool.false_eq_true, if_false])

theorem exec_voteForwardDeadline_root (hp : s.dev.tide.parent = none) :
    exec .voteForwardDeadline s = .next (s.onDev (fun d => { d with vote := { d.vote with forwarded := true } })) :=
  eff_eq_onDev (by simp only [hw, ha, hf, hp, Bool.not_true, Bool.or_self, Bool.false_eq_true, if_false])

end

theorem exec_decisionCloseTime_lost (hw : waveRuns s.dev = true) (hv : s.dev.vote.received = false) (hl : s.dev.tide.lost ≠ 2) :
    exec .decisionCloseTime s = .next (s.onDev (fun d =>
      { d with tide := { d.tide with decisionLost := true, lost := if stepIsOpen d = true then 1 else d.tide.lost } })) :=
  eff_eq_onDev (if_neg (by simp [hw, hv, hl]))

theorem exec_decisionCloseTime_idle (h : waveRuns s.dev = false ∨ s.dev.vote.received = true ∨ s.dev.tide.lost = 2) :
    exec .decisionCloseTime s = .next s := eff_idle (if_pos (by simpa [or_assoc] using h))

end

/-- Settles O50: the wave's rows on a module whose wave runs, with the decision by `takeDecision_cases` and `decide56_dec`. -/
theorem theVoteWave : Obligations.TheVoteWave := by
  intro s hc hr d seen
  obtain ⟨hon, hfrozen, -, hstopped⟩ := clocksRun_iff.mp hc
  have runs (hp : d.tide.phase = .work) : waveRuns d = true := (waveRuns_iff hc hr).mpr hp
  have stands (hp : d.tide.phase ≠ .work) : waveRuns d = false := Bool.eq_false_iff.mpr (mt (waveRuns_iff hc hr).mp hp)
  refine ⟨fun st ln mk hst hln hlink hpart => ?markers,
    fun hp ha hf => ⟨fun st hparent => exec_voteForwardDeadline_parent (runs hp) ha hf hparent, exec_voteForwardDeadline_root (runs hp) ha hf⟩,
    fun h => exec_voteForwardDeadline_idle (h.imp_left stands), fun h => exec_masterDecision_idle (h.imp_left stands),
    fun hp ha hv => ?master, fun hp hv hl => exec_decisionCloseTime_lost (runs hp) hv hl,
    fun h => exec_decisionCloseTime_idle (h.imp_left stands)⟩
  case markers =>
    have hok : markerOk d st ln mk = true := markerOk_iff.mpr ⟨hon, hfrozen, hstopped, hr, hst, hln, hlink, hpart⟩
    refine ⟨exec_gatherMarker_kept hc hok, exec_gatherMarker_dropped hc hok, fun hlost => ?lost, fun hlost h => ?ignored,
      fun hlost hparent ha hv => ?taken⟩
    case lost =>
      obtain ⟨_, _, _, _, _, hin⟩ := markerIn_lost hlost
      obtain ⟨hre, hm⟩ := decisionIn_missed_reentry (st := st) (mk := mk) (d := markerIn d) (by rw [hin]; rfl) (by rw [hin]; rfl)
      exact ⟨_, exec_decisionMarker hc hok rfl, hre, hm⟩
    case ignored =>
      have hnot : ¬ TakesDecision (markerCounted d) st := fun ⟨hparent, ha, hv⟩ => by
        rcases h with h | h | h
        · exact h hparent
        · exact absurd (h.symm.trans ha) (by decide)
        · exact absurd (h.symm.trans hv) (by decide)
      exact exec_decisionMarker hc hok ((congrArg (decisionIn st mk) (markerIn_counted hlost)).trans (decisionIn_ignored hnot))
    case taken =>
      obtain ⟨x, y, heq⟩ := decisionIn_taken (mk := mk) (d := markerCounted d) ⟨hparent, ha, hv⟩
      have hexec := exec_decisionMarker hc hok (by rw [markerIn_counted hlost, heq])
      obtain ⟨hreceived, hword, hclosed, happlies, hloses, hpends⟩ :=
        takeDecision_cases mk.decision mk.decVerdict mk.verdict { markerCounted d with lnk := x, out := y }
      refine ⟨_, hexec, hreceived, hword, hclosed, fun ho h2 => happlies ho (.inl ?_), fun ho h1 hs => happlies ho (.inr ⟨?_, hs⟩),
        fun ho hl h1 hs => hloses ho hl ?_ ?_, fun ho h3 => hpends ho ?_ ?_⟩
      · rw [h2]; rfl
      · rw [h1]; rfl
      · rintro (h | ⟨-, h⟩)
        · simp [h1] at h
        · exact hs h
      · rw [h1]; rfl
      · rintro (h | ⟨h, -⟩) <;> simp [h3] at h
      · rw [h3]; decide
  case master =>
    intro c isOpen limit dec
    obtain ⟨d', hexec, hreceived, hword, hwaves⟩ := exec_masterDecision (runs hp) ha hv
    have hdec : (masterChoice d).1 = dec := decide56_dec _ _ _ _
    have hlt : (masterChoice d).1 < 4 := decide56_lt _ _ _ _
    refine ⟨d', hexec, hreceived, ?_, ?_, ?_⟩
    · rw [hword, ← hdec]
      exact decisionWord_dec _ _ _ hlt
    · rw [hword]
      exact decisionWord_step _ _ _ hlt
    · rw [hwaves, ← hdec]
      exact decide56_waves _ _ _ _

end Sys2Proof.Proofs
end

section
/-! Markers, missed markers and TIDE_REF (02 R37 to R42; 17 R558). -/
namespace Sys2Proof.Proofs
open Sys2Proof Sys2Proof.Machine Sys2Proof.Laws

/-! ### A root that markers show (02 R42) -/

/-- A marker shows a root to which the module re-roots. -/
def Moves (d : Dev) (mk : Marker) (p : Pos) : Prop :=
  acts d = false ∧ markerRoot d mk = some p ∧ p ≠ d.tide.acting ∧ d.tide.edgeTaken = false ∧ (p = d.tide.backup → d.tide.missed ≠ 0)

theorem reRoot_moves {d : Dev} {mk : Marker} {p : Pos} (h : Moves d mk p) :
    reRoot mk d = remakeTree (lossDecided { d with tide := { d.tide with acting := p } }) := by
  obtain ⟨hacts, hroot, hnew, hedge, hbackup⟩ := h
  have hgo : ¬ (p == d.tide.acting || d.tide.edgeTaken || (p == d.tide.backup && d.tide.missed == 0)) = true := by
    simpa [hnew, hedge] using hbackup
  simp only [reRoot, hacts, Bool.false_eq_true, if_false, hroot, if_neg hgo]

theorem reRoot_stays {d : Dev} {mk : Marker} (h : ∀ p, ¬ Moves d mk p) : reRoot mk d = d := by
  unfold reRoot
  split
  case h_1 => rfl
  case h_2 p hp =>
    by_cases hacts : acts d = true
    · simp [hacts] at hp
    · rw [if_neg hacts] at hp
      refine if_pos (by_contra fun hgo => h p ?_)
      simp only [Bool.or_eq_true, Bool.and_eq_true, beq_iff_eq, not_or, not_and, Bool.not_eq_true] at hgo
      exact ⟨Bool.eq_false_iff.mpr hacts, hp, hgo.1.1, hgo.1.2, hgo.2⟩

/-! ### EDGE markers (02 R37, R40, R65) -/

/-- What the parent's EDGE marker sets in the tide generator. -/
def edgeAdopted (mk : Marker) (d : Dev) : TideBlock :=
  { d.tide with
    edgeTaken := true, locked := true
    adoptCount := if mk.tide = d.tide.count then none else some mk.tide
    announced := if mk.announce then some { rate := mk.rate, slack := mk.slack, tide := mk.tide + 2 } else d.tide.announced
    ratePending := mk.announce || d.tide.ratePending }

theorem edgeIn_frame (mk : Marker) (d : Dev) : ∃ b x y, edgeIn mk d =
    { d with tide := edgeAdopted mk d, frz := { d.frz with holdEdge := d.frz.holdEdge && !d.frz.partition, partition := b }, lnk := x, out := y } := by
  unfold edgeIn edgeAdopted
  cases mk.announce
  case false =>
    obtain ⟨x, y, h⟩ := sendMarker_frame 1 _ (List.range 6) _
    exact ⟨_, x, y, h⟩
  case true =>
    obtain ⟨x, y, h⟩ := sendMarker_frame 1 _ (List.range 6) _
    exact ⟨_, x, y, h⟩

/-- The content of an EDGE marker is taken from the parent alone, once a tide but for an announcement. -/
def edgeFromParent (st : Nat) (mk : Marker) (d : Dev) : Dev :=
  if d.tide.parent == some st && !acts d && (!d.tide.edgeTaken || (mk.announce && d.tide.announced.isNone)) then edgeIn mk d else d

theorem edgeFromParent_ignored {st : Nat} {mk : Marker} {d : Dev} (h : d.tide.parent ≠ some st) : edgeFromParent st mk d = d :=
  if_neg (by simp [h])

theorem edgeFromParent_taken {st : Nat} {mk : Marker} {d : Dev} (hp : d.tide.parent = some st) (ha : acts d = false)
    (he : d.tide.edgeTaken = false) : edgeFromParent st mk d = edgeIn mk d := if_pos (by simp [hp, ha, he])

/-- Whichever it is, the marker leaves the root, what marks the module out of step, and what the marker's arrival set. -/
theorem edgeFromParent_frame (st : Nat) (mk : Marker) (d : Dev) : ∃ e l a n r f x y, edgeFromParent st mk d =
    { d with tide := { d.tide with edgeTaken := e, locked := l, adoptCount := a, announced := n, ratePending := r }
             frz := f, lnk := x, out := y } := by
  unfold edgeFromParent
  split
  · obtain ⟨_, x, y, h⟩ := edgeIn_frame mk d
    exact ⟨_, _, _, _, _, _, x, y, h⟩
  · exact ⟨_, _, _, _, _, _, _, _, rfl⟩

/-- A marker that counts leaves the root. -/
theorem markerIn_root (d : Dev) : (markerIn d).tide.acting = d.tide.acting ∧ (markerIn d).tide.missed = 0 ∧ (markerIn d).tide.holdover = false := by
  by_cases h : d.tide.lost = 1
  · obtain ⟨_, _, _, _, _, hin⟩ := markerIn_lost h
    rw [hin]
    exact ⟨rfl, rfl, rfl⟩
  · rw [markerIn_counted h]
    exact ⟨rfl, rfl, rfl⟩

section
variable {s : State} {st ln : Nat} {mk : Marker}

theorem exec_edgeMarker (hok : markerOk s.dev st ln mk = true) {d : Dev} (h : edgeFromParent st mk (markerIn (reRoot mk s.dev)) = d) :
    exec (.edgeMarker st ln mk) s = .next { s with dev := d } :=
  eff_eq_dev (by
    simp only [hok, Bool.not_true, Bool.false_eq_true, if_false]
    exact h)

/-- The parent's first EDGE marker of a tide locks the module and gives it the count and the setting. -/
theorem exec_edgeMarker_parent (hok : markerOk s.dev st ln mk = true) (hroot : ∀ p, ¬ Moves s.dev mk p) (hl : s.dev.tide.lost ≠ 1)
    (hp : s.dev.tide.parent = some st) (ha : acts s.dev = false) (he : s.dev.tide.edgeTaken = false) :
    ∃ d', exec (.edgeMarker st ln mk) s = .next { s with dev := d' } ∧ d'.tide = edgeAdopted mk (markerCounted s.dev) ∧
      d'.frz.holdEdge = (s.dev.frz.holdEdge && !s.dev.frz.partition) ∧ d'.step = s.dev.step ∧ d'.items = s.dev.items := by
  obtain ⟨_, _, _, hedge⟩ := edgeIn_frame mk (markerCounted s.dev)
  have hexec := exec_edgeMarker hok rfl
  rw [reRoot_stays hroot, markerIn_counted hl, edgeFromParent_taken (d := markerCounted s.dev) hp ha he, hedge] at hexec
  exact ⟨_, hexec, rfl, rfl, rfl, rfl⟩

/-- Where a decision did not come, an EDGE marker puts the module out of step (02 R60). -/
theorem exec_edgeMarker_lost (hok : markerOk s.dev st ln mk = true) (hroot : ∀ p, ¬ Moves s.dev mk p) (hl : s.dev.tide.lost = 1) :
    ∃ d', exec (.edgeMarker st ln mk) s = .next { s with dev := d' } ∧
      d'.tide.lost = 2 ∧ d'.tide.decisionLost = true ∧ d'.spare.reentry = true ∧ d'.tide.missed = 0 := by
  obtain ⟨_, _, _, _, _, hin⟩ := markerIn_lost hl
  obtain ⟨_, _, _, _, _, _, _, _, hedge⟩ := edgeFromParent_frame st mk (markerIn s.dev)
  have hexec := exec_edgeMarker hok rfl
  rw [reRoot_stays hroot, hedge, hin] at hexec
  exact ⟨_, hexec, rfl, rfl, rfl, rfl⟩

/-- An EDGE marker of a root that the silent tree left moves the module to it (02 R42). -/
theorem exec_edgeMarker_moves (hok : markerOk s.dev st ln mk = true) {p : Pos} (h : Moves s.dev mk p) :
    ∃ d', exec (.edgeMarker st ln mk) s = .next { s with dev := d' } ∧
      d'.tide.acting = p ∧ d'.tide.missed = 0 ∧ d'.tide.holdover = false := by
  obtain ⟨_, _, _, _, _, hdecided⟩ := lossDecided_frame { s.dev with tide := { s.dev.tide with acting := p } }
  obtain ⟨hacting, hmissed, hhold⟩ := markerIn_root (reRoot mk s.dev)
  obtain ⟨_, _, _, _, _, _, _, _, hedge⟩ := edgeFromParent_frame st mk (markerIn (reRoot mk s.dev))
  refine ⟨_, exec_edgeMarker hok hedge, hacting.trans ?_, hmissed, hhold⟩
  rw [reRoot_moves h, hdecided]
  rfl

end

/-! ### Missed markers (02 R41, R42) -/

theorem fireBoth_ras (p q : Bool) (v w : Nat) (d : Dev) :
    (let e := if p then fire1 v d else d; if q then fire0 w e else e).ras = d.ras := by
  have h1 : (if p then fire1 v d else d).ras = d.ras := by
    split
    · obtain ⟨_, _, h⟩ := fire1_frame v d
      rw [h]
    · rfl
  show (if q then fire0 w (if p then fire1 v d else d) else if p then fire1 v d else d).ras = d.ras
  split
  · obtain ⟨_, _, h⟩ := fire0_frame w (if p then fire1 v d else d)
    rw [h]
    exact h1
  · exact h1

/-- Each record takes the next number. -/
theorem logRec_seq (r : RasRec) (d : Dev) : (logRec r d).ras.seq = d.ras.seq + 1 :=
  congrArg RasBlock.seq (fireBoth_ras _ _ _ _ _)

/-- A module enters holdover with a record; one in holdover stays. -/
def holdoverEntered (d : Dev) : Dev :=
  if d.tide.holdover then d
  else logRec (ofModule d d.lnk.pos { sev := 3, cls := 0x102 }) { d with tide := { d.tide with holdover := true, locked := false } }

theorem holdoverEntered_frame (d : Dev) : ∃ l x y z w, holdoverEntered d =
    { d with tide := { d.tide with holdover := true, locked := l }, ras := x, pf0 := y, pf1 := z, out := w } ∧
    (d.tide.holdover = false → l = false ∧ x.seq = d.ras.seq + 1) ∧ (d.tide.holdover = true → x.seq = d.ras.seq) := by
  by_cases h : d.tide.holdover = true
  · have hstays : d = { d with tide := { d.tide with holdover := true } } :=
      congrArg (fun b => ({ d with tide := { d.tide with holdover := b } } : Dev)) h
    exact ⟨d.tide.locked, d.ras, d.pf0, d.pf1, d.out, (if_pos h).trans hstays, fun h' => absurd (h'.symm.trans h) (by decide), fun _ => rfl⟩
  · obtain ⟨x, y, z, w, hlog⟩ := logRec_frame (ofModule d d.lnk.pos { sev := 3, cls := 0x102 })
      { d with tide := { d.tide with holdover := true, locked := false } }
    have hseq := logRec_seq (ofModule d d.lnk.pos { sev := 3, cls := 0x102 })
      { d with tide := { d.tide with holdover := true, locked := false } }
    rw [hlog] at hseq
    exact ⟨false, x, y, z, w, (if_neg h).trans hlog, fun _ => ⟨rfl, hseq⟩, fun h' => absurd h' h⟩

/-- A module whose tree is rooted at the backup; the backup itself acts. -/
def rootedAtBackup (d : Dev) : Dev :=
  remakeTree { d with tide := { d.tide with
    acting := d.tide.backup, roleNow := if d.tide.roleNow == 2 then 3 else d.tide.roleNow } }

/-- A module that does not act re-roots its tree at the backup. -/
def standIn (d : Dev) : Dev :=
  if acts d then d else if d.tide.roleNow == 2 then edgeMarkers (rootedAtBackup d) else rootedAtBackup d

theorem standIn_frame (d : Dev) : ∃ p r depth dist parent children stale x y, standIn d = { d with
    tide := { d.tide with
      acting := p, roleNow := r, depth := depth, dist := dist, parent := parent, children := children, treeStale := stale }
    lnk := x, out := y } ∧
    (acts d = true → p = d.tide.acting ∧ r = d.tide.roleNow) ∧
    (acts d = false → p = d.tide.backup ∧ r = if d.tide.roleNow = 2 then 3 else d.tide.roleNow) := by
  have hrole : (if d.tide.roleNow == 2 then 3 else d.tide.roleNow) = if d.tide.roleNow = 2 then 3 else d.tide.roleNow := by
    simp only [beq_iff_eq]
  by_cases h : acts d = true
  · exact ⟨_, _, _, _, _, _, _, _, _, if_pos h, fun _ => ⟨rfl, rfl⟩, fun h' => absurd (h'.symm.trans h) (by decide)⟩
  · obtain ⟨x, y, hmarkers⟩ := edgeMarkers_frame (rootedAtBackup d)
    by_cases hb : (d.tide.roleNow == 2) = true
    · exact ⟨_, _, _, _, _, _, _, x, y, (if_neg h).trans ((if_pos hb).trans hmarkers), fun h' => absurd h' h, fun _ => ⟨rfl, hrole⟩⟩
    · exact ⟨_, _, _, _, _, _, _, d.lnk, d.out, (if_neg h).trans (if_neg hb), fun h' => absurd h' h, fun _ => ⟨rfl, hrole⟩⟩

section
variable {s : State}

theorem exec_markerMissLimit_due (hc : clocksRun s.dev = true) (hr : s.dev.tide.run = true) (ha : isAlone s.dev = false)
    (hm : max 1 s.dev.tide.missLimit ≤ s.dev.tide.missed) :
    exec .markerMissLimit s = .next { s with dev := standIn (lossDecided (holdoverEntered s.dev)) } :=
  eff_eq_dev (if_neg (by simp only [hc, hr, ha, Nat.not_lt.mpr hm]; decide))

theorem exec_markerMissLimit_early (hm : s.dev.tide.missed < max 1 s.dev.tide.missLimit) : exec .markerMissLimit s = .next s :=
  eff_idle (if_pos (by simp only [decide_eq_true hm, Bool.or_true]))

theorem exec_markerMissLimit_off (h : clocksRun s.dev = false ∨ s.dev.tide.run = false ∨ isAlone s.dev = true) :
    exec .markerMissLimit s = .next s :=
  eff_idle (if_pos (by rcases h with h | h | h <;> simp only [h, Bool.and_false, Bool.false_and, Bool.not_false, Bool.true_or, Bool.or_true]))

end

/-- What a module knows of its tide after MISS_LIMIT tides without a marker. -/
theorem standIn_holdover (d : Dev) :
    let e := standIn (lossDecided (holdoverEntered d))
    e.tide.holdover = true ∧ e.tide.count = d.tide.count ∧
    (d.tide.holdover = false → e.tide.locked = false ∧ e.ras.seq = d.ras.seq + 1) ∧
    (d.tide.holdover = true → e.ras.seq = d.ras.seq) ∧
    (acts d = true → e.tide.acting = d.tide.acting ∧ e.tide.roleNow = d.tide.roleNow) ∧
    (acts d = false → e.tide.acting = d.tide.backup ∧ e.tide.roleNow = (if d.tide.roleNow = 2 then 3 else d.tide.roleNow)) ∧
    (d.tide.lost = 1 → stepIsOpen d = true → e.tide.lost = 0 ∧ e.tide.lastDecision = missingDecision d ∧
      e.step.decision = some (missingDecision d) ∧ e.tensors = d.tensors) := by
  intro e
  obtain ⟨l, x, y, z, w, hhold, henters, hstays⟩ := holdoverEntered_frame d
  obtain ⟨word, a, b, v, st, hdecided⟩ := lossDecided_frame (holdoverEntered d)
  have hopen : d.tide.lost = 1 → stepIsOpen d = true → b = 0 ∧ word = missingDecision d ∧ st.decision = some (missingDecision d) := by
    intro hl ho
    have h := lossDecided_open (d := holdoverEntered d) (by rw [hhold]; exact hl) (by rw [hhold]; exact ho)
    rw [hdecided, hhold] at h
    exact h
  obtain ⟨_, _, _, _, _, _, _, _, _, hstand, hacts, hother⟩ := standIn_frame (lossDecided (holdoverEntered d))
  have he : e = _ := hstand
  rw [hdecided, hhold] at he hacts hother
  rw [he]
  refine ⟨rfl, rfl, henters, hstays, hacts, hother, fun hl ho => ?_⟩
  obtain ⟨hlost, hword, hst⟩ := hopen hl ho
  exact ⟨hlost, hword, hst, rfl⟩

/-! ### TIDE_REF (02 R39; 17 R558) -/

section
variable {s : State} (hc : clocksRun s.dev = true) (hr : s.dev.tide.run = true) (hsel : s.dev.tide.refSel = true)
  (hrole : s.dev.tide.roleNow = 1)
include hc hr hsel hrole

theorem exec_tideRefEdge : exec .tideRefEdge s = .next (s.onDev (fun d => { d with
    tide := { d.tide with refLocked := true, refHeld := false }, tel := { d.tel with refLost := false } })) :=
  eff_eq_onDev (by simp only [hc, hr, hsel, hrole, beq_self_eq_true, Bool.and_self, if_true])

theorem exec_tideRefLost_locked (hl : s.dev.tide.refLocked = true) :
    exec .tideRefLost s = .next (s.onDev (fun d => logInfo 0x0A06 0 { d with
      tide := { d.tide with refLocked := false, refHeld := true }
      tel := { d.tel with refLost := true, alert := d.tel.alert || !d.tel.refLost } })) :=
  eff_eq_onDev (by simp only [hc, hr, hsel, hrole, hl, beq_self_eq_true, Bool.and_self, if_true])

end

theorem exec_tideRefLost_unlocked {s : State} (h : s.dev.tide.refLocked = false) : exec .tideRefLost s = .next s :=
  eff_idle (by simp only [h, Bool.and_false, Bool.false_eq_true, if_false])

/-- TIDE_REF means nothing to a module that is not the referencing master. -/
theorem exec_tideRef_other {s : State} (h : s.dev.tide.roleNow ≠ 1 ∨ s.dev.tide.refSel = false) :
    exec .tideRefEdge s = .next s ∧ exec .tideRefLost s = .next s := by
  have hnot : (clocksRun s.dev && s.dev.tide.run && s.dev.tide.refSel && s.dev.tide.roleNow == 1) = false := by
    rcases h with h | h
    · rw [beq_false_of_ne h, Bool.and_false]
    · rw [h, Bool.and_false, Bool.false_and]
  have hnotLocked : (clocksRun s.dev && s.dev.tide.run && s.dev.tide.refSel && s.dev.tide.roleNow == 1 && s.dev.tide.refLocked) = false := by
    rw [hnot, Bool.false_and]
  exact ⟨eff_idle (if_neg (ne_true_of_eq_false hnot)), eff_idle (if_neg (ne_true_of_eq_false hnotLocked))⟩

/-- Settles O48: an EDGE marker by the root that it shows and by what the module waits for, missed markers by `standIn_holdover`. -/
theorem markersDisciplineTheTide : Obligations.MarkersDisciplineTheTide := by
  intro s d seen
  refine ⟨fun st ln mk hon hfrozen hstopped hr hst hln hlink hpart => ?edge,
    fun hc hr ha => ⟨exec_markerMissLimit_early, fun hm => ⟨_, exec_markerMissLimit_due hc hr ha hm, ?missed⟩⟩,
    exec_markerMissLimit_off,
    fun hc hr hsel hrole => ⟨exec_tideRefEdge hc hr hsel hrole, exec_tideRefLost_locked hc hr hsel hrole, exec_tideRefLost_unlocked⟩,
    exec_tideRef_other⟩
  case edge =>
    intro moves
    have hok : markerOk d st ln mk = true := markerOk_iff.mpr ⟨hon, hfrozen, hstopped, hr, hst, hln, hlink, hpart⟩
    refine ⟨fun hroot hl => ⟨fun hp => exec_edgeMarker hok ?_, exec_edgeMarker_parent hok hroot hl⟩, exec_edgeMarker_lost hok,
      fun p h => exec_edgeMarker_moves hok h⟩
    rw [reRoot_stays hroot, markerIn_counted hl]
    exact edgeFromParent_ignored hp
  case missed =>
    obtain ⟨hhold, hcount, henters, hstays, hacts, hother, hopen⟩ := standIn_holdover d
    refine ⟨hhold, hcount, henters, hstays, hacts, hother, fun hl ho => ?_⟩
    obtain ⟨hlost, hword, hst, htensors⟩ := hopen hl ho
    refine ⟨hlost, hst.trans (congrArg some hword.symm), ?_, ?_, htensors⟩
    · rw [hword]
      exact BitVec.eq_of_toNat_eq (decisionWord_dec _ _ _ (by decide))
    · rw [hword]
      exact decisionWord_cause _ _ _ (by decide)

end Sys2Proof.Proofs
end

section
/-! The queue of commands (03 R70, R87, log 1): no command looks at it, so a run over a queue is the effects of its commands in order. -/
namespace Sys2Proof.Proofs
open Sys2Proof Sys2Proof.Machine Sys2Proof.Laws

/-! ### One command -/

/-- A command answers a next state, whose device and fuses are the same whatever waits in the queue, and the queue is as it was. -/
def KeepsQueue (f : State → Res) : Prop :=
  ∀ (d : Dev) (z : Fuses), ∃ (d' : Dev) (z' : Fuses), ∀ q : List Instr,
    f { pending := q, dev := d, fuses := z } = .next { pending := q, dev := d', fuses := z' }

/-- The device of the answer of a command on an empty queue. -/
def devAlone (f : State → Res) (s : State) : Dev :=
  match f { s with pending := [] } with
  | .next t => t.dev
  | _ => s.dev

/-- A command that changes the device alone, as it would on an empty queue; it may read the fuses (16 R529). -/
theorem keepsQueue_of_dev {f : State → Res} (h : ∀ s, f s = .next { s with dev := devAlone f s }) : KeepsQueue f := by
  intro d z
  exact ⟨devAlone f { pending := [], dev := d, fuses := z }, z, fun q => h _⟩

/-- A command whose whole effect is a change of the device. -/
theorem keepsQueue_of_eff {f : State → Res} {g : Dev → Dev} (h : ∀ s, f s = eff g s) : KeepsQueue f :=
  fun d z => ⟨g d, z, fun _ => h _⟩

/-- A security command may change the fuses too (16 R535). -/
theorem keepsQueue_secRow (op : Nat) (g : Fuses → Dev → SRes) : KeepsQueue (secRow op g) := by
  intro d z
  by_cases hrun : (clocksRun d && brgPassed d 8 && d.sec.state == 1 && d.sec.opcode.toNat == op) = true
  case neg => exact ⟨d, z, fun q => by simp only [secRow, hrun, Bool.false_eq_true, if_false]⟩
  case pos =>
    cases hg : g z d with
    | done z' d' body => exact ⟨secAnswer 0 0 body d', z', fun q => by simp only [secRow, hrun, if_true, hg]⟩
    | no r off => exact ⟨secAnswer r off [] d, z, fun q => by simp only [secRow, hrun, if_true, hg, State.onDev]⟩
    | wait => exact ⟨d, z, fun q => by simp only [secRow, hrun, if_true, hg]⟩

/-- Every row of the table is a security command, a change of the device that also reads the fuses, or a change of the device alone. -/
theorem exec_keepsQueue (c : Instr) : KeepsQueue (exec c) := by
  cases c
  case getIdentity => exact (keepsQueue_secRow 1 _ : KeepsQueue execGetIdentity)
  case getAttestCert => exact (keepsQueue_secRow 2 _ : KeepsQueue execGetAttestCert)
  case attest => exact (keepsQueue_secRow 3 _ : KeepsQueue execAttest)
  case configLog => exact (keepsQueue_secRow 4 _ : KeepsQueue execConfigLog)
  case svnCommit => exact (keepsQueue_secRow 5 _ : KeepsQueue execSvnCommit)
  case revokeSlot => exact (keepsQueue_secRow 6 _ : KeepsQueue execRevokeSlot)
  case lifecycleSet => exact (keepsQueue_secRow 7 _ : KeepsQueue execLifecycleSet)
  case unitQuery => exact keepsQueue_of_dev fun _ => rfl
  case repairLogClear => exact keepsQueue_of_dev fun _ => rfl
  case rcRegisterRead => exact keepsQueue_of_dev fun _ => rfl
  case bringupStepDone => exact keepsQueue_of_dev fun _ => rfl
  case attestCertReady => exact keepsQueue_of_dev fun _ => rfl
  case frzAccess => exact keepsQueue_of_dev fun _ => rfl
  case frzFreeze => exact keepsQueue_of_dev fun _ => rfl
  all_goals exact keepsQueue_of_eff fun _ => rfl

/-- Settles O2: it is `exec_keepsQueue`. -/
theorem commandsAreIndependentOfTheQueue : Obligations.CommandsAreIndependentOfTheQueue := exec_keepsQueue

/-! ### Steps and runs -/

theorem step_cons (c : Instr) (rest : List Instr) (s : State) :
    step { s with pending := c :: rest } = exec c { s with pending := rest } := rfl

theorem step_nil (s : State) : step { s with pending := [] } = .next { s with pending := [] } := rfl

/-- Settles O1: the two equations of `step`. -/
theorem stepRunsFrontCommand : Obligations.StepRunsFrontCommand := fun s c rest => ⟨step_cons c rest s, step_nil s⟩

/-- A step that answers a next state goes on from there. -/
theorem run_succ_next {s t : State} (h : step s = .next t) (n : Nat) :
    Host.Core.run Sys2Proof.core (n + 1) s = Host.Core.run Sys2Proof.core n t := by
  have hstep : Sys2Proof.core.step s = .next t := h
  simp only [Host.Core.run, hstep]

/-- Settles O3, by induction on the commands: the first one answers, from the full queue and from the empty one, the same device and
fuses (`exec_keepsQueue`), and from there the rest runs. -/
theorem queuedCommandsRunInOrder : Obligations.QueuedCommandsRunInOrder := by
  intro cs later
  induction cs with
  | nil => exact fun s => ⟨{ s with pending := [] }, rfl, rfl, rfl⟩
  | cons c cs ih =>
    intro s
    obtain ⟨d, z, hexec⟩ := exec_keepsQueue c s.dev s.fuses
    obtain ⟨t, hempty, hfold, hrun⟩ := ih { pending := [], dev := d, fuses := z }
    refine ⟨t, hempty, ?_, ?_⟩
    · exact (congrArg (cs.foldl _) (hexec [])).trans hfold
    · exact (run_succ_next (s := { s with pending := c :: (cs ++ later) }) (hexec (cs ++ later)) cs.length).trans hrun

end Sys2Proof.Proofs
end

section
/-! A mailbox's doorbell (03 R70, R71, R77, R89). -/
namespace Sys2Proof.Proofs
open Sys2Proof Sys2Proof.Machine Sys2Proof.Laws

/-- The request that a doorbell of mailbox `m` takes, with the device that holds it as the command in progress (03 R70). -/
def requestTaken (m : Nat) (tag : BitVec 32) (d : Dev) : Dev :=
  setMbx m { mbx d m with
    state := 1, tag := tag, cmd := memWrite [] 0 (memRead (mbx d m).req 0 16384), order := d.mbxOrder + 1 } { d with mbxOrder := d.mbxOrder + 1 }

section
variable {m : Nat} {tag : BitVec 32} {d : Dev}

theorem ringMailbox_off (h : ¬ (pf0Up d = true ∧ serves d = true)) : ringMailbox m tag d = d := by
  refine if_pos ?_
  rw [← Bool.and_eq_true, Bool.not_eq_true] at h
  simp [h]

/-- Where the function is up and the device serves, a doorbell of one of the 64 mailboxes is seen. -/
theorem ringMailbox_on (hm : m < 64) (hup : pf0Up d = true ∧ serves d = true) : ringMailbox m tag d =
    if (mbx d m).state = 1 then setMbx m { mbx d m with lost := true } d
    else match requestCheck (requestTaken m tag d) tag (memRead (mbx d m).req 0 16384) with
      | some x => refuse m x.1 x.2 (requestTaken m tag d)
      | none => closeChannel (memRead (mbx d m).req 0 16384) (requestTaken m tag d) := by
  have hon : ¬ (!(pf0Up d && serves d && decide (m < 64))) = true := by simp [hm, hup]
  exact if_neg hon

theorem ringMailbox_busy (hm : m < 64) (hup : pf0Up d = true ∧ serves d = true) (hb : (mbx d m).state = 1) :
    ringMailbox m tag d = setMbx m { mbx d m with lost := true } d := (ringMailbox_on hm hup).trans (if_pos hb)

theorem ringMailbox_accepted (hm : m < 64) (hup : pf0Up d = true ∧ serves d = true) (hb : (mbx d m).state ≠ 1)
    (hc : requestCheck (requestTaken m tag d) tag (memRead (mbx d m).req 0 16384) = none) :
    ringMailbox m tag d = closeChannel (memRead (mbx d m).req 0 16384) (requestTaken m tag d) := by
  rw [ringMailbox_on hm hup, if_neg hb, hc]

theorem ringMailbox_refused (hm : m < 64) (hup : pf0Up d = true ∧ serves d = true) (hb : (mbx d m).state ≠ 1) {x : Nat × Nat}
    (hc : requestCheck (requestTaken m tag d) tag (memRead (mbx d m).req 0 16384) = some x) :
    ringMailbox m tag d = refuse m x.1 x.2 (requestTaken m tag d) := by
  rw [ringMailbox_on hm hup, if_neg hb, hc]

/-- The host's own stores come before the doorbell. -/
theorem exec_mbxDoorbell {host : HostStores} {s : State} {e : Dev}
    (h : ringMailbox m tag { s.dev with host := applyStores s.dev.host host } = e) :
    exec (.mbxDoorbell m tag host) s = .next { s with dev := e } := eff_eq_dev h

end

/-- Settles O23: the host's own stores change neither who is up nor the mailbox, so each case is one of `ringMailbox`. -/
theorem doorbellAcceptsOrRefuses : Obligations.DoorbellAcceptsOrRefuses := by
  intro s m tag host hm d b req d1 up
  refine ⟨fun hup hidle hcheck => ?accepted, fun hup hidle x hcheck => ?refused, fun hup hbusy => ?lost, fun hoff => ?off⟩
  case accepted => exact exec_mbxDoorbell (ringMailbox_accepted (d := d) hm hup hidle hcheck)
  case refused => exact exec_mbxDoorbell (ringMailbox_refused (d := d) hm hup hidle hcheck)
  case lost => exact exec_mbxDoorbell (ringMailbox_busy (d := d) hm hup hbusy)
  case off => exact exec_mbxDoorbell (ringMailbox_off hoff)

end Sys2Proof.Proofs
end

section
/-! Mailbox commands on the object that the handle at an offset names: what they answer once the handle is a live one (00 R11, 03 R80). -/
namespace Sys2Proof.Proofs
open Sys2Proof Sys2Proof.Machine Sys2Proof.Laws

/-- The handle at an offset of the request that mailbox `m` has in progress. -/
abbrev handleAt (d : Dev) (m off : Nat) : BitVec 64 := BitVec.ofNat 64 (fieldLe (request d m) off 8)

section
variable {m op kind off : Nat} {s : State} (f : Dev → Bytes → Nat → MRes)

theorem eff_withHandle_ok {d' : Dev} {body : Bytes} (h : Asks s.dev m op)
    (hk : handleOk s.dev kind (handleAt s.dev m off) = true)
    (hf : f s.dev (request s.dev m) (hIdx (handleAt s.dev m off)) = .ok d' body) :
    eff (mbxRow m op (fun d c => withHandle d kind c off (f d c))) s = .next (s.answered m body d') :=
  eff_mbxRow_ok h ((withHandle_ok hk).trans hf)

theorem eff_withHandle_no {r o : Nat} (h : Asks s.dev m op)
    (hk : handleOk s.dev kind (handleAt s.dev m off) = true)
    (hf : f s.dev (request s.dev m) (hIdx (handleAt s.dev m off)) = .no r o) :
    eff (mbxRow m op (fun d c => withHandle d kind c off (f d c))) s = .next (s.refused m r o) :=
  eff_mbxRow_no h ((withHandle_ok hk).trans hf)

theorem eff_withHandle_busy {d' : Dev} (h : Asks s.dev m op)
    (hk : handleOk s.dev kind (handleAt s.dev m off) = true)
    (hf : f s.dev (request s.dev m) (hIdx (handleAt s.dev m off)) = .busy d') :
    eff (mbxRow m op (fun d c => withHandle d kind c off (f d c))) s = .next { s with dev := d' } :=
  eff_mbxRow_busy h ((withHandle_ok hk).trans hf)

/-- A command that refuses a handle which names no entry of its table refuses every handle that is not of a live object. -/
theorem eff_withHandle_absent {p : Prop} (h : Asks s.dev m op)
    (hk : handleOk s.dev kind (handleAt s.dev m off) = false ∨ p)
    (hf : p → f s.dev (request s.dev m) (hIdx (handleAt s.dev m off)) = .no rBadHandle off) :
    eff (mbxRow m op (fun d c => withHandle d kind c off (f d c))) s = .next (s.refused m rBadHandle off) := by
  cases hlive : handleOk s.dev kind (handleAt s.dev m off) with
  | false => exact eff_withHandle_stale f h hlive
  | true => exact eff_withHandle_no f h hlive (hf (hk.resolve_left (by simp [hlive])))

end

end Sys2Proof.Proofs
end

section
/-! Channels: CHANNEL_CREATE, CHANNEL_DESTROY and CHANNEL_QUERY, and the index doorbells (03 R82, R86, R89, R91). -/
namespace Sys2Proof.Proofs
open Sys2Proof Sys2Proof.Machine Sys2Proof.Laws

/-! ### The index doorbells -/

section
variable {slot : Nat} {v : BitVec 32} {d : Dev}

theorem writeSubTail_off (h : aGet d.chans slot = none ∨ (pf0Up d && serves d) = false) : writeSubTail slot v d = d := by
  unfold writeSubTail
  cases hch : aGet d.chans slot with
  | none => rfl
  | some ch =>
    have hoff : (pf0Up d && serves d) = false := h.resolve_left (by simp [hch])
    exact if_pos (by simp [hoff])

theorem writeOutHead_off (h : aGet d.chans slot = none ∨ (pf0Up d && serves d) = false) : writeOutHead slot v d = d := by
  unfold writeOutHead
  cases hch : aGet d.chans slot with
  | none => rfl
  | some ch =>
    have hoff : (pf0Up d && serves d) = false := h.resolve_left (by simp [hch])
    exact if_pos (by simp [hoff])

variable {ch : Chan}

/-- The SUB_TAIL that R86 takes: of a channel that is neither draining nor closing, not behind the present one, and not past the ring. -/
def TailAllowed (ch : Chan) (v : BitVec 32) : Prop :=
  ch.draining = false ∧ ch.closing = false ∧ (ch.subTail - ch.subHead).toNat ≤ (v - ch.subHead).toNat ∧
    (v - ch.subHead).toNat ≤ 2 ^ ch.subLog2

theorem writeSubTail_eq (hch : aGet d.chans slot = some ch) (hup : pf0Up d = true) (hs : serves d = true) : writeSubTail slot v d =
    if (ch.draining || ch.closing || decide ((ch.subTail - ch.subHead).toNat > (v - ch.subHead).toNat)
        || decide (2 ^ ch.subLog2 < (v - ch.subHead).toNat)) = true then badIndex slot ch d
    else { d with chans := aSet d.chans slot { ch with subTail := v } } := by
  simp only [writeSubTail, hch, hup, hs, Bool.and_self, Bool.not_true, Bool.false_eq_true, if_false]

theorem tailAllowed_iff : TailAllowed ch v ↔ ¬ (ch.draining || ch.closing || decide ((ch.subTail - ch.subHead).toNat > (v - ch.subHead).toNat)
    || decide (2 ^ ch.subLog2 < (v - ch.subHead).toNat)) = true := by
  simp [TailAllowed, and_assoc]

theorem writeSubTail_allowed (hch : aGet d.chans slot = some ch) (hup : pf0Up d = true) (hs : serves d = true) (h : TailAllowed ch v) :
    writeSubTail slot v d = { d with chans := aSet d.chans slot { ch with subTail := v } } :=
  (writeSubTail_eq hch hup hs).trans (if_neg (tailAllowed_iff.mp h))

theorem writeSubTail_ignored (hch : aGet d.chans slot = some ch) (hup : pf0Up d = true) (hs : serves d = true) (h : ¬ TailAllowed ch v) :
    writeSubTail slot v d = badIndex slot ch d :=
  (writeSubTail_eq hch hup hs).trans (if_pos (not_not.mp (mt tailAllowed_iff.mpr h)))

theorem writeOutHead_eq (hch : aGet d.chans slot = some ch) (hup : pf0Up d = true) (hs : serves d = true) : writeOutHead slot v d =
    if (ch.outTail - ch.outHead).toNat < (v - ch.outHead).toNat then badIndex slot ch d
    else { d with chans := aSet d.chans slot { ch with outHead := v } } := by
  simp only [writeOutHead, hch, hup, hs, Bool.and_self, Bool.not_true, Bool.false_eq_true, if_false]

theorem exec_subTail {host : HostStores} {s : State} {g : Dev → Dev}
    (h : writeSubTail slot v { s.dev with host := applyStores s.dev.host host } = g s.dev) :
    exec (.subTail slot v host) s = .next (s.onDev g) := eff_eq_onDev h

theorem exec_outHead {s : State} {g : Dev → Dev} (h : writeOutHead slot v s.dev = g s.dev) :
    exec (.outHead slot v) s = .next (s.onDev g) := eff_eq_onDev h

end

/-! ### The channel commands -/

/-- The channel that CHANNEL_CREATE makes (03 R82). -/
def newChan (d : Dev) (c : Bytes) : Chan :=
  { gen := (idxNext (idxReg d 1)).2, index := (idxNext (idxReg d 1)).1, kind := fieldLe c 16 1, subLog2 := fieldLe c 17 1
    outLog2 := fieldLe c 18 1, vector := if fieldLe c 20 2 = 0xFFFF then none else some (fieldLe c 20 2)
    subBase := BitVec.ofNat 64 (fieldLe c 24 8), outBase := BitVec.ofNat 64 (fieldLe c 32 8) }

section
variable {s : State} {m : Nat}

theorem exec_channelCreate_ok (h : Asks s.dev m 0x0101) (hc : chanCreateCheck s.dev (request s.dev m) = none) :
    exec (.channelCreate m) s =
      (let slot := newSlot s.dev (fieldLe (request s.dev m) 22 2)
       let ch := newChan s.dev (request s.dev m)
       .next (s.answered m (toLe 8 (mkHandle 1 ch.gen ch.index).toNat ++ toLe 2 slot ++ zeros 2 ++ toLe 4 (0x1000000 + 4096 * slot))
        { s.dev with chans := aSet s.dev.chans slot ch, idx := s.dev.idx.set 1 (idxTake (idxReg s.dev 1)), free := s.dev.free + 1 })) :=
  eff_mbxRow_ok h (by simp only [hc]; rfl)

theorem exec_channelCreate_no {x : Nat × Nat} (h : Asks s.dev m 0x0101) (hc : chanCreateCheck s.dev (request s.dev m) = some x) :
    exec (.channelCreate m) s = .next (s.refused m x.1 x.2) :=
  eff_mbxRow_no h (by simp only [hc])

theorem exec_channelDestroy_absent (h : Asks s.dev m 0x0102)
    (hbad : handleOk s.dev 1 (handleAt s.dev m 16) = false ∨ chanByIdx s.dev (hIdx (handleAt s.dev m 16)) = none) :
    exec (.channelDestroy m) s = .next (s.refused m rBadHandle 16) :=
  eff_withHandle_absent _ h hbad (fun hnone => by simp only [hnone])

theorem exec_channelQuery_absent (h : Asks s.dev m 0x0103)
    (hbad : handleOk s.dev 1 (handleAt s.dev m 16) = false ∨ chanByIdx s.dev (hIdx (handleAt s.dev m 16)) = none) :
    exec (.channelQuery m) s = .next (s.refused m rBadHandle 16) :=
  eff_withHandle_absent _ h hbad (fun hnone => by simp only [hnone])

end

section
variable {s : State} {m slot : Nat} {ch : Chan}
  (hk : handleOk s.dev 1 (handleAt s.dev m 16) = true)
  (hch : chanByIdx s.dev (hIdx (handleAt s.dev m 16)) = some (slot, ch))
include hk hch

theorem exec_channelDestroy_drains (h : Asks s.dev m 0x0102) (hd : ch.draining = false) :
    exec (.channelDestroy m) s = .next (s.onDev (fun d =>
      { d with chans := aSet d.chans slot { ch with draining := true, destroyBy := some m, drainTail := ch.subTail } })) :=
  eff_withHandle_busy _ h hk (by simp only [hch, hd, Bool.false_eq_true, if_false])

theorem exec_channelDestroy_waits (h : Asks s.dev m 0x0102) (hd : ch.draining = true) (hb : ch.destroyBy = some m) :
    exec (.channelDestroy m) s = .next s :=
  eff_withHandle_busy _ h hk (by simp only [hch, hd, hb, if_true])

theorem exec_channelDestroy_inUse (h : Asks s.dev m 0x0102) (hd : ch.draining = true) (hb : ch.destroyBy ≠ some m) :
    exec (.channelDestroy m) s = .next (s.refused m rInUse 16) :=
  eff_withHandle_no _ h hk (by simp only [hch, hd, hb, if_true, if_false])

theorem exec_channelQuery (h : Asks s.dev m 0x0103) : exec (.channelQuery m) s = .next (s.answered m
    (toLe 1 ch.kind ++ toLe 1 (if ch.draining then 2 else 1) ++ toLe 2 slot ++ toLe 4 ch.subHead.toNat ++ toLe 4 ch.subTail.toNat
      ++ toLe 4 ch.outTail.toNat ++ toLe 4 ch.outHead.toNat
      ++ toLe 4 (s.dev.items.filter (fun x => x.2.slot == slot && x.2.stage == .admitted)).length ++ toLe 8 ch.lastSeq.toNat) s.dev) :=
  eff_withHandle_ok _ h hk (by simp only [hch]; rfl)

end

/-- Settles O24: each clause is one case of a channel command or of an index doorbell. -/
theorem channelCommandsAndDoorbells : Obligations.ChannelCommandsAndDoorbells := by
  intro s m d c f h
  refine ⟨exec_channelCreate_ok, fun ha x hc => exec_channelCreate_no ha hc,
    fun hbad => ⟨fun ha => exec_channelDestroy_absent ha hbad, fun ha => exec_channelQuery_absent ha hbad⟩,
    fun slot ch hk hch => ⟨exec_channelDestroy_drains hk hch, exec_channelDestroy_waits hk hch, exec_channelDestroy_inUse hk hch,
      exec_channelQuery hk hch⟩,
    fun slot v host hoff => ⟨exec_subTail (writeSubTail_off hoff), eff_idle (writeOutHead_off hoff)⟩, fun slot ch v hch hup hs => ?index⟩
  case index =>
    refine ⟨fun host hok => exec_subTail (writeSubTail_allowed hch hup hs hok), fun host hno => exec_subTail (writeSubTail_ignored hch hup hs hno),
      fun hle => exec_outHead ?_, fun hlt => exec_outHead ?_⟩
    · exact (writeOutHead_eq hch hup hs).trans (if_neg (Nat.not_lt.mpr hle))
    · exact (writeOutHead_eq hch hup hs).trans (if_pos hlt)

end Sys2Proof.Proofs
end

section
/-! Tensor commands (03 R108 to R112, 09 R291). -/
namespace Sys2Proof.Proofs
open Sys2Proof Sys2Proof.Machine Sys2Proof.Laws

/-! ### The tensor that a handle names -/

section
variable {d : Dev} {c : Bytes} {off : Nat} {f : Nat → Tensor → MRes} {t : Tensor}

theorem withTensor_ok (hk : handleOk d 2 (BitVec.ofNat 64 (fieldLe c off 8)) = true)
    (ht : aGet d.tensors (hIdx (BitVec.ofNat 64 (fieldLe c off 8))) = some t) (hl : t.lost = false) :
    withTensor d c off f = f (hIdx (BitVec.ofNat 64 (fieldLe c off 8))) t := by
  refine (withHandle_ok hk).trans ?_
  simp only [ht, hl, Bool.false_eq_true, if_false]

theorem withTensor_lost (hk : handleOk d 2 (BitVec.ofNat 64 (fieldLe c off 8)) = true)
    (ht : aGet d.tensors (hIdx (BitVec.ofNat 64 (fieldLe c off 8))) = some t) (hl : t.lost = true) :
    withTensor d c off f = .no rTensorLost off := by
  refine (withHandle_ok hk).trans ?_
  simp only [ht, hl, if_true]

end

section
variable {s : State} {m : Nat}

/-- No tensor is named by the handle of the request. -/
def NoTensor (d : Dev) (m : Nat) : Prop := handleOk d 2 (handleAt d m 16) = false ∨ aGet d.tensors (hIdx (handleAt d m 16)) = none

theorem tensorCommand_absent (h : NoTensor s.dev m) {x : Instr} {op : Nat} (hx : (x, op) ∈ [(Instr.tensorDestroy m, 0x0202),
    (.tensorQuery m, 0x0203), (.tensorSetRetain m, 0x0204), (.tensorMap m, 0x0205)]) (ha : Asks s.dev m op) :
    exec x s = .next (s.refused m rBadHandle 16) := by
  simp only [List.mem_cons, Prod.mk.injEq, List.not_mem_nil, or_false] at hx
  rcases hx with hx | hx | hx | hx
  all_goals
    obtain ⟨rfl, rfl⟩ := hx
    exact eff_withHandle_absent _ ha h (fun hnone => by simp only [hnone])

/-! ### TENSOR_CREATE -/

/-- The tensor that TENSOR_CREATE makes, before it is placed (03 R108, Table 3-21; 09 R313). -/
def newTensor (d : Dev) (c : Bytes) : Tensor :=
  { gen := (idxNext (idxReg d 2)).2, fmt := fieldLe c 16 1, role := fieldLe c 17 1
    parity := if fieldLe c 18 1 = 0 then roleParity (fieldLe c 17 1) else fieldLe c 18 1 == 1
    rank := fieldLe c 19 1, dims := tensorDims c (fieldLe c 19 1), retain := bitOf (fieldLe c 20 4) 0, scale := newScale (fieldLe c 16 1) }

/-- The table and the secured budget take one more tensor. -/
def TensorRoom (d : Dev) (t : Tensor) : Prop := d.tensors.length < 1048576 ∧ (tSecured t && overBudget d (tBytes t)) = false

theorem exec_tensorCreate_bad {x : Nat × Nat} (ha : Asks s.dev m 0x0201) (hc : tensorCreateCheck (request s.dev m) = some x) :
    exec (.tensorCreate m) s = .next (s.refused m x.1 x.2) :=
  eff_mbxRow_no ha (by simp only [hc])

theorem exec_tensorCreate_noRoom (ha : Asks s.dev m 0x0201) (hc : tensorCreateCheck (request s.dev m) = none)
    (h : ¬ TensorRoom s.dev (newTensor s.dev (request s.dev m)) ∨ placeTensor (newTensor s.dev (request s.dev m)) s.dev = none) :
    exec (.tensorCreate m) s = .next (s.refused m rNoRoom (Config.noField 0x0201 rNoRoom)) := by
  refine eff_mbxRow_no ha ?_
  by_cases hfull : 1048576 ≤ s.dev.tensors.length
  case pos => simp only [hc, if_pos hfull]
  by_cases hbudget : (tSecured (newTensor s.dev (request s.dev m)) && overBudget s.dev (tBytes (newTensor s.dev (request s.dev m)))) = true
  case pos =>
    simp only [newTensor] at hbudget
    simp only [hc, hbudget, if_true, ite_self]
  have hplace : placeTensor (newTensor s.dev (request s.dev m)) s.dev = none :=
    h.resolve_left (not_not.mpr ⟨Nat.not_le.mp hfull, Bool.eq_false_iff.mpr hbudget⟩)
  simp only [newTensor] at hbudget hplace
  simp only [hc, if_neg hfull, if_neg hbudget, hplace]

theorem exec_tensorCreate_ok (ha : Asks s.dev m 0x0201) (hc : tensorCreateCheck (request s.dev m) = none)
    (hroom : TensorRoom s.dev (newTensor s.dev (request s.dev m))) {t : Tensor} {d : Dev}
    (hplace : placeTensor (newTensor s.dev (request s.dev m)) s.dev = some (t, d)) :
    exec (.tensorCreate m) s =
      (let n := idxNext (idxReg s.dev 2)
       let e := noteChange (mkHandle 2 n.2 n.1) { takeIdx 2 d with tensors := aSet (takeIdx 2 d).tensors n.1 t }
       .next (s.answered m (toLe 8 (mkHandle 2 n.2 n.1).toNat ++ toLe 8 (tensorTaken e t) ++ toLe 8 (tElems t)) e)) := by
  obtain ⟨hfull, hbudget⟩ := hroom
  refine eff_mbxRow_ok ha ?_
  simp only [newTensor] at hbudget hplace
  simp only [hc, if_neg (Nat.not_le.mpr hfull), hbudget, hplace, Bool.false_eq_true, if_false]

end

/-! ### Commands on a tensor -/

/-- What keeps a tensor from being destroyed: an admitted item, a mapping, or an open step where it is secured (03 R109). -/
def TensorUsed (d : Dev) (i : Nat) (t : Tensor) : Prop :=
  namedByItem d (tensorHandle d i) = true ∨ (∃ x ∈ d.maps, x.tensor = i) ∨ (tSecured t = true ∧ stepIsOpen d = true)

theorem tensorUsed_iff {d : Dev} {i : Nat} {t : Tensor} : TensorUsed d i t ↔
    (namedByItem d (tensorHandle d i) || d.maps.any (fun x => x.tensor == i) || (tSecured t && stepIsOpen d)) = true := by
  simp [TensorUsed, or_assoc]

section
variable {s : State} {m : Nat} {t : Tensor} (hk : handleOk s.dev 2 (handleAt s.dev m 16) = true)
  (ht : aGet s.dev.tensors (hIdx (handleAt s.dev m 16)) = some t)
include hk ht

theorem exec_tensorDestroy_workingCopy (ha : Asks s.dev m 0x0202) (hw : t.workingOf.isSome = true) :
    exec (.tensorDestroy m) s = .next (s.refused m rNotAllowed 16) :=
  eff_withHandle_no _ ha hk (by simp only [ht, hw, if_true])

theorem exec_tensorDestroy_used (ha : Asks s.dev m 0x0202) (hw : t.workingOf = none)
    (hu : TensorUsed s.dev (hIdx (handleAt s.dev m 16)) t) : exec (.tensorDestroy m) s = .next (s.refused m rInUse 16) :=
  eff_withHandle_no _ ha hk (by simp only [ht, hw, Option.isSome_none, Bool.false_eq_true, if_false, tensorUsed_iff.mp hu, if_true])

theorem exec_tensorDestroy_ok (ha : Asks s.dev m 0x0202) (hw : t.workingOf = none)
    (hu : ¬ TensorUsed s.dev (hIdx (handleAt s.dev m 16)) t) : exec (.tensorDestroy m) s = .next (s.answered m []
      (removeTensor (hIdx (handleAt s.dev m 16)) (match t.working with | some w => removeTensor w s.dev | none => s.dev))) := by
  have hremove : removeMaster (hIdx (handleAt s.dev m 16)) s.dev =
      removeTensor (hIdx (handleAt s.dev m 16)) (match t.working with | some w => removeTensor w s.dev | none => s.dev) := by
    unfold removeMaster
    rw [ht]
    cases hw : t.working <;> simp [hw]
  refine eff_withHandle_ok _ ha hk ?_
  simp only [ht, hw, Option.isSome_none, Bool.false_eq_true, if_false, mt tensorUsed_iff.mpr hu, hremove]

theorem exec_tensorQuery (ha : Asks s.dev m 0x0203) : exec (.tensorQuery m) s = .next (s.answered m
    (toLe 1 t.fmt ++ toLe 1 t.role ++ toLe 1 (if t.parity then 1 else 2) ++ toLe 1 t.rank
      ++ toLe 4 (b2n t.retain + 4 * b2n (tSecured t) + 8 * b2n t.lost)
      ++ (List.range 8).flatMap (fun k => toLe 4 ((t.dims[k]?).getD 0)) ++ toLe 8 (tensorTaken s.dev t)) s.dev) :=
  eff_withHandle_ok _ ha hk (by simp only [ht])

theorem exec_tensorSetRetain_lost (hl : t.lost = true) (ha : Asks s.dev m 0x0204) :
    exec (.tensorSetRetain m) s = .next (s.refused m rTensorLost 16) :=
  eff_mbxRow_no ha (withTensor_lost hk ht hl)

theorem exec_tensorSetRetain_bad (hl : t.lost = false) (ha : Asks s.dev m 0x0204) (hv : 1 < fieldLe (request s.dev m) 24 1) :
    exec (.tensorSetRetain m) s = .next (s.refused m rBadField 24) :=
  eff_mbxRow_no ha ((withTensor_ok hk ht hl).trans (if_pos hv))

theorem exec_tensorSetRetain_ok (hl : t.lost = false) (ha : Asks s.dev m 0x0204) (hv : fieldLe (request s.dev m) 24 1 ≤ 1) :
    exec (.tensorSetRetain m) s = .next (s.answered m [] (noteChange (mkHandle 2 t.gen (hIdx (handleAt s.dev m 16)))
      { s.dev with tensors := aSet s.dev.tensors (hIdx (handleAt s.dev m 16)) { t with retain := fieldLe (request s.dev m) 24 1 == 1 } })) :=
  eff_mbxRow_ok ha ((withTensor_ok hk ht hl).trans (if_neg (Nat.not_lt.mpr hv)))

/-! ### TENSOR_MAP -/

theorem exec_tensorMap_lost (hl : t.lost = true) (ha : Asks s.dev m 0x0205) :
    exec (.tensorMap m) s = .next (s.refused m rTensorLost 16) :=
  eff_mbxRow_no ha (withTensor_lost hk ht hl)

theorem exec_tensorMap_workingCopy (hl : t.lost = false) (ha : Asks s.dev m 0x0205) (hw : t.workingOf.isSome = true) :
    exec (.tensorMap m) s = .next (s.refused m rNotAllowed 16) :=
  eff_mbxRow_no ha ((withTensor_ok hk ht hl).trans (if_pos hw))

end

/-- An offset of a mapping (03 R112). -/
def MapOffsetOk (c : Bytes) (t : Tensor) : Prop := fieldLe c 24 8 % 4096 = 0 ∧ fieldLe c 24 8 < pageEnd t

/-- A length of a mapping (03 R112). -/
def MapLengthOk (c : Bytes) (t : Tensor) : Prop :=
  fieldLe c 32 8 ≠ 0 ∧ fieldLe c 32 8 % 4096 = 0 ∧ fieldLe c 24 8 + fieldLe c 32 8 ≤ pageEnd t

theorem mapOffsetOk_iff {c : Bytes} {t : Tensor} :
    MapOffsetOk c t ↔ ¬ (fieldLe c 24 8 % 4096 ≠ 0 ∨ pageEnd t ≤ fieldLe c 24 8) := by
  simp [MapOffsetOk]

theorem mapLengthOk_iff {c : Bytes} {t : Tensor} : MapLengthOk c t ↔
    ¬ (fieldLe c 32 8 = 0 ∨ fieldLe c 32 8 % 4096 ≠ 0 ∨ pageEnd t < fieldLe c 24 8 + fieldLe c 32 8) := by
  simp [MapLengthOk]

/-- The free run of the BAR2 window that firmware takes. -/
def mapGap (d : Dev) (len : Nat) : Option (Nat × Nat) := (bar2Gaps d len)[Config.choice d.free % max (bar2Gaps d len).length 1]?

theorem mapGap_none {d : Dev} {len : Nat} (h : bar2Gaps d len = []) : mapGap d len = none := by simp [mapGap, h]

theorem mapGap_mem {d : Dev} {len : Nat} (h : bar2Gaps d len ≠ []) : ∃ g ∈ bar2Gaps d len, mapGap d len = some g := by
  have hpos : 0 < (bar2Gaps d len).length := List.length_pos_iff.mpr h
  have hlt : Config.choice d.free % max (bar2Gaps d len).length 1 < (bar2Gaps d len).length := by
    rw [Nat.max_eq_left hpos]
    exact Nat.mod_lt _ hpos
  exact ⟨_, List.getElem_mem hlt, List.getElem?_eq_getElem hlt⟩

/-- Every run that firmware may take holds the mapping. -/
theorem bar2Gaps_fits {d : Dev} {len : Nat} {g : Nat × Nat} (h : g ∈ bar2Gaps d len) : len ≤ g.2 := by
  simpa using (List.mem_filter.mp h).2

/-- The place of a mapping in a free run. -/
def mapPlace (d : Dev) (len : Nat) (g : Nat × Nat) : Nat := g.1 + 4096 * (Config.choice (d.free + 1) % ((g.2 - len) / 4096 + 1))

theorem mapPlace_within {d : Dev} {len : Nat} {g : Nat × Nat} (h : len ≤ g.2) :
    g.1 ≤ mapPlace d len g ∧ mapPlace d len g + len ≤ g.1 + g.2 ∧ mapPlace d len g % 4096 = g.1 % 4096 := by
  have hlt : Config.choice (d.free + 1) % ((g.2 - len) / 4096 + 1) < (g.2 - len) / 4096 + 1 := Nat.mod_lt _ (Nat.succ_pos _)
  unfold mapPlace
  generalize Config.choice (d.free + 1) % ((g.2 - len) / 4096 + 1) = k at hlt ⊢
  omega

section
variable {s : State} {m : Nat} {t : Tensor} (hk : handleOk s.dev 2 (handleAt s.dev m 16) = true)
  (ht : aGet s.dev.tensors (hIdx (handleAt s.dev m 16)) = some t) (hl : t.lost = false) (ha : Asks s.dev m 0x0205)
  (hw : t.workingOf = none)
include hk ht hl ha hw

theorem exec_tensorMap_badOffset (ho : ¬ MapOffsetOk (request s.dev m) t) : exec (.tensorMap m) s = .next (s.refused m rBadField 24) := by
  refine eff_mbxRow_no ha ((withTensor_ok hk ht hl).trans ?_)
  simp only [hw, Option.isSome_none, Bool.false_eq_true, if_false]
  exact if_pos (not_not.mp (mt mapOffsetOk_iff.mpr ho))

theorem exec_tensorMap_badLength (ho : MapOffsetOk (request s.dev m) t) (hn : ¬ MapLengthOk (request s.dev m) t) :
    exec (.tensorMap m) s = .next (s.refused m rBadField 32) := by
  refine eff_mbxRow_no ha ((withTensor_ok hk ht hl).trans ?_)
  simp only [hw, Option.isSome_none, Bool.false_eq_true, if_false, if_neg (mapOffsetOk_iff.mp ho)]
  exact if_pos (not_not.mp (mt mapLengthOk_iff.mpr hn))

theorem exec_tensorMap_noRoom (ho : MapOffsetOk (request s.dev m) t) (hn : MapLengthOk (request s.dev m) t)
    (hg : bar2Gaps s.dev (fieldLe (request s.dev m) 32 8) = []) :
    exec (.tensorMap m) s = .next (s.refused m rNoRoom (Config.noField 0x0205 rNoRoom)) := by
  refine eff_mbxRow_no ha ((withTensor_ok hk ht hl).trans ?_)
  have hgap := mapGap_none hg
  simp only [mapGap] at hgap
  simp only [hw, Option.isSome_none, Bool.false_eq_true, if_false, if_neg (mapOffsetOk_iff.mp ho), if_neg (mapLengthOk_iff.mp hn), hgap]

theorem exec_tensorMap_ok (ho : MapOffsetOk (request s.dev m) t) (hn : MapLengthOk (request s.dev m) t)
    {g : Nat × Nat} (hg : mapGap s.dev (fieldLe (request s.dev m) 32 8) = some g) :
    exec (.tensorMap m) s =
      (let x := mapPlace s.dev (fieldLe (request s.dev m) 32 8) g
       .next (s.answered m (toLe 8 x) { s.dev with free := s.dev.free + 2, maps := s.dev.maps ++ [
        { off := x, len := fieldLe (request s.dev m) 32 8, tensor := hIdx (handleAt s.dev m 16), tOff := fieldLe (request s.dev m) 24 8 }] })) := by
  refine eff_mbxRow_ok ha ((withTensor_ok hk ht hl).trans ?_)
  simp only [mapGap] at hg
  simp only [hw, Option.isSome_none, Bool.false_eq_true, if_false, if_neg (mapOffsetOk_iff.mp ho), if_neg (mapLengthOk_iff.mp hn), hg]
  rfl

end

/-! ### TENSOR_UNMAP -/

section
variable {s : State} {m : Nat} (ha : Asks s.dev m 0x0206)
include ha

theorem exec_tensorUnmap_ok (h : ∃ x ∈ s.dev.maps, x.off = fieldLe (request s.dev m) 16 8) :
    exec (.tensorUnmap m) s = .next (s.answered m [] { s.dev with
      maps := s.dev.maps.filter (fun x => x.off != fieldLe (request s.dev m) 16 8) }) :=
  eff_mbxRow_ok ha (if_pos (by simpa using h))

theorem exec_tensorUnmap_bad (h : ∀ x ∈ s.dev.maps, x.off ≠ fieldLe (request s.dev m) 16 8) :
    exec (.tensorUnmap m) s = .next (s.refused m rBadField 16) :=
  eff_mbxRow_no ha (if_neg (by simpa using h))

end

/-- Settles O25: each clause is one case of a tensor command; the place of a mapping lies in the run taken (`mapPlace_within`). -/
theorem tensorCommandsAnswer : Obligations.TensorCommandsAnswer := by
  intro s m d c f h i no
  refine ⟨fun ha => ⟨fun x hc => exec_tensorCreate_bad ha hc, fun hc hroom => exec_tensorCreate_noRoom ha hc hroom,
      fun hc hroom t' d' hplace => exec_tensorCreate_ok ha hc hroom hplace⟩,
    fun hbad x op hx ha => tensorCommand_absent hbad hx ha, fun t hk ht => ?named,
    fun ha hx => exec_tensorUnmap_ok ha hx, fun ha hx => exec_tensorUnmap_bad ha hx⟩
  case named =>
    refine ⟨⟨exec_tensorDestroy_workingCopy hk ht, exec_tensorDestroy_used hk ht, exec_tensorDestroy_ok hk ht⟩, exec_tensorQuery hk ht,
      fun hl => ⟨exec_tensorSetRetain_lost hk ht hl, exec_tensorMap_lost hk ht hl⟩,
      fun hl ha => ⟨exec_tensorSetRetain_bad hk ht hl ha, exec_tensorSetRetain_ok hk ht hl ha⟩,
      fun hl ha => ⟨exec_tensorMap_workingCopy hk ht hl ha, exec_tensorMap_badOffset hk ht hl ha, exec_tensorMap_badLength hk ht hl ha,
        exec_tensorMap_noRoom hk ht hl ha, fun hw ho hn hg => ?mapped⟩⟩
    obtain ⟨g, hmem, hgap⟩ := mapGap_mem hg
    exact ⟨_, ⟨g, hmem, mapPlace_within (bar2Gaps_fits hmem)⟩, exec_tensorMap_ok hk ht hl ha hw ho hn hgap⟩

end Sys2Proof.Proofs
end

section
/-! Programs and placement hints (03 R113 to R116). -/
namespace Sys2Proof.Proofs
open Sys2Proof Sys2Proof.Machine Sys2Proof.Laws

/-! ### PROGRAM_CREATE -/

/-- The image that PROGRAM_CREATE reads, where its address and length allow a read. -/
def imageRead (d : Dev) (c : Bytes) : Bytes :=
  if fieldLe c 16 8 % 4096 ≠ 0 ∨ fieldLe c 24 4 = 0 ∨ 2 ^ 26 < fieldLe c 24 4 then [] else memRead d.host (fieldLe c 16 8) (fieldLe c 24 4)

/-- What the checks of PROGRAM_CREATE find. -/
def programFault (d : Dev) (c : Bytes) : Option (Nat × Nat) := programCheck d (fieldLe c 16 8) (fieldLe c 24 4) (imageRead d c)

section
variable {s : State} {m : Nat} (ha : Asks s.dev m 0x0301)
include ha

theorem exec_programCreate_waits (hr : pf0Requests s.dev = false) : exec (.programCreate m) s = .next s :=
  eff_mbxRow_busy ha (if_pos (by simp [hr]))

theorem exec_programCreate_no (hr : pf0Requests s.dev = true) {x : Nat × Nat} (hc : programFault s.dev (request s.dev m) = some x) :
    exec (.programCreate m) s = .next (s.refused m x.1 x.2) := by
  refine eff_mbxRow_no ha ?_
  simp only [programFault, imageRead] at hc
  simp only [hr, hostRead, hc, Bool.not_true, Bool.false_eq_true, if_false]

theorem exec_programCreate_ok (hr : pf0Requests s.dev = true) (hc : programFault s.dev (request s.dev m) = none) :
    exec (.programCreate m) s =
      (let n := idxNext (idxReg s.dev 3)
       let p : Program := { imageProgram (imageRead s.dev (request s.dev m)) (fieldLe (request s.dev m) 24 4) with gen := n.2 }
       .next (s.answered m (programBody (mkHandle 3 n.2 n.1) p) (noteChange (mkHandle 3 n.2 n.1)
        { s.dev with programs := aSet s.dev.programs n.1 p, idx := s.dev.idx.set 3 (idxTake (idxReg s.dev 3)) }))) := by
  refine eff_mbxRow_ok ha ?_
  simp only [programFault, imageRead] at hc
  simp only [hr, hostRead, hc, Bool.not_true, Bool.false_eq_true, if_false]
  rfl

end

/-! ### PROGRAM_DESTROY and PROGRAM_QUERY -/

section
variable {s : State} {m : Nat} (hk : handleOk s.dev 3 (handleAt s.dev m 16) = true)
include hk

theorem exec_programDestroy_ok (ha : Asks s.dev m 0x0302) (hn : namedByItem s.dev (handleAt s.dev m 16) = false) :
    exec (.programDestroy m) s = .next (s.answered m [] (noteChange (handleAt s.dev m 16)
      (freeIdx 3 (hIdx (handleAt s.dev m 16)) (hGen (handleAt s.dev m 16))
        { s.dev with programs := aDel s.dev.programs (hIdx (handleAt s.dev m 16)) }))) :=
  eff_withHandle_ok _ ha hk (if_neg (by simp [hn]))

theorem exec_programDestroy_inUse (ha : Asks s.dev m 0x0302) (hn : namedByItem s.dev (handleAt s.dev m 16) = true) :
    exec (.programDestroy m) s = .next (s.refused m rInUse 16) :=
  eff_withHandle_no _ ha hk (if_pos hn)

theorem exec_programQuery {p : Program} (hp : aGet s.dev.programs (hIdx (handleAt s.dev m 16)) = some p) (ha : Asks s.dev m 0x0303) :
    exec (.programQuery m) s = .next (s.answered m (programBody (handleAt s.dev m 16) p ++ toLe 4 p.imageLen) s.dev) :=
  eff_withHandle_ok _ ha hk (by simp only [hp])

end

/-! ### The object of a hint -/

section
variable {d : Dev} {h : BitVec 64} {v : Option Hint → Option Hint}

/-- A handle is of one kind. -/
theorem handleOk_kind {k j : Nat} (hk : handleOk d k h = true) (hne : j ≠ k) : handleOk d j h = false := by
  have hkind : hKind h = k := by
    simp only [handleOk, Bool.and_eq_true, beq_iff_eq] at hk
    exact hk.1
  simp [handleOk, hkind, Ne.symm hne]

theorem withHint_program (hk : handleOk d 3 h = true) :
    withHint d h v = some { d with programs := aMod d.programs (hIdx h) (fun p => { p with hint := v p.hint }) } := if_pos hk

theorem withHint_channel (hk : handleOk d 1 h = true) :
    withHint d h v = some { d with chans := aMap d.chans (fun _ c => if c.index = hIdx h then { c with hint := v c.hint } else c) } := by
  simp [withHint, hk, handleOk_kind hk (show 3 ≠ 1 by decide)]

theorem withHint_none (h3 : handleOk d 3 h = false) (h1 : handleOk d 1 h = false) : withHint d h v = none := by simp [withHint, h3, h1]

/-- A handle of either kind names an object that can take a hint. -/
theorem withHint_some (hk : handleOk d 3 h = true ∨ handleOk d 1 h = true) : ∃ e, withHint d h v = some e := by
  rcases hk with hk | hk
  · exact ⟨_, withHint_program hk⟩
  · exact ⟨_, withHint_channel hk⟩

theorem hintOf_program {p : Program} (hk : handleOk d 3 h = true) (hp : aGet d.programs (hIdx h) = some p) : hintOf d h = some p.hint := by
  simp [hintOf, hk, hp]

theorem hintOf_channel {slot : Nat} {ch : Chan} (hk : handleOk d 1 h = true) (hch : chanByIdx d (hIdx h) = some (slot, ch)) :
    hintOf d h = some ch.hint := by
  simp [hintOf, hk, handleOk_kind hk (show 3 ≠ 1 by decide), hch]

theorem hintOf_none (h3 : handleOk d 3 h = false) (h1 : handleOk d 1 h = false) : hintOf d h = none := by simp [hintOf, h3, h1]

end

/-! ### The hint commands -/

/-- The hint that a request asks for. -/
def askedHint (c : Bytes) : Hint := { clusters := BitVec.ofNat 6 (fieldLe c 24 1), mode := fieldLe c 25 1 }

/-- The body of HINT_QUERY: zeros where there is none (03 R116). -/
def hintBody : Option Hint → Bytes
  | some x => toLe 1 x.clusters.toNat ++ toLe 1 x.mode
  | none => zeros 2

section
variable {s : State} {m : Nat} {e : Dev}

theorem exec_hintSet_ok (ha : Asks s.dev m 0x0801)
    (he : withHint s.dev (handleAt s.dev m 16) (fun _ => some (askedHint (request s.dev m))) = some e)
    (hmask : fieldLe (request s.dev m) 24 1 ≤ 63) (hmode : fieldLe (request s.dev m) 25 1 = 1 ∨ fieldLe (request s.dev m) 25 1 = 2) :
    exec (.hintSet m) s = .next (s.answered m [] e) := by
  refine eff_mbxRow_ok ha ?_
  have hgood : ¬ (fieldLe (request s.dev m) 25 1 ≠ 1 ∧ fieldLe (request s.dev m) 25 1 ≠ 2) := by omega
  simp only [askedHint] at he
  simp only [he, if_neg (Nat.not_lt.mpr hmask), if_neg hgood]

theorem exec_hintSet_badMask (ha : Asks s.dev m 0x0801)
    (hk : handleOk s.dev 3 (handleAt s.dev m 16) = true ∨ handleOk s.dev 1 (handleAt s.dev m 16) = true)
    (hmask : 63 < fieldLe (request s.dev m) 24 1) : exec (.hintSet m) s = .next (s.refused m rBadField 24) := by
  obtain ⟨e, he⟩ := withHint_some (v := fun _ => some (askedHint (request s.dev m))) hk
  simp only [askedHint] at he
  exact eff_mbxRow_no ha (by simp only [he, if_pos hmask])

theorem exec_hintSet_badMode (ha : Asks s.dev m 0x0801)
    (hk : handleOk s.dev 3 (handleAt s.dev m 16) = true ∨ handleOk s.dev 1 (handleAt s.dev m 16) = true)
    (hmask : fieldLe (request s.dev m) 24 1 ≤ 63) (hmode : fieldLe (request s.dev m) 25 1 ≠ 1 ∧ fieldLe (request s.dev m) 25 1 ≠ 2) :
    exec (.hintSet m) s = .next (s.refused m rBadField 25) := by
  obtain ⟨e, he⟩ := withHint_some (v := fun _ => some (askedHint (request s.dev m))) hk
  simp only [askedHint] at he
  exact eff_mbxRow_no ha (by simp only [he, if_neg (Nat.not_lt.mpr hmask), if_pos hmode])

theorem exec_hintClear_ok (ha : Asks s.dev m 0x0802) (he : withHint s.dev (handleAt s.dev m 16) (fun _ => none) = some e) :
    exec (.hintClear m) s = .next (s.answered m [] e) :=
  eff_mbxRow_ok ha (by simp only [he])

theorem exec_hintQuery {x : Option Hint} (ha : Asks s.dev m 0x0803) (hx : hintOf s.dev (handleAt s.dev m 16) = some x) :
    exec (.hintQuery m) s = .next (s.answered m (hintBody x) s.dev) := by
  refine eff_mbxRow_ok ha ?_
  cases x <;> simp only [hx, hintBody]

theorem hintCommand_absent (h3 : handleOk s.dev 3 (handleAt s.dev m 16) = false) (h1 : handleOk s.dev 1 (handleAt s.dev m 16) = false)
    {x : Instr} {op : Nat} (hx : (x, op) ∈ [(Instr.hintSet m, 0x0801), (.hintClear m, 0x0802), (.hintQuery m, 0x0803)])
    (ha : Asks s.dev m op) : exec x s = .next (s.refused m rBadHandle 16) := by
  simp only [List.mem_cons, Prod.mk.injEq, List.not_mem_nil, or_false] at hx
  rcases hx with ⟨rfl, rfl⟩ | ⟨rfl, rfl⟩ | ⟨rfl, rfl⟩
  · exact eff_mbxRow_no ha (by simp only [withHint_none h3 h1])
  · exact eff_mbxRow_no ha (by simp only [withHint_none h3 h1])
  · exact eff_mbxRow_no ha (by simp only [hintOf_none h3 h1])

end

/-- Settles O26: each clause is one case of a program command, or of a hint command on the object that its handle names. -/
theorem programsAndHintsAnswer : Obligations.ProgramsAndHintsAnswer := by
  intro s m d c f h i no body
  refine ⟨fun ha => ⟨exec_programCreate_waits ha, fun hr x hc => exec_programCreate_no ha hr hc, exec_programCreate_ok ha⟩,
    fun hbad => ⟨fun ha => eff_withHandle_stale _ ha hbad, fun ha => eff_withHandle_stale _ ha hbad⟩,
    fun p hk hp => ⟨exec_programDestroy_ok hk, exec_programDestroy_inUse hk, exec_programQuery hk hp,
      fun ha hmask hmode => exec_hintSet_ok ha (withHint_program hk) hmask hmode, fun ha => exec_hintClear_ok ha (withHint_program hk),
      fun ha => ?programHint⟩,
    fun slot ch hk hch => ⟨fun ha hmask hmode => exec_hintSet_ok ha (withHint_channel hk) hmask hmode,
      fun ha => exec_hintClear_ok ha (withHint_channel hk), fun ha => ?channelHint⟩,
    fun hk ha => ⟨exec_hintSet_badMask ha hk, exec_hintSet_badMode ha hk⟩,
    fun h3 h1 x op hx ha => hintCommand_absent h3 h1 hx ha⟩
  case programHint => exact exec_hintQuery ha (hintOf_program hk hp)
  case channelHint => exact exec_hintQuery ha (hintOf_channel hk hch)

end Sys2Proof.Proofs
end

section
/-! Solver objects and groups (08 R254, R268, R272, R283; 12 R401, R403). -/
namespace Sys2Proof.Proofs
open Sys2Proof Sys2Proof.Machine Sys2Proof.Laws

/-! ### Stale handles -/

theorem solverOrGroup_stale {s : State} {m op kind : Nat} {x : Instr} (hx : (x, op, kind) ∈ [(Instr.planDestroy m, 0x0402, 4),
      (.planQuery m, 0x0403, 4), (.factorSetCreate m, 0x0411, 4), (.factorSetDestroy m, 0x0412, 6), (.warmSetDestroy m, 0x0422, 7),
      (.warmSetClear m, 0x0423, 7), (.groupDestroy m, 0x0502, 5), (.groupQuery m, 0x0503, 5)])
    (ha : Asks s.dev m op) (hk : handleOk s.dev kind (handleAt s.dev m 16) = false) : exec x s = .next (s.refused m rBadHandle 16) := by
  simp only [List.mem_cons, Prod.mk.injEq, List.not_mem_nil, or_false] at hx
  rcases hx with h | h | h | h | h | h | h | h
  all_goals
    obtain ⟨rfl, rfl, rfl⟩ := h
    exact eff_withHandle_stale _ ha hk

/-! ### Plans -/

/-- The assembly descriptor and the pattern that PLAN_CREATE reads, where it names one. -/
def asmRead (d : Dev) (c : Bytes) : Bytes := if fieldLe c 80 8 = 0 then [] else memRead d.host (fieldLe c 80 8) (fieldLe c 88 4)

def patRead (d : Dev) (c : Bytes) : Bytes := if fieldLe c 92 8 = 0 then [] else memRead d.host (fieldLe c 92 8) (fieldLe c 100 4)

/-- PLAN_CREATE needs bytes of the host. -/
def PlanReads (c : Bytes) : Prop := fieldLe c 80 8 ≠ 0 ∨ fieldLe c 92 8 ≠ 0

theorem planReads_iff {c : Bytes} : PlanReads c ↔ (fieldLe c 80 8 != 0 || fieldLe c 92 8 != 0) = true := by simp [PlanReads]

/-- PLAN_CREATE does not wait where it reads nothing or may read. -/
theorem planCreate_goes {d : Dev} {c : Bytes} (h : PlanReads c → pf0Requests d = true) :
    ((fieldLe c 80 8 != 0 || fieldLe c 92 8 != 0) && !pf0Requests d) = false := by
  cases hr : pf0Requests d with
  | true => simp
  | false =>
    have hno : ¬ PlanReads c := fun hreads => by simp [h hreads] at hr
    simp only [Bool.eq_false_iff.mpr (mt planReads_iff.mpr hno), Bool.false_and]

/-- The plan that PLAN_CREATE makes (08 R254, R273). -/
def newPlan (d : Dev) (c : Bytes) : Plan :=
  let desc := slice c 16 64
  let p0 := planOf desc [] []
  let r := p0.n / max p0.block 1
  let rp := int32s (patRead d c) 0 (if p0.block = 0 then 0 else r + 1)
  let ci := int32s (patRead d c) (4 * (r + 1)) p0.nnzb
  { gen := (idxNext (idxReg d 4)).2, desc := desc, asm := asmRead d c, rowptr := rp, colidx := ci
    signature := planSignature (planOf desc rp ci), workBytes := Config.workBytes desc }

section
variable {s : State} {m : Nat} (ha : Asks s.dev m 0x0401)
include ha

theorem exec_planCreate_waits (h : PlanReads (request s.dev m)) (hr : pf0Requests s.dev = false) : exec (.planCreate m) s = .next s :=
  eff_mbxRow_busy ha (if_pos (by simp only [planReads_iff.mp h, hr, Bool.not_false, Bool.and_self]))

theorem exec_planCreate_no (h : PlanReads (request s.dev m) → pf0Requests s.dev = true) {x : Nat × Nat}
    (hc : planCheck s.dev (request s.dev m) (asmRead s.dev (request s.dev m)) (patRead s.dev (request s.dev m)) = some x) :
    exec (.planCreate m) s = .next (s.refused m x.1 x.2) := by
  refine eff_mbxRow_no ha ?_
  simp only [asmRead, patRead] at hc
  simp only [planCreate_goes h, hostRead, hc, Bool.false_eq_true, if_false]

theorem exec_planCreate_ok (h : PlanReads (request s.dev m) → pf0Requests s.dev = true)
    (hc : planCheck s.dev (request s.dev m) (asmRead s.dev (request s.dev m)) (patRead s.dev (request s.dev m)) = none) :
    exec (.planCreate m) s =
      (let n := idxNext (idxReg s.dev 4)
       let p := newPlan s.dev (request s.dev m)
       .next (s.answered m (toLe 8 (mkHandle 4 n.2 n.1).toNat ++ toLe 4 p.workBytes ++ toLe 8 p.signature.toNat)
        (noteChange (mkHandle 4 n.2 n.1) { takeIdx 4 s.dev with plans := aSet s.dev.plans n.1 p }))) := by
  refine eff_mbxRow_ok ha ?_
  simp only [asmRead, patRead] at hc
  simp only [planCreate_goes h, hostRead, hc, Bool.false_eq_true, if_false]
  rfl

end

section
variable {s : State} {m : Nat} (hk : handleOk s.dev 4 (handleAt s.dev m 16) = true)
include hk

theorem exec_planDestroy_ok (ha : Asks s.dev m 0x0402)
    (hu : (namedByItem s.dev (handleAt s.dev m 16) || s.dev.factors.any (fun x => x.2.plan == handleAt s.dev m 16)) = false) :
    exec (.planDestroy m) s = .next (s.answered m [] (noteChange (handleAt s.dev m 16)
      (freeIdx 4 (hIdx (handleAt s.dev m 16)) (hGen (handleAt s.dev m 16))
        { s.dev with plans := aDel s.dev.plans (hIdx (handleAt s.dev m 16)) }))) :=
  eff_withHandle_ok _ ha hk (if_neg (Bool.eq_false_iff.mp hu))

theorem exec_planDestroy_inUse (ha : Asks s.dev m 0x0402)
    (hu : (namedByItem s.dev (handleAt s.dev m 16) || s.dev.factors.any (fun x => x.2.plan == handleAt s.dev m 16)) = true) :
    exec (.planDestroy m) s = .next (s.refused m rInUse 16) :=
  eff_withHandle_no _ ha hk (if_pos hu)

variable {p : Plan} (hp : aGet s.dev.plans (hIdx (handleAt s.dev m 16)) = some p)
include hp

theorem exec_planQuery (ha : Asks s.dev m 0x0403) : exec (.planQuery m) s = .next (s.answered m
    (toLe 8 (handleAt s.dev m 16).toNat ++ toLe 4 p.workBytes ++ toLe 8 p.signature.toNat ++ slice p.desc 0 64) s.dev) :=
  eff_withHandle_ok _ ha hk (by simp only [hp, planBody])

/-! ### Factor sets -/

variable (ha : Asks s.dev m 0x0411)
include ha

omit hp in
theorem exec_factorSetCreate_bad (hn : fieldLe (request s.dev m) 24 4 = 0) :
    exec (.factorSetCreate m) s = .next (s.refused m rBadField 24) :=
  eff_withHandle_no _ ha hk (if_pos hn)

theorem exec_factorSetCreate_noRoom (hn : fieldLe (request s.dev m) 24 4 ≠ 0)
    (hroom : 1024 ≤ s.dev.factors.length ∨ alloc true (Config.factorBytes p.desc * fieldLe (request s.dev m) 24 4) s.dev = none) :
    exec (.factorSetCreate m) s = .next (s.refused m rNoRoom (Config.noField 0x0411 rNoRoom)) := by
  refine eff_withHandle_no _ ha hk ((if_neg hn).trans ?_)
  by_cases hfull : 1024 ≤ s.dev.factors.length
  case pos => exact if_pos hfull
  have hplace := hroom.resolve_left hfull
  simp only [if_neg hfull, hp, Option.map_some, Option.getD_some, hplace]

theorem exec_factorSetCreate_ok (hn : fieldLe (request s.dev m) 24 4 ≠ 0) (hfull : s.dev.factors.length < 1024) {pl : Placement} {d : Dev}
    (hplace : alloc true (Config.factorBytes p.desc * fieldLe (request s.dev m) 24 4) s.dev = some (pl, d)) :
    exec (.factorSetCreate m) s =
      (let n := idxNext (idxReg d 6)
       let fs : FactorSet := { gen := n.2, plan := handleAt s.dev m 16, problems := fieldLe (request s.dev m) 24 4, place := pl }
       .next (s.answered m (toLe 8 (mkHandle 6 n.2 n.1).toNat ++ toLe 8 (placeBytes d pl))
        (noteChange (mkHandle 6 n.2 n.1) { takeIdx 6 d with factors := aSet d.factors n.1 fs }))) := by
  refine eff_withHandle_ok _ ha hk ((if_neg hn).trans ?_)
  simp only [if_neg (Nat.not_le.mpr hfull), hp, Option.map_some, Option.getD_some, hplace]

end

section
variable {s : State} {m : Nat} (hk : handleOk s.dev 6 (handleAt s.dev m 16) = true) (ha : Asks s.dev m 0x0412)
include hk ha

theorem exec_factorSetDestroy_ok (hn : namedByItem s.dev (handleAt s.dev m 16) = false) :
    exec (.factorSetDestroy m) s = .next (s.answered m [] (noteChange (handleAt s.dev m 16)
      (freeIdx 6 (hIdx (handleAt s.dev m 16)) (hGen (handleAt s.dev m 16)) (sweepRegions (dropObjErrs 1 (hIdx (handleAt s.dev m 16))
        { s.dev with factors := aDel s.dev.factors (hIdx (handleAt s.dev m 16)) }))))) :=
  eff_withHandle_ok _ ha hk (if_neg (Bool.eq_false_iff.mp hn))

theorem exec_factorSetDestroy_inUse (hn : namedByItem s.dev (handleAt s.dev m 16) = true) :
    exec (.factorSetDestroy m) s = .next (s.refused m rInUse 16) :=
  eff_withHandle_no _ ha hk (if_pos hn)

end

/-! ### Warm-start sets -/

/-- The warm-start set that a request describes. -/
def askedWarmSet (c : Bytes) : WarmSet := { n := fieldLe c 16 4, slots := fieldLe c 20 4 }

/-- The table and the secured budget take one more warm-start set (08 R283, 13 R431). -/
def WarmRoom (d : Dev) (w : WarmSet) : Prop := d.warms.length < 1024 ∧ overBudget d (warmBytes w) = false

theorem warmRoom_iff {d : Dev} {w : WarmSet} : WarmRoom d w ↔ ¬ (1024 ≤ d.warms.length ∨ overBudget d (warmBytes w) = true) := by
  simp [WarmRoom]

theorem warmSet_size_ok {n : Nat} (h : 1 ≤ n ∧ n ≤ 262144) : ¬ (n = 0 ∨ 262144 < n) := by omega

section
variable {s : State} {m : Nat} (ha : Asks s.dev m 0x0421)
include ha

theorem exec_warmSetCreate_badSize (h : fieldLe (request s.dev m) 16 4 = 0 ∨ 262144 < fieldLe (request s.dev m) 16 4) :
    exec (.warmSetCreate m) s = .next (s.refused m rBadField 16) :=
  eff_mbxRow_no ha (if_pos h)

variable (hn : 1 ≤ fieldLe (request s.dev m) 16 4 ∧ fieldLe (request s.dev m) 16 4 ≤ 262144)
include hn

theorem exec_warmSetCreate_badSlots (h : fieldLe (request s.dev m) 20 4 = 0) :
    exec (.warmSetCreate m) s = .next (s.refused m rBadField 20) :=
  eff_mbxRow_no ha ((if_neg (warmSet_size_ok hn)).trans (if_pos h))

theorem exec_warmSetCreate_noRoom (h : fieldLe (request s.dev m) 20 4 ≠ 0)
    (hroom : ¬ WarmRoom s.dev (askedWarmSet (request s.dev m)) ∨ alloc true (2 * warmSpan (askedWarmSet (request s.dev m))) s.dev = none) :
    exec (.warmSetCreate m) s = .next (s.refused m rNoRoom (Config.noField 0x0421 rNoRoom)) := by
  refine eff_mbxRow_no ha ((if_neg (warmSet_size_ok hn)).trans ((if_neg h).trans ?_))
  by_cases hfull : 1024 ≤ s.dev.warms.length ∨ overBudget s.dev (warmBytes (askedWarmSet (request s.dev m))) = true
  case pos => exact if_pos hfull
  have hplace := hroom.resolve_left (not_not.mpr (warmRoom_iff.mpr hfull))
  refine (if_neg hfull).trans ?_
  simp only [askedWarmSet] at hplace
  simp only [hplace]

theorem exec_warmSetCreate_ok (h : fieldLe (request s.dev m) 20 4 ≠ 0) (hroom : WarmRoom s.dev (askedWarmSet (request s.dev m)))
    {pl : Placement} {d : Dev} (hplace : alloc true (2 * warmSpan (askedWarmSet (request s.dev m))) s.dev = some (pl, d)) :
    exec (.warmSetCreate m) s =
      (let n := idxNext (idxReg d 7)
       .next (s.answered m (toLe 8 (mkHandle 7 n.2 n.1).toNat ++ toLe 8 (placeBytes d pl)) (noteChange (mkHandle 7 n.2 n.1)
        { takeIdx 7 d with warms := aSet d.warms n.1 { askedWarmSet (request s.dev m) with gen := n.2, place := pl } }))) := by
  refine eff_mbxRow_ok ha ((if_neg (warmSet_size_ok hn)).trans ((if_neg h).trans ((if_neg (warmRoom_iff.mp hroom)).trans ?_)))
  simp only [askedWarmSet] at hplace
  simp only [hplace]
  rfl

end

section
variable {s : State} {m : Nat} (hk : handleOk s.dev 7 (handleAt s.dev m 16) = true)
include hk

theorem exec_warmSetDestroy_inUse (hu : (namedByItem s.dev (handleAt s.dev m 16) || stepIsOpen s.dev) = true) (ha : Asks s.dev m 0x0422) :
    exec (.warmSetDestroy m) s = .next (s.refused m rInUse 16) :=
  eff_withHandle_no _ ha hk (if_pos hu)

theorem exec_warmSetClear_inUse (hu : (namedByItem s.dev (handleAt s.dev m 16) || stepIsOpen s.dev) = true) (ha : Asks s.dev m 0x0423) :
    exec (.warmSetClear m) s = .next (s.refused m rInUse 16) :=
  eff_withHandle_no _ ha hk (if_pos hu)

theorem exec_warmSetDestroy_ok (hu : (namedByItem s.dev (handleAt s.dev m 16) || stepIsOpen s.dev) = false) (ha : Asks s.dev m 0x0422) :
    exec (.warmSetDestroy m) s = .next (s.answered m [] (noteChange (handleAt s.dev m 16)
      (freeIdx 7 (hIdx (handleAt s.dev m 16)) (hGen (handleAt s.dev m 16)) (sweepRegions (dropObjErrs 2 (hIdx (handleAt s.dev m 16))
        { s.dev with warms := aDel s.dev.warms (hIdx (handleAt s.dev m 16)) }))))) :=
  eff_withHandle_ok _ ha hk (if_neg (Bool.eq_false_iff.mp hu))

theorem exec_warmSetClear_ok (hu : (namedByItem s.dev (handleAt s.dev m 16) || stepIsOpen s.dev) = false) (ha : Asks s.dev m 0x0423) :
    exec (.warmSetClear m) s = .next (s.answered m [] (noteChange (handleAt s.dev m 16)
      { s.dev with warms := aMod s.dev.warms (hIdx (handleAt s.dev m 16)) (fun w => { w with ep0 := [], ep1 := [] }) })) :=
  eff_withHandle_ok _ ha hk (if_neg (Bool.eq_false_iff.mp hu))

end

/-! ### Groups -/

/-- The group that GROUP_CREATE makes (12 R400 to R402). -/
def newGroup (d : Dev) (c : Bytes) : Group :=
  let ms := (groupMembers d c).filterMap id
  { gen := (idxNext (idxReg d 5)).2, gid := BitVec.ofNat 32 (fieldLe c 16 4), members := ms, rank := (ms.findIdx? (· == d.lnk.pos)).getD 0
    dg := groupDiameter d ms, digest := groupDigest (BitVec.ofNat 32 (fieldLe c 16 4)) ms }

section
variable {s : State} {m : Nat} (ha : Asks s.dev m 0x0501)
include ha

theorem exec_groupCreate_no {x : Nat × Nat} (hc : groupCheck s.dev (request s.dev m) = some x) :
    exec (.groupCreate m) s = .next (s.refused m x.1 x.2) :=
  eff_mbxRow_no ha (by simp only [hc])

theorem exec_groupCreate_ok (hc : groupCheck s.dev (request s.dev m) = none) : exec (.groupCreate m) s =
    (let n := idxNext (idxReg s.dev 5)
     .next (s.answered m (toLe 8 (mkHandle 5 n.2 n.1).toNat) (noteChange (mkHandle 5 n.2 n.1)
      { takeIdx 5 s.dev with groups := aSet s.dev.groups n.1 (newGroup s.dev (request s.dev m)) }))) := by
  refine eff_mbxRow_ok ha ?_
  simp only [hc]
  rfl

end

section
variable {s : State} {m : Nat} (hk : handleOk s.dev 5 (handleAt s.dev m 16) = true)
include hk

theorem exec_groupDestroy_ok (ha : Asks s.dev m 0x0502) (hu : (stepIsOpen s.dev || namedByItem s.dev (handleAt s.dev m 16)) = false) :
    exec (.groupDestroy m) s = .next (s.answered m [] (noteChange (handleAt s.dev m 16)
      (freeIdx 5 (hIdx (handleAt s.dev m 16)) (hGen (handleAt s.dev m 16))
        { s.dev with groups := aDel s.dev.groups (hIdx (handleAt s.dev m 16)) }))) :=
  eff_withHandle_ok _ ha hk (if_neg (Bool.eq_false_iff.mp hu))

theorem exec_groupDestroy_inUse (ha : Asks s.dev m 0x0502) (hu : (stepIsOpen s.dev || namedByItem s.dev (handleAt s.dev m 16)) = true) :
    exec (.groupDestroy m) s = .next (s.refused m rInUse 16) :=
  eff_withHandle_no _ ha hk (if_pos hu)

theorem exec_groupQuery {g : Group} (hg : aGet s.dev.groups (hIdx (handleAt s.dev m 16)) = some g) (ha : Asks s.dev m 0x0503) :
    exec (.groupQuery m) s = .next (s.answered m
      (toLe 4 g.gid.toNat ++ toLe 4 g.rank ++ toLe 4 g.members.length ++ toLe 2 g.dg ++ zeros 2 ++ toLe 8 g.digest.toNat
        ++ toLe 4 g.lastLaunch.toNat ++ toLe 1 g.lastStatus.toNat ++ zeros 3 ++ toLe 4 g.lastRank) s.dev) :=
  eff_withHandle_ok _ ha hk (by simp only [hg])

end

/-- Settles O27: each clause is one case of a command on plans, factor sets, warm-start sets or groups. -/
theorem solverObjectsAndGroupsAnswer : Obligations.SolverObjectsAndGroupsAnswer := by
  intro s m d c f h i next name no
  refine ⟨fun ha => ⟨exec_planCreate_waits ha, fun hr x hc => exec_planCreate_no ha hr hc, fun hr hc => exec_planCreate_ok ha hr hc⟩,
    fun x op kind hx ha hk => solverOrGroup_stale hx ha hk, fun p hk hp => ?plan,
    fun hk ha => ⟨exec_factorSetDestroy_ok hk ha, exec_factorSetDestroy_inUse hk ha⟩, fun ha => ?warmCreate,
    fun hk => ⟨fun hu => ⟨exec_warmSetDestroy_inUse hk hu, exec_warmSetClear_inUse hk hu⟩,
      fun hu => ⟨exec_warmSetDestroy_ok hk hu, exec_warmSetClear_ok hk hu⟩⟩,
    fun ha => ⟨fun x hc => exec_groupCreate_no ha hc, exec_groupCreate_ok ha⟩,
    fun hk => ⟨exec_groupDestroy_ok hk, exec_groupDestroy_inUse hk, fun g hg ha => exec_groupQuery hk hg ha⟩⟩
  case plan =>
    exact ⟨exec_planDestroy_ok hk, exec_planDestroy_inUse hk, exec_planQuery hk hp, fun ha => ⟨exec_factorSetCreate_bad hk ha,
      exec_factorSetCreate_noRoom hk hp ha, fun hn hfull pl d' hplace => exec_factorSetCreate_ok hk hp ha hn hfull hplace⟩⟩
  case warmCreate =>
    exact ⟨exec_warmSetCreate_badSize ha, exec_warmSetCreate_badSlots ha, exec_warmSetCreate_noRoom ha,
      fun hn hslots hroom pl d' hplace => exec_warmSetCreate_ok ha hn hslots hroom hplace⟩

end Sys2Proof.Proofs
end

section
/-! Items at work: RUN, the transfers, UPDATE, SEAL and the expiry of a budget (03 R96 to R98, 08 R275, R276, 09 R287, R306 to R308). -/
namespace Sys2Proof.Proofs
open Sys2Proof Sys2Proof.Machine Sys2Proof.Laws

theorem next_onDev_congr {f g : Dev → Dev} {s : State} (h : f s.dev = g s.dev) :
    (.next (s.onDev f) : Res) = .next (s.onDev g) := by
  simp only [State.onDev, h]

/-! ### RUN -/

theorem runOver_iff {it : Item} : runOver it = true ↔ ∀ i ∈ it.insts, i.2.next = 0xFFFF := by simp [runOver]

section
variable {s : State} {slot seq : Nat} {it : Item} (hf : findItem s.dev slot seq = some it)
include hf

theorem exec_run_over (hw : itemWorks s.dev it 1 1 = true) (h : ∀ i ∈ it.insts, i.2.next = 0xFFFF) :
    exec (.run slot seq) s = .next (s.onDev (setItem { it with work := true })) :=
  eff_eq_onDev (by simp only [hf, hw, runOver_iff.mpr h, Bool.and_self, if_true])

theorem exec_run_idle (h : itemWorks s.dev it 1 1 = false ∨ ∃ i ∈ it.insts, i.2.next ≠ 0xFFFF) : exec (.run slot seq) s = .next s := by
  have hidle : (itemWorks s.dev it 1 1 && runOver it) = false := by
    rcases h with hw | ⟨i, hi, hne⟩
    · simp only [hw, Bool.false_and]
    · rw [Bool.eq_false_iff.mpr (mt runOver_iff.mp fun hall => hne (hall i hi)), Bool.and_false]
  exact eff_idle (by simp only [hf, hidle, Bool.false_eq_true, if_false])

end

/-! ### Transfers -/

/-- The device after an item has moved its whole length (log 29). -/
def transferred (it : Item) (d : Dev) : Dev :=
  finishItem it.order 0 0 { d with items := aMod d.items it.order (fun i => { i with progress := it.arg2.toNat }) }

section
variable {d d' : Dev} {slot seq op : Nat} {it : Item} {f : Dev → Item → Dev × Option Nat} (hf : findItem d slot seq = some it)
include hf

theorem transferRow_moved (hw : itemWorks d it 3 op = true) (hr : op = 3 ∨ pf0Requests d = true) (h : f d it = (d', none)) :
    transferRow slot seq op f d = transferred it d' := by
  have hgo : (itemWorks d it 3 op && (op == 3 || pf0Requests d)) = true := by simpa [hw] using hr
  simp only [transferRow, hf, hgo, h, if_true, transferred]

theorem transferRow_failed {t : Nat} (hw : itemWorks d it 3 op = true) (hr : op = 3 ∨ pf0Requests d = true) (h : f d it = (d', some t)) :
    transferRow slot seq op f d = finishItem it.order 0x12 t d' := by
  have hgo : (itemWorks d it 3 op && (op == 3 || pf0Requests d)) = true := by simpa [hw] using hr
  simp only [transferRow, hf, hgo, h, if_true]

theorem transferRow_idle (h : itemWorks d it 3 op = false ∨ (op ≠ 3 ∧ pf0Requests d = false)) : transferRow slot seq op f d = d := by
  have hidle : (itemWorks d it 3 op && (op == 3 || pf0Requests d)) = false := by
    rcases h with hw | ⟨hop, hr⟩
    · simp only [hw, Bool.false_and]
    · simp [hop, hr]
  simp only [transferRow, hf, hidle, Bool.false_eq_true, if_false]

end

/-- What a transfer from the host writes, with whether it could (03 R98). -/
abbrev writtenFromHost (d : Dev) (it : Item) : Dev × Bool :=
  writeTensor (hIdx it.object) it.arg1.toNat (memRead d.host it.arg0.toNat it.arg2.toNat) d

/-- What a transfer from a tensor reads: its bytes, or none on a bus error. -/
abbrev sourceRead (d : Dev) (it : Item) : Dev × Option Bytes := readTensor (hIdx it.object) it.arg1.toNat it.arg2.toNat d

/-- What a transfer between tensors writes of the bytes that it read. -/
abbrev writtenFromSource (d : Dev) (it : Item) (b : Bytes) : Dev × Bool :=
  writeTensor (hIdx it.arg0) it.arg3.toNat b (sourceRead d it).1

section
variable {s : State} {slot seq : Nat} {it : Item} (hf : findItem s.dev slot seq = some it)
include hf

section
variable (hw : itemWorks s.dev it 3 1 = true) (hr : pf0Requests s.dev = true)
include hw hr

theorem exec_hostToTensor_moved (h : (writtenFromHost s.dev it).2 = true) :
    exec (.hostToTensor slot seq) s = .next { s with dev := transferred it (writtenFromHost s.dev it).1 } :=
  eff_eq_dev (transferRow_moved hf hw (.inr hr) (by simp only [hostRead, h, if_true]))

theorem exec_hostToTensor_failed (h : (writtenFromHost s.dev it).2 = false) :
    exec (.hostToTensor slot seq) s = .next { s with dev := finishItem it.order 0x12 (hIdx it.object) (writtenFromHost s.dev it).1 } :=
  eff_eq_dev (transferRow_failed hf hw (.inr hr) (by simp only [hostRead, h, Bool.false_eq_true, if_false]))

end

section
variable (hw : itemWorks s.dev it 3 2 = true) (hr : pf0Requests s.dev = true)
include hw hr

theorem exec_tensorToHost_moved {b : Bytes} (h : (sourceRead s.dev it).2 = some b) :
    exec (.tensorToHost slot seq) s =
      (let e := (sourceRead s.dev it).1
       .next { s with dev := transferred it { e with host := memWrite e.host it.arg0.toNat b } }) :=
  eff_eq_dev (transferRow_moved hf hw (.inr hr) (by simp only [h, hostWrite]))

theorem exec_tensorToHost_failed (h : (sourceRead s.dev it).2 = none) :
    exec (.tensorToHost slot seq) s = .next { s with dev := finishItem it.order 0x12 (hIdx it.object) (sourceRead s.dev it).1 } :=
  eff_eq_dev (transferRow_failed hf hw (.inr hr) (by simp only [h]))

end

section
variable (hw : itemWorks s.dev it 3 3 = true)
include hw

theorem exec_tensorToTensor_unread (h : (sourceRead s.dev it).2 = none) :
    exec (.tensorToTensor slot seq) s = .next { s with dev := finishItem it.order 0x12 (hIdx it.object) (sourceRead s.dev it).1 } :=
  eff_eq_dev (transferRow_failed hf hw (.inl rfl) (by simp only [h]))

variable {b : Bytes} (hb : (sourceRead s.dev it).2 = some b)
include hb

theorem exec_tensorToTensor_moved (h : (writtenFromSource s.dev it b).2 = true) :
    exec (.tensorToTensor slot seq) s = .next { s with dev := transferred it (writtenFromSource s.dev it b).1 } :=
  eff_eq_dev (transferRow_moved hf hw (.inl rfl) (by simp only [hb, h, if_true]))

theorem exec_tensorToTensor_failed (h : (writtenFromSource s.dev it b).2 = false) :
    exec (.tensorToTensor slot seq) s = .next { s with dev := finishItem it.order 0x12 (hIdx it.arg0) (writtenFromSource s.dev it b).1 } :=
  eff_eq_dev (transferRow_failed hf hw (.inl rfl) (by simp only [hb, h, Bool.false_eq_true, if_false]))

end

end

/-! ### UPDATE -/

/-- The item is an UPDATE or a SEAL of the open step that may work. -/
def StepWorks (d : Dev) (it : Item) (op : Nat) : Prop := itemWorks d it 5 op = true ∧ stepIsOpen d = true ∧ it.step = d.step.num

theorem stepWorks_iff {d : Dev} {it : Item} {op : Nat} :
    StepWorks d it op ↔ (itemWorks d it 5 op && stepIsOpen d && it.step == d.step.num) = true := by
  simp [StepWorks, and_assoc]

theorem not_stepWorks {d : Dev} {it : Item} {op : Nat} (h : itemWorks d it 5 op = false ∨ stepIsOpen d = false ∨ it.step ≠ d.step.num) :
    ¬ StepWorks d it op := by
  rintro ⟨hw, ho, hs⟩
  simp [hw, ho, hs] at h

/-- The next element is one of the first pass. -/
def inFirstPass (d : Dev) (it : Item) : Bool := decide (it.progress < tElems (tensorAt d (updH it 8)))

/-- How many elements the row processes: as many as asked, left, allowed by the tide's limits and planned (09 R287, R307). -/
def updTaken (d : Dev) (it : Item) (n : Nat) : Nat :=
  min (min n ((if inFirstPass d it = true then tElems (tensorAt d (updH it 8)) else updTotal d it) - it.progress))
    (min (updRoom d it (inFirstPass d it)) (it.goal.getD (it.progress + n) - it.progress))

theorem updTaken_eq (d : Dev) (it : Item) (n : Nat) : updTaken d it n =
    min (min n (if inFirstPass d it = true then tElems (tensorAt d (updH it 8)) - it.progress else updTotal d it - it.progress))
      (min (updRoom d it (inFirstPass d it)) (it.goal.getD (it.progress + n) - it.progress)) := by
  rw [updTaken, apply_ite (· - it.progress)]

/-- The device once the elements are counted. -/
def updCounted (d : Dev) (it : Item) (n : Nat) : Dev :=
  if updTaken d it n = 0 then d
  else { noteWritten it d with upd := updCount (updCost d it (inFirstPass d it)) (updTaken d it n) d.upd }

/-- The elements of the row, in the pass in which they stand. -/
def updPass (d : Dev) (it : Item) (n : Nat) : Rd (BitVec 4 × Nat) :=
  if inFirstPass d it = true then updPass1 it it.progress (updTaken d it n) (updCounted d it n)
  else updPass2 it (it.progress - tElems (tensorAt d (updH it 8))) (updTaken d it n) (updCounted d it n)

/-- The largest magnitude of the item so far. -/
def updAmax (it : Item) (r : BitVec 4 × Nat) : Nat := (fpMax fp64 it.amax.toNat r.2).1

/-- The device after a pass over `n` elements, with the exponent of a working copy staged where the first pass ends (09 R315). -/
def updStaged (d : Dev) (it : Item) (n : Nat) (d' : Dev) (r : BitVec 4 × Nat) : Dev :=
  if inFirstPass d it = true ∧ it.progress + updTaken d it n = tElems (tensorAt d (updH it 8)) ∧ twoPass d' (tensorAt d' (updH it 8)) = true
  then stageExp it (updAmax it r) d' else d'

theorem updStaged_eq (d : Dev) (it : Item) (n : Nat) (d' : Dev) (r : BitVec 4 × Nat) : updStaged d it n d' r =
    if (inFirstPass d it && decide (it.progress + updTaken d it n = tElems (tensorAt d (updH it 8))) &&
      twoPass d' (tensorAt d' (updH it 8))) = true then stageExp it (updAmax it r) d' else d' := by
  simp only [updStaged, Bool.and_eq_true, decide_eq_true_eq, and_assoc]

/-- The item after a pass over `n` elements. -/
def updItem (d : Dev) (it : Item) (n : Nat) (d' : Dev) (r : BitVec 4 × Nat) : Item :=
  { (aGet (updStaged d it n d' r).items it.order).getD it with
    progress := it.progress + updTaken d it n, amax := BitVec.ofNat 64 (updAmax it r), flags := it.flags ||| r.1
    work := decide (updTotal (updStaged d it n d' r) it ≤ it.progress + updTaken d it n) }

/-- The device after a row of a CLEAN step: an element that cannot be read or written fails the item. -/
def updCleaned (it : Item) (n : Nat) (d : Dev) : Dev :=
  match updPass d it n with
  | .bad d' t => finishItem it.order 0x12 t d'
  | .ok d' r => setItem (updItem d it n d' r) (updStaged d it n d' r)

section
variable {s : State} {slot seq : Nat} {it : Item} (hf : findItem s.dev slot seq = some it)
include hf

theorem exec_update_idle (n : Nat) (h : ¬ StepWorks s.dev it 1) : exec (.update slot seq n) s = .next s := by
  rw [stepWorks_iff, Bool.not_eq_true] at h
  exact eff_idle (by simp only [hf, h, Bool.not_false, if_true])

theorem exec_seal_idle (h : ¬ (StepWorks s.dev it 2 ∧ s.dev.step.verdict ≠ 0)) : exec (.seal slot seq) s = .next s := by
  have hidle : (itemWorks s.dev it 5 2 && stepIsOpen s.dev && it.step == s.dev.step.num && s.dev.step.verdict != 0) = false := by
    rwa [← Bool.not_eq_true, Bool.and_eq_true, ← stepWorks_iff, bne_iff_ne]
  exact eff_idle (by simp only [hf, hidle, Bool.false_eq_true, if_false])

theorem exec_seal_ends (h : StepWorks s.dev it 2) (hv : s.dev.step.verdict ≠ 0) :
    exec (.seal slot seq) s = .next (s.onDev (fun d => finishItem it.order (verdictOutcome d).1 (verdictOutcome d).2 d)) := by
  have hends : (itemWorks s.dev it 5 2 && stepIsOpen s.dev && it.step == s.dev.step.num && s.dev.step.verdict != 0) = true := by
    rw [Bool.and_eq_true, ← stepWorks_iff, bne_iff_ne]
    exact ⟨h, hv⟩
  exact eff_eq_onDev (by simp only [hf, hends, if_true])

theorem exec_seal_overflow (h : StepWorks s.dev it 2) (hv : s.dev.step.verdict = 2) : exec (.seal slot seq) s = .next (s.onDev (fun d =>
    finishItem it.order 1 (b2n d.step.verdictOf + 8 * b2n d.step.verdictNv) d)) :=
  (exec_seal_ends hf h (by omega)).trans (next_onDev_congr (by simp only [verdictOutcome, if_pos hv]))

theorem exec_seal_clean (h : StepWorks s.dev it 2) (h0 : s.dev.step.verdict ≠ 0) (h2 : s.dev.step.verdict ≠ 2) :
    exec (.seal slot seq) s = .next (s.onDev (finishItem it.order 0 0)) :=
  (exec_seal_ends hf h h0).trans (next_onDev_congr (by simp only [verdictOutcome, if_neg h2]))

variable (h : StepWorks s.dev it 1) (n : Nat)
include h

theorem exec_update_overflow (hv : s.dev.step.verdict = 2) : exec (.update slot seq n) s = .next (s.onDev (fun d =>
    finishItem it.order 1 (b2n d.step.verdictOf + 8 * b2n d.step.verdictNv) d)) :=
  eff_eq_onDev (by simp only [hf, stepWorks_iff.mp h, hv, Bool.not_true, Bool.false_eq_true, if_false, if_true])

theorem exec_update_waits (hv : s.dev.step.verdict = 0) : exec (.update slot seq n) s = .next s :=
  eff_idle (by simp [hf, stepWorks_iff.mp h, hv])

/-- On CLEAN the row takes its elements through their pass. -/
theorem exec_update_clean (hv : s.dev.step.verdict = 1) : exec (.update slot seq n) s = .next (s.onDev (updCleaned it n)) := by
  refine eff_eq_onDev ?_
  have hgo : ¬ (!(itemWorks s.dev it 5 1 && stepIsOpen s.dev && it.step == s.dev.step.num)) = true := by simp [stepWorks_iff.mp h]
  have h2 : ¬ s.dev.step.verdict = 2 := by omega
  have h1 : ¬ s.dev.step.verdict ≠ 1 := not_not.mpr hv
  simp only [hf, if_neg hgo, if_neg h2, if_neg h1, updCleaned, updPass, updCounted, updItem, updStaged_eq, updTaken_eq, updAmax, inFirstPass]
  rfl

theorem exec_update_bad (hv : s.dev.step.verdict = 1) {d' : Dev} {t : Nat} (hp : updPass s.dev it n = .bad d' t) :
    exec (.update slot seq n) s = .next { s with dev := finishItem it.order 0x12 t d' } :=
  (exec_update_clean hf h n hv).trans (next_onDev_congr (g := fun _ => _) (by simp only [updCleaned, hp]))

theorem exec_update_ok (hv : s.dev.step.verdict = 1) {d' : Dev} {r : BitVec 4 × Nat} (hp : updPass s.dev it n = .ok d' r) :
    exec (.update slot seq n) s = .next { s with dev := setItem (updItem s.dev it n d' r) (updStaged s.dev it n d' r) } :=
  (exec_update_clean hf h n hv).trans (next_onDev_congr (g := fun _ => _) (by simp only [updCleaned, hp]))

end

/-! ### The expiry of a budget -/

/-- The item's last tide has come (03 R96). -/
def BudgetDue (d : Dev) (it : Item) : Prop :=
  it.stage = .admitted ∧ itemBudget d it ≠ 0 ∧ it.admTide + itemBudget d it ≤ d.tide.count + 1

theorem budgetDue_iff {d : Dev} {it : Item} : budgetDue d it = true ↔ BudgetDue d it := by
  simp [budgetDue, BudgetDue, and_assoc]

theorem budgetCause_eq (it : Item) [Decidable (∃ p ∈ it.probs, p.2.word = none ∧ p.2.throttled = true)] :
    budgetCause it = if ∃ p ∈ it.probs, p.2.word = none ∧ p.2.throttled = true then 2 else 4 :=
  if_congr (by simp) rfl rfl

section
variable {d : Dev} {it : Item}

theorem expireBudget_unit (hd : BudgetDue d it) (hw : it.work = false) {l : Nat} (hl : lostProblem it = some l) :
    expireBudget it d = finishItem it.order 0x15 (65536 + l) d := by
  simp only [expireBudget, budgetDue_iff.mpr hd, hw, hl, Bool.not_false, Bool.and_self, if_true]

theorem expireBudget_deadline (hd : BudgetDue d it) (hw : it.work = false) (hl : lostProblem it = none) :
    expireBudget it d = finishItem it.order 0x11 (budgetCause it * 65536 + 0xFFFF) d := by
  simp only [expireBudget, budgetDue_iff.mpr hd, hw, hl, Bool.not_false, Bool.and_self, if_true]

theorem expireBudget_idle (h : ¬ BudgetDue d it ∨ it.work = true) : expireBudget it d = d := by
  have hidle : (budgetDue d it && !it.work) = false := by
    rcases h with hd | hw
    · rw [Bool.eq_false_iff.mpr (mt budgetDue_iff.mp hd), Bool.false_and]
    · simp [hw]
  simp only [expireBudget, hidle, Bool.false_eq_true, if_false]

end

section
variable {s : State} {slot seq : Nat} {it : Item} (hf : findItem s.dev slot seq = some it)
include hf

theorem exec_itemBudgetExpiry (hc : clocksRun s.dev = true) (hs : serves s.dev = true) (hp : s.dev.tide.phase ≠ .work) :
    exec (.itemBudgetExpiry slot seq) s = .next (s.onDev (expireBudget it)) :=
  eff_eq_onDev (by simp [hf, hc, hs, hp])

theorem exec_itemBudgetExpiry_idle (h : ¬ BudgetDue s.dev it ∨ it.work = true) : exec (.itemBudgetExpiry slot seq) s = .next s := by
  by_cases hgo : (clocksRun s.dev && serves s.dev && s.dev.tide.phase != .work) = true
  · exact eff_idle (by simp only [hf, hgo, if_true, expireBudget_idle h])
  · exact eff_idle (by simp only [hf, hgo, Bool.false_eq_true, if_false])

theorem exec_itemBudgetExpiry_off (h : clocksRun s.dev = false ∨ serves s.dev = false ∨ s.dev.tide.phase = .work) :
    exec (.itemBudgetExpiry slot seq) s = .next s := by
  have hoff : (clocksRun s.dev && serves s.dev && s.dev.tide.phase != .work) = false := by
    rcases h with h | h | h <;> simp [h]
  exact eff_idle (by simp only [hf, hoff, Bool.false_eq_true, if_false])

variable (hc : clocksRun s.dev = true) (hs : serves s.dev = true) (hw : it.work = false) (hp : s.dev.tide.phase ≠ .work)
  (hd : BudgetDue s.dev it)
include hc hs hw hp hd

theorem exec_itemBudgetExpiry_unit {l : Nat} (hl : lostProblem it = some l) :
    exec (.itemBudgetExpiry slot seq) s = .next (s.onDev (finishItem it.order 0x15 (65536 + l))) :=
  (exec_itemBudgetExpiry hf hc hs hp).trans (next_onDev_congr (expireBudget_unit hd hw hl))

theorem exec_itemBudgetExpiry_deadline (hl : lostProblem it = none) :
    exec (.itemBudgetExpiry slot seq) s = .next (s.onDev (finishItem it.order 0x11 (budgetCause it * 65536 + 0xFFFF))) :=
  (exec_itemBudgetExpiry hf hc hs hp).trans (next_onDev_congr (expireBudget_deadline hd hw hl))

end

/-- Settles O51: each clause is one case of an item's row. -/
theorem transfersRunsAndUpdatesWork : Obligations.TransfersRunsAndUpdatesWork := by
  intro s slot seq it hf d moved failed
  refine ⟨fun hw => ⟨exec_run_over hf hw, fun hne => exec_run_idle hf (.inr hne)⟩,
    fun hw hr => ⟨exec_hostToTensor_moved hf hw hr, exec_hostToTensor_failed hf hw hr⟩, fun hoff => ?hostToTensor,
    fun hw hr => ⟨fun b hb => exec_tensorToHost_moved hf hw hr hb, exec_tensorToHost_failed hf hw hr⟩, fun hoff => ?tensorToHost,
    fun hw => ⟨exec_tensorToTensor_unread hf hw, fun b hb => ⟨exec_tensorToTensor_moved hf hw hb, exec_tensorToTensor_failed hf hw hb⟩⟩,
    fun hoff => ?tensorToTensor, fun hoff => exec_run_idle hf (.inl hoff), fun hw ho hstep n => ?update,
    fun n hoff => exec_update_idle hf n (not_stepWorks hoff), fun hw ho hstep => ?sealed,
    fun hoff => exec_seal_idle hf fun h => not_stepWorks hoff h.1, fun hc hs hw => ?budget, fun hoff => ?budgetOff⟩
  case hostToTensor => exact eff_idle (transferRow_idle hf (hoff.imp_right fun hr => ⟨by decide, hr⟩))
  case tensorToHost => exact eff_idle (transferRow_idle hf (hoff.imp_right fun hr => ⟨by decide, hr⟩))
  case tensorToTensor => exact eff_idle (transferRow_idle hf (.inl hoff))
  case update =>
    have hworks : StepWorks s.dev it 1 := ⟨hw, ho, hstep⟩
    refine ⟨exec_update_overflow hf hworks n, exec_update_waits hf hworks n, fun hv => ⟨fun d' t hpass => ?bad, fun d' r hpass => ?ok⟩⟩
    case bad => exact exec_update_bad hf hworks n hv hpass
    case ok => exact exec_update_ok hf hworks n hv hpass
  case sealed =>
    have hworks : StepWorks s.dev it 2 := ⟨hw, ho, hstep⟩
    refine ⟨fun hv => exec_seal_idle hf fun h => h.2 hv, fun hv => ?overflow, fun h0 h2 => ?clean⟩
    case overflow => exact exec_seal_overflow hf hworks hv
    case clean => exact exec_seal_clean hf hworks h0 h2
  case budget =>
    refine ⟨fun hp hadm hb hdue => ⟨fun l hl => ?unit, fun hl => ?deadline⟩, fun hidle => ?idle⟩
    case unit => exact exec_itemBudgetExpiry_unit hf hc hs hw hp ⟨hadm, hb, hdue⟩ hl
    case deadline =>
      rw [← budgetCause_eq]
      exact exec_itemBudgetExpiry_deadline hf hc hs hw hp ⟨hadm, hb, hdue⟩ hl
    case idle =>
      rcases hidle with hp | hadm | hb | hlate
      · exact exec_itemBudgetExpiry_off hf (.inr (.inr hp))
      · exact exec_itemBudgetExpiry_idle hf (.inl fun hd => hadm hd.1)
      · exact exec_itemBudgetExpiry_idle hf (.inl fun hd => hd.2.1 hb)
      · exact exec_itemBudgetExpiry_idle hf (.inl fun hd => absurd hd.2.2 (Nat.not_le.mpr hlate))
  case budgetOff =>
    rcases hoff with hc | hs | hw
    · exact exec_itemBudgetExpiry_off hf (.inl hc)
    · exact exec_itemBudgetExpiry_off hf (.inr (.inl hs))
    · exact exec_itemBudgetExpiry_idle hf (.inr hw)

end Sys2Proof.Proofs
end

section
/-! Rows of an accumulator tile: row access and element-wise work (05 R155, R170, R180), and what every row of the engine shares (08 R247). -/
namespace Sys2Proof.Proofs
open Sys2Proof Sys2Proof.Machine Sys2Proof.Laws

/-! ### Rows of a core that wait or meet uncorrectable data -/

section
variable {l : Nat} {w : BitVec 64} {mine : Bool} {f : Dev → Core → CRes} {s : State} {c : Core}

theorem eff_coreRow_stall (h : AtWord s.dev l w c) (hm : mine = true) (hf : f s.dev c = .stall) : eff (coreRow l w mine f) s = .next s :=
  eff_idle (coreRow_stall h hm hf)

theorem eff_coreRow_memory {d' : Dev} {tensor addr : Nat} (h : AtWord s.dev l w c) (hm : mine = true)
    (hf : f s.dev c = .memory tensor addr d') : eff (coreRow l w mine f) s = .next (s.memFaulted l c tensor addr d') :=
  eff_eq_dev (by rw [coreRow_settle h hm, hf]; rfl)

/-! ### Rows of the engine (08 R247) -/

/-- Neither the solver unit nor the assembly stage of the core is busy. -/
def EngineIdle (c : Core) : Prop := c.slvJob = none ∧ c.asmJob = none

theorem engine_busy {r : CRes} (h : ¬ EngineIdle c) : (if c.slvJob.isSome || c.asmJob.isSome then .stall else r) = CRes.stall :=
  if_pos (by simpa [EngineIdle, Option.isSome_iff_ne_none, or_iff_not_imp_left] using h)

theorem engine_idle {r : CRes} (h : EngineIdle c) : (if c.slvJob.isSome || c.asmJob.isSome then .stall else r) = r :=
  if_neg (by simp [h.1, h.2])

theorem eff_engineRow_busy (h : AtWord s.dev l w c) (hm : mine = true) (hb : ¬ EngineIdle c) :
    eff (engineRow l w mine f) s = .next s :=
  eff_coreRow_stall h hm (engine_busy hb)

theorem eff_engineRow_stall (h : AtWord s.dev l w c) (hm : mine = true) (hi : EngineIdle c) (hf : f s.dev c = .stall) :
    eff (engineRow l w mine f) s = .next s :=
  eff_coreRow_stall h hm ((engine_idle hi).trans hf)

theorem eff_engineRow_fault {k : Nat × Nat} (h : AtWord s.dev l w c) (hm : mine = true) (hi : EngineIdle c)
    (hf : f s.dev c = .fault k.1 k.2 s.dev) : eff (engineRow l w mine f) s = .next (s.faulted l c k) :=
  eff_coreRow_fault h hm ((engine_idle hi).trans hf)

theorem eff_engineRow_memory {d' : Dev} {tensor addr : Nat} (h : AtWord s.dev l w c) (hm : mine = true) (hi : EngineIdle c)
    (hf : f s.dev c = .memory tensor addr d') : eff (engineRow l w mine f) s = .next (s.memFaulted l c tensor addr d') :=
  eff_coreRow_memory h hm ((engine_idle hi).trans hf)

theorem eff_engineRow_ok {c' : Core} (h : Runs s.dev l w c) (hm : mine = true) (hi : EngineIdle c)
    (hf : f s.dev c = done s.dev c') (hp : c'.pc = c.pc) (hs : coreCode s.dev c' = coreCode s.dev c) :
    eff (engineRow l w mine f) s = .next (s.advanced l c' s.dev) :=
  eff_coreRow_ok h hm ((engine_idle hi).trans hf) hp hs

end
theorem guarded_pass {k : Chk} {d : Dev} {r : CRes} (h : k = none) : guarded k d r = r := by simp [guarded, h]

theorem guarded_fault {k : Chk} {x : Nat × Nat} {d : Dev} {r : CRes} (h : k = some x) : guarded k d r = .fault x.1 x.2 d := by
  simp [guarded, h]

/-! ### Rows of an accumulator tile (05 R155, R170) -/

/-- What ROWRD and ROWWR share: the slot's tile, its wait, and the checks before the access. -/
def tileRow (slot : Nat) (chk : AccTile → Chk) (access : AccTile → Core → Core) (d : Dev) (c : Core) : CRes :=
  match tileAt c slot with
  | none => .fault 0x203 0 d
  | some t => if t.ending then .stall else guarded (chk t) d (done d (access t c))

section
variable {slot : Nat} {chk : AccTile → Chk} {access : AccTile → Core → Core} {d : Dev} {c : Core} {t : AccTile}

theorem tileRow_unowned (h : tileAt c slot = none) : tileRow slot chk access d c = .fault 0x203 0 d := by simp [tileRow, h]

theorem tileRow_ending (h : tileAt c slot = some t) (he : t.ending = true) : tileRow slot chk access d c = .stall := by
  simp [tileRow, h, he]

theorem tileRow_owned (h : tileAt c slot = some t) (he : t.ending = false) :
    tileRow slot chk access d c = guarded (chk t) d (done d (access t c)) := by simp [tileRow, h, he]

end

/-- The checks of a row access in the order of 05 Table 5-6; only a write needs the word's group. -/
def rowCheck (write : Bool) (w : BitVec 64) (t : AccTile) : Chk :=
  firstOf [if write ∧ t.group ≠ aGroup w then some (0x202, 0) else none,
    if isSubBase t (aTD w) then none else some (0x204, 0), if t.mode = 3 ∧ aV w = 31 then some (0x207, 0) else none]

/-- The register of a row's elements, and in pair mode the next register of their low parts. -/
def rowRead (w : BitVec 64) (t : AccTile) (c : Core) : Core :=
  let el := (List.range 32).map (fun j => accGet c.acc t.mode (aTD w) (aRow w) j)
  let c1 := wrV (aV w) (vOf (8 * accBytes t.mode) (el.map (·.1))) c
  if t.mode = 3 then wrV (aV w + 1) (vOf 64 (el.map (·.2))) c1 else c1

def rowWrite (w : BitVec 64) (t : AccTile) (c : Core) : Core :=
  { c with acc := (List.range 32).foldl (fun m j =>
      accPut m t.mode (aTD w) (aRow w) j (vElem (rdV c (aV w)) (8 * accBytes t.mode) j, vElem (rdV c (aV w + 1)) 64 j)) c.acc }

def rowAccess (write : Bool) (w : BitVec 64) : AccTile → Core → Core := if write then rowWrite w else rowRead w

theorem rowCheck_write (w : BitVec 64) : rowCheck true w = fun t =>
    firstOf [if t.group ≠ aGroup w then some (0x202, 0) else none, if isSubBase t (aTD w) then none else some (0x204, 0),
      if t.mode = 3 ∧ aV w = 31 then some (0x207, 0) else none] := by
  funext t
  simp only [rowCheck, true_and]

theorem rowCheck_read (w : BitVec 64) : rowCheck false w = fun t =>
    firstOf [if isSubBase t (aTD w) then none else some (0x204, 0), if t.mode = 3 ∧ aV w = 31 then some (0x207, 0) else none] := by
  funext t
  simp only [rowCheck, Bool.false_eq_true, false_and, if_false, firstOf, List.foldl_cons]

theorem exec_rowAccess (write : Bool) (l : Nat) (w : BitVec 64) (s : State) :
    exec (if write then .rowwr l w else .rowrd l w) s =
      eff (engineRow l w (wMajor w == 0x19 && aFunc w == b2n write) (tileRow (aTD w) (rowCheck write w) (rowAccess write w))) s := by
  cases write
  · rw [rowCheck_read]
    rfl
  · rw [rowCheck_write]
    rfl

/-- A row access leaves the core's place in its segment alone. -/
theorem rowAccess_place (write : Bool) (w : BitVec 64) (t : AccTile) (d : Dev) (c : Core) :
    (rowAccess write w t c).pc = c.pc ∧ coreCode d (rowAccess write w t c) = coreCode d c := by
  cases write
  case true => exact ⟨rfl, rfl⟩
  case false =>
    simp only [rowAccess, rowRead, Bool.false_eq_true, if_false]
    split <;> exact ⟨rfl, rfl⟩

/-! ### Element-wise rows (05 R180) -/

section
variable {w : BitVec 64} {src : Option Nat} {d : Dev} {c : Core} {t : AccTile} {f : AccTile → Nat × Nat × Nat → Nat → Fl Nat}

theorem ewRow_ending (h : (slotEnding c (aTD w) || (src.map (slotEnding c)).getD false) = true) : ewRow w src d c f = .stall := if_pos h

theorem ewRow_standing (h : (slotEnding c (aTD w) || (src.map (slotEnding c)).getD false) = false) (ht : tileAt c (aTD w) = some t) :
    ewRow w src d c f = guarded (ewCheck c w src) d (done d (ewApply c t (f t))) := by simp [ewRow, h, ht]

theorem ewRow_fault {k : Nat × Nat} (h : (slotEnding c (aTD w) || (src.map (slotEnding c)).getD false) = false)
    (hk : ewCheck c w src = some k) : ewRow w src d c f = .fault k.1 k.2 d := by
  unfold ewRow
  rw [h, guarded_fault hk]
  rfl

end

/-- What EWT, EWV and EWS combine with a tile's element: the element of another tile, a vector's, a scalar. -/
def ewOperand (func : Nat) (w : BitVec 64) (c : Core) (t : AccTile) (e : Nat × Nat × Nat) : Nat :=
  match func with
  | 2 => let pl := accPlace { t with base := aTS w } e.1 e.2.1 e.2.2; (accGet c.acc t.mode pl.1 pl.2.1 pl.2.2).1
  | 3 => vElem (rdV c (aV w)) (8 * accBytes t.mode) (accPlace t e.1 e.2.1 e.2.2).2.2
  | _ => (rdS c (aS w)).toNat % 2 ^ (8 * accBytes t.mode)

/-- The operation of an element-wise row: EWS multiplies, the others name theirs. -/
def ewCombine (func : Nat) (w : BitVec 64) (c : Core) (t : AccTile) (e : Nat × Nat × Nat) (a : Nat) : Fl Nat :=
  if func = 4 then fpMul (accFmt t.mode) a (ewOperand func w c t e) else ewOp (aOp w) (accFmt t.mode) a (ewOperand func w c t e)

/-- EWT, EWV and EWS with their function codes and their source tile. -/
def ewRows (l : Nat) (w : BitVec 64) : List (Instr × Nat × Option Nat) :=
  [(.ewt l w, 2, some (aTS w)), (.ewv l w, 3, none), (.ews l w, 4, none)]

theorem exec_ewRow {l : Nat} {w : BitVec 64} {i : Instr} {func : Nat} {src : Option Nat} (h : (i, func, src) ∈ ewRows l w) (s : State) :
    exec i s = eff (engineRow l w (wMajor w == 0x19 && aFunc w == func) (fun d c => ewRow w src d c (ewCombine func w c))) s := by
  simp only [ewRows, List.mem_cons, Prod.mk.injEq, List.not_mem_nil, or_false] at h
  rcases h with ⟨rfl, rfl, rfl⟩ | ⟨rfl, rfl, rfl⟩ | ⟨rfl, rfl, rfl⟩ <;> rfl

/-- Settles O14: ROWRD and ROWWR are one `tileRow`, EWT, EWV and EWS one `ewRow`, and each waits, faults or acts by its cases. -/
theorem tileRowsAndElementWise : Obligations.TileRowsAndElementWise := by
  intro s l w c hmajor d idle td
  have mine {n : Nat} (h : aFunc w = n) : (wMajor w == 0x19 && aFunc w == n) = true := by simp [hmajor, h]
  refine ⟨fun hbusy hat i f hi hf => ?busy, fun hidle write hf => ?rows, fun hidle i f src hi hf => ?elementWise⟩
  case busy =>
    simp only [List.mem_cons, Prod.mk.injEq, List.not_mem_nil, or_false] at hi
    rcases hi with ⟨rfl, rfl⟩ | ⟨rfl, rfl⟩ | ⟨rfl, rfl⟩ | ⟨rfl, rfl⟩ | ⟨rfl, rfl⟩ <;> exact eff_engineRow_busy hat (mine hf) hbusy
  case rows =>
    intro o
    have ho : o = _ := exec_rowAccess write l w s
    refine ⟨fun hat hnone => ho.trans (eff_engineRow_fault hat (mine hf) hidle (tileRow_unowned hnone)), fun t ht => ?_⟩
    intro wd chk
    refine ⟨fun hat he => ho.trans (eff_engineRow_stall hat (mine hf) hidle (tileRow_ending ht he)),
      fun hat he k hk => ho.trans (eff_engineRow_fault hat (mine hf) hidle ((tileRow_owned ht he).trans (guarded_fault hk))),
      fun hruns he hk => ?_⟩
    obtain ⟨hpc, hcode⟩ := rowAccess_place write w t s.dev c
    have hok : o = .next (s.advanced l (rowAccess write w t c) s.dev) :=
      ho.trans (eff_engineRow_ok hruns (mine hf) hidle ((tileRow_owned ht he).trans (guarded_pass hk)) hpc hcode)
    exact ⟨fun hread => by subst hread; exact hok, fun hwrite => by subst hwrite; exact hok⟩
  case elementWise =>
    intro ending
    have ho := exec_ewRow hi s
    refine ⟨fun hat he => ho.trans (eff_engineRow_stall hat (mine hf) hidle (ewRow_ending he)),
      fun hat he k hk => ho.trans (eff_engineRow_fault hat (mine hf) hidle (ewRow_fault he hk)), fun hruns he hk t ht => ?_⟩
    intro wd other
    exact ho.trans (eff_engineRow_ok hruns (mine hf) hidle ((ewRow_standing he ht).trans (guarded_pass hk)) rfl rfl)

end Sys2Proof.Proofs
end

section
/-! The matrix instruction and the end of its output stage (05 R164 to R178): what it waits for and what it checks, stage by stage. -/
namespace Sys2Proof.Proofs
open Sys2Proof Sys2Proof.Machine Sys2Proof.Laws

/-! ### The operands of the instruction (05 Table 5-3) -/

/-- The operands of a matrix instruction; one problem has no problem stride. -/
def matOperands (c : Core) (w : BitVec 64) : MatArgs :=
  { matArgs c w with ps := if mP w = 1 then 0 else (matArgs c w).ps }

/-- The core-memory ranges that the instruction reads or writes. -/
def matRanges (w : BitVec 64) (x : MatArgs) (b : Bytes) : List (Nat × Nat) :=
  let size := fmtBytes (mFmtCode (mFmt w))
  panelRanges x.a x.lda x.ps x x.mv size (mP w) ++ panelRanges x.b x.ldb x.ps x x.nv size (mP w)
    ++ (if mEnd w then osRanges (matTile w x) b else [])

/-- The checks that wait for the descriptor (05 Table 5-6, 06 R212). -/
def matLateCheck (d : Dev) (c : Core) (w : BitVec 64) (x : MatArgs) (b : Bytes) : Chk :=
  let size := fmtBytes (mFmtCode (mFmt w))
  firstOf [matCheck c w x b, lowest [panelCheck x.a x.lda x.ps x x.mv size (mP w), panelCheck x.b x.ldb x.ps x x.nv size (mP w),
    if mEnd w then osDestCheck d c (matTile w x) b else none]]

/-- A memory fault's tensor and address, where a DMA owes bytes of a range. -/
def owedBytes (c : Core) (rs : List (Nat × Nat)) : Option (Nat × Nat) :=
  rs.findSome? (fun r => (cmPoison c r.1 r.2).map (fun p => (p, r.1)))

/-- An END into a tensor that a unit uses. -/
def matWindowBusy (c : Core) (w : BitVec 64) (b : Bytes) : Bool :=
  mEnd w && osKind b != 0 && ((rdW c (osWin b)).map (winBusy c)).getD false

/-- A tile that the instruction meets is in the output stage. -/
def meetsEnding (c : Core) (t : AccTile) : Bool := c.tiles.any (fun u => u.ending && tilesMeet u t.base (tileSlots t))

/-! ### The stages of the instruction -/

/-- The core with the products accumulated and the row groups enabled. -/
def matAccumulated (c : Core) (w : BitVec 64) (x : MatArgs) : Core :=
  { c with acc := (matAccumulate c w x).1, rowGroups := 8, idle := 0 }

def otherTiles (c : Core) (t : AccTile) : List AccTile := c.tiles.filter (fun u => !(u.group == t.group && sameTile u t))

/-- Nothing is left to wait for: the products, the tile, and with END the output stage's job. -/
def matIssue (w : BitVec 64) (x : MatArgs) (b : Bytes) (d : Dev) (c : Core) : CRes :=
  let t := matTile w x
  let fl := (matAccumulate c w x).2
  let c1 := matAccumulated c w x
  if mEnd w then
    done d { c1 with tiles := otherTiles c t ++ [{ t with ending := true }], outJobs := c.outJobs ++ [osJob d c1 t b fl] }
  else done d (raise fl { c1 with tiles := otherTiles c t ++ [t] })

/-- The checks have passed: the waits for the bytes and the tensor. -/
def matFeed (w : BitVec 64) (x : MatArgs) (b : Bytes) (d : Dev) (c : Core) : CRes :=
  if (matRanges w x b).any (fun r => cmBusy c r.1 r.2) then .stall
  else match owedBytes c (matRanges w x b) with
    | some p => .memory p.1 p.2 d
    | none => if matWindowBusy c w b then .stall else matIssue w x b d c

/-- The tile's checks have passed: the wait for the descriptor, then the other checks. -/
def matDescribe (w : BitVec 64) (x : MatArgs) (b : Bytes) (d : Dev) (c : Core) : CRes :=
  if mEnd w && cmBusy c x.osd 64 then .stall
  else match (if mEnd w then cmPoison c x.osd 64 else none) with
    | some p => .memory p x.osd d
    | none => guarded (matLateCheck d c w x b) d (matFeed w x b d c)

def matRow (w : BitVec 64) (d : Dev) (c : Core) : CRes :=
  let x := matOperands c w
  if meetsEnding c (matTile w x) then (if shapeOk w x then .stall else .fault 0x201 0 d)
  else guarded (matCheckTile c w x) d (matDescribe w x (memRead c.mem x.osd 64) d c)

theorem exec_matrixInstruction (l : Nat) (w : BitVec 64) (s : State) :
    exec (.matrixInstruction l w) s = eff (engineRow l w (wMajor w == 0x18) (matRow w)) s := rfl

section
variable {w : BitVec 64} {x : MatArgs} {b : Bytes} {d : Dev} {c : Core}

theorem matFeed_busy (h : (matRanges w x b).any (fun r => cmBusy c r.1 r.2) = true) : matFeed w x b d c = .stall := if_pos h

theorem matFeed_owed {p : Nat × Nat} (h : (matRanges w x b).any (fun r => cmBusy c r.1 r.2) = false)
    (ho : owedBytes c (matRanges w x b) = some p) : matFeed w x b d c = .memory p.1 p.2 d := by
  simp [matFeed, h, ho]

theorem matFeed_free (h : (matRanges w x b).any (fun r => cmBusy c r.1 r.2) = false) (ho : owedBytes c (matRanges w x b) = none) :
    matFeed w x b d c = if matWindowBusy c w b then .stall else matIssue w x b d c := by
  simp [matFeed, h, ho]

theorem matDescribe_busy (he : mEnd w = true) (h : cmBusy c x.osd 64 = true) : matDescribe w x b d c = .stall := by
  simp [matDescribe, he, h]

theorem matDescribe_owed {p : Nat} (he : mEnd w = true) (h : cmBusy c x.osd 64 = false) (hp : cmPoison c x.osd 64 = some p) :
    matDescribe w x b d c = .memory p x.osd d := by
  simp [matDescribe, he, h, hp]

theorem matDescribe_read (h : mEnd w = true → cmBusy c x.osd 64 = false ∧ cmPoison c x.osd 64 = none) :
    matDescribe w x b d c = guarded (matLateCheck d c w x b) d (matFeed w x b d c) := by
  cases he : mEnd w
  case false => simp [matDescribe, he]
  case true =>
    obtain ⟨hbusy, howed⟩ := h he
    simp [matDescribe, he, hbusy, howed]

theorem matRow_ending (h : meetsEnding c (matTile w (matOperands c w)) = true) :
    matRow w d c = if shapeOk w (matOperands c w) then .stall else .fault 0x201 0 d := if_pos h

theorem matRow_standing (h : meetsEnding c (matTile w (matOperands c w)) = false) : matRow w d c =
    guarded (matCheckTile c w (matOperands c w)) d
      (matDescribe w (matOperands c w) (memRead c.mem (matOperands c w).osd 64) d c) := by
  simp [matRow, h]

end

/-! ### The end of the output stage (05 R177, R178) -/

theorem exec_matrixEndComplete_none {l : Nat} {s : State} {c : Core} (h : coreRuns s.dev l = some c) (hj : c.outJobs = []) :
    exec (.matrixEndComplete l) s = .next s :=
  eff_idle (by simp only [h, hj])

theorem exec_matrixEndComplete_oldest {l : Nat} {s : State} {c : Core} {j : OutJob} {rest : List OutJob} (h : coreRuns s.dev l = some c)
    (hj : c.outJobs = j :: rest) : exec (.matrixEndComplete l) s =
      .next { s with dev := setCore l (osFinish l j s.dev { c with outJobs := rest }).2 (osFinish l j s.dev { c with outJobs := rest }).1 } :=
  eff_eq_dev (by simp only [h, hj])

/-- Settles O13, along the stages of `matRow`: each hypothesis of the statement decides one stage. -/
theorem matrixInstructionAccumulates : Obligations.MatrixInstructionAccumulates := by
  intro s l w c d x t b size acc others o idle ending late ranges owed window
  have ho : o = _ := exec_matrixInstruction l w s
  refine ⟨fun hmajor => ?instruction, fun hruns => ⟨exec_matrixEndComplete_none hruns, fun j rest => exec_matrixEndComplete_oldest hruns⟩⟩
  have mine : (wMajor w == 0x18) = true := by simp [hmajor]
  have standing (he : ending = false) (hk : matCheckTile c w x = none) : matRow w d c = matDescribe w x b d c :=
    (matRow_standing he).trans (guarded_pass hk)
  refine ⟨fun hat hbusy => ho.trans (eff_engineRow_busy hat mine hbusy), fun hat hidle he => ⟨fun hshape => ?_, fun hshape => ?_⟩,
    fun hat hidle he k hk => ho.trans (eff_engineRow_fault hat mine hidle ((matRow_standing he).trans (guarded_fault hk))),
    fun hat hidle he hk hend => ⟨fun hbusy => ?_, fun hbusy p hp => ?_⟩, fun hidle he hk hread => ?_⟩
  · exact ho.trans (eff_engineRow_stall hat mine hidle ((matRow_ending he).trans (if_pos hshape)))
  · exact ho.trans (eff_engineRow_fault (k := (0x201, 0)) hat mine hidle ((matRow_ending he).trans (if_neg (ne_true_of_eq_false hshape))))
  · exact ho.trans (eff_engineRow_stall hat mine hidle ((standing he hk).trans (matDescribe_busy hend hbusy)))
  · exact ho.trans (eff_engineRow_memory hat mine hidle ((standing he hk).trans (matDescribe_owed hend hbusy hp)))
  have described : matRow w d c = guarded late d (matFeed w x b d c) := (standing he hk).trans (matDescribe_read hread)
  have fed (hlate : late = none) : matRow w d c = matFeed w x b d c := described.trans (guarded_pass hlate)
  refine ⟨fun hat k hlate => ho.trans (eff_engineRow_fault hat mine hidle (described.trans (guarded_fault hlate))),
    fun hat hlate hbusy => ho.trans (eff_engineRow_stall hat mine hidle ((fed hlate).trans (matFeed_busy hbusy))),
    fun hat hlate hbusy p hp => ho.trans (eff_engineRow_memory hat mine hidle ((fed hlate).trans (matFeed_owed hbusy hp))),
    fun hat hlate hbusy hp hwin => ho.trans (eff_engineRow_stall hat mine hidle
      ((fed hlate).trans ((matFeed_free hbusy hp).trans (if_pos hwin)))), fun hruns hlate hbusy hp hwin => ?_⟩
  have issued : matRow w d c = matIssue w x b d c :=
    (fed hlate).trans ((matFeed_free hbusy hp).trans (if_neg (ne_true_of_eq_false hwin)))
  intro c1
  exact ⟨fun hend => ho.trans (eff_engineRow_ok hruns mine hidle (issued.trans (if_neg (by simp [hend]))) rfl rfl),
    fun hend => ho.trans (eff_engineRow_ok hruns mine hidle (issued.trans (if_pos hend)) rfl rfl)⟩

end Sys2Proof.Proofs
end

section
/-! Lists that stand for sets and for keyed tables: their members, and what is read from them. -/
namespace Sys2Proof.Proofs
open Sys2Proof Sys2Proof.Machine Sys2Proof.Laws

section
variable {α : Type} {l : Assoc α} {k : Nat} {v : α}

theorem mem_of_aGet (h : aGet l k = some v) : (k, v) ∈ l := by
  induction l with
  | nil => simp [aGet] at h
  | cons c t ih =>
    obtain ⟨j, u⟩ := c
    by_cases hj : j = k
    · simp_all [aGet]
    · exact List.mem_cons_of_mem _ (ih (by simpa [aGet, hj] using h))

theorem aGet_aMap (f : Nat → α → α) : aGet (aMap l f) k = (aGet l k).map (f k) := by
  induction l with
  | nil => rfl
  | cons c t ih =>
    obtain ⟨j, u⟩ := c
    by_cases hj : j = k
    · simp [aMap, aGet, hj]
    · simpa [aMap, aGet, hj] using ih

/-- The entry that is read stays the first of its key. -/
theorem aGet_filter {p : Nat × α → Bool} (h : aGet l k = some v) (hp : p (k, v) = true) : aGet (l.filter p) k = some v := by
  induction l with
  | nil => simp [aGet] at h
  | cons c t ih =>
    obtain ⟨j, u⟩ := c
    by_cases hj : j = k
    · obtain rfl : u = v := by simpa [aGet, hj] using h
      simp [hj, hp, aGet]
    · have hrest := ih (by simpa [aGet, hj] using h)
      by_cases hc : p (j, u) = true
      · simpa [hc, aGet, hj] using hrest
      · simpa [hc] using hrest

end

section
variable {α : Type}

theorem mem_insertBy {key : α → Nat} {v x : α} {l : List α} : x ∈ insertBy key v l ↔ x = v ∨ x ∈ l := by
  induction l with
  | nil => simp [insertBy]
  | cons u t ih =>
    unfold insertBy
    split
    · simp
    · simp [ih, or_left_comm]

@[simp] theorem mem_sortByKey {key : α → Nat} {x : α} {l : List α} : x ∈ sortByKey key l ↔ x ∈ l := by
  induction l with
  | nil => simp [sortByKey]
  | cons u t ih => exact mem_insertBy.trans (by rw [List.mem_cons]; exact or_congr_right ih)

@[simp] theorem mem_addNew [DecidableEq α] {l : List α} {v x : α} : x ∈ addNew l v ↔ x ∈ l ∨ x = v := by
  unfold addNew
  split
  case isTrue h => exact ⟨.inl, fun hx => hx.elim id (fun hv => hv ▸ h)⟩
  case isFalse => simp

theorem addNew_nil [DecidableEq α] (v : α) : addNew [] v = [v] := by simp [addNew]

theorem addNew_of_not_mem [DecidableEq α] {l : List α} {v : α} (h : v ∉ l) : addNew l v = l ++ [v] := if_neg h

/-- Taking out what is not there changes nothing. -/
theorem filter_ne_of_not_mem [BEq α] [LawfulBEq α] {l : List α} {v : α} (h : v ∉ l) : l.filter (· != v) = l :=
  List.filter_eq_self.mpr fun _ hx => bne_iff_ne.mpr fun hxv => h (hxv ▸ hx)

end

end Sys2Proof.Proofs
end

section
/-! Engines and their banks (05 R156, R157), lost cores, and the fills that bring holms into service (14 R478 to R481). -/
namespace Sys2Proof.Proofs
open Sys2Proof Sys2Proof.Machine Sys2Proof.Laws

/-! ### An engine that stops at once (05 R157) -/

/-- What a core of a stopped engine holds: its segments are to run again. -/
def engineStopped (c : Core) : Core := { coreDrop c with pastFall := true, redo := replayOf c }

/-- Stopping twice is stopping once: what a stopped core has to run again is what it had. -/
theorem engineStopped_twice (c : Core) : engineStopped (engineStopped c) = engineStopped c := rfl

/-- One logical core of the engine stops. -/
def stopCore (d : Dev) (l : Nat) : Dev :=
  match aGet d.cores l with
  | some c => setCore l (engineStopped c) d
  | none => d

theorem engineStops_eq (u : Nat × Nat) (d : Dev) : engineStops u d = (servedBy d u).foldl stopCore d := rfl

theorem stopCore_frame (d : Dev) (l : Nat) : ∃ x, stopCore d l = { d with cores := x } := by
  unfold stopCore
  split <;> exact ⟨_, rfl⟩

theorem engineStops_frame (u : Nat × Nat) (d : Dev) : ∃ x, engineStops u d = { d with cores := x } := by
  rw [engineStops_eq]
  refine List.foldlRecOn (motive := fun e => ∃ x, e = { d with cores := x }) _ stopCore ⟨d.cores, rfl⟩ fun e he l _ => ?_
  obtain ⟨x, rfl⟩ := he
  obtain ⟨y, hstop⟩ := stopCore_frame { d with cores := x } l
  exact ⟨y, hstop⟩

theorem aGet_stopCore (d : Dev) (l k : Nat) :
    aGet (stopCore d l).cores k = if k = l then (aGet d.cores k).map engineStopped else aGet d.cores k := by
  unfold stopCore
  by_cases hk : k = l
  · subst hk
    cases h : aGet d.cores k <;> simp [h]
  · split
    · simp [aGet_aSet_other _ _ _ _ hk, hk]
    · simp [hk]

/-- A core that stopped holds the same however often it is listed. -/
theorem aGet_foldl_stopCore {k : Nat} (ls : List Nat) {d : Dev} {c : Core} :
    (aGet d.cores k = some (engineStopped c) → aGet (ls.foldl stopCore d).cores k = some (engineStopped c)) ∧
    (k ∈ ls → aGet d.cores k = some c → aGet (ls.foldl stopCore d).cores k = some (engineStopped c)) := by
  induction ls generalizing d with
  | nil => simp
  | cons l t ih =>
    obtain ⟨ihStopped, ihRuns⟩ := ih (d := stopCore d l)
    refine ⟨fun h => ihStopped ?_, fun hk h => ?_⟩
    · rw [aGet_stopCore, h]
      split <;> simp [engineStopped_twice]
    · by_cases hkl : k = l
      · exact ihStopped (by rw [aGet_stopCore, if_pos hkl, h]; rfl)
      · exact ihRuns ((List.mem_cons.mp hk).resolve_left hkl) (by rw [aGet_stopCore, if_neg hkl, h])

theorem aGet_engineStops {u : Nat × Nat} {d : Dev} {k : Nat} {c : Core} (hk : k ∈ servedBy d u) (hc : aGet d.cores k = some c) :
    aGet (engineStops u d).cores k = some (engineStopped c) :=
  (aGet_foldl_stopCore _).2 hk hc

/-- The engine's cores stop with everything of theirs to run again, and nothing else changes. -/
theorem engineStops_stops (u : Nat × Nat) (d : Dev) :
    (engineStops u d).units = d.units ∧ (engineStops u d).items = d.items ∧ (engineStops u d).tensors = d.tensors ∧
    ∀ k ∈ servedBy d u, ∀ c, aGet d.cores k = some c → ∃ c', aGet (engineStops u d).cores k = some c' ∧
      c'.run = false ∧ c'.tiles = [] ∧ c'.plan = [] ∧ c'.redo = replayOf c ∧ c'.segCount = c.segCount := by
  obtain ⟨_, hstops⟩ := engineStops_frame u d
  refine ⟨by rw [hstops], by rw [hstops], by rw [hstops], fun k hk c hc => ?_⟩
  exact ⟨engineStopped c, aGet_engineStops hk hc, rfl, rfl, rfl, rfl, rfl⟩

/-! ### ACC_BANK_THRESHOLD -/

/-- The bank waits for the slack. -/
def bankNoted (l b : Nat) (v : Nat × Nat) (d : Dev) : Dev :=
  { d with units := { d.units with bankDue := addNew d.units.bankDue (v.1, v.2, b, l) } }

section
variable {s : State} {l b : Nat} {v : Nat × Nat} (hw : firmwareRuns s.dev = true)
include hw

section
variable (hl : l < 1152) (hb : b < 8) (hv : aGet s.dev.units.bind l = some v)
include hl hb hv

theorem exec_accBankThreshold_corrected : exec (.accBankThreshold l b false) s = .next { s with dev := bankNoted l b v s.dev } :=
  eff_eq_dev (by simp [physOf, hv, hw, numCores, hl, hb, bankNoted])

theorem exec_accBankThreshold_uncorrectable :
    exec (.accBankThreshold l b true) s = .next { s with dev := engineStops v (bankNoted l b v s.dev) } :=
  eff_eq_dev (by simp [physOf, hv, hw, numCores, hl, hb, bankNoted])

end

theorem exec_accBankThreshold_none {unc : Bool} (h : 1152 ≤ l ∨ 8 ≤ b ∨ aGet s.dev.units.bind l = none) :
    exec (.accBankThreshold l b unc) s = .next s := by
  refine eff_idle ?_
  cases hv : aGet s.dev.units.bind l with
  | none => simp [physOf, hv]
  | some v =>
    have hout : (decide (l < numCores) && decide (b < 8)) = false := by
      rcases h with h | h | h
      · simp [numCores, Nat.not_lt.mpr h]
      · simp [Nat.not_lt.mpr h]
      · simp [hv] at h
    simp only [physOf, hv, hw, Bool.true_and, hout, Bool.false_eq_true, if_false]

end

/-! ### Banks at the slack (05 R156) -/

theorem mem_servedBy {d : Dev} {l : Nat} {v : Nat × Nat} (h : aGet d.units.bind l = some v) : l ∈ servedBy d v :=
  List.mem_map.mpr ⟨(l, v), List.mem_filter.mpr ⟨mem_of_aGet h, by simp⟩, rfl⟩

theorem bankPhys_bankMove (u : Nat × Nat) (b : Nat) (d : Dev) : bankPhys (bankMove u b d) u b = bankHolm d u := by
  have hold : (d.units.banks.filter (fun x => !((x.1, x.2.1) == u && x.2.2.1 == b))).find? (fun x => (x.1, x.2.1) == u && x.2.2.1 == b)
      = none := List.find?_eq_none.mpr fun x hx => by simpa only [Bool.not_eq_true', Bool.not_eq_true] using (List.mem_filter.mp hx).2
  simp only [bankPhys, bankMove, List.find?_append, hold, Option.none_or]
  simp

/-- A retirement enters the repair log, and a record tells of it. -/
theorem logRec_repairLog_frame (r : RasRec) (kind cause physical code : Nat) (sector : BitVec 64) (d : Dev) : ∃ x y z v w,
    logRec r (repairLog kind cause physical code sector d) = { d with ras := x, pf0 := y, pf1 := z, out := v, flash := w } := by
  obtain ⟨_, _, _, _, hrec⟩ := logRec_frame r (repairLog kind cause physical code sector d)
  obtain ⟨_, _, _, _, _, hlog⟩ := repairLog_frame kind cause physical code sector d
  rw [hrec, hlog]
  exact ⟨_, _, _, _, _, rfl⟩

section
variable {u : Nat × Nat} {b l : Nat} {d : Dev} (hs : servedBy d u ≠ [])
include hs

theorem bankFails_lost (hused : d.units.banksUsed.contains u = true) : bankFails u b l d = coreLost u.1 u.2 0 d := by
  simp only [bankFails, List.isEmpty_iff, hs, hused, if_false, if_true]

/-- The engine's holm takes the bank over, and nothing else of the engine changes. -/
theorem bankFails_moved (hused : d.units.banksUsed.contains u = false) :
    let e := bankFails u b l d
    e.units.banksUsed = d.units.banksUsed ++ [u] ∧ bankPhys e u b = bankHolm d u ∧ e.units.bind = d.units.bind ∧
      e.units.bankDue = d.units.bankDue ∧ e.tensors = d.tensors ∧ e.cores = d.cores ∧ e.items = d.items := by
  have hmoved : ∃ x y z v w, bankFails u b l d = { bankMove u b d with ras := x, pf0 := y, pf1 := z, out := v, flash := w } := by
    simp only [bankFails, List.isEmpty_iff, hs, hused, Bool.false_eq_true, if_false]
    exact logRec_repairLog_frame ..
  obtain ⟨_, _, _, _, _, hmoved⟩ := hmoved
  rw [hmoved]
  exact ⟨addNew_of_not_mem (by simpa using hused), bankPhys_bankMove u b d, rfl, rfl, rfl, rfl, rfl⟩

end

/-- The slack after one bank was noted takes that bank alone. -/
theorem banksAtSlack_bankNoted {l b : Nat} {v : Nat × Nat} {d : Dev} (h : d.units.bankDue = []) :
    banksAtSlack (bankNoted l b v d) = bankFails v b l { d with units := { d.units with bankDue := [] } } := by
  simp [banksAtSlack, bankNoted, h, addNew_nil]

end Sys2Proof.Proofs
end

section
/-! Lost cores and the fills that bring holms into service (14 R478 to R481, 01 R19 to R22). -/
namespace Sys2Proof.Proofs
open Sys2Proof Sys2Proof.Machine Sys2Proof.Laws

/-! ### Retired physical cores -/

theorem retirePhys_frame (cl p cause code : Nat) (d : Dev) : ∃ x y z v w, retirePhys cl p cause code d = { d with
    units := { d.units with retired := addNew d.units.retired (cl, p), holms := d.units.holms.filter (fun h => h != (cl, p)) }
    ras := x, pf0 := y, pf1 := z, out := v, flash := w } :=
  repairLog_frame _ _ _ _ _ _

@[simp] theorem retirePhys_units (cl p cause code : Nat) (d : Dev) : (retirePhys cl p cause code d).units =
    { d.units with retired := addNew d.units.retired (cl, p), holms := d.units.holms.filter (fun h => h != (cl, p)) } :=
  repairLog_units ..

/-! ### Holms and the cores that serve -/

theorem mem_freeHolms {d : Dev} {cl q : Nat} :
    q ∈ freeHolms d cl ↔ (cl, q) ∈ d.units.holms ∧ ∀ f ∈ d.units.fills, f.cl = cl → f.p ≠ q := by
  simp only [freeHolms, mem_sortByKey, List.mem_map, List.mem_filter, Bool.and_eq_true, beq_iff_eq, Bool.not_eq_true',
    List.any_eq_false, not_and]
  refine ⟨fun ⟨h, ⟨hmem, hcl, hfills⟩, hq⟩ => ?_, fun ⟨hmem, hfills⟩ => ⟨(cl, q), ⟨hmem, rfl, hfills⟩, rfl⟩⟩
  subst hcl hq
  exact ⟨hmem, hfills⟩

theorem freeHolms_congr {d e : Dev} {cl : Nat} (hh : e.units.holms = d.units.holms) (hf : e.units.fills = d.units.fills) :
    freeHolms e cl = freeHolms d cl := by simp only [freeHolms, hh, hf]

/-- Without fills no holm is promised. -/
theorem sparesOf_noFills {d : Dev} {cl : Nat} (h : d.units.fills = []) : sparesOf d cl = (freeHolms d cl).length := by simp [sparesOf, h]

theorem richestCluster_none {d : Dev} (h : ∀ c, sparesOf d c = 0) : richestCluster d = none :=
  List.foldlRecOn (motive := (· = none)) _ _ rfl fun _ hb c _ => by rw [hb]; exact if_neg (by simp [h c])

/-- A choice that always keeps its candidate or takes the next one picks a listed one. -/
theorem foldl_choice_mem {α : Type} {g : Option α → α → Option α} (h : ∀ v u, g (some v) u = some u ∨ g (some v) u = some v)
    (v : α) (us : List α) : ∃ w ∈ v :: us, us.foldl g (some v) = some w := by
  induction us generalizing v with
  | nil => exact ⟨v, List.mem_cons_self, rfl⟩
  | cons u t ih =>
    rcases h v u with hu | hv
    · obtain ⟨w, hw, heq⟩ := ih u
      exact ⟨w, List.mem_cons_of_mem _ hw, by rwa [List.foldl_cons, hu]⟩
    · obtain ⟨w, hw, heq⟩ := ih v
      exact ⟨w, by simp only [List.mem_cons] at hw ⊢; tauto, by rwa [List.foldl_cons, hv]⟩

/-- Of two cores the one that serves fewer numbers, the lower on a tie. -/
def lessLoaded (d : Dev) (b : Option (Nat × Nat)) (u : Nat × Nat) : Option (Nat × Nat) :=
  match b with
  | none => some u
  | some v =>
    let nu := (servedBy d u).length
    let nv := (servedBy d v).length
    if nu < nv ∨ (nu = nv ∧ corePhys u.1 u.2 < corePhys v.1 v.2) then some u else b

theorem leastLoaded_eq (d : Dev) (cls : List Nat) :
    leastLoaded d cls = ((d.units.bind.map (·.2)).eraseDups.filter (fun u => cls.contains u.1)).foldl (lessLoaded d) none := rfl

theorem lessLoaded_some (d : Dev) (v u : Nat × Nat) : lessLoaded d (some v) u = some u ∨ lessLoaded d (some v) u = some v := by
  simp only [lessLoaded]
  split <;> simp

/-- The least loaded core of some clusters serves already; there is none only where no core of them serves. -/
theorem leastLoaded_cases (d : Dev) (cls : List Nat) :
    (leastLoaded d cls = none ∧ ∀ v ∈ d.units.bind.map (·.2), v.1 ∉ cls) ∨
      ∃ w ∈ d.units.bind.map (·.2), leastLoaded d cls = some w := by
  rw [leastLoaded_eq]
  have hmem {v : Nat × Nat} : v ∈ (d.units.bind.map (·.2)).eraseDups.filter (fun u => cls.contains u.1) ↔
      v ∈ d.units.bind.map (·.2) ∧ v.1 ∈ cls := by simp
  cases hus : (d.units.bind.map (·.2)).eraseDups.filter (fun u => cls.contains u.1) with
  | nil => exact .inl ⟨rfl, fun v hv hcl => absurd (hus ▸ hmem.mpr ⟨hv, hcl⟩) List.not_mem_nil⟩
  | cons v t =>
    obtain ⟨w, hw, heq⟩ := foldl_choice_mem (lessLoaded_some d) v t
    exact .inr ⟨w, (hmem.mp (hus ▸ hw)).1, heq⟩

/-! ### What a lost core leaves behind -/

/-- The items lose the problems that the core held, and nothing else changes. -/
theorem problemsLost_frame (l : Nat) (d : Dev) : ∃ x, problemsLost l d = { d with items := x } := by
  unfold problemsLost
  refine List.foldlRecOn (motive := fun e : Dev => ∃ x, e = { d with items := x }) _ _ ⟨d.items, rfl⟩ fun e he _ _ => ?_
  obtain ⟨x, rfl⟩ := he
  exact ⟨_, rfl⟩

theorem problemsLost_none {l : Nat} {d : Dev} (h : ((aGet d.cores l).getD {}).heldBy = []) : problemsLost l d = d := by
  unfold problemsLost
  cases hc : aGet d.cores l with
  | none => rfl
  | some c =>
    have hheld : c.heldBy = [] := by simpa [hc] using h
    simp [hheld]

theorem failReplays_frame (l : Nat) (rs : List (Nat × Nat × Nat)) (d : Dev) : ∃ x, failReplays l rs d = { d with items := x } := by
  unfold failReplays
  refine List.foldlRecOn (motive := fun e : Dev => ∃ x, e = { d with items := x }) _ _ ⟨d.items, rfl⟩ fun e he _ _ => ?_
  obtain ⟨x, rfl⟩ := he
  exact ⟨_, rfl⟩

/-! ### Who takes a number over (14 R479) -/

section
variable {l cl p : Nat} {rs : List (Nat × Nat × Nat)} {d : Dev}

/-- A holm of the cluster begins its fill. -/
theorem adoptCore_holm {h : Nat} {t : List Nat} (hf : d.units.fills = []) (hh : freeHolms d cl = h :: t) : adoptCore l cl p rs d =
    logUnit 2 0x0F04 1 l (corePhys cl p) { d with units := { d.units with fills := [{ l := l, p := h, cl := cl, replay := rs }] } } := by
  have hspare : 0 < sparesOf d cl := by simp [sparesOf_noFills hf, hh]
  simp [adoptCore, hspare, hf, hh]

/-- Without a holm anywhere a core that serves already takes the number as well. -/
theorem adoptCore_shared {v : Nat × Nat} (hf : d.units.fills = []) (hh : ∀ c, freeHolms d c = []) (hv : v ∈ d.units.bind.map (·.2))
    (hcl : v.1 < 6) : ∃ w ∈ d.units.bind.map (·.2),
      (adoptCore l cl p rs d).units = { d.units with bind := aSet d.units.bind l w, shared := addNew d.units.shared l } := by
  have hspare : ∀ c, sparesOf d c = 0 := fun c => by simp [sparesOf_noFills hf, hh c]
  obtain ⟨x, hfail⟩ := failReplays_frame l rs
    (logUnit 3 0x0F06 1 l (corePhys cl p) { d with cores := aMod d.cores l (fun c => { c with heldBy := [] }) })
  simp only [adoptCore, hspare, Nat.lt_irrefl, if_false, richestCluster_none hspare, hfail]
  obtain ⟨hown, -⟩ | ⟨w, hw, hown⟩ := leastLoaded_cases d [clusterOf l]
  · obtain ⟨-, hnone⟩ | ⟨w, hw, hany⟩ := leastLoaded_cases d (List.range 6)
    · exact absurd (List.mem_range.mpr hcl) (hnone v hv)
    · exact ⟨w, hw, by simp [hown, hany]⟩
  · exact ⟨w, hw, by simp [hown]⟩

/-- Whoever takes a number over, no physical core is retired and no holm is used up. -/
theorem adoptCore_keeps (l cl p : Nat) (rs : List (Nat × Nat × Nat)) (d : Dev) :
    (adoptCore l cl p rs d).units.retired = d.units.retired ∧ (adoptCore l cl p rs d).units.holms = d.units.holms := by
  obtain ⟨x, hfail⟩ := failReplays_frame l rs
    (logUnit 3 0x0F06 1 l (corePhys cl p) { d with cores := aMod d.cores l (fun c => { c with heldBy := [] }) })
  simp only [adoptCore, hfail]
  split
  · simp
  · split
    · simp
    · split <;> simp

end

/-! ### CORE_LOST -/

/-- The physical core is retired and serves no number any more; a fill of it waits for another holm. -/
def coreUnbound (cl p cause : Nat) (d : Dev) : Dev :=
  let e := retirePhys cl p 2 cause d
  { e with units := { e.units with
      bind := e.units.bind.filter (fun b => b.2 != (cl, p))
      fills := e.units.fills.map (fun f => if f.cl = cl ∧ f.p = p then { f with p := fillWaits } else f) } }

/-- The number's core stops, its problems and its segments go to whoever takes the number over. -/
def coreMoved (cl p l : Nat) (d : Dev) : Dev :=
  let c := (aGet d.cores l).getD {}
  adoptCore l cl p (replayOf c) (problemsLost l (setCore l (coreDrop c) d))

section
variable {cl p cause l : Nat} {d : Dev}

theorem coreLost_retired (h : d.units.retired.contains (cl, p) = true) : coreLost cl p cause d = d := if_pos h

theorem coreLost_serving (hr : d.units.retired.contains (cl, p) = false) (hs : servedBy d (cl, p) = [l]) (hf : d.units.fills = []) :
    coreLost cl p cause d = coreMoved cl p l (coreUnbound cl p cause d) := by
  simp only [coreLost, hr, hs, hf, Bool.false_eq_true, if_false, List.filter_nil, List.isEmpty_nil, if_true, List.foldl_cons, List.foldl_nil]
  rfl

/-- Where no fill runs, the core is taken out of every list of cores in use. -/
theorem coreUnbound_units (hf : d.units.fills = []) : (coreUnbound cl p cause d).units = { d.units with
    retired := addNew d.units.retired (cl, p), holms := d.units.holms.filter (fun h => h != (cl, p))
    bind := d.units.bind.filter (fun b => b.2 != (cl, p)), fills := [] } := by
  simp [coreUnbound, hf]

@[simp] theorem coreUnbound_cores : (coreUnbound cl p cause d).cores = d.cores := repairLog_cores ..
@[simp] theorem coreUnbound_items : (coreUnbound cl p cause d).items = d.items := repairLog_items ..
@[simp] theorem coreUnbound_tensors : (coreUnbound cl p cause d).tensors = d.tensors := repairLog_tensors ..

/-- The number's core stops; its items lose the problems that it held, where it held some. -/
theorem coreMoved_eq (cl p l : Nat) (d : Dev) : ∃ its,
    coreMoved cl p l d = adoptCore l cl p (replayOf ((aGet d.cores l).getD {}))
      { setCore l (coreDrop ((aGet d.cores l).getD {})) d with items := its } ∧
    (((aGet d.cores l).getD {}).heldBy = [] → its = d.items) := by
  obtain ⟨its, hlost⟩ := problemsLost_frame l (setCore l (coreDrop ((aGet d.cores l).getD {})) d)
  refine ⟨its, by rw [coreMoved, hlost], fun hheld => ?_⟩
  have hnone := problemsLost_none (l := l) (d := setCore l (coreDrop ((aGet d.cores l).getD {})) d)
    (by simpa [coreDrop, coreStop] using hheld)
  exact congrArg Dev.items (hlost.symm.trans hnone)

/-- A holm of the cluster takes the number over: its fill begins. -/
theorem coreLost_toHolm {h : Nat} {t : List Nat} (hr : d.units.retired.contains (cl, p) = false) (hs : servedBy d (cl, p) = [l])
    (hn : (cl, p) ∉ d.units.holms) (hf : d.units.fills = []) (hh : freeHolms d cl = h :: t) :
    let c := (aGet d.cores l).getD {}
    let e := coreLost cl p cause d
    e.units = { d.units with
      retired := addNew d.units.retired (cl, p), bind := d.units.bind.filter (fun b => b.2 != (cl, p))
      fills := [{ l := l, p := h, cl := cl, replay := replayOf c }] } ∧
    e.cores = aSet d.cores l (coreDrop c) ∧ e.tensors = d.tensors ∧ (c.heldBy = [] → e.items = d.items) := by
  intro c e
  have he : e = _ := coreLost_serving hr hs hf
  have hunits := coreUnbound_units (cl := cl) (p := p) (cause := cause) hf
  have hcores := coreUnbound_cores (cl := cl) (p := p) (cause := cause) (d := d)
  have hits := coreUnbound_items (cl := cl) (p := p) (cause := cause) (d := d)
  have htens := coreUnbound_tensors (cl := cl) (p := p) (cause := cause) (d := d)
  rw [filter_ne_of_not_mem hn] at hunits
  generalize coreUnbound cl p cause d = u at he hunits hcores hits htens
  obtain ⟨its, hmoved, hitems⟩ := coreMoved_eq cl p l u
  rw [hcores] at hmoved hitems
  have hfills : u.units.fills = [] := by rw [hunits]
  have hfree : freeHolms u cl = h :: t := (freeHolms_congr (by rw [hunits]) (hfills.trans hf.symm)).trans hh
  have hadopt := adoptCore_holm (l := l) (p := p) (rs := replayOf c) (d := { setCore l (coreDrop c) u with items := its }) hfills hfree
  rw [he, hmoved, hadopt]
  refine ⟨?_, ?_, ?_, fun hheld => ?_⟩
  · simp [hunits]
  · simp [hcores, c]
  · simp [htens]
  · simpa [hits] using hitems hheld

/-- No holm is left: a core that serves already takes the number as well. -/
theorem coreLost_toShared {v : Nat × Nat} (hr : d.units.retired.contains (cl, p) = false) (hs : servedBy d (cl, p) = [l])
    (hf : d.units.fills = []) (hh : ∀ c, freeHolms d c = []) (hv : v ∈ d.units.bind.map (·.2)) (hne : v ≠ (cl, p)) (hcl : v.1 < 6) :
    ∃ w ∈ d.units.bind.map (·.2), w ≠ (cl, p) ∧ aGet (coreLost cl p cause d).units.bind l = some w ∧
      l ∈ (coreLost cl p cause d).units.shared := by
  rw [coreLost_serving hr hs hf]
  have hunits := coreUnbound_units (cl := cl) (p := p) (cause := cause) hf
  generalize coreUnbound cl p cause d = u at hunits
  obtain ⟨its, hmoved, -⟩ := coreMoved_eq cl p l u
  rw [hmoved]
  have hfills : u.units.fills = [] := by rw [hunits]
  have hserves {w : Nat × Nat} : w ∈ u.units.bind.map (·.2) ↔ w ∈ d.units.bind.map (·.2) ∧ w ≠ (cl, p) := by simp [hunits]
  have hnoHolm (c : Nat) : freeHolms u c = [] := by
    refine List.eq_nil_iff_forall_not_mem.mpr fun q hq => ?_
    obtain ⟨hholm, -⟩ := mem_freeHolms.mp hq
    rw [hunits] at hholm
    have hq' : q ∈ freeHolms d c := mem_freeHolms.mpr ⟨(List.mem_filter.mp hholm).1, by simp [hf]⟩
    simp [hh c] at hq'
  obtain ⟨w, hw, hadopt⟩ := adoptCore_shared (l := l) (cl := cl) (p := p) (rs := replayOf ((aGet u.cores l).getD {}))
    (d := { setCore l (coreDrop ((aGet u.cores l).getD {})) u with items := its }) hfills hnoHolm (hserves.mpr ⟨hv, hne⟩) hcl
  obtain ⟨hbound, hother⟩ := hserves.mp hw
  rw [hadopt]
  exact ⟨w, hbound, hother, aGet_aSet_same .., mem_addNew.mpr (.inr rfl)⟩

end

/-! ### CORE_FILL_COMPLETE (14 R480, R481) -/

theorem exec_coreLost {s : State} {cl p cause : Nat} (hw : firmwareRuns s.dev = true) (hcl : cl < 6) (hp : p < 208) :
    exec (.coreLost cl p cause) s = .next { s with dev := coreLost cl p cause s.dev } :=
  eff_eq_dev (by simp [hw, hcl, physPerCluster, hp])

theorem nextFill_none {cl : Nat} {d : Dev} (h : d.units.fills = []) : nextFill cl d = d := by simp [nextFill, h]

/-- Another fill that begins retires no core and uses up no holm. -/
theorem nextFill_keeps (cl : Nat) (d : Dev) :
    (nextFill cl d).units.retired = d.units.retired ∧ (nextFill cl d).units.holms = d.units.holms := by
  unfold nextFill
  split
  · split
    · exact ⟨rfl, rfl⟩
    · exact adoptCore_keeps ..
  · exact ⟨rfl, rfl⟩

/-- The core that was filled serves the number; the segments that fit are planned at once and the others come first in the next tide. -/
def fillDone (f : Fill) (left : Nat) (d : Dev) : Dev :=
  let now := if d.tide.phase = .work then fitSegs d left f.replay else []
  let c := (aGet d.cores f.l).getD {}
  setCore f.l { c with plan := now ++ c.plan, redo := f.replay.drop now.length ++ c.redo } { d with units := { d.units with
    bind := aSet d.units.bind f.l (f.cl, f.p), fills := [], holms := d.units.holms.filter (fun h => h != (f.cl, f.p)) } }

/-- The holm that failed is retired, and the fill waits for another. -/
def fillFailed (f : Fill) (d : Dev) : Dev :=
  retirePhys f.cl f.p 2 0 { d with units := { d.units with fills := [{ f with p := fillWaits }] } }

section
variable {f : Fill} {left : Nat} {d : Dev}

theorem fillDone_serves : (f.cl, f.p) ∉ (fillDone f left d).units.holms ∧
    let now := if d.tide.phase = .work then fitSegs d left f.replay else []
    let c := (aGet d.cores f.l).getD {}
    ((aGet (fillDone f left d).cores f.l).getD {}).plan = now ++ c.plan ∧
      ((aGet (fillDone f left d).cores f.l).getD {}).redo = f.replay.drop now.length ++ c.redo := by
  refine ⟨fun hmem => bne_iff_ne.mp (List.mem_filter.mp hmem).2 rfl, ?_⟩
  have hcore : aGet (fillDone f left d).cores f.l = some _ := aGet_aSet_same ..
  rw [hcore]
  exact ⟨rfl, rfl⟩

theorem nextFill_fillFailed (cl : Nat) :
    (f.cl, f.p) ∈ (nextFill cl (fillFailed f d)).units.retired ∧ (f.cl, f.p) ∉ (nextFill cl (fillFailed f d)).units.holms := by
  obtain ⟨hretired, hholms⟩ := nextFill_keeps cl (fillFailed f d)
  rw [hretired, hholms, fillFailed, retirePhys_units]
  exact ⟨mem_addNew.mpr (.inr rfl), fun hmem => bne_iff_ne.mp (List.mem_filter.mp hmem).2 rfl⟩

end

section
variable {s : State} {left : Nat}

theorem exec_coreFillComplete_none {cl : Nat} {ok : Bool} (hf : s.dev.units.fills = []) : exec (.coreFillComplete cl ok left) s = .next s :=
  eff_idle (by simp [hf])

variable {f : Fill} (hw : firmwareRuns s.dev = true) (hf : s.dev.units.fills = [f]) (hp : f.p ≠ fillWaits)
include hw hf hp

theorem exec_coreFillComplete_done : exec (.coreFillComplete f.cl true left) s = .next { s with dev := fillDone f left s.dev } := by
  have hfind : s.dev.units.fills.find? (fun g => g.cl == f.cl && g.p != fillWaits) = some f := by simp [hf, hp]
  refine eff_eq_dev ?_
  simp only [hfind, hw, Bool.not_true, Bool.false_eq_true, if_false]
  rw [nextFill_none (by simp [hf])]
  simp [fillDone, hf]

theorem exec_coreFillComplete_failed :
    exec (.coreFillComplete f.cl false left) s = .next { s with dev := nextFill f.cl (fillFailed f s.dev) } := by
  have hfind : s.dev.units.fills.find? (fun g => g.cl == f.cl && g.p != fillWaits) = some f := by simp [hf, hp]
  refine eff_eq_dev ?_
  simp only [hfind, hw, Bool.not_true, Bool.not_false, Bool.false_eq_true, if_false, if_true]
  simp [fillFailed, hf]

end

end Sys2Proof.Proofs
end

section
/-! Control cores (14 R485), reduction units (12 R429), idle holms that are tested (14 R484), and tests that end (14 R486 to R488). -/
namespace Sys2Proof.Proofs
open Sys2Proof Sys2Proof.Machine Sys2Proof.Laws

/-! ### Control cores -/

/-- A physical control core leaves service for good. -/
def ccDropped (ccp : Nat) (d : Dev) : Dev :=
  repairLog 2 2 ccp 0 0 { d with units := { d.units with
    ccRetired := addNew d.units.ccRetired ccp, ccHolms := d.units.ccHolms.filter (· != ccp) } }

@[simp] theorem ccDropped_units (ccp : Nat) (d : Dev) : (ccDropped ccp d).units =
    { d.units with ccRetired := addNew d.units.ccRetired ccp, ccHolms := d.units.ccHolms.filter (· != ccp) } := repairLog_units ..

@[simp] theorem ccDropped_items (ccp : Nat) (d : Dev) : (ccDropped ccp d).items = d.items := repairLog_items ..

@[simp] theorem announceFailed_units (cls : Nat) (d : Dev) : (announceFailed cls d).units = d.units := by
  obtain ⟨_, _, h⟩ := announceFailed_frame cls d
  rw [h]

@[simp] theorem announceFailed_items (cls : Nat) (d : Dev) : (announceFailed cls d).items = d.items := by
  obtain ⟨_, _, h⟩ := announceFailed_frame cls d
  rw [h]

section
variable {ccp i : Nat} {d : Dev}

theorem controlCoreLost_unknown (hh : ccp ∉ d.units.ccHolms) (hi : ccp ∉ d.units.ccIn) : controlCoreLost ccp d = d := by
  have hnone : d.units.ccIn.findIdx? (· == ccp) = none :=
    List.findIdx?_eq_none_iff.mpr fun x hx => beq_eq_false_iff_ne.mpr fun hxc => hi (hxc ▸ hx)
  simp [controlCoreLost, hh, hnone]

theorem controlCoreLost_holm (hh : ccp ∈ d.units.ccHolms) : controlCoreLost ccp d = ccDropped ccp d := if_pos (by simpa using hh)

section
variable (hh : ccp ∉ d.units.ccHolms) (hi : d.units.ccIn.findIdx? (· == ccp) = some i)
include hh hi

/-- The first holm takes the number over. -/
theorem controlCoreLost_replaced {h : Nat} {t : List Nat} (hs : sortByKey id d.units.ccHolms = h :: t) : controlCoreLost ccp d =
    logUnit 2 0x0F07 2 i ccp (ccDropped ccp { d with units := { d.units with
      ccIn := setAt d.units.ccIn i h, ccHolms := d.units.ccHolms.filter (· != h) } }) := by
  simp [controlCoreLost, hh, hi, hs, ccDropped]

/-- Without a holm the number is left unserved, and the module fails where fewer than eight are left. -/
theorem controlCoreLost_bare (hs : sortByKey id d.units.ccHolms = []) :
    (controlCoreLost ccp d).units = (ccDropped ccp { d with units := { d.units with ccIn := setAt d.units.ccIn i 16 } }).units ∧
      (controlCoreLost ccp d).items = d.items := by
  simp only [controlCoreLost, List.contains_eq_mem, hh, decide_false, Bool.false_eq_true, if_false, hi, hs, List.head?_nil]
  split <;> simp

/-- The number of a control core that served goes to the first holm, or to none. -/
theorem controlCoreLost_serving : ccp ∈ (controlCoreLost ccp d).units.ccRetired ∧ (controlCoreLost ccp d).items = d.items ∧
    (∀ h t, sortByKey id d.units.ccHolms = h :: t →
      (controlCoreLost ccp d).units.ccIn = setAt d.units.ccIn i h ∧ h ∉ (controlCoreLost ccp d).units.ccHolms) ∧
    (d.units.ccHolms = [] → (controlCoreLost ccp d).units.ccIn = setAt d.units.ccIn i 16) := by
  cases hs : sortByKey id d.units.ccHolms with
  | nil =>
    obtain ⟨hunits, hitems⟩ := controlCoreLost_bare hh hi hs
    exact ⟨by simp [hunits], hitems, fun _ _ => nofun, fun _ => by simp [hunits]⟩
  | cons q t =>
    have hholm : d.units.ccHolms ≠ [] := fun hnil => by simp [hnil, sortByKey] at hs
    rw [controlCoreLost_replaced hh hi hs]
    refine ⟨by simp, by simp, fun h t' hcons => ?_, fun hnil => absurd hnil hholm⟩
    obtain ⟨rfl, -⟩ := List.cons.inj hcons
    simp

end

end

theorem exec_controlCoreLost {s : State} {ccp : Nat} (hw : firmwareRuns s.dev = true) :
    exec (.controlCoreLost ccp) s = .next { s with dev := controlCoreLost ccp s.dev } :=
  eff_eq_dev (by simp [hw])

/-! ### Reduction units -/

section
variable {ld p k : Nat} {d : Dev}

theorem ruFails_down (h : d.units.ruDown.contains (ld, p) = true) : ruFails ld p d = d := if_pos h

/-- A unit that is down, with its entry in the repair log. -/
def ruDropped (ld p : Nat) (d : Dev) : Dev :=
  repairLog 4 2 (ld * 256 + p) 0 0 { d with units := { d.units with ruDown := d.units.ruDown ++ [(ld, p)] } }

/-- A unit that serves a logical number is no holm. -/
theorem not_mem_ruHolms (hk : (List.range 32).find? (fun k => ruPhys d ld k == p) = some k) : p ∉ ruHolms d ld := by
  intro hp
  have hfree := (List.mem_filter.mp hp).2
  have hserves : (List.range 32).any (fun k => ruPhys d ld k == p) = true :=
    List.any_eq_true.mpr ⟨k, List.mem_of_find?_eq_some hk, List.find?_some (p := fun k => ruPhys d ld k == p) hk⟩
  simp [hserves] at hfree

/-- The first holm takes the number over. -/
theorem ruFails_replaced {q : Nat} {t : List Nat} (hd : d.units.ruDown.contains (ld, p) = false)
    (hk : (List.range 32).find? (fun k => ruPhys d ld k == p) = some k) (hq : ruHolms d ld = q :: t) :
    ∃ r, ruFails ld p d = logLater r (ruMove ld k q (ruDropped ld p d)) := by
  have hne : q ≠ p := fun h => not_mem_ruHolms hk (h ▸ hq ▸ List.mem_cons_self)
  simp only [ruFails, hd, Bool.false_eq_true, if_false, hk, hq, List.head?_cons, hne]
  exact ⟨_, rfl⟩

/-- An idle unit, or one that no holm can stand in for, is down and nothing moves. -/
theorem ruFails_unreplaced (hd : d.units.ruDown.contains (ld, p) = false)
    (h : (List.range 32).find? (fun k => ruPhys d ld k == p) = none ∨ ruHolms d ld = []) :
    ∃ x, ruFails ld p d = { ruDropped ld p d with ras := x } := by
  rcases hk : (List.range 32).find? (fun k => ruPhys d ld k == p) with _ | k
  · simp only [ruFails, hd, Bool.false_eq_true, if_false, hk]
    exact ⟨_, rfl⟩
  · have hnone : ruHolms d ld = [] := h.resolve_left (by simp [hk])
    simp only [ruFails, hd, Bool.false_eq_true, if_false, hk, hnone, List.head?_nil]
    exact ⟨_, rfl⟩

theorem ruPhys_ruMove (ld k q : Nat) (d : Dev) : ruPhys (ruMove ld k q d) ld k = q := by
  have hold : (d.units.ruMap.filter (fun x => !(x.1 == ld && x.2.1 == k))).find? (fun x => x.1 == ld && x.2.1 == k) = none :=
    List.find?_eq_none.mpr fun x hx => by simpa only [Bool.not_eq_true', Bool.not_eq_true] using (List.mem_filter.mp hx).2
  simp only [ruPhys, ruMove, List.find?_append, hold, Option.none_or]
  simp

/-- A unit that fails is down, and its number goes to the first holm where one is left. -/
theorem ruFails_fails (hd : d.units.ruDown.contains (ld, p) = false) : (ruFails ld p d).units.ruDown = d.units.ruDown ++ [(ld, p)] ∧
    (ruFails ld p d).items = d.items ∧ (ruFails ld p d).tensors = d.tensors ∧
    (∀ k q t, (List.range 32).find? (fun k => ruPhys d ld k == p) = some k → ruHolms d ld = q :: t → ruPhys (ruFails ld p d) ld k = q) ∧
    (ruHolms d ld = [] → (ruFails ld p d).units.ruMap = d.units.ruMap) := by
  by_cases hstays : (List.range 32).find? (fun k => ruPhys d ld k == p) = none ∨ ruHolms d ld = []
  · obtain ⟨_, hfails⟩ := ruFails_unreplaced hd hstays
    rw [hfails]
    refine ⟨by simp [ruDropped], by simp [ruDropped], by simp [ruDropped], fun k q t hk hq => ?_, fun _ => by simp [ruDropped]⟩
    rcases hstays with hnone | hnone
    · exact absurd (hnone.symm.trans hk) nofun
    · exact absurd (hnone.symm.trans hq) nofun
  · obtain ⟨hserves, hholm⟩ := not_or.mp hstays
    obtain ⟨k, hk⟩ := Option.ne_none_iff_exists'.mp hserves
    obtain ⟨q, t, hq⟩ := List.exists_cons_of_ne_nil hholm
    obtain ⟨r, hfails⟩ := ruFails_replaced hd hk hq
    rw [hfails]
    refine ⟨by simp [logLater, ruMove, ruDropped], by simp [logLater, ruMove, ruDropped], by simp [logLater, ruMove, ruDropped],
      fun k' q' t' hk' hq' => ?_, fun hnone => absurd hnone hholm⟩
    obtain rfl : k = k' := Option.some.inj (hk.symm.trans hk')
    obtain ⟨rfl, -⟩ := List.cons.inj (hq.symm.trans hq')
    exact ruPhys_ruMove ld k q (ruDropped ld p d)

end

theorem exec_reductionUnitFailure {s : State} {ld ru : Nat} (hw : firmwareRuns s.dev = true) (hl : ld < 2) (hr : ru < 36) :
    exec (.reductionUnitFailure ld ru) s = .next { s with dev := ruFails ld ru s.dev } :=
  eff_eq_dev (by simp [hw, hl, hr])

/-! ### Idle holms -/

section
variable {s : State} (hw : firmwareRuns s.dev = true)
include hw

theorem exec_holmBistPeriod_passed : exec (.holmBistPeriod [] []) s = .next s := eff_idle (by simp [hw])

theorem exec_holmBistPeriod_core {v : Nat × Nat} (h : s.dev.units.holms.contains v = true) : exec (.holmBistPeriod [v] []) s =
    .next { s with dev := logUnit 3 0x0F08 1 0xFFFFFFFF (corePhys v.1 v.2) (retirePhys v.1 v.2 2 0 s.dev) } :=
  eff_eq_dev (by simp only [hw, Bool.not_true, Bool.false_eq_true, if_false, List.filter_cons, h, if_true, List.filter_nil, List.foldl_cons,
    List.foldl_nil])

theorem exec_holmBistPeriod_control {p : Nat} (h : s.dev.units.ccHolms.contains p = true) : exec (.holmBistPeriod [] [p]) s =
    .next { s with dev := logUnit 3 0x0F08 2 0xFFFFFFFF p (controlCoreLost p s.dev) } :=
  eff_eq_dev (by simp only [hw, Bool.not_true, Bool.false_eq_true, if_false, List.filter_cons, h, if_true, List.filter_nil, List.foldl_cons,
    List.foldl_nil])

end

/-! ### UNIT_TEST_COMPLETE -/

/-- The ticket is done: it holds the result, and the unit leaves the list of units under test where it is named there. -/
def ticketDone (n : Nat) (t : Ticket) (r : TestResult) (d : Dev) : Dev :=
  { d with units := { d.units with tickets := d.units.tickets.map (fun x =>
      if x.id = n then { x with state := if testPassed r || (t.stack.isSome && t.retire) then 1 else 2, res := r } else x) } }

/-- What a test comes to for the unit, the stack or the die of its ticket. -/
def testEnds (t : Ticket) (ok : Bool) (d : Dev) : Dev :=
  match t.stack, t.md with
  | some k, _ =>
    if t.retire then stackReturned k d
    else if ok then onStack k (fun x => { x with passed := true }) d
    else logUnit 3 0x305 7 k k (onStack k (fun x => { x with lost := true, testing := false, state := 3 }) d)
  | none, some _ => d
  | none, none =>
    let e := unitEnds t.kind t.phys.toNat ok 2 d
    if ok then e else logUnit 3 0x0F03 t.kind 0xFFFFFFFF t.phys.toNat e

/-- The ticket's stack still has regions to leave it or to come back to it. -/
def ticketHeld (d : Dev) (t : Ticket) : Bool :=
  t.stack.any (fun k => if t.retire then comingBack d k else d.mem.regions.any (fun x => x.2.onStacks.contains k))

section
variable {s : State} {n : Nat} {r : TestResult} {t : Ticket}

theorem exec_unitTestComplete_unknown (ht : s.dev.units.tickets.find? (fun t => t.id == n && t.state == 0) = none) :
    exec (.unitTestComplete n r) s = .next s :=
  eff_idle (by simp only [ht])

theorem exec_unitTestComplete_early (ht : s.dev.units.tickets.find? (fun t => t.id == n && t.state == 0) = some t)
    (h : ticketServing s.dev t = true ∨ ticketHeld s.dev t = true) : exec (.unitTestComplete n r) s = .next s := by
  refine eff_idle ?_
  simp only [ht]
  have hwait : (!firmwareRuns s.dev || ticketServing s.dev t || ticketHeld s.dev t) = true := by simp [or_assoc, h]
  exact if_pos hwait

theorem exec_unitTestComplete_ends (hw : firmwareRuns s.dev = true)
    (ht : s.dev.units.tickets.find? (fun t => t.id == n && t.state == 0) = some t) (hs : ticketServing s.dev t = false)
    (hh : ticketHeld s.dev t = false) : exec (.unitTestComplete n r) s =
      .next { s with dev := logUnit 15 0x0F09 t.kind 0xFFFFFFFF t.phys.toNat (testEnds t (testPassed r) (ticketDone n t r s.dev)) } := by
  refine eff_eq_dev ?_
  simp only [ht]
  have hgo : ¬ (!firmwareRuns s.dev || ticketServing s.dev t || ticketHeld s.dev t) = true := by simp [hw, hs, hh]
  exact if_neg hgo

end

/-- The end of a unit's test leaves the tickets alone. -/
@[simp] theorem unitEnds_tickets (kind phys : Nat) (ok : Bool) (cause : Nat) (d : Dev) :
    (unitEnds kind phys ok cause d).units.tickets = d.units.tickets := by
  unfold unitEnds
  split <;> cases ok <;> simp

/-- A core that passed is a holm; one that failed is retired. -/
theorem unitEnds_core (phys : Nat) (ok : Bool) (d : Dev) :
    (ok = true → (phys / 65536, phys % 65536) ∈ (unitEnds 1 phys ok 2 d).units.holms) ∧
    (ok = false → (phys / 65536, phys % 65536) ∈ (unitEnds 1 phys ok 2 d).units.retired) := by
  cases ok <;> simp [unitEnds]

section
variable {t : Ticket} {ok : Bool} {d : Dev}

@[simp] theorem testEnds_tickets (hs : t.stack = none) : (testEnds t ok d).units.tickets = d.units.tickets := by
  unfold testEnds
  rw [hs]
  cases t.md
  · cases ok <;> simp
  · rfl

/-- A test of a unit that is neither a stack nor a die ends as the unit's kind says. -/
theorem testEnds_unit (hs : t.stack = none) (hm : t.md = none) :
    (testEnds t ok d).units = (unitEnds t.kind t.phys.toNat ok 2 d).units := by
  simp only [testEnds, hs, hm]
  cases ok <;> simp

theorem testEnds_stack {k : Nat} (hs : t.stack = some k) (hr : t.retire = false) (hk : k < d.mem.hbm.length) :
    (testEnds t ok d).tensors = d.tensors ∧
      (if ok then (stack (testEnds t ok d) k).passed = true
       else (stack (testEnds t ok d) k).lost = true ∧ (stack (testEnds t ok d) k).testing = false) := by
  cases ok
  · have hmem : (testEnds t false d).mem = (onStack k (fun x => { x with lost := true, testing := false, state := 3 }) d).mem := by
      simp [testEnds, hs, hr]
    have hstack : stack (testEnds t false d) k = { stack d k with lost := true, testing := false, state := 3 } := by
      rw [stack, hmem]
      exact stack_onStack_same hk
    exact ⟨by simp [testEnds, hs, hr], by simp [hstack]⟩
  · have heq : testEnds t true d = onStack k (fun x => { x with passed := true }) d := by simp [testEnds, hs, hr]
    exact ⟨by simp [heq], by simp [heq, stack_onStack_same hk]⟩

/-- A stack that comes back is in service again (14 R487). -/
theorem testEnds_returned {k : Nat} (hs : t.stack = some k) (hr : t.retire = true) (hk : k < d.mem.hbm.length) :
    (testEnds t ok d).tensors = d.tensors ∧ (stack (testEnds t ok d) k).testing = false ∧ (stack (testEnds t ok d) k).state = 0 ∧
      k ∉ (testEnds t ok d).mem.returning := by
  have heq : testEnds t ok d = stackReturned k d := by simp [testEnds, hs, hr]
  have hstack : stack (stackReturned k d) k = { stack d k with testing := false, passed := false, state := 0 } :=
    stack_onStack_same (d := { d with mem := { d.mem with returning := d.mem.returning.filter (· != k) } }) hk
  rw [heq, hstack]
  simp [stackReturned]

end

section
variable {s : State} {n : Nat} {r : TestResult} {t : Ticket} (hw : firmwareRuns s.dev = true)
  (ht : s.dev.units.tickets.find? (fun t => t.id == n && t.state == 0) = some t)
include hw ht

/-- A unit's test, or that of a die, that ends. -/
theorem exec_unitTestComplete_unit (hs : ticketServing s.dev t = false) (hst : t.stack = none) :
    ∃ d', exec (.unitTestComplete n r) s = .next { s with dev := d' } ∧
      d'.units.tickets = s.dev.units.tickets.map (fun x =>
        if x.id = n then { x with state := if testPassed r then 1 else 2, res := r } else x) ∧
      (t.md = none → t.kind = 1 → testPassed r = true → (t.phys.toNat / 65536, t.phys.toNat % 65536) ∈ d'.units.holms) ∧
      (t.md = none → t.kind = 1 → testPassed r = false → (t.phys.toNat / 65536, t.phys.toNat % 65536) ∈ d'.units.retired) := by
  refine ⟨_, exec_unitTestComplete_ends hw ht hs (by simp [ticketHeld, hst]), ?_, fun hmd hkind hok => ?_, fun hmd hkind hok => ?_⟩
  · rw [logUnit_units, testEnds_tickets hst]
    simp [ticketDone, hst]
  · rw [logUnit_units, testEnds_unit hst hmd, hkind]
    exact (unitEnds_core _ _ _).1 hok
  · rw [logUnit_units, testEnds_unit hst hmd, hkind]
    exact (unitEnds_core _ _ _).2 hok

variable {k : Nat} (hst : t.stack = some k) (hk : k < s.dev.mem.hbm.length)
include hst hk

/-- A stack's test that ends, once every region has left the stack (14 R487). -/
theorem exec_unitTestComplete_stack (hr : t.retire = false) (hoff : ∀ x ∈ s.dev.mem.regions, k ∉ x.2.onStacks) :
    ∃ d', exec (.unitTestComplete n r) s = .next { s with dev := d' } ∧ d'.tensors = s.dev.tensors ∧
      (if testPassed r then (stack d' k).passed = true else (stack d' k).lost = true ∧ (stack d' k).testing = false) := by
  obtain ⟨htensors, hstack⟩ := testEnds_stack (ok := testPassed r) (d := ticketDone n t r s.dev) hst hr hk
  refine ⟨_, exec_unitTestComplete_ends hw ht (by simp [ticketServing, hst]) (by simpa [ticketHeld, hst, hr] using hoff),
    (logUnit_tensors ..).trans htensors, ?_⟩
  simpa only [stack, logUnit_mem] using hstack

/-- A stack's return that ends, once no region waits to come back. -/
theorem exec_unitTestComplete_returned (hr : t.retire = true) (hback : comingBack s.dev k = false) :
    ∃ d', exec (.unitTestComplete n r) s = .next { s with dev := d' } ∧ d'.tensors = s.dev.tensors ∧
      (stack d' k).testing = false ∧ (stack d' k).state = 0 ∧ k ∉ d'.mem.returning := by
  obtain ⟨htensors, hstack⟩ := testEnds_returned (ok := testPassed r) (d := ticketDone n t r s.dev) hst hr hk
  refine ⟨_, exec_unitTestComplete_ends hw ht (by simp [ticketServing, hst]) (by simpa [ticketHeld, hst, hr] using hback),
    (logUnit_tensors ..).trans htensors, ?_⟩
  simpa only [stack, logUnit_mem] using hstack

end

end Sys2Proof.Proofs
end

section
/-! Lost stacks and re-striping (10 R335 to R338), and re-salting (10 R325 to R327). -/
namespace Sys2Proof.Proofs
open Sys2Proof Sys2Proof.Machine Sys2Proof.Laws

/-! ### A stack is lost -/

/-- The device as the loss is noticed: the stack answers no more, and migrations onto it stop. -/
def stackGone (k : Nat) (d : Dev) : Dev :=
  stopMoves k (onStack k (fun x => { x with lost := true, state := 1, testing := false, passed := false }) d)

def regionsOn (k : Nat) (d : Dev) : Assoc Region := d.mem.regions.filter (fun r => r.2.onStacks.contains k)

/-- Protected regions of the stack that another stack is lost to as well. -/
def regionsDouble (k : Nat) (d : Dev) : Assoc Region :=
  (regionsOn k d).filter (fun r => r.2.parity && r.2.onStacks.any (fun j => j != k && (stack d j).lost))

def regionsBare (k : Nat) (d : Dev) : Assoc Region := (regionsOn k d).filter (fun r => !r.2.parity)

/-- Regions of the stack that are to be re-striped. -/
def regionsWaiting (k : Nat) (d : Dev) : List Nat :=
  ((regionsOn k d).filter (fun r => r.2.parity && !(regionsDouble k d).any (fun x => x.1 == r.1))).map (·.1)

/-- The regions that cannot be rebuilt are LOST. -/
def regionsAreLost (rs : Assoc Region) (d : Dev) : Dev := rs.foldl (fun d r => regionLost r.1 d) d

theorem regionsAreLost_frame (rs : Assoc Region) (d : Dev) : ∃ x y z w,
    regionsAreLost rs d = { d with tensors := x, factors := y, warms := z, lagoon := w } := by
  refine List.foldlRecOn (motive := fun e : Dev => ∃ x y z w, e = { d with tensors := x, factors := y, warms := z, lagoon := w }) _ _
    ⟨d.tensors, d.factors, d.warms, d.lagoon, rfl⟩ fun e he _ _ => ?_
  obtain ⟨_, _, _, _, rfl⟩ := he
  exact ⟨_, _, _, _, rfl⟩

/-- A loss of a region keeps where a tensor lies, and no tensor is found again. -/
theorem aGet_regionsAreLost {i : Nat} {t : Tensor} (rs : Assoc Region) {d : Dev} (h : aGet d.tensors i = some t) :
    ∃ t', aGet (regionsAreLost rs d).tensors i = some t' ∧ (∀ r, tensorIn t' r = tensorIn t r) ∧
      ((t.lost = true ∨ ∃ x ∈ rs, tensorIn t x.1 = true) → t'.lost = true) := by
  induction rs generalizing d t with
  | nil => exact ⟨t, h, fun _ => rfl, by simp⟩
  | cons x rs ih =>
    have hstep : aGet (regionLost x.1 d).tensors i = some (if tensorIn t x.1 then { t with lost := true } else t) := by
      simp [regionLost, aGet_aMap, h]
    obtain ⟨t', hget, hin, hlost⟩ := ih hstep
    have hplace (r : Nat) : tensorIn (if tensorIn t x.1 then { t with lost := true } else t) r = tensorIn t r := by
      split <;> rfl
    refine ⟨t', hget, fun r => (hin r).trans (hplace r), fun hor => hlost ?_⟩
    rcases hor with hl | ⟨y, hy, hyt⟩
    · exact .inl (by split <;> simp [hl])
    · rcases List.mem_cons.mp hy with rfl | hy
      · exact .inl (by simp [hyt])
      · exact .inr ⟨y, hy, (hplace y.1).trans hyt⟩

/-- The device before the loss is recorded and announced. -/
def stackGoneLists (k : Nat) (d : Dev) : Dev :=
  let g := stackGone k d
  let e := regionsAreLost (regionsDouble k g ++ regionsBare k g) g
  let e := { e with mem := { e.mem with restripes := restripeOrder e (e.mem.restripes ++ regionsWaiting k g).eraseDups } }
  onStack k (fun x => { x with state := if (regionsWaiting k g).isEmpty && (regionsDouble k g).isEmpty then 3 else 1 }) e

/-- Records and announcements of a loss leave memory and tensors alone. -/
theorem stackLost_lists {k : Nat} {d : Dev} (hk : k < 24) (hl : (stack d k).lost = false) :
    (stackLost k d).mem = (stackGoneLists k d).mem ∧ (stackLost k d).tensors = (stackGoneLists k d).tensors := by
  have hgo : ¬ (24 ≤ k ∨ (stack d k).lost = true) := by simp [hl, hk]
  have hlogged (sev : Nat) (grave : Bool) (e : Dev) :
      (if grave then announceFailed 0x305 (logUnit sev 0x305 7 k k e) else logUnit sev 0x305 7 k k e).mem = e.mem ∧
      (if grave then announceFailed 0x305 (logUnit sev 0x305 7 k k e) else logUnit sev 0x305 7 k k e).tensors = e.tensors := by
    obtain ⟨_, _, hann⟩ := announceFailed_frame 0x305 (logUnit sev 0x305 7 k k e)
    cases grave
    · simp
    · simp [hann]
  rw [stackLost, if_neg hgo]
  exact hlogged _ _ _

section
variable {k : Nat} {d : Dev}

theorem stackLost_again (h : 24 ≤ k ∨ (stack d k).lost = true) : stackLost k d = d := if_pos h

/-- A migration that stops leaves a region's stacks and parity. -/
theorem mem_regions_stackGone {x : Nat × Region} (hx : x ∈ d.mem.regions) :
    ∃ y ∈ (stackGone k d).mem.regions, y.1 = x.1 ∧ y.2.onStacks = x.2.onStacks ∧ y.2.parity = x.2.parity := by
  refine ⟨_, List.mem_map.mpr ⟨x, hx, rfl⟩, rfl, ?_⟩
  dsimp only
  split <;> exact ⟨rfl, rfl⟩

theorem mem_regions_of_stackGone {y : Nat × Region} (hy : y ∈ (stackGone k d).mem.regions) :
    ∃ x ∈ d.mem.regions, y.1 = x.1 ∧ y.2.onStacks = x.2.onStacks ∧ y.2.parity = x.2.parity := by
  obtain ⟨x, hx, rfl⟩ := List.mem_map.mp hy
  refine ⟨x, hx, rfl, ?_⟩
  dsimp only
  split <;> exact ⟨rfl, rfl⟩

theorem stackGone_other {j : Nat} (h : j ≠ k) : stack (stackGone k d) j = stack d j :=
  stack_onStack_other (f := fun x => { x with lost := true, state := 1, testing := false, passed := false }) h

theorem stackGone_lost (h : k < d.mem.hbm.length) : (stack (stackGone k d) k).lost = true := by
  have hstack : stack (stackGone k d) k = { stack d k with lost := true, state := 1, testing := false, passed := false } := stack_onStack_same h
  rw [hstack]

theorem length_modAt {α : Type} (l : List α) (i : Nat) (f : α → α) : (modAt l i f).length = l.length := by
  unfold modAt
  split <;> simp

theorem stackLost_lost (hk : k < 24) (hl : (stack d k).lost = false) (hlen : k < d.mem.hbm.length) :
    (stack (stackLost k d) k).lost = true := by
  obtain ⟨hmem, -⟩ := stackLost_lists hk hl
  obtain ⟨_, _, _, _, hregions⟩ := regionsAreLost_frame (regionsDouble k (stackGone k d) ++ regionsBare k (stackGone k d)) (stackGone k d)
  have hlen' : k < (stackGone k d).mem.hbm.length := by
    show k < (modAt d.mem.hbm k _).length
    rwa [length_modAt]
  have hstack : stack (stackLost k d) k = stack (stackGoneLists k d) k := by rw [stack, stack, hmem]
  rw [hstack]
  refine (congrArg Stack.lost (stack_onStack_same (k := k) ?_)).trans ?_
  · rwa [hregions]
  · rw [hregions]
    exact stackGone_lost hlen

/-- Every region on the stack is protected and whole but for it. -/
def AllRestripable (k : Nat) (d : Dev) : Prop :=
  ∀ x ∈ d.mem.regions, k ∈ x.2.onStacks → x.2.parity = true ∧ ∀ j ∈ x.2.onStacks, j ≠ k → (stack d j).lost = false

theorem mem_regionsOn {y : Nat × Region} : y ∈ regionsOn k d ↔ y ∈ d.mem.regions ∧ k ∈ y.2.onStacks := by simp [regionsOn]

theorem regionsOn_restripable (h : AllRestripable k d) {y : Nat × Region} (hy : y ∈ regionsOn k (stackGone k d)) :
    y.2.parity = true ∧ ∀ j ∈ y.2.onStacks, j ≠ k → (stack (stackGone k d) j).lost = false := by
  obtain ⟨hmem, hon⟩ := mem_regionsOn.mp hy
  obtain ⟨x, hx, -, hstacks, hparity⟩ := mem_regions_of_stackGone hmem
  obtain ⟨hp, hothers⟩ := h x hx (hstacks ▸ hon)
  exact ⟨hparity.trans hp, fun j hj hne => by rw [stackGone_other hne]; exact hothers j (hstacks ▸ hj) hne⟩

theorem regionsDouble_nil (h : AllRestripable k d) : regionsDouble k (stackGone k d) = [] := by
  refine List.filter_eq_nil_iff.mpr fun y hy => ?_
  obtain ⟨-, hothers⟩ := regionsOn_restripable h hy
  simp only [Bool.and_eq_true, List.any_eq_true, bne_iff_ne, not_and, not_exists]
  intro _ j hj hne
  simp [hothers j hj hne]

theorem regionsBare_nil (h : AllRestripable k d) : regionsBare k (stackGone k d) = [] :=
  List.filter_eq_nil_iff.mpr fun y hy => by simp [(regionsOn_restripable h hy).1]

/-- Then no tensor is lost. -/
theorem stackLost_tensors (hk : k < 24) (hl : (stack d k).lost = false) (h : AllRestripable k d) : (stackLost k d).tensors = d.tensors := by
  obtain ⟨-, htensors⟩ := stackLost_lists hk hl
  rw [htensors, stackGoneLists, regionsDouble_nil h, regionsBare_nil h]
  rfl

/-- Then each of its regions waits for its re-striping. -/
theorem stackLost_restripes (hk : k < 24) (hl : (stack d k).lost = false) (h : AllRestripable k d) {x : Nat × Region}
    (hx : x ∈ d.mem.regions) (hon : k ∈ x.2.onStacks) : x.1 ∈ (stackLost k d).mem.restripes := by
  obtain ⟨y, hy, hkey, hstacks, -⟩ := mem_regions_stackGone (k := k) hx
  have hyon : y ∈ regionsOn k (stackGone k d) := mem_regionsOn.mpr ⟨hy, hstacks ▸ hon⟩
  have hwaits : x.1 ∈ regionsWaiting k (stackGone k d) := by
    refine List.mem_map.mpr ⟨y, List.mem_filter.mpr ⟨hyon, ?_⟩, hkey⟩
    simp [regionsDouble_nil h, (regionsOn_restripable h hyon).1]
  obtain ⟨hmem, -⟩ := stackLost_lists hk hl
  rw [hmem]
  exact mem_sortByKey.mpr (List.mem_eraseDups.mpr (List.mem_append.mpr (.inr hwaits)))

/-- What lies in an unprotected region of the stack is LOST. -/
theorem stackLost_bare (hk : k < 24) (hl : (stack d k).lost = false) {x : Nat × Region} {i : Nat} {t : Tensor} (hx : x ∈ d.mem.regions)
    (hon : k ∈ x.2.onStacks) (hp : x.2.parity = false) (ht : aGet d.tensors i = some t) (hin : tensorIn t x.1 = true) :
    (aGet (stackLost k d).tensors i).map (·.lost) = some true := by
  obtain ⟨y, hy, hkey, hstacks, hparity⟩ := mem_regions_stackGone (k := k) hx
  have hbare : y ∈ regionsBare k (stackGone k d) :=
    List.mem_filter.mpr ⟨mem_regionsOn.mpr ⟨hy, hstacks ▸ hon⟩, by simp [hparity.trans hp]⟩
  have htens : aGet (stackGone k d).tensors i = some t := ht
  obtain ⟨t', hget, -, hlost⟩ :=
    aGet_regionsAreLost (regionsDouble k (stackGone k d) ++ regionsBare k (stackGone k d)) htens
  obtain ⟨-, htensors⟩ := stackLost_lists hk hl
  have hget' : aGet (stackLost k d).tensors i = some t' := by rw [htensors]; exact hget
  rw [hget', Option.map_some, hlost (.inr ⟨y, List.mem_append_right _ hbare, hkey ▸ hin⟩)]

end

theorem exec_stackLost {s : State} {k : Nat} (hw : firmwareRuns s.dev = true) : exec (.stackLost k) s = .next { s with dev := stackLost k s.dev } :=
  eff_eq_dev (by simp [hw])

/-! ### RESTRIPE_COMPLETE -/

/-- Regions leave the stack, and no protected one lies on it any more. -/
def RestripeOver (d : Dev) (k : Nat) : Prop :=
  k < 24 ∧ leaving d k = true ∧ ∀ x ∈ d.mem.regions, k ∈ x.2.onStacks → x.2.parity = false

theorem restripeOver_iff {d : Dev} {k : Nat} (hw : firmwareRuns d = true) : RestripeOver d k ↔
    (firmwareRuns d && decide (k < 24) && leaving d k && !d.mem.regions.any (fun r => r.2.onStacks.contains k && r.2.parity)) = true := by
  simp [RestripeOver, hw, and_assoc]

theorem exec_restripeComplete_over {s : State} {k : Nat} (hw : firmwareRuns s.dev = true) (h : RestripeOver s.dev k) :
    exec (.restripeComplete k) s = .next { s with dev := onStack k (fun x => { x with state := 3 }) s.dev } :=
  eff_eq_dev (if_pos ((restripeOver_iff hw).mp h))

theorem exec_restripeComplete_early {s : State} {k : Nat} (hw : firmwareRuns s.dev = true) (h : ¬ RestripeOver s.dev k) :
    exec (.restripeComplete k) s = .next s :=
  eff_idle (if_neg (mt (restripeOver_iff hw).mpr h))

/-! ### RESALT_START -/

/-- The region is hot long enough, and nothing keeps its re-salt from starting. -/
def ResaltDue (d : Dev) (r : Nat) (x : Region) : Prop :=
  d.mem.ctl.active.getLsbD 0 = true ∧ hotRunCfg d ≤ x.hotRun ∧ x.holdUntil ≤ d.tide.count ∧ x.moving = none ∧
    r ∉ d.mem.resaltQueue ∧ mdTesting d = false

section
variable {d : Dev} {r : Nat} {x : Region}

theorem region_eq (h : aGet d.mem.regions r = some x) : region d r = x := by simp [region, h]

theorem ResaltDue.not_queued (h : ResaltDue d r x) : r ∉ d.mem.resaltQueue := by
  obtain ⟨-, -, -, -, hqueue, -⟩ := h
  exact hqueue

section
variable (hx : aGet d.mem.regions r = some x)
include hx

theorem resaltDue_iff : ResaltDue d r x ↔ ¬ (d.mem.ctl.active.getLsbD 0 = false ∨ (region d r).hotRun < hotRunCfg d ∨
    d.tide.count < (region d r).holdUntil ∨ (region d r).moving.isSome = true ∨ d.mem.resaltQueue.contains r = true ∨ mdTesting d = true) := by
  simp [ResaltDue, region_eq hx]

theorem resaltHot_notDue (h : ¬ ResaltDue d r x) : resaltHot r d = d := if_pos (not_not.mp (mt (resaltDue_iff hx).mpr h))

theorem resaltHot_due (h : ResaltDue d r x) (hn : d.mem.resalts.length < 2) : resaltHot r d = beginResalt r d :=
  (if_neg ((resaltDue_iff hx).mp h)).trans (if_pos hn)

/-- Two re-salts run: the region waits, and nothing else changes. -/
theorem resaltHot_waits (h : ResaltDue d r x) (hn : 2 ≤ d.mem.resalts.length) : ∃ y p q o, resaltHot r d =
    { d with mem := { d.mem with resaltQueue := d.mem.resaltQueue ++ [r] }, ras := y, pf0 := p, pf1 := q, out := o } := by
  have hqueue : resaltHot r d = _ := (if_neg ((resaltDue_iff hx).mp h)).trans (if_neg (Nat.not_lt.mpr hn))
  rw [hqueue]
  dsimp only
  split
  · exact logRec_frame _ _
  · exact ⟨_, _, _, _, rfl⟩

/-- The granules are there: the migration begins under a new salt. -/
theorem resaltHot_begins (h : ResaltDue d r x) (hn : d.mem.resalts.length < 2) (hg : ∀ j ∈ x.onStacks, freeGranules d j ≠ 0) :
    (resaltHot r d).mem.resalts = d.mem.resalts ++ [r] ∧
      (region (resaltHot r d) r).moving = some (x.onStacks, x.onStacks.map (pickGranule d), Config.salt d.free) ∧
      (region (resaltHot r d) r).onStacks = x.onStacks ∧ (resaltHot r d).tensors = d.tensors := by
  have hroom : ¬ (region d r).onStacks.any (fun j => freeGranules d j == 0) = true := by simpa [region_eq hx] using hg
  rw [resaltHot_due hx h hn, beginResalt, if_neg hroom, region_eq hx]
  refine ⟨rfl, ?_, ?_, rfl⟩ <;> simp [region, onRegion, aGet_aMod, hx]

/-- Without them it waits. -/
theorem resaltHot_noGranule (h : ResaltDue d r x) (hn : d.mem.resalts.length < 2) (hg : ∃ j ∈ x.onStacks, freeGranules d j = 0) :
    resaltHot r d = { d with mem := { d.mem with resaltQueue := d.mem.resaltQueue ++ [r] } } := by
  have hroom : (region d r).onStacks.any (fun j => freeGranules d j == 0) = true := by simpa [region_eq hx] using hg
  rw [resaltHot_due hx h hn, beginResalt, if_pos hroom, addNew_of_not_mem h.not_queued]

end

end

theorem exec_resaltStart_none {s : State} {r : Nat} (h : aGet s.dev.mem.regions r = none) : exec (.resaltStart r) s = .next s :=
  eff_idle (by simp [h])

theorem exec_resaltStart {s : State} {r : Nat} {x : Region} (hw : firmwareRuns s.dev = true) (h : aGet s.dev.mem.regions r = some x) :
    exec (.resaltStart r) s = .next { s with dev := resaltHot r s.dev } :=
  eff_eq_dev (by simp [hw, h])

/-! ### A region that is hot again soon after its re-salt (10 R327) -/

/-- The region is hot again too soon, and not yet left alone. -/
def holdsHot (d : Dev) (x : Region) : Bool :=
  regionHot d x && decide (x.holdUntil ≤ d.tide.count) && x.lastResalt.any (fun t => decide (d.tide.count ≤ t + 256))

theorem holdHot_frame (r : Nat) (d : Dev) : ∃ rs y p q o,
    holdHot r d = { d with mem := { d.mem with regions := rs }, ras := y, pf0 := p, pf1 := q, out := o } ∧
    rs = if holdsHot d (region d r) then aMod d.mem.regions r (fun x => { x with holdUntil := d.tide.count + 4096 }) else d.mem.regions := by
  cases hhold : holdsHot d (region d r)
  · exact ⟨_, _, _, _, _, if_neg (ne_true_of_eq_false hhold), rfl⟩
  · obtain ⟨y, p, q, o, hlog⟩ := logRec_frame
      { sev := 15, cls := BitVec.ofNat 16 0x309, detail := BitVec.ofNat 128 r
        object := (((regionTensors d r).head?).map (tensorHandle d)).getD 0 }
      (onRegion r (fun x => { x with holdUntil := d.tide.count + 4096 }) d)
    exact ⟨_, y, p, q, o, (if_pos hhold).trans hlog, rfl⟩

/-- The step for one region, as far as another look at the counts can see: the counts, the settings and the time stay. -/
theorem aGet_holdHot {r k : Nat} {d : Dev} {x : Region} (h : aGet d.mem.regions r = some x) :
    (holdHot k d).mem.ctl = d.mem.ctl ∧ (holdHot k d).mem.hotCfg = d.mem.hotCfg ∧ (holdHot k d).tide = d.tide ∧
    aGet (holdHot k d).mem.regions r = some (if r = k ∧ holdsHot d x then { x with holdUntil := d.tide.count + 4096 } else x) := by
  obtain ⟨rs, _, _, _, _, heq, hrs⟩ := holdHot_frame k d
  rw [heq]
  refine ⟨rfl, rfl, rfl, ?_⟩
  show aGet rs r = _
  by_cases hk : r = k
  · subst hk
    rw [hrs, region_eq h]
    cases hhold : holdsHot d x <;> simp [aGet_aMod, h]
  · rw [hrs]
    split <;> simp [aGet_aMod, h, hk]

/-- A region is held once, however often it is looked at: while it is held no second hold applies. -/
theorem aGet_foldl_holdHot {r : Nat} (ks : List Nat) {d : Dev} {x : Region} (h : aGet d.mem.regions r = some x) :
    (d.tide.count < x.holdUntil → aGet (ks.foldl (fun d r => holdHot r d) d).mem.regions r = some x) ∧
    (r ∈ ks → holdsHot d x = true →
      aGet (ks.foldl (fun d r => holdHot r d) d).mem.regions r = some { x with holdUntil := d.tide.count + 4096 }) := by
  induction ks generalizing d x with
  | nil => exact ⟨fun _ => h, by simp⟩
  | cons k t ih =>
    obtain ⟨-, hcfg, htide, hget⟩ := aGet_holdHot (k := k) h
    refine ⟨fun hheld => ?_, fun hr hhold => ?_⟩
    · have hkept : holdsHot d x = false := by simp [holdsHot, Nat.not_le.mpr hheld]
      rw [hkept] at hget
      exact (ih (by simpa using hget)).1 (by rwa [htide])
    · by_cases hk : r = k
      · rw [if_pos ⟨hk, hhold⟩] at hget
        exact (ih hget).1 (by rw [htide]; exact Nat.lt_add_of_pos_right (by decide))
      · rw [if_neg (fun hc => hk hc.1)] at hget
        have hhold' : holdsHot (holdHot k d) x = true := by
          rw [← hhold]
          simp only [holdsHot, regionHot, hcfg, htide]
        have hrest := (ih hget).2 ((List.mem_cons.mp hr).resolve_left hk) hhold'
        rwa [htide] at hrest

theorem markHot_holds {d : Dev} {r : Nat} {x : Region} (h : aGet d.mem.regions r = some x) (hon : d.mem.ctl.active.getLsbD 0 = true)
    (hhold : holdsHot d x = true) : (region (markHot d) r).holdUntil = d.tide.count + 4096 := by
  have hkey : r ∈ d.mem.regions.map (·.1) := List.mem_map.mpr ⟨(r, x), mem_of_aGet h, rfl⟩
  have hheld := (aGet_foldl_holdHot (d.mem.regions.map (·.1)) h).2 hkey hhold
  simp only [markHot, hon, if_true, region, aGet_aMap, hheld, Option.map_some, Option.getD_some]

/-! ### RESALT_COMPLETE -/

section
variable {s : State} {r : Nat} (hw : firmwareRuns s.dev = true)

theorem exec_resaltComplete_none (h : r ∉ s.dev.mem.resalts) : exec (.resaltComplete r) s = .next s :=
  eff_idle (by simp [h])

/-- The region under its new salt. -/
def resaltedRegion (x : Region) (m : List Nat × List Nat × BitVec 64) (t : Nat) : Region :=
  { x with onStacks := m.1, granules := m.2.1, salt := m.2.2, moving := none, moved := 0, hotRun := 0, lastResalt := some t }

/-- The region's rows all lie under the new salt, and the re-salt is over. -/
def resaltDone (r : Nat) (m : List Nat × List Nat × BitVec 64) (d : Dev) : Dev :=
  { d with mem := { d.mem with
    regions := aMod d.mem.regions r (fun x => resaltedRegion x m d.tide.count), resalts := d.mem.resalts.filter (· != r) } }

theorem logRegion_frame (sev cls r : Nat) (d : Dev) : ∃ y p q o, logRegion sev cls r d = { d with ras := y, pf0 := p, pf1 := q, out := o } := by
  unfold logRegion
  split
  · exact logRec_frame _ _
  · refine List.foldlRecOn (motive := fun e : Dev => ∃ y p q o, e = { d with ras := y, pf0 := p, pf1 := q, out := o }) _ _
      ⟨_, _, _, _, rfl⟩ fun e he i _ => ?_
    obtain ⟨_, _, _, _, rfl⟩ := he
    exact logRec_frame _ _

variable {x : Region} {m : List Nat × List Nat × BitVec 64} (hr : r ∈ s.dev.mem.resalts) (hx : aGet s.dev.mem.regions r = some x)
  (hm : x.moving = some m)
include hw hr hx hm

theorem exec_resaltComplete_early (h : x.moved < 8192) : exec (.resaltComplete r) s = .next s :=
  eff_idle (by simp [hw, hr, region_eq hx, hm, rowsPerRegion, h])

theorem exec_resaltComplete_done (h : 8192 ≤ x.moved) :
    exec (.resaltComplete r) s = .next { s with dev := sweepRegions (logRegion 15 0x307 r (resaltDone r m s.dev)) } :=
  eff_eq_dev (by simp [hw, hr, region_eq hx, hm, rowsPerRegion, Nat.not_lt.mpr h, onRegion, resaltDone, resaltedRegion])

end

/-- A region in which something lies, or one of the lagoon, keeps its granules. -/
theorem aGet_sweepRegions {d : Dev} {r : Nat} {x : Region} (h : aGet d.mem.regions r = some x) (hu : usedRows d r ≠ [] ∨ x.lagoon = true) :
    aGet (sweepRegions d).mem.regions r = some x :=
  aGet_filter h (by
    rcases hu with hu | hl
    · simp [hu]
    · simp [hl])

/-- The re-salt is over, and a region that is still in use lies under its new salt. -/
theorem resaltDone_swept {d e : Dev} {r : Nat} {x : Region} {m : List Nat × List Nat × BitVec 64} (hx : aGet d.mem.regions r = some x)
    (he : e = sweepRegions (logRegion 15 0x307 r (resaltDone r m d))) : r ∉ e.mem.resalts ∧ e.tensors = d.tensors ∧
      (usedRows d r ≠ [] ∨ x.lagoon = true → aGet e.mem.regions r = some (resaltedRegion x m d.tide.count)) := by
  obtain ⟨_, _, _, _, hlogged⟩ := logRegion_frame 15 0x307 r (resaltDone r m d)
  rw [he, hlogged]
  refine ⟨by simp [sweepRegions, resaltDone], rfl, fun hused => ?_⟩
  exact aGet_sweepRegions (x := resaltedRegion x m d.tide.count) (by simp [resaltDone, aGet_aMod, hx]) hused

end Sys2Proof.Proofs
end

section
/-! Scrubs and retirements of granules (10 R339 to R344): what reading a sector can change. -/
namespace Sys2Proof.Proofs
open Sys2Proof Sys2Proof.Machine Sys2Proof.Laws

/-! ### What reading sectors leaves alone -/

/-- What every access to a sector keeps: items and cores, the lists of scrubs and of retirements, and the retired granules. -/
structure SectorsRead (d e : Dev) : Prop where
  items : e.items = d.items
  cores : e.cores = d.cores
  scrubs : e.mem.scrubs = d.mem.scrubs
  retires : e.mem.retires = d.mem.retires
  stackCount : e.mem.hbm.length = d.mem.hbm.length
  retired : ∀ k, (stack e k).retired = (stack d k).retired

namespace SectorsRead

theorem refl (d : Dev) : SectorsRead d d := ⟨rfl, rfl, rfl, rfl, rfl, fun _ => rfl⟩

theorem trans {d e f : Dev} (h : SectorsRead d e) (h' : SectorsRead e f) : SectorsRead d f :=
  ⟨h'.items.trans h.items, h'.cores.trans h.cores, h'.scrubs.trans h.scrubs, h'.retires.trans h.retires, h'.stackCount.trans h.stackCount,
    fun k => (h'.retired k).trans (h.retired k)⟩

theorem foldl {α : Type} {f : Dev → α → Dev} (hf : ∀ d a, SectorsRead d (f d a)) (l : List α) (d : Dev) : SectorsRead d (l.foldl f d) :=
  List.foldlRecOn (motive := SectorsRead d) l f (refl d) fun e he a _ => he.trans (hf e a)

section
variable {d e : Dev} (h : SectorsRead d e)
include h

/-- A change of what none of them looks at. -/
theorem other {f : Dev} (hi : f.items = e.items) (hc : f.cores = e.cores) (hs : f.mem.scrubs = e.mem.scrubs)
    (hr : f.mem.retires = e.mem.retires) (hb : f.mem.hbm = e.mem.hbm) : SectorsRead d f :=
  h.trans ⟨hi, hc, hs, hr, congrArg List.length hb, fun k => by simp only [stack, hb]⟩

/-- A change of a stack's counters. -/
theorem onStack (k : Nat) {f : Stack → Stack} (hf : ∀ x, (f x).retired = x.retired) : SectorsRead d (onStack k f e) := by
  refine h.trans ⟨rfl, rfl, rfl, rfl, length_modAt .., fun j => ?_⟩
  by_cases hj : j = k
  · subst hj
    by_cases hlen : j < e.mem.hbm.length
    · rw [stack_onStack_same hlen, hf]
    · simp [stack, modAt, hlen]
  · rw [stack_onStack_other hj]

theorem setErrs (l : List SectorErr) : SectorsRead d (setErrs l e) := h.other rfl rfl rfl rfl rfl

theorem dropErr (k : SectorKey) : SectorsRead d (dropErr k e) := h.setErrs _

theorem eccLog (a : BitVec 64) : SectorsRead d (eccLog a e) := h.other rfl rfl rfl rfl rfl

theorem logSector (sev cls kind : Nat) (k : SectorKey) : SectorsRead d (logSector sev cls kind k e) := by
  have hmem : (Machine.logSector sev cls kind k e).mem = e.mem := logRec_mem ..
  exact h.other (logRec_items ..) (logRec_cores ..) (congrArg MemBlock.scrubs hmem) (congrArg MemBlock.retires hmem)
    (congrArg MemBlock.hbm hmem)

theorem flipOn (ks : List SectorKey) : SectorsRead d (flipOn ks e) := by
  unfold Machine.flipOn
  split
  · dsimp only
    split
    · exact h
    · exact h.other rfl rfl rfl rfl rfl
  · exact h

theorem poisonSector (k : SectorKey) : SectorsRead d (poisonSector k e) := by
  unfold Machine.poisonSector
  exact (((h.setErrs _).onStack _ (by intro _; rfl)).eccLog _).logSector ..

theorem correctSector (k : SectorKey) : SectorsRead d (correctSector k e) := by
  unfold Machine.correctSector
  refine flipOn ?_ _
  have hcounted := (h.dropErr k).onStack (keyStack e k) (f := fun s => { s with corrected := satInc 0xFFFFFFFF s.corrected })
    (by intro _; rfl)
  split
  · exact hcounted
  · exact (hcounted.logSector 0 0x301 1 k).other rfl rfl rfl rfl rfl

theorem correctPeers (k : SectorKey) : SectorsRead d (correctPeers k e) :=
  h.trans (foldl (fun d j => (refl d).correctSector j) _ e)

theorem rebuildSector (k : SectorKey) : SectorsRead d (rebuildSector k e) := by
  unfold Machine.rebuildSector
  exact (((((h.correctPeers k).dropErr _).onStack _ (by intro _; rfl)).eccLog _).logSector ..).flipOn _

theorem xorData (k : SectorKey) (b : Bytes) : SectorsRead d (xorData k b e) := by
  unfold Machine.xorData
  split
  · exact h.other rfl rfl rfl rfl rfl
  · exact h

theorem touchSector (k : SectorKey) : SectorsRead d (touchSector k e).1 := by
  unfold Machine.touchSector
  split
  · exact h
  · exact h.correctSector k
  · exact h.onStack (keyStack e k) (f := fun s => { s with uncorr := satInc 0xFFFFFFFF s.uncorr }) (by intro _; rfl)
  · split
    · exact h.correctPeers k
    · exact h.poisonSector k
  · split
    · exact ((h.xorData k _).correctSector k).other rfl rfl rfl rfl rfl
    · split
      · exact h.rebuildSector k
      · exact h.poisonSector k

theorem carrySector (k : SectorKey) : SectorsRead d (carrySector k e) := by
  unfold Machine.carrySector
  split
  · exact h
  · exact h.touchSector k

theorem moveGranule (k g : Nat) : SectorsRead d (moveGranule k g e) := by
  unfold Machine.moveGranule
  split
  · exact h
  · exact (h.trans (foldl (fun d j => (refl d).carrySector j) _ e)).other rfl rfl rfl rfl rfl

end

end SectorsRead

/-! ### SCRUB_COMPLETE -/

/-- What a scrub sums up: the device, the summary, and the addresses of its events. -/
abbrev ScrubSum := Dev × Scrub × List (BitVec 64) × List (BitVec 64)

theorem scrubStep_reads (acc : ScrubSum) (k : SectorKey) :
    SectorsRead acc.1 (scrubStep acc k).1 ∧ (scrubStep acc k).2.1.sid = acc.2.1.sid := by
  have hread := (SectorsRead.refl acc.1).touchSector k
  unfold scrubStep
  dsimp only
  split <;> exact ⟨hread, rfl⟩

theorem foldl_scrubStep_reads (ks : List SectorKey) (acc : ScrubSum) :
    SectorsRead acc.1 (ks.foldl scrubStep acc).1 ∧ (ks.foldl scrubStep acc).2.1.sid = acc.2.1.sid :=
  List.foldlRecOn (motive := fun r : ScrubSum => SectorsRead acc.1 r.1 ∧ r.2.1.sid = acc.2.1.sid) ks scrubStep ⟨.refl _, rfl⟩
    fun r hr k _ => ⟨hr.1.trans (scrubStep_reads r k).1, (scrubStep_reads r k).2.trans hr.2⟩

/-- The sectors of the scrub's range have been read. -/
def scrubRead (x : Scrub) (d : Dev) : ScrubSum :=
  (sortByKey scanOrder ((troubleKeys d).filter (inScrub d x))).foldl scrubStep (d, x, [], [])

/-- The rows of the range that do not match their parity. -/
def scrubBad (x : Scrub) (d : Dev) : List SectorKey :=
  (scrubRead x d).1.mem.parityBad.filter (fun k => inScrub d x k && rowMismatch (scrubRead x d).1 k)

/-- The mismatches are recorded. -/
def scrubLogged (x : Scrub) (d : Dev) : Dev :=
  (scrubBad x d).foldl (fun d k => logSector 1 0x304 5 k (eccLog (sectorAddr d 5 k) d)) (scrubRead x d).1

/-- The summary of a scrub that is over. -/
def scrubSummary (x : Scrub) (d : Dev) : Scrub :=
  { (scrubRead x d).2.1 with
    state := 1, mismatch := (scrubBad x d).length, scanned := match x.tensor with | some _ => x.len | none => heldBytes d
    addrs := ((scrubRead x d).2.2.1 ++ (scrubBad x d).map (sectorAddr (scrubLogged x d) 5) ++ (scrubRead x d).2.2.2).take 16 }

section
variable {x : Scrub} {d : Dev}

theorem scrubLogged_reads (x : Scrub) (d : Dev) : SectorsRead d (scrubLogged x d) :=
  (foldl_scrubStep_reads _ (d, x, [], [])).1.trans
    (.foldl (f := fun d' k => logSector 1 0x304 5 k (eccLog (sectorAddr d' 5 k) d')) (fun e _ => ((SectorsRead.refl e).eccLog _).logSector ..) _ _)

theorem scrubSummary_sid (x : Scrub) (d : Dev) : (scrubSummary x d).sid = x.sid :=
  (foldl_scrubStep_reads _ (d, x, [], [])).2

/-- A scrub that is replaced by one of its own number is found there. -/
theorem scrubOf_setScrub {y : Scrub} (h : scrubOf d y.sid = some x) : scrubOf (setScrub y d) y.sid = some y := by
  have hfound (l : List Scrub) : l.find? (fun z => z.sid == y.sid) = some x →
      (l.map (fun z => if z.sid = y.sid then y else z)).find? (fun z => z.sid == y.sid) = some y := by
    induction l with
    | nil => simp
    | cons z t ih =>
      by_cases hz : z.sid = y.sid
      · simp [hz]
      · simpa [hz] using ih
  exact hfound _ h

/-- In clean memory a scrub finds nothing. -/
theorem scrubRead_clean (h : troubleKeys d = []) : scrubRead x d = (d, x, [], []) := by simp [scrubRead, h, sortByKey]

theorem scrubBad_clean (h : troubleKeys d = []) (hp : d.mem.parityBad = []) : scrubBad x d = [] := by
  simp [scrubBad, scrubRead_clean h, hp]

theorem scrubLogged_clean (h : troubleKeys d = []) (hp : d.mem.parityBad = []) : scrubLogged x d = d := by
  simp [scrubLogged, scrubBad_clean h hp, scrubRead_clean h]

end

/-- A scrub that is over keeps items and cores, and is found under its number. -/
theorem scrubEnds {d : Dev} {sid : Nat} {x : Scrub} (h : scrubOf d sid = some x) :
    let e := setScrub (scrubSummary x d) (scrubLogged x d)
    scrubOf e sid = some (scrubSummary x d) ∧ e.items = d.items ∧ e.cores = d.cores := by
  have hread := scrubLogged_reads x d
  have hsid : (scrubSummary x d).sid = sid :=
    (scrubSummary_sid x d).trans (beq_iff_eq.mp (List.find?_some (p := fun y : Scrub => y.sid == sid) h))
  have hkept : scrubOf (scrubLogged x d) (scrubSummary x d).sid = some x := by
    rw [hsid, scrubOf, hread.scrubs]
    exact h
  have hfound := scrubOf_setScrub hkept
  rw [hsid] at hfound
  exact ⟨hfound, hread.items, hread.cores⟩

/-- In clean memory it changes nothing, and its counts stay. -/
theorem scrubEnds_clean {d : Dev} {x : Scrub} (h : troubleKeys d = []) (hp : d.mem.parityBad = []) :
    let e := setScrub (scrubSummary x d) (scrubLogged x d)
    let y := scrubSummary x d
    e.tensors = d.tensors ∧ e.ras = d.ras ∧ y.corrected = x.corrected ∧ y.rebuilt = x.rebuilt ∧ y.uncorr = x.uncorr ∧ y.mismatch = 0 := by
  rw [scrubLogged_clean h hp]
  simp [scrubSummary, scrubRead_clean h, scrubBad_clean h hp, setScrub]

section
variable {s : State} {sid : Nat} {x : Scrub}

theorem exec_scrubComplete_unknown (h : scrubOf s.dev sid = none) : exec (.scrubComplete sid) s = .next s :=
  eff_idle (by simp only [h])

theorem exec_scrubComplete_over (h : scrubOf s.dev sid = some x) (hs : x.state ≠ 0) : exec (.scrubComplete sid) s = .next s :=
  eff_idle (by simp [h, hs])

theorem exec_scrubComplete_scanned (hw : firmwareRuns s.dev = true) (h : scrubOf s.dev sid = some x) (hs : x.state = 0) :
    exec (.scrubComplete sid) s = .next { s with dev := setScrub (scrubSummary x s.dev) (scrubLogged x s.dev) } := by
  refine eff_eq_dev ?_
  simp only [h, hw, hs, Bool.not_true, Bool.false_or, bne_self_eq_false, Bool.false_eq_true, if_false]
  rfl

end

/-! ### RETIREMENT_COMPLETE -/

/-- What a granule's retirement leaves: the retirements, the number of stacks, and whatever was retired. -/
structure GranuleRetired (k : Nat) (d e : Dev) : Prop where
  retires : e.mem.retires = d.mem.retires
  stackCount : e.mem.hbm.length = d.mem.hbm.length
  kept : ∀ g ∈ (stack d k).retired, g ∈ (stack e k).retired

theorem retireGranule_retires (k g cause : Nat) (d : Dev) : GranuleRetired k d (retireGranule k g cause d) ∧
    (k < d.mem.hbm.length → g ∈ (stack (retireGranule k g cause d) k).retired) := by
  have hmem : (retireGranule k g cause d).mem = (onStack k (fun s => { s with retired := addNew s.retired g }) d).mem := repairLog_mem ..
  have hstack : stack (retireGranule k g cause d) k = stack (onStack k (fun s => { s with retired := addNew s.retired g }) d) k := by
    rw [stack, stack, hmem]
  have hsame (h : k < d.mem.hbm.length) : stack (retireGranule k g cause d) k = { stack d k with retired := addNew (stack d k).retired g } :=
    hstack.trans (stack_onStack_same h)
  refine ⟨⟨by rw [hmem]; rfl, ?_, fun j hj => ?_⟩, fun h => ?_⟩
  · rw [hmem]
    exact length_modAt ..
  · by_cases h : k < d.mem.hbm.length
    · rw [hsame h]
      exact mem_addNew.mpr (.inl hj)
    · simp [stack, h] at hj
  · rw [hsame h]
    exact mem_addNew.mpr (.inr rfl)

/-- One granule's units move, and it is retired. -/
def retireMoved (k cause : Nat) (d : Dev) (g : Nat) : Dev := retireGranule k g cause (moveGranule k g d)

theorem retireMoved_retires (k g cause : Nat) (d : Dev) : GranuleRetired k d (retireMoved k cause d g) ∧
    (k < d.mem.hbm.length → g ∈ (stack (retireMoved k cause d g) k).retired) := by
  have hmove := (SectorsRead.refl d).moveGranule k g
  obtain ⟨hret, hin⟩ := retireGranule_retires k g cause (moveGranule k g d)
  exact ⟨⟨hret.retires.trans hmove.retires, hret.stackCount.trans hmove.stackCount, fun j hj => hret.kept j (hmove.retired k ▸ hj)⟩,
    fun h => hin (hmove.stackCount ▸ h)⟩

/-- The granules of a ticket are retired one after another. -/
theorem foldl_retireMoved_retires {k cause : Nat} (gs : List Nat) {d : Dev} (h : k < d.mem.hbm.length) :
    GranuleRetired k d (gs.foldl (retireMoved k cause) d) ∧ ∀ g ∈ gs, g ∈ (stack (gs.foldl (retireMoved k cause) d) k).retired := by
  induction gs generalizing d with
  | nil => exact ⟨⟨rfl, rfl, fun _ => id⟩, by simp⟩
  | cons g t ih =>
    obtain ⟨hret, hin⟩ := retireMoved_retires k g cause d
    obtain ⟨hrest, hall⟩ := ih (d := retireMoved k cause d g) (hret.stackCount ▸ h)
    refine ⟨⟨hrest.retires.trans hret.retires, hrest.stackCount.trans hret.stackCount, fun j hj => hrest.kept j (hret.kept j hj)⟩,
      fun j hj => ?_⟩
    rcases List.mem_cons.mp hj with rfl | hj
    · exact hrest.kept j (hin h)
    · exact hall j hj

/-- The ticket's granules are retired, and it is done. -/
def retirementDone (t : Retire) (d : Dev) : Dev :=
  let e := t.todo.foldl (retireMoved t.stack (if t.bank then 5 else 4)) d
  { e with mem := { e.mem with retires := e.mem.retires.map (fun x => if x.ticket = t.ticket then { x with todo := [], done := x.total } else x) } }

theorem retirementDone_retires {t : Retire} {d : Dev} (h : t.stack < d.mem.hbm.length) :
    (∀ g ∈ t.todo, g ∈ (stack (retirementDone t d) t.stack).retired) ∧ (retirementDone t d).mem.retires =
      d.mem.retires.map (fun x => if x.ticket = t.ticket then { x with todo := [], done := x.total } else x) := by
  obtain ⟨hret, hall⟩ := foldl_retireMoved_retires (cause := if t.bank then 5 else 4) t.todo h
  exact ⟨hall, by simp only [retirementDone, hret.retires]⟩

theorem ticket_of_find {l : List Retire} {n : Nat} {t : Retire} (h : l.find? (fun t => t.ticket == n) = some t) : t.ticket = n :=
  beq_iff_eq.mp (List.find?_some (p := fun t : Retire => t.ticket == n) h)

section
variable {s : State} {n : Nat} {t : Retire}

theorem exec_retirementComplete_unknown (h : s.dev.mem.retires.find? (fun t => t.ticket == n) = none) :
    exec (.retirementComplete n) s = .next s :=
  eff_idle (by simp only [h])

variable (h : s.dev.mem.retires.find? (fun t => t.ticket == n) = some t)
include h

theorem exec_retirementComplete_over (ht : t.todo = []) : exec (.retirementComplete n) s = .next s :=
  eff_idle (by simp [h, ht])

theorem exec_retirementComplete_done (hw : firmwareRuns s.dev = true) (ht : t.todo ≠ []) :
    exec (.retirementComplete n) s = .next { s with dev := retirementDone t s.dev } := by
  refine eff_eq_dev ?_
  simp only [h, hw, List.isEmpty_iff, ht, retirementDone, ticket_of_find h, Bool.not_true, Bool.false_or, if_false]
  rfl

end

end Sys2Proof.Proofs
end

section
/-! Units, memory and repair as a whole (05 R156, R157; 14 R478 to R489; 12 R429; 10 R325 to R344). -/
namespace Sys2Proof.Proofs
open Sys2Proof Sys2Proof.Machine Sys2Proof.Laws

/-- Settles O59, clause by clause: each row's effect is the one its own lemma gives, and the slack's share of a bank and of a hot
region is what `bankFails_moved` and `markHot_holds` say. -/
theorem unitsMemoryAndRepair : Obligations.UnitsMemoryAndRepair := by
  intro s hw hlen d u
  have hstacks {k : Nat} (hk : k < 24) : k < d.mem.hbm.length := hlen ▸ hk
  refine ⟨fun l b unc v hl hb hv => ?bank, fun cl p cause hcl hp => ?core, fun cl ok left hf => exec_coreFillComplete_none hf,
    fun f left hf hp => ?fill, fun ccp => ?control, fun ld ru hld hru => ?reduction, ?holms,
    fun n r ht => exec_unitTestComplete_unknown ht, fun n r t ht => ?test, fun k => ?stackLost, fun k => ?restripe,
    fun r h => exec_resaltStart_none h, fun r x hx => ?resaltStart, fun r => ?resaltComplete, fun sid => ?scrub, fun n => ?retirement⟩
  case bank =>
    intro due
    have hserves : servedBy { d with units := { due.units with bankDue := [] } } v ≠ [] := List.ne_nil_of_mem (mem_servedBy hv)
    exact ⟨exec_accBankThreshold_corrected hw hl hb hv,
      ⟨_, exec_accBankThreshold_uncorrectable hw hl hb hv, engineStops_stops v (bankNoted l b v d)⟩,
      fun hdue => ⟨fun hused => (banksAtSlack_bankNoted hdue).trans (bankFails_lost hserves hused), fun hused =>
        (banksAtSlack_bankNoted (l := l) (b := b) (v := v) hdue) ▸ bankFails_moved (b := b) (l := l) hserves hused⟩,
      fun k x h => exec_accBankThreshold_none hw h⟩
  case core =>
    refine ⟨fun hr => (exec_coreLost hw hcl hp).trans (by rw [coreLost_retired hr]), fun l h t hr hs hn hf hh => ?_,
      fun l v hr hs hf hh hv hne hv6 => ?_⟩
    · obtain ⟨hunits, hcores, htensors, hitems⟩ := coreLost_toHolm (cause := cause) hr hs hn hf hh
      refine ⟨_, exec_coreLost hw hcl hp, ?_, ?_, ?_, ?_, htensors, hitems⟩
      · rw [hunits]; exact mem_addNew.mpr (.inr rfl)
      · rw [hunits]; exact fun x hx => bne_iff_ne.mp (List.mem_filter.mp hx).2
      · rw [hunits]
      · rw [hcores, aGet_aSet_same]; rfl
    · obtain ⟨w, hbound, hother, hnew, hshared⟩ := coreLost_toShared (cause := cause) hr hs hf hh hv hne hv6
      exact ⟨_, w, exec_coreLost hw hcl hp, hnew, hother, hbound, hshared⟩
  case fill =>
    obtain ⟨hholms, hsegs⟩ := fillDone_serves (f := f) (left := left) (d := d)
    exact ⟨⟨_, exec_coreFillComplete_done hw hf hp, aGet_aSet_same .., rfl, hholms, rfl, hsegs⟩,
      ⟨_, exec_coreFillComplete_failed hw hf hp, nextFill_fillFailed f.cl⟩⟩
  case control =>
    have hexec := exec_controlCoreLost (ccp := ccp) hw
    refine ⟨fun hh hi => hexec.trans (by rw [controlCoreLost_unknown hh hi]), fun hh => ⟨_, hexec, ?_⟩,
      fun i hh hi => ⟨_, hexec, controlCoreLost_serving hh hi⟩⟩
    simp [controlCoreLost_holm hh, d, u]
  case reduction =>
    have hexec := exec_reductionUnitFailure hw hld hru
    exact ⟨fun hd => hexec.trans (by rw [ruFails_down hd]), fun hd => ⟨_, hexec, ruFails_fails hd⟩⟩
  case holms =>
    refine ⟨exec_holmBistPeriod_passed hw, fun v hv => ⟨_, exec_holmBistPeriod_core hw hv, ?_⟩,
      fun p hp => ⟨_, exec_holmBistPeriod_control hw hp, ?_⟩⟩
    · obtain ⟨_, _, _, _, _, hretired⟩ := retirePhys_frame v.1 v.2 2 0 s.dev
      simp [hretired, u, d]
    · have hholm : p ∈ s.dev.units.ccHolms := by simpa [u, d] using hp
      simp [controlCoreLost_holm hholm, u, d]
  case test =>
    have early {k : Nat} (hst : t.stack = some k)
        (hheld : (if t.retire then comingBack d k else d.mem.regions.any (fun x => x.2.onStacks.contains k)) = true) :
        exec (.unitTestComplete n r) s = .next s :=
      exec_unitTestComplete_early ht (.inr (by rw [ticketHeld, hst]; exact hheld))
    exact ⟨fun hs => exec_unitTestComplete_early ht (.inl hs), fun hs hst => exec_unitTestComplete_unit hw ht hs hst,
      fun k hk hst _ hr hoff => exec_unitTestComplete_stack hw ht hst (hstacks hk) hr hoff,
      fun k hk hst _ hr => ⟨fun hback => early hst (by simpa [hr] using hback),
        fun hback => exec_unitTestComplete_returned hw ht hst (hstacks hk) hr hback⟩,
      fun k hst hr hon => early hst (by simpa [hr] using hon)⟩
  case stackLost =>
    refine ⟨fun h => (exec_stackLost hw).trans (by rw [stackLost_again h]), fun hk hl => ⟨_, exec_stackLost hw,
      stackLost_lost hk hl (hstacks hk), fun hall => ⟨stackLost_tensors hk hl hall, fun x hx hon => stackLost_restripes hk hl hall hx hon⟩,
      fun x i t hx hon hp ht hin => stackLost_bare hk hl hx hon hp ht hin⟩⟩
  case restripe =>
    exact ⟨fun hover => ⟨_, exec_restripeComplete_over hw hover, stack_onStack_same (hstacks hover.1), rfl⟩,
      fun hover => exec_restripeComplete_early hw hover⟩
  case resaltStart =>
    have hexec := exec_resaltStart hw hx
    refine ⟨fun hoff => hexec.trans (by rw [resaltHot_notDue hx hoff]), fun hdue hn hg => ⟨_, hexec, resaltHot_begins hx hdue hn hg⟩,
      fun hdue hn hg => hexec.trans (by rw [resaltHot_noGranule hx hdue hn hg]; rfl), fun hdue hn => ?_,
      fun t hon hhot hlast hsoon hheld => ?_⟩
    · obtain ⟨_, _, _, _, hwaits⟩ := resaltHot_waits hx hdue hn
      exact ⟨_, hexec, by rw [hwaits], by rw [hwaits], by rw [hwaits]⟩
    · exact markHot_holds hx hon (by simp [holdsHot, hhot, hheld, hlast, hsoon])
  case resaltComplete =>
    exact ⟨fun h => exec_resaltComplete_none h, fun x m hr hx hm => ⟨fun hmoved => exec_resaltComplete_early hw hr hx hm hmoved,
      fun hmoved => ⟨_, exec_resaltComplete_done hw hr hx hm hmoved, resaltDone_swept hx rfl⟩⟩⟩
  case scrub =>
    refine ⟨fun h => exec_scrubComplete_unknown h, fun x h hs => exec_scrubComplete_over h hs, fun x h hs => ?_⟩
    obtain ⟨hfound, hitems, hcores⟩ := scrubEnds h
    exact ⟨_, _, exec_scrubComplete_scanned hw h hs, hfound, rfl, hitems, hcores, scrubEnds_clean⟩
  case retirement =>
    refine ⟨fun h => exec_retirementComplete_unknown h, fun t h hst => ⟨fun ht => exec_retirementComplete_over h ht, fun ht => ?_⟩⟩
    obtain ⟨hall, hdone⟩ := retirementDone_retires (hstacks hst)
    rw [ticket_of_find h] at hdone
    exact ⟨_, exec_retirementComplete_done h hw ht, hall, hdone⟩

end Sys2Proof.Proofs
end

section
/-! No access to a tensor changes a program (06 R197, 10 R331 to R334), so a core that reads or writes one keeps its place in its code; and
the rows of a core, whatever they come to. -/
namespace Sys2Proof.Proofs
open Sys2Proof Sys2Proof.Machine Sys2Proof.Laws

/-! ### The programs of the device -/

/-- What each step of a fold keeps, the fold keeps. -/
theorem foldl_keeps {σ α γ : Type} {f : σ → α → σ} (g : σ → γ) (h : ∀ x a, g (f x a) = g x) (l : List α) (x : σ) :
    g (l.foldl f x) = g x :=
  List.foldlRecOn (motive := fun y => g y = g x) l f rfl fun y hy a _ => (h y a).trans hy

section
variable (k : SectorKey) (d : Dev)

@[simp] theorem dropErr_programs : (dropErr k d).programs = d.programs := rfl

@[simp] theorem busError_programs : (busError k d).programs = d.programs := rfl

@[simp] theorem logSector_programs (sev cls kind : Nat) : (logSector sev cls kind k d).programs = d.programs := logRec_programs ..

@[simp] theorem poisonSector_programs : (poisonSector k d).programs = d.programs := logSector_programs ..

@[simp] theorem correctSector_programs : (correctSector k d).programs = d.programs := by
  unfold correctSector
  dsimp only
  split <;> simp

@[simp] theorem correctPeers_programs : (correctPeers k d).programs = d.programs :=
  foldl_keeps Dev.programs (fun d j => correctSector_programs j d) _ d

@[simp] theorem rebuildSector_programs : (rebuildSector k d).programs = d.programs := by simp [rebuildSector]

@[simp] theorem xorData_programs (e : Bytes) : (xorData k e d).programs = d.programs := by
  unfold xorData
  split <;> rfl

@[simp] theorem touchSector_programs : (touchSector k d).1.programs = d.programs := by
  unfold touchSector
  split
  · rfl
  · simp
  · simp
  · split <;> simp
  · split
    · simp
    · split <;> simp

@[simp] theorem hitUnit_programs : (hitUnit d k).programs = d.programs := rfl

@[simp] theorem countHits_programs (off len : Nat) (write : Bool) : (countHits k off len write d).programs = d.programs :=
  foldl_keeps Dev.programs (fun d j => hitUnit_programs j d) _ d

@[simp] theorem touchBytes_programs (off len : Nat) : (touchBytes k off len d).1.programs = d.programs := by
  unfold touchBytes
  dsimp only
  split
  · refine (foldl_keeps (fun x : Dev × Bool => x.1.programs) (fun x n => ?_) _ _).trans (countHits_programs ..)
    exact touchSector_programs ..
  · exact countHits_programs ..

@[simp] theorem writeShare_programs (off len n : Nat) : (writeShare k off len n d).1.programs = d.programs := by
  unfold writeShare
  dsimp only
  split <;> split <;> simp

@[simp] theorem writeParity_programs (ns : List Nat) (p : Nat × Nat) : (writeParity k ns p d).programs = d.programs := by
  unfold writeParity
  dsimp only
  split
  · rfl
  · split <;> simp

@[simp] theorem writeBytes_programs (off len : Nat) : (writeBytes k off len d).1.programs = d.programs := by
  unfold writeBytes
  dsimp only
  split
  · rw [flipOn_programs, foldl_keeps Dev.programs (fun d p => writeParity_programs k d _ p),
      foldl_keeps (fun x : Dev × List Nat × List Nat => x.1.programs) (fun x n => ?_)]
    · exact countHits_programs ..
    · split <;> exact writeShare_programs ..
  · exact countHits_programs ..

end

section
variable (idx off : Nat) (bs : Bytes) (d : Dev)

@[simp] theorem readTensor_programs (len : Nat) : (readTensor idx off len d).1.programs = d.programs := by
  unfold readTensor readBuf
  split
  · rfl
  · split
    · rfl
    · dsimp only
      split <;> simp

@[simp] theorem writeTensor_programs : (writeTensor idx off bs d).1.programs = d.programs := by
  unfold writeTensor writeBuf storeBuf
  dsimp only
  split
  · exact writeBytes_programs ..
  · refine (foldl_keeps Dev.programs (fun e n => ?_) _ _).trans (writeBytes_programs ..)
    rfl

@[simp] theorem recordAmax_programs (it : Item) (amax : Nat) (ovf : Bool) : (recordAmax it idx amax ovf d).programs = d.programs := by
  unfold recordAmax
  split
  · split <;> rfl
  · rfl

end

section
variable (v : Window) (c : Core) (d : Dev)

@[simp] theorem winRead_programs (e : Nat) : (winRead v c e d).1.programs = d.programs := by
  unfold winRead
  dsimp only
  split <;> simp

@[simp] theorem winReads_programs (es : List Nat) : (winReads v c es d).1.programs = d.programs := by
  refine foldl_keeps (fun x : Dev × Option (List Nat) => x.1.programs) (fun x e => ?_) es (d, some [])
  dsimp only
  split
  · rfl
  · exact winRead_programs ..

@[simp] theorem winWrites_programs (es : List (Nat × Nat)) : (winWrites v es d).1.programs = d.programs := by
  refine foldl_keeps (fun x : Dev × Bool => x.1.programs) (fun x e => ?_) es (d, true)
  exact writeTensor_programs ..

@[simp] theorem afterWrite_programs (ok : Bool) (l : Nat) : (afterWrite ok v l c d).programs = d.programs := by
  unfold afterWrite
  split <;> rfl

@[simp] theorem recordScaled_programs (o : CvtOpt) (src : Nat) (vals : List Nat) (fl : BitVec 4) :
    (recordScaled o c v src vals fl d).programs = d.programs := by
  unfold recordScaled
  split <;> simp

@[simp] theorem winStore_programs (l : Nat) (o : CvtOpt) (src : Nat) (es : List (Nat × Nat)) :
    (winStore l d c v o src es).1.programs = d.programs := by simp [winStore]

@[simp] theorem cvtRecord_programs (w : BitVec 64) (vals : List Nat) (fl : BitVec 4) : (cvtRecord d c w vals fl).programs = d.programs := by
  unfold cvtRecord
  split <;> simp

@[simp] theorem asmFetch_programs (es : List Nat) : (asmFetch c v es d).1.programs = d.programs := by
  refine foldl_keeps (fun x : Dev × Option (Fl (List (Nat × Nat))) => x.1.programs) (fun x e => ?_) es (d, some ([], 0))
  dsimp only
  split
  · rfl
  · exact winRead_programs ..

end

/-! ### A core's row -/

theorem majorFunc_beq {w : BitVec 64} {m k : Nat} (hm : wMajor w = m) (hf : wFunc w = k) : (wMajor w == m && wFunc w == k) = true := by
  simp [hm, hf]

section
variable {l : Nat} {w : BitVec 64} {mine : Bool} {f : Dev → Core → CRes} {s : State} {c c' : Core} {d' : Dev}

/-- A word that completes and leaves the programs and the core's place in them alone. -/
theorem eff_coreRow_done (h : Runs s.dev l w c) (hm : mine = true) (hf : f s.dev c = done d' c')
    (hd : d'.programs = s.dev.programs := by simp) (hp : c'.pc = c.pc ∧ c'.prog = c.prog ∧ c'.seg = c.seg := by simp) :
    eff (coreRow l w mine f) s = .next (s.advanced l c' d') :=
  eff_coreRow_ok h hm hf hp.1 (coreCode_congr hd hp.2.1 hp.2.2)

/-- A word that completes and changes nothing but its core. -/
theorem eff_coreRow_own (h : Runs s.dev l w c) (hm : mine = true) (hf : f s.dev c = done s.dev c')
    (hp : c'.pc = c.pc ∧ c'.prog = c.prog ∧ c'.seg = c.seg := by simp) :
    eff (coreRow l w mine f) s = .next (s.advanced l c' s.dev) :=
  eff_coreRow_done h hm hf rfl hp

theorem eff_coreRow_faulted {k : Nat × Nat} (h : AtWord s.dev l w c) (hm : mine = true) (hf : f s.dev c = .fault k.1 k.2 s.dev) :
    eff (coreRow l w mine f) s = .next (s.faulted l c k) :=
  eff_coreRow_fault h hm hf

end

end Sys2Proof.Proofs
end

section
/-! Scalar arithmetic and branches (06 R198 to R200). -/
namespace Sys2Proof.Proofs
open Sys2Proof Sys2Proof.Machine Sys2Proof.Laws

/-! ### Scalar arithmetic (06 R198, R199) -/

/-- The integer functions with their results (06 Table 6-5). -/
def intResults (a b : BitVec 64) : List (Nat × BitVec 64) :=
  [(0, a + b), (1, a - b), (2, a * b), (8, a &&& b), (9, a ||| b), (10, a ^^^ b), (11, a <<< (b.toNat % 64)),
    (12, a >>> (b.toNat % 64)), (13, a.sshiftRight (b.toNat % 64)), (16, if a.slt b then 1 else 0), (17, if a.ult b then 1 else 0),
    (18, if a = b then 1 else 0), (19, if a.slt b then a else b), (20, if a.slt b then b else a)]

theorem intResults_spec {a b : BitVec 64} : ∀ x ∈ intResults a b, intFuncs.contains x.1 = true ∧ intOp x.1 a b = x.2 := by
  simp [intResults, intFuncs, intOp]

/-- The division functions with their results. -/
def divResults (a b : BitVec 64) : List (Nat × BitVec 64) :=
  [(3, if b = 0 then BitVec.allOnes 64 else a.sdiv b), (4, if b = 0 then BitVec.allOnes 64 else a / b),
    (5, if b = 0 then a else a.srem b), (6, if b = 0 then a else a % b)]

theorem divResults_spec {a b : BitVec 64} : ∀ x ∈ divResults a b, divFuncs.contains x.1 = true ∧ divOp x.1 a b = x.2 := by
  simp [divResults, divFuncs, divOp]

/-- The FP64 functions with their results and flags. -/
def floatResults (x y : Nat) : List (Nat × Fl Nat) :=
  [(0x20, fpAdd fp64 x y), (0x21, fpSub fp64 x y), (0x22, fpMul fp64 x y), (0x23, fpDiv fp64 x y), (0x24, fpSqrt fp64 x),
    (0x25, fpMin fp64 x y), (0x26, fpMax fp64 x y), (0x27, (b2n (fpCmp fp64 0 x y).1, (fpCmp fp64 0 x y).2)),
    (0x28, (b2n (fpCmp fp64 2 x y).1, (fpCmp fp64 2 x y).2)), (0x29, (b2n (fpCmp fp64 3 x y).1, (fpCmp fp64 3 x y).2))]

theorem floatResults_spec {a b : BitVec 64} : ∀ x ∈ floatResults a.toNat b.toNat,
    floatFuncs.contains x.1 = true ∧ floatOp x.1 a b = (BitVec.ofNat 64 x.2.1, x.2.2) := by
  simp [floatResults, floatFuncs, floatOp]

/-- Settles O8: each row is its function's entry in the table of results, and what it writes leaves the core's place alone. -/
theorem scalarArithmeticResults : Obligations.ScalarArithmeticResults := by
  intro s l w c hruns a b rb x y
  refine ⟨fun hmajor v hv => ?integer, fun hmajor v hv => ?division, fun hmajor r hr => ?float, fun hmajor hfunc => ?li,
    fun hmajor hfunc => ?lih⟩
  case integer =>
    obtain ⟨hfunc, hop⟩ := intResults_spec (wFunc w, v) hv
    obtain rfl : intOp (wFunc w) a b = v := hop
    exact eff_coreRow_own hruns (by simp [hmajor, -List.contains_eq_mem, hfunc]) rfl
  case division =>
    obtain ⟨hfunc, hop⟩ := divResults_spec (wFunc w, v) hv
    obtain rfl : divOp (wFunc w) a b = v := hop
    exact eff_coreRow_own hruns (by simp [hmajor, -List.contains_eq_mem, hfunc]) rfl
  case float =>
    obtain ⟨hfunc, hop⟩ := floatResults_spec (a := a) (b := rb) (wFunc w, r) hr
    refine eff_coreRow_own hruns (by simp [hmajor, -List.contains_eq_mem, hfunc]) ?_
    show done _ (raise (floatOp (wFunc w) a rb).2 (wrS _ (floatOp (wFunc w) a rb).1 c)) = _
    rw [hop]
  case li => exact eff_coreRow_own hruns (majorFunc_beq hmajor hfunc) rfl
  case lih => exact eff_coreRow_own hruns (majorFunc_beq hmajor hfunc) rfl

/-! ### Branches (06 R200) -/

section
variable {d : Dev} {c : Core}

theorem jumpTo_inside {t : Nat} (h : t < (coreCode d c).length) : jumpTo d c t = .ok d { c with pc := t } :=
  if_neg (by omega)

theorem jumpTo_outside {t : Int} (h : t < 0 ∨ ((coreCode d c).length : Int) ≤ t) : jumpTo d c t = .fault 0x101 (wrapBits 64 t) d :=
  if_pos h

theorem linkJump_inside {rd t : Nat} (h : t < (coreCode d c).length) :
    linkJump rd t d c = .ok d (wrS rd (BitVec.ofNat 64 (c.pc + 1)) { c with pc := t }) := by
  simp only [linkJump, jumpTo_inside h]

theorem linkJump_outside {rd : Nat} {t : Int} (h : t < 0 ∨ ((coreCode d c).length : Int) ≤ t) :
    linkJump rd t d c = .fault 0x101 (wrapBits 64 t) d := by
  simp only [linkJump, jumpTo_outside h]

/-- A register's value is an address as it stands. -/
theorem wrapBits_toNat {n : Nat} (a : BitVec n) : wrapBits n a.toNat = a.toNat := by
  have hmod : (a.toNat : Int) % 2 ^ n = a.toNat := Int.emod_eq_of_lt (by omega) (by exact_mod_cast a.isLt)
  simp [wrapBits, hmod]

end

section
variable {l : Nat} {w : BitVec 64} {mine : Bool} {f : Dev → Core → CRes} {s : State} {c c' : Core}

/-- A word that goes to another word of its segment. -/
theorem eff_coreRow_goes (h : AtWord s.dev l w c) (hm : mine = true) (hf : f s.dev c = .ok s.dev c')
    (hin : c'.pc < (coreCode s.dev c).length) (hp : c'.prog = c.prog ∧ c'.seg = c.seg := by simp) :
    eff (coreRow l w mine f) s = .next (s.onDev (setCore l c')) := by
  have hcode : coreCode s.dev c' = coreCode s.dev c := coreCode_congr rfl hp.1 hp.2
  exact eff_eq_onDev (by rw [coreRow_settle h hm, hf]; exact if_neg (by simp [hcode, hin]))

/-- A word that completes as the last of its segment (06 R200). -/
theorem coreRow_falls {d d' : Dev} (h : AtWord d l w c) (hm : mine = true) (hf : f d c = done d' c') (hrun : c'.run = true)
    (hlast : c'.pc + 1 = (coreCode d' c').length) :
    coreRow l w mine f d = coreFault l 0x10B 0 (setCore l { c' with pc := c'.pc + 1 } d') { c' with pc := c'.pc + 1 } := by
  rw [coreRow_settle h hm, hf]
  exact if_pos (Bool.and_eq_true_iff.mpr ⟨hrun, decide_eq_true hlast.ge⟩)

end

/-- The branch functions with what they ask. -/
def branchConds (a b : BitVec 64) : List (Nat × Bool) :=
  [(0, true), (1, a == b), (2, a != b), (3, a.slt b), (4, !a.slt b), (5, a.ult b), (6, !a.ult b)]

theorem branchConds_spec {a b : BitVec 64} : ∀ x ∈ branchConds a b, x.1 ≤ 6 ∧ branchHolds x.1 a b = x.2 := by
  simp [branchConds, branchHolds]

/-- Settles O9: a taken branch is `jumpTo` and a call `linkJump`, inside the code or outside it; any row may fall through. -/
theorem branchesAndCalls : Obligations.BranchesAndCalls := by
  intro s l w c hat hmajor a b size
  refine ⟨fun taken htaken => ?branch, fun hfunc t ht hin => ?callIn, fun hfunc hout => ?callOut, fun hfunc hin => ?jrIn,
    fun hfunc hout => ?jrOut, fun hfunc hin => ?callrIn, fun hfunc hout => ?callrOut,
    fun x k f d' k' hx hf hrun hlast => coreRow_falls hx rfl hf hrun hlast⟩
  case branch =>
    obtain ⟨hfunc, hcond⟩ := branchConds_spec (wFunc w, taken) htaken
    have hm : (wMajor w == 8 && decide (wFunc w ≤ 6)) = true := by simp [hmajor, hfunc]
    have go {r : CRes} (h : taken = true) (hr : jumpTo s.dev c (c.pc + wImm32 w) = r) :
        (if branchHolds (wFunc w) a b then jumpTo s.dev c (c.pc + wImm32 w) else done s.dev c) = r :=
      (if_pos (hcond.trans h)).trans hr
    have stay (h : taken = false) :
        (if branchHolds (wFunc w) a b then jumpTo s.dev c (c.pc + wImm32 w) else done s.dev c) = done s.dev c :=
      if_neg (by simp [hcond, h])
    refine ⟨fun h hin => eff_coreRow_own ⟨hat, hin⟩ hm (stay h), fun h hlast => ?_, fun h t ht hin => ?_, fun h hout => ?_⟩
    · obtain ⟨_, _, _, hrun, _⟩ := atWord_runs hat
      exact eff_eq_onDev (coreRow_falls hat hm (stay h) hrun hlast)
    · exact eff_coreRow_goes hat hm (go h (ht ▸ jumpTo_inside hin)) hin
    · exact eff_coreRow_fault hat hm (go h (jumpTo_outside hout))
  case callIn => exact eff_coreRow_goes hat (majorFunc_beq hmajor hfunc) (ht ▸ linkJump_inside hin) (by simpa using hin)
  case callOut => exact eff_coreRow_fault hat (majorFunc_beq hmajor hfunc) (linkJump_outside hout)
  case jrIn => exact eff_coreRow_goes hat (majorFunc_beq hmajor hfunc) (jumpTo_inside hin) hin
  case jrOut =>
    exact eff_coreRow_fault hat (majorFunc_beq hmajor hfunc) ((jumpTo_outside (.inr (Int.ofNat_le.mpr hout))).trans (by rw [wrapBits_toNat]))
  case callrIn => exact eff_coreRow_goes hat (majorFunc_beq hmajor hfunc) (linkJump_inside hin) (by simpa using hin)
  case callrOut =>
    exact eff_coreRow_fault hat (majorFunc_beq hmajor hfunc) ((linkJump_outside (.inr (Int.ofNat_le.mpr hout))).trans (by rw [wrapBits_toNat]))

end Sys2Proof.Proofs
end

section
/-! Core-memory loads and stores, windows, and DMA (06 R188, R191, R193, R196, R201, R202). -/
namespace Sys2Proof.Proofs
open Sys2Proof Sys2Proof.Machine Sys2Proof.Laws

/-! ### An access to core memory (06 R188, R191, R196) -/

section
variable {l : Nat} {w : BitVec 64} {mine : Bool} {f : Dev → Core → CRes} {s : State} {c : Core} {a : BitVec 64} {n : Nat} {d : Dev}
  {r : CRes}

theorem withCm_free (h : cmCheck a n n = none ∧ cmBusy c a.toNat n = false ∧ cmPoison c a.toNat n = none) : withCm a n n d c r = r := by
  obtain ⟨hchk, hbusy, howed⟩ := h
  simp [withCm, guarded_pass hchk, hbusy, howed]

/-- What stops an access before it is made: its check, a unit that holds the bytes, a DMA that owes them. -/
theorem eff_withCm_stops (h : AtWord s.dev l w c) (hm : mine = true) (hf : f s.dev c = withCm a n n s.dev c r) :
    (∀ k, cmCheck a n n = some k → eff (coreRow l w mine f) s = .next (s.faulted l c k)) ∧
    (cmCheck a n n = none → cmBusy c a.toNat n = true → eff (coreRow l w mine f) s = .next s) ∧
    (cmCheck a n n = none → cmBusy c a.toNat n = false → ∀ t, cmPoison c a.toNat n = some t →
      eff (coreRow l w mine f) s = .next (s.memFaulted l c t a.toNat s.dev)) := by
  refine ⟨fun k hk => eff_coreRow_faulted h hm (hf.trans (guarded_fault hk)), fun hk hb => eff_coreRow_stall h hm ?_,
    fun hk hb t ht => eff_coreRow_memory h hm ?_⟩
  · simp [hf, withCm, guarded_pass hk, hb]
  · simp [hf, withCm, guarded_pass hk, hb, ht]

end

/-! ### Loads and stores (06 R201) -/

/-- The load functions with their bytes and what they make of them. -/
def loadForms : List (Nat × Nat × (Nat → BitVec 64)) :=
  [(0, 1, BitVec.ofNat 64), (1, 1, fun x => BitVec.ofInt 64 (signExt 8 x)), (2, 2, BitVec.ofNat 64),
    (3, 2, fun x => BitVec.ofInt 64 (signExt 16 x)), (4, 4, BitVec.ofNat 64), (5, 4, fun x => BitVec.ofInt 64 (signExt 32 x)),
    (6, 8, BitVec.ofNat 64)]

theorem loadForms_spec : ∀ x ∈ loadForms, x.1 ≤ 6 ∧ cmBytes x.1 = x.2.1 ∧
    ∀ y, (if x.1 % 2 = 1 then BitVec.ofInt 64 (signExt (8 * x.2.1) y) else BitVec.ofNat 64 y) = x.2.2 y := by
  simp [loadForms, cmBytes]

theorem storeForms_spec : ∀ x ∈ [(8, 1), (9, 2), (10, 4), (11, 8)], 8 ≤ x.1 ∧ x.1 ≤ 11 ∧ cmBytes x.1 = x.2 := by
  simp [cmBytes]

/-! ### WSET (06 R193) -/

/-- The tensor that a window descriptor names. -/
def descTensor (d : Dev) (b : Bytes) : Tensor := (aGet d.tensors (hIdx (BitVec.ofNat 64 (fieldLe b 0 8)))).getD {}

/-- The window would write a secured tensor. -/
def descForbidden (d : Dev) (b : Bytes) : Bool := bitOf (fieldLe b 57 1) 1 && tSecured (descTensor d b)

/-- WSET once its descriptor `b` has been read from address `a`. -/
def openWindow (w : BitVec 64) (a : Nat) (b : Bytes) (d : Dev) (c : Core) : CRes :=
  let h := BitVec.ofNat 64 (fieldLe b 0 8)
  if !winDescOk b then .fault 0x105 a d
  else if !handleOk d 2 h then .fault 0x106 a d
  else if (descTensor d b).lost then .memory (hIdx h) a d
  else if descForbidden d b then .fault 0x107 a d
  else done d { c with w := aSet c.w (wW w) (winOf d b) }

section
variable {w : BitVec 64} {a : Nat} {b : Bytes} {d : Dev} {c : Core}

theorem openWindow_malformed (h : winDescOk b = false) : openWindow w a b d c = .fault 0x105 a d := by simp [openWindow, h]

theorem openWindow_stale (h : winDescOk b = true) (hl : handleOk d 2 (BitVec.ofNat 64 (fieldLe b 0 8)) = false) :
    openWindow w a b d c = .fault 0x106 a d := by simp [openWindow, h, hl]

section
variable (h : winDescOk b = true) (hl : handleOk d 2 (BitVec.ofNat 64 (fieldLe b 0 8)) = true)
include h hl

theorem openWindow_lost (ht : (descTensor d b).lost = true) :
    openWindow w a b d c = .memory (hIdx (BitVec.ofNat 64 (fieldLe b 0 8))) a d := by simp [openWindow, h, hl, ht]

theorem openWindow_forbidden (ht : (descTensor d b).lost = false) (hf : descForbidden d b = true) :
    openWindow w a b d c = .fault 0x107 a d := by simp [openWindow, h, hl, ht, hf]

theorem openWindow_opens (ht : (descTensor d b).lost = false) (hf : descForbidden d b = false) :
    openWindow w a b d c = done d { c with w := aSet c.w (wW w) (winOf d b) } := by simp [openWindow, h, hl, ht, hf]

end

end

theorem exec_wset (l : Nat) (w : BitVec 64) (s : State) : exec (.wset l w) s =
    eff (coreRow l w (wMajor w == 0x0C && wFunc w == 0) (fun d c =>
      withCm (rdS c (wRA w)) 64 64 d c
        (openWindow w (rdS c (wRA w)).toNat (memRead c.mem (rdS c (wRA w)).toNat 64) d c))) s := rfl

/-- Settles O10: every access stops as `eff_withCm_stops` says, and one that nothing stops does what its row does; WSET then goes by
the cases of `openWindow`. -/
theorem coreMemoryAndWindowSetup : Obligations.CoreMemoryAndWindowSetup := by
  intro s l w c d a r free stops
  refine ⟨fun hmajor n v hv => ?load, fun hmajor n hn => ?store, fun hmajor hfunc => ?wset, fun hmajor hfunc => ?wget,
    fun hruns hmajor hfunc => ?wclr⟩
  case load =>
    obtain ⟨hfunc, hbytes, hval⟩ := loadForms_spec _ hv
    obtain rfl : cmBytes (wFunc w) = n := hbytes
    have hm : (wMajor w == 0x10 && decide (wFunc w ≤ 6)) = true := by simp [hmajor, hfunc]
    exact ⟨fun hat => eff_withCm_stops hat hm rfl, fun hruns hfree => eff_coreRow_own hruns hm
      ((withCm_free hfree).trans (congrArg (fun x => done d (wrS (wRD w) x c)) (hval _)))⟩
  case store =>
    obtain ⟨hlow, hhigh, hbytes⟩ := storeForms_spec _ hn
    obtain rfl : cmBytes (wFunc w) = n := hbytes
    have hm : (wMajor w == 0x10 && decide (8 ≤ wFunc w) && decide (wFunc w ≤ 11)) = true := by simp [hmajor, hlow, hhigh]
    exact ⟨fun hat => eff_withCm_stops hat hm rfl, fun hruns hfree => eff_coreRow_own hruns hm (withCm_free hfree)⟩
  case wset =>
    have hm := majorFunc_beq hmajor hfunc
    refine ⟨fun hat => eff_withCm_stops hat hm rfl, fun hfree => ?_⟩
    intro b h t forbidden
    have read : withCm r 64 64 d c (openWindow w r.toNat b d c) = openWindow w r.toNat b d c := withCm_free hfree
    exact ⟨fun hat hb => eff_coreRow_faulted hat hm (read.trans (openWindow_malformed hb)),
      fun hat hb hl => eff_coreRow_faulted hat hm (read.trans (openWindow_stale hb hl)),
      fun hat hb hl ht => eff_coreRow_memory hat hm (read.trans (openWindow_lost hb hl ht)),
      fun hat hb hl ht hf => eff_coreRow_faulted hat hm (read.trans (openWindow_forbidden hb hl ht hf)),
      fun hruns hb hl ht hf => eff_coreRow_own hruns hm (read.trans (openWindow_opens hb hl ht hf))⟩
  case wget =>
    have hm := majorFunc_beq hmajor hfunc
    exact ⟨fun hat => eff_withCm_stops hat hm rfl, fun hruns hfree => eff_coreRow_own hruns hm (withCm_free hfree)⟩
  case wclr => exact eff_coreRow_own hruns (majorFunc_beq hmajor hfunc) rfl

/-! ### DMA (06 R202; log 14) -/

/-- The bytes of core memory that a DMA moves. -/
def dmaLen (w : BitVec 64) (c : Core) : Nat := (rdS c (wRC w)).toNat * fmtBytes (fmtCode (wFmt w))

/-- A unit holds the window's tensor or the bytes of a DMA. -/
def dmaHeld (w : BitVec 64) (c : Core) (v : Window) : Bool := winBusy c v || cmBusy c (rdS c (wRA w)).toNat (dmaLen w c)

/-- The tensor, where an earlier DMA owes bytes of a DMA. -/
def dmaOwed (w : BitVec 64) (c : Core) : Option Nat := cmPoison c (rdS c (wRA w)).toNat (dmaLen w c)

/-- What DMAIN and DMAOUT share: the checks at issue, the waits, and then the move that window `v` allows. -/
def dmaRow (w : BitVec 64) (write : Bool) (move : Window → CRes) (d : Dev) (c : Core) : CRes :=
  guarded (dmaCheck d c w write) d
    (if 8 ≤ dmaCount c then .stall
     else match rdW c (wW w) with
      | none => done d c
      | some v =>
        if dmaHeld w c v then .stall
        else match dmaOwed w c with
          | some t => .memory t (rdS c (wRA w)).toNat d
          | none => if (rdS c (wRC w)).toNat = 0 then done d c else move v)

section
variable {w : BitVec 64} {write : Bool} {move : Window → CRes} {d : Dev} {c : Core} {v : Window}

section
variable (hk : dmaCheck d c w write = none)
include hk

theorem dmaRow_full (hn : 8 ≤ dmaCount c) : dmaRow w write move d c = .stall := by
  simp [dmaRow, guarded_pass hk, hn]

variable (hn : dmaCount c < 8)
include hn

theorem dmaRow_shut (hw : rdW c (wW w) = none) : dmaRow w write move d c = done d c := by
  simp [dmaRow, guarded_pass hk, hn.not_ge, hw]

variable (hw : rdW c (wW w) = some v)
include hw

theorem dmaRow_held (hb : dmaHeld w c v = true) : dmaRow w write move d c = .stall := by
  simp [dmaRow, guarded_pass hk, hn.not_ge, hw, hb]

theorem dmaRow_owed {t : Nat} (hb : dmaHeld w c v = false) (hp : dmaOwed w c = some t) :
    dmaRow w write move d c = .memory t (rdS c (wRA w)).toNat d := by
  simp [dmaRow, guarded_pass hk, hn.not_ge, hw, hb, hp]

end

/-- Nothing keeps a DMA through window `v` waiting. -/
def DmaFree (w : BitVec 64) (c : Core) (v : Window) : Prop :=
  winBusy c v = false ∧ cmBusy c (rdS c (wRA w)).toNat (dmaLen w c) = false ∧ dmaOwed w c = none

theorem dmaRow_free (hk : dmaCheck d c w write = none ∧ dmaCount c < 8) (hw : rdW c (wW w) = some v) (h : DmaFree w c v) :
    dmaRow w write move d c = if (rdS c (wRC w)).toNat = 0 then done d c else move v := by
  obtain ⟨hbusy, hcore, howed⟩ := h
  simp [dmaRow, guarded_pass hk.1, hk.2.not_ge, hw, dmaHeld, hbusy, hcore, howed]

/-- A count of 0 moves nothing. -/
theorem dmaRow_none (hk : dmaCheck d c w write = none ∧ dmaCount c < 8) (hn : (rdS c (wRC w)).toNat = 0)
    (hfree : ∀ v, rdW c (wW w) = some v → DmaFree w c v) : dmaRow w write move d c = done d c := by
  cases hw : rdW c (wW w) with
  | none => exact dmaRow_shut hk.1 hk.2 hw
  | some v => exact (dmaRow_free hk hw (hfree v hw)).trans (if_pos hn)

end

/-- The DMA that an instruction leaves outstanding. -/
def dmaJob (w : BitVec 64) (c : Core) (isIn : Bool) (flags : BitVec 4) (poison : Option Nat) : Dma :=
  { isIn := isIn, core := (rdS c (wRA w)).toNat, len := dmaLen w c, seq := c.dmaSeq
    flags := flags, poison := poison }

/-- What DMAIN does with the elements read. -/
def dmainStore (w : BitVec 64) (v : Window) (d : Dev) (c : Core) (r : Dev × Option (List Nat)) : CRes :=
  match r.2 with
  | none => done r.1 { c with dmas := c.dmas ++ [dmaJob w c true 0 (some v.tensor)], dmaSeq := c.dmaSeq + 1 }
  | some vals =>
    let x := flSeq (vals.map (fromTensor d (coreItem d c) (optW w) v.tensor v.fmt (fmtCode (wFmt w))))
    done r.1 { c with
      mem := memWrite c.mem (rdS c (wRA w)).toNat (x.1.map (toLe (fmtBytes (fmtCode (wFmt w))))).flatten
      dmas := c.dmas ++ [dmaJob w c true x.2 none]
      dmaSeq := c.dmaSeq + 1 }

theorem exec_dmain (l : Nat) (w : BitVec 64) (s : State) : exec (.dmain l w) s =
    eff (coreRow l w (wMajor w == 0x0C && wFunc w == 3) (fun d c => dmaRow w false (fun v =>
      dmainStore w v d c (winReads v c (winIdx d c v (dmaIdx c w)) d)) d c)) s := rfl

/-- The values that DMAOUT takes from core memory. -/
def dmaoutVals (w : BitVec 64) (c : Core) : List Nat :=
  let size := fmtBytes (fmtCode (wFmt w))
  (List.range (rdS c (wRC w)).toNat).map (fun i => ofLe (memRead c.mem ((rdS c (wRA w)).toNat + i * size) size))

/-- What DMAOUT writes through the window. -/
def dmaoutMove (l : Nat) (w : BitVec 64) (v : Window) (d : Dev) (c : Core) : CRes :=
  let code := fmtCode (wFmt w)
  let es := winIdx d c v (dmaIdx c w)
  let x := flSeq ((es.zip (dmaoutVals w c)).map (fun e =>
    toTensor d (coreItem d c) (optW w) v.tensor (roleOf d v.tensor) code v.fmt e.1 e.2))
  let r := winWrites v (es.zip x.1) d
  done (recordScaled (optW w) c v code (dmaoutVals w c) x.2 (afterWrite r.2 v l c r.1))
    { c with dmas := c.dmas ++ [dmaJob w c false x.2 none], dmaSeq := c.dmaSeq + 1 }

theorem exec_dmaout (l : Nat) (w : BitVec 64) (s : State) : exec (.dmaout l w) s =
    eff (coreRow l w (wMajor w == 0x0C && wFunc w == 4) (fun d c => dmaRow w true (fun v => dmaoutMove l w v d c) d c)) s := rfl

section
variable {l : Nat} {w : BitVec 64} {mine write : Bool} {f : Dev → Core → CRes} {move : Window → CRes} {s : State} {c : Core}

/-- What turns a DMA away at its issue. -/
theorem eff_dmaRow_turned (h : AtWord s.dev l w c) (hm : mine = true) (hf : f s.dev c = dmaRow w write move s.dev c) :
    (∀ k, dmaCheck s.dev c w write = some k → eff (coreRow l w mine f) s = .next (s.faulted l c k)) ∧
    (dmaCheck s.dev c w write = none → 8 ≤ dmaCount c → eff (coreRow l w mine f) s = .next s) ∧
    (dmaCheck s.dev c w write = none → dmaCount c < 8 → ∀ v, rdW c (wW w) = some v →
      (dmaHeld w c v = true → eff (coreRow l w mine f) s = .next s) ∧
      (dmaHeld w c v = false → ∀ t, dmaOwed w c = some t →
        eff (coreRow l w mine f) s = .next (s.memFaulted l c t (rdS c (wRA w)).toNat s.dev))) :=
  ⟨fun _ hk => eff_coreRow_faulted h hm (hf.trans (guarded_fault hk)),
    fun hk hn => eff_coreRow_stall h hm (hf.trans (dmaRow_full hk hn)), fun hk hn _ hw =>
      ⟨fun hb => eff_coreRow_stall h hm (hf.trans (dmaRow_held hk hn hw hb)),
        fun hb _ hp => eff_coreRow_memory h hm (hf.trans (dmaRow_owed hk hn hw hb hp))⟩⟩

end

section
variable {l : Nat} {s : State} {c : Core}

theorem exec_dmaComplete_oldest {m : Dma} (h : coreRuns s.dev l = some c) (hm : c.dmas.find? (fun m => !m.done) = some m) :
    exec (.dmaComplete l) s = .next (s.onDev (setCore l (raise m.flags { c with dmas :=
      (c.dmas.map (fun x => if x.seq = m.seq then { x with done := true } else x)).filter (fun x => !x.done || x.poison.isSome) }))) :=
  eff_eq_onDev (by simp only [h, hm])

theorem exec_dmaComplete_none (h : coreRuns s.dev l = some c) (hm : c.dmas.find? (fun m => !m.done) = none) :
    exec (.dmaComplete l) s = .next s :=
  eff_idle (by simp only [h, hm])

end

/-- Settles O11: DMAIN and DMAOUT are one `dmaRow` with moves of their own, and DMA_COMPLETE ends the oldest. -/
theorem dmaMovesItsElements : Obligations.DmaMovesItsElements := by
  intro s l w c d a n code size turned may free
  refine ⟨fun hmajor hfunc => ?dmain, fun hmajor hfunc => ?dmaout, fun hruns =>
    ⟨fun m => exec_dmaComplete_oldest hruns, exec_dmaComplete_none hruns⟩⟩
  case dmain =>
    have hm := majorFunc_beq hmajor hfunc
    refine ⟨fun hat => eff_dmaRow_turned hat hm rfl,
      fun hruns hmay hn hfree => eff_coreRow_own hruns hm (dmaRow_none hmay hn hfree), fun hruns hmay hn v hv hfree => ?_⟩
    intro r job
    have moved : dmaRow w false (fun v => dmainStore w v d c (winReads v c (winIdx d c v (dmaIdx c w)) d)) d c = dmainStore w v d c r :=
      (dmaRow_free hmay hv hfree).trans (if_neg hn)
    have kept : r.1.programs = d.programs := winReads_programs ..
    exact ⟨fun hr => eff_coreRow_done hruns hm (moved.trans (by simp only [dmainStore, hr]; rfl)) kept,
      fun vals hr => eff_coreRow_done hruns hm (moved.trans (by simp only [dmainStore, hr]; rfl)) kept⟩
  case dmaout =>
    have hm := majorFunc_beq hmajor hfunc
    refine ⟨fun hat => eff_dmaRow_turned hat hm rfl,
      fun hruns hmay hn hfree => eff_coreRow_own hruns hm (dmaRow_none hmay hn hfree), fun hruns hmay hn v hv hfree => ?_⟩
    exact eff_coreRow_done hruns hm ((dmaRow_free hmay hv hfree).trans (if_neg hn))
      ((recordScaled_programs ..).trans ((afterWrite_programs ..).trans (winWrites_programs ..)))

end Sys2Proof.Proofs
end

section
/-! Accesses that convert: LDW, STW, VLDW, VSTW, VLDC, VSTC and CVT (06 R203, R204; 07 R221). -/
namespace Sys2Proof.Proofs
open Sys2Proof Sys2Proof.Machine Sys2Proof.Laws

section
variable {k : Chk} {d : Dev} {b : Bool} {r : CRes}

/-- A check that passes, and then the wait behind it. -/
theorem guarded_waits (hk : k = none) (hb : b = true) : guarded k d (if b then .stall else r) = .stall :=
  (guarded_pass hk).trans (if_pos hb)

theorem guarded_goes (hk : k = none) (hb : b = false) : guarded k d (if b then .stall else r) = r :=
  (guarded_pass hk).trans (if_neg (ne_true_of_eq_false hb))

end

/-! ### One element of a window (06 R203) -/

/-- LDW of element `e` through window `v`. -/
def loadElement (w : BitVec 64) (v : Window) (d : Dev) (c : Core) (e : Nat) : CRes :=
  let r := winRead v c e d
  match r.2 with
  | none => .memory v.tensor (rdS c (wRB w)).toNat r.1
  | some b =>
    let x := fromTensor d (coreItem d c) (optW w) v.tensor v.fmt (scalarCode v.fmt) b
    done r.1 (raise x.2 (wrS (wRD w) (BitVec.ofNat 64 x.1) c))

/-- LDW or STW once nothing keeps it waiting. -/
def moveElement (l : Nat) (w : BitVec 64) (write : Bool) (v : Window) (d : Dev) (c : Core) : CRes :=
  let j : Int := (rdS c (wRB w)).toNat
  if write then
    let r := winStore l d c v (optW w) (scalarCode v.fmt) ((winIdx d c v [j]).map (fun e => (e, (rdS c (wRD w)).toNat)))
    done r.1 r.2
  else match winElem d c v j with
    | none => .fault 0x108 j.toNat d
    | some e => loadElement w v d c e

/-- What LDW and STW share: the window, its permission and bounds, and the wait. -/
def elementRow (l : Nat) (w : BitVec 64) (write : Bool) (d : Dev) (c : Core) : CRes :=
  match rdW c (wW w) with
  | none => .fault 0x104 0 d
  | some v => guarded (lowest [winPerm (some v) write, winBound d c v (rdS c (wRB w)).toNat]) d
      (if winBusy c v then .stall else moveElement l w write v d c)

theorem exec_elementRow (write : Bool) (l : Nat) (w : BitVec 64) (s : State) : exec (if write then .stw l w else .ldw l w) s =
    eff (coreRow l w (wMajor w == 0x11 && wFunc w == b2n write) (elementRow l w write)) s := by
  cases write <;> rfl

section
variable {l : Nat} {w : BitVec 64} {write : Bool} {d : Dev} {c : Core} {v : Window} {e : Nat}

theorem elementRow_shut (h : rdW c (wW w) = none) : elementRow l w write d c = .fault 0x104 0 d := by simp [elementRow, h]

theorem elementRow_open (h : rdW c (wW w) = some v) : elementRow l w write d c =
    guarded (lowest [winPerm (some v) write, winBound d c v (rdS c (wRB w)).toNat]) d
      (if winBusy c v then .stall else moveElement l w write v d c) := by simp [elementRow, h]

theorem moveElement_load (he : winElem d c v (rdS c (wRB w)).toNat = some e) :
    moveElement l w false v d c = loadElement w v d c e := by simp [moveElement, he]

theorem moveElement_store (he : winElem d c v (rdS c (wRB w)).toNat = some e) : moveElement l w true v d c =
    done (winStore l d c v (optW w) (scalarCode v.fmt) [(e, (rdS c (wRD w)).toNat)]).1
      (winStore l d c v (optW w) (scalarCode v.fmt) [(e, (rdS c (wRD w)).toNat)]).2 := by simp [moveElement, winIdx, he]

theorem loadElement_unread (h : (winRead v c e d).2 = none) :
    loadElement w v d c e = .memory v.tensor (rdS c (wRB w)).toNat (winRead v c e d).1 := by simp only [loadElement, h]

theorem loadElement_read {b : Nat} (h : (winRead v c e d).2 = some b) : loadElement w v d c e =
    done (winRead v c e d).1 (raise (fromTensor d (coreItem d c) (optW w) v.tensor v.fmt (scalarCode v.fmt) b).2
      (wrS (wRD w) (BitVec.ofNat 64 (fromTensor d (coreItem d c) (optW w) v.tensor v.fmt (scalarCode v.fmt) b).1) c)) := by
  simp only [loadElement, h]

end

/-- A store leaves the core's place in its segment alone. -/
@[simp] theorem winStore_place (l : Nat) (d : Dev) (c : Core) (v : Window) (o : CvtOpt) (src : Nat) (es : List (Nat × Nat)) :
    (winStore l d c v o src es).2.pc = c.pc ∧ (winStore l d c v o src es).2.prog = c.prog ∧ (winStore l d c v o src es).2.seg = c.seg :=
  ⟨rfl, rfl, rfl⟩

/-! ### The active elements of a vector and a window (07 R221, R222) -/

/-- The active elements of a format W vector access. -/
def activeW (w : BitVec 64) (c : Core) : List Nat := actives c (wP w) (vlMax (wFmt w))

/-- Their indices in the window. -/
def activeIdx (w : BitVec 64) (c : Core) : List Int := (activeW w c).map (fun k => ((rdS c (wRB w)).toNat : Int) + (k : Nat))

/-- VLDW or VSTW through window `v`, once nothing keeps it waiting. -/
def moveActive (l : Nat) (w : BitVec 64) (write : Bool) (d : Dev) (c : Core) (v : Window) : CRes :=
  if write then
    let r := winStore l d c v (optW w) (fmtCode (wFmt w))
      ((winIdx d c v (activeIdx w c)).zip ((activeW w c).map (vElem (rdV c (wRD w)) (fmtW (wFmt w)))))
    done r.1 r.2
  else loadInto (wRD w) (wFmt w) (optW w) v (activeW w c) (activeIdx w c) d c

/-- The model's rows cast the list of elements before they add to each, where the statement casts each element. -/
theorem map_castList (j : Int) (ks : List Nat) :
    (do let k ← ks; pure (k : Int)).map (fun k => j + k) = ks.map (fun k => j + (k : Nat)) := by
  induction ks with
  | nil => rfl
  | cons k ks ih => simpa using ih

theorem exec_vectorWindow (write : Bool) (l : Nat) (w : BitVec 64) (s : State) : exec (if write then .vstw l w else .vldw l w) s =
    eff (coreRow l w (wMajor w == 0x12 && wFunc w == b2n write) (fun d c =>
      winAccess (wW w) write [wFmt w] (activeIdx w c) d c (moveActive l w write d c))) s := by
  cases write
  · show execVldw l w s = _
    simp only [execVldw, map_castList]
    rfl
  · show execVstw l w s = _
    simp only [execVstw, map_castList]
    rfl

section
variable {wi : Nat} {write : Bool} {fmts : List Nat} {js : List Int} {d : Dev} {c : Core} {f : Window → CRes} {v : Window}

theorem winAccess_inactive (h : js = []) : winAccess wi write fmts js d c f = guarded (vlCheck c fmts) d (done d c) := by
  simp [winAccess, h]

/-- An unset window comes before an excessive VL (06 R212). -/
theorem lowest_unset_vlCheck : lowest [some (0x104, 0), vlCheck c fmts] = some (0x104, 0) := by
  unfold vlCheck
  split <;> rfl

theorem winAccess_shut (h : js ≠ []) (hw : rdW c wi = none) : winAccess wi write fmts js d c f = .fault 0x104 0 d := by
  simp [winAccess, h, hw, guarded_fault lowest_unset_vlCheck]

theorem winAccess_open (h : js ≠ []) (hw : rdW c wi = some v) : winAccess wi write fmts js d c f =
    guarded (lowest [winPerm (some v) write, winBounds d c v js, vlCheck c fmts]) d (if winBusy c v then .stall else f v) := by
  simp [winAccess, h, hw]

end

section
variable {rd fmt : Nat} {o : CvtOpt} {v : Window} {ks : List Nat} {js : List Int} {d : Dev} {c : Core}

theorem loadInto_unread (h : (winReads v c (winIdx d c v js) d).2 = none) :
    loadInto rd fmt o v ks js d c = .memory v.tensor (wrapBits 64 (js.headD 0)) (winReads v c (winIdx d c v js) d).1 := by
  simp only [loadInto, h]

theorem loadInto_read {bs : List Nat} (h : (winReads v c (winIdx d c v js) d).2 = some bs) : loadInto rd fmt o v ks js d c =
    let xs := flSeq (bs.map (fromTensor d (coreItem d c) o v.tensor v.fmt (fmtCode fmt)))
    done (winReads v c (winIdx d c v js) d).1 (raise xs.2 (wrV rd (vUpdate (rdV c rd) (fmtW fmt) (ks.zip xs.1)) c)) := by
  simp only [loadInto, h]

end

/-! ### The active elements of a vector and core memory (06 R191, 04 R133) -/

/-- Where element `k` of a contiguous access stands. -/
def elemAt (w : BitVec 64) (c : Core) (k : Nat) : Nat := (rdS c (wRA w)).toNat + k * fmtBytes (fmtCode (wFmt w))

/-- The checks of the elements' range and alignment and of VL. -/
def elemsCheck (w : BitVec 64) (c : Core) (ks : List Nat) : Chk :=
  let size := fmtBytes (fmtCode (wFmt w))
  lowest [lowest (ks.map (fun k => if cmSize < elemAt w c k + size then some (0x102, elemAt w c k)
    else if elemAt w c k % size ≠ 0 then some (0x103, elemAt w c k) else none)), vlCheck c [wFmt w]]

/-- A unit holds bytes of an element. -/
def elemsBusy (w : BitVec 64) (c : Core) (ks : List Nat) : Bool :=
  ks.any (fun k => cmBusy c (elemAt w c k) (fmtBytes (fmtCode (wFmt w))))

/-- The tensor and the address, where a DMA owes bytes of an element. -/
def elemsOwed (w : BitVec 64) (c : Core) (ks : List Nat) : Option (Nat × Nat) :=
  ks.findSome? (fun k => (cmPoison c (elemAt w c k) (fmtBytes (fmtCode (wFmt w)))).map (fun t => (t, elemAt w c k)))

section
variable {w : BitVec 64} {ks : List Nat} {d : Dev} {c : Core} {r : CRes}

theorem vcAccess_eq : vcAccess w ks d c r = guarded (elemsCheck w c ks) d (if elemsBusy w c ks then .stall
    else match elemsOwed w c ks with
      | some t => .memory t.1 t.2 d
      | none => r) := rfl

theorem vcAccess_owed {t : Nat × Nat} (hk : elemsCheck w c ks = none) (hb : elemsBusy w c ks = false) (ho : elemsOwed w c ks = some t) :
    vcAccess w ks d c r = .memory t.1 t.2 d := by
  rw [vcAccess_eq, guarded_goes hk hb, ho]

theorem vcAccess_free (hk : elemsCheck w c ks = none) (hb : elemsBusy w c ks = false) (ho : elemsOwed w c ks = none) :
    vcAccess w ks d c r = r := by
  rw [vcAccess_eq, guarded_goes hk hb, ho]

end

/-- The core after VLDC or VSTC. -/
def elemsMoved (w : BitVec 64) (write : Bool) (c : Core) : Core :=
  let size := fmtBytes (fmtCode (wFmt w))
  if write then { c with mem := (activeW w c).foldl (fun m k =>
    memWrite m (elemAt w c k) (toLe size (storeForm (fmtCode (wFmt w)) (vElem (rdV c (wRD w)) (8 * size) k)))) c.mem }
  else wrV (wRD w) (vUpdate (rdV c (wRD w)) (8 * size)
    ((activeW w c).zip ((activeW w c).map (fun k => ofLe (memRead c.mem (elemAt w c k) size))))) c

theorem elemsMoved_place (w : BitVec 64) (write : Bool) (c : Core) :
    (elemsMoved w write c).pc = c.pc ∧ (elemsMoved w write c).prog = c.prog ∧ (elemsMoved w write c).seg = c.seg := by
  unfold elemsMoved
  split <;> exact ⟨rfl, rfl, rfl⟩

theorem exec_vectorCore (write : Bool) (l : Nat) (w : BitVec 64) (s : State) : exec (if write then .vstc l w else .vldc l w) s =
    eff (coreRow l w (wMajor w == 0x12 && wFunc w == 2 + b2n write) (fun d c =>
      vcAccess w (activeW w c) d c (done d (elemsMoved w write c)))) s := by
  cases write <;> rfl

/-! ### CVT (06 R204) -/

/-- The scalar form of CVT once its checks have passed. -/
def cvtScalar (w : BitVec 64) (d : Dev) (c : Core) : CRes :=
  let code := fmtCode (wFmt w)
  let bits := (rdS c (wRA w)).toNat % 2 ^ (8 * fmtBytes (fmtCode (fld w 32 4)))
  let x := cvtOne d c w ((cvtKey d c w).getD 0) bits
  done (cvtRecord d c w [bits] x.2) (raise x.2 (wrS (wRD w)
    (if (fpOf code).isSome then BitVec.ofNat 64 x.1 else BitVec.ofInt 64 (signExt (8 * fmtBytes code) x.1)) c))

/-- The vector form of CVT on its active elements, once its checks have passed. -/
def cvtVector (w : BitVec 64) (ks : List Nat) (d : Dev) (c : Core) : CRes :=
  let vals := ks.map (vElem (rdV c (wRA w)) (fmtW (fld w 32 4)))
  let xs := flSeq (vals.map (cvtOne d c w ((cvtKey d c w).getD 0)))
  done (cvtRecord d c w vals xs.2) (raise xs.2 (wrV (wRD w) (vUpdate (rdV c (wRD w)) (fmtW (wFmt w)) (ks.zip xs.1)) c))

/-- The active elements of the vector form. -/
def cvtActives (w : BitVec 64) (c : Core) : List Nat := actives c (wP w) (min (vlMax (fld w 32 4)) (vlMax (wFmt w)))

theorem exec_cvt (l : Nat) (w : BitVec 64) (s : State) : exec (.cvt l w) s =
    eff (coreRow l w (wMajor w == 0x20 && wFunc w == 0) (fun d c =>
      if fld w 36 1 = 0 then guarded (lowest [cvtWindow c w, cvtBound d c w true]) d (cvtScalar w d c)
      else guarded (lowest [vlCheck c [fld w 32 4, wFmt w], cvtWindow c w, cvtBound d c w (!(cvtActives w c).isEmpty)]) d
        (cvtVector w (cvtActives w c) d c))) s := rfl

/-- Settles O12: each pair of rows shares its checks and waits, and then does what its own move says. -/
theorem convertingAccesses : Obligations.ConvertingAccesses := by
  intro s l w c d it code size j ks js base reg
  refine ⟨fun hmajor write hfunc => ?element, fun hmajor write hfunc => ?window, fun hmajor write hfunc => ?core,
    fun hmajor hfunc => ?cvt⟩
  case element =>
    intro o
    have ho : o = _ := exec_elementRow write l w s
    have hm := majorFunc_beq hmajor hfunc
    refine ⟨fun hat hv => ho.trans (eff_coreRow_faulted (k := (0x104, 0)) hat hm (elementRow_shut hv)), fun v hv => ?_⟩
    have row := elementRow_open (l := l) (write := write) (d := d) hv
    intro chk
    refine ⟨fun hat k hk => ho.trans (eff_coreRow_faulted hat hm (row.trans (guarded_fault hk))),
      fun hat hk hb => ho.trans (eff_coreRow_stall hat hm (row.trans (guarded_waits hk hb))), fun hk hb e he => ?_⟩
    have moved : elementRow l w write d c = moveElement l w write v d c := row.trans (guarded_goes hk hb)
    refine ⟨fun hread hat hr => ?_, fun hread hruns b hr => ?_, fun hwrite hruns => ?_⟩
    · subst hread
      exact ho.trans (eff_coreRow_memory hat hm (moved.trans ((moveElement_load he).trans (loadElement_unread hr))))
    · subst hread
      exact ho.trans (eff_coreRow_done hruns hm (moved.trans ((moveElement_load he).trans (loadElement_read hr))) (winRead_programs ..))
    · subst hwrite
      exact ho.trans (eff_coreRow_done hruns hm (moved.trans (moveElement_store he)) (winStore_programs ..))
  case window =>
    intro o vl
    have ho : o = _ := exec_vectorWindow write l w s
    have hm := majorFunc_beq hmajor hfunc
    have some_active (h : ks ≠ []) : js ≠ [] := by simpa [js] using h
    refine ⟨fun hnone => ?_, fun hat hks hv => ho.trans (eff_coreRow_faulted (k := (0x104, 0)) hat hm (winAccess_shut (some_active hks) hv)),
      fun hks v hv => ?_⟩
    · have row : winAccess (wW w) write [wFmt w] js d c (moveActive l w write d c) = guarded vl d (done d c) :=
        winAccess_inactive (by simp [js, hnone])
      exact ⟨fun hat k hk => ho.trans (eff_coreRow_faulted hat hm (row.trans (guarded_fault hk))),
        fun hruns hk => ho.trans (eff_coreRow_own hruns hm (row.trans (guarded_pass hk)))⟩
    · have row := winAccess_open (write := write) (fmts := [wFmt w]) (d := d) (f := moveActive l w write d c) (some_active hks) hv
      intro chk r
      refine ⟨fun hat k hk => ho.trans (eff_coreRow_faulted hat hm (row.trans (guarded_fault hk))),
        fun hat hk hb => ho.trans (eff_coreRow_stall hat hm (row.trans (guarded_waits hk hb))), fun hread hk hb => ?_,
        fun hwrite hruns hk hb => ?_⟩
      · subst hread
        have moved := row.trans (guarded_goes hk hb)
        exact ⟨fun hat hr => ho.trans (eff_coreRow_memory hat hm (moved.trans (loadInto_unread hr))),
          fun hruns bs hr => ho.trans (eff_coreRow_done hruns hm (moved.trans (loadInto_read hr)) (winReads_programs ..))⟩
      · subst hwrite
        exact ho.trans (eff_coreRow_done hruns hm (row.trans (guarded_goes hk hb)) (winStore_programs ..))
  case core =>
    intro o at' bad chk owed
    have ho : o = _ := exec_vectorCore write l w s
    have hm := majorFunc_beq hmajor hfunc
    refine ⟨fun hat k hk => ho.trans (eff_coreRow_faulted hat hm (guarded_fault hk)),
      fun hat hk hb => ho.trans (eff_coreRow_stall hat hm (guarded_waits hk hb)),
      fun hat hk hb t ht => ho.trans (eff_coreRow_memory hat hm (vcAccess_owed hk hb ht)), fun hruns hk hb ht => ?_⟩
    have moved : o = .next (s.advanced l (elemsMoved w write c) d) :=
      ho.trans (eff_coreRow_own hruns hm (vcAccess_free hk hb ht) (elemsMoved_place w write c))
    exact ⟨fun hread => by subst hread; exact moved, fun hwrite => by subst hwrite; exact moved⟩
  case cvt =>
    intro si src win idx key one keyed
    have ho := exec_cvt l w s
    have hm := majorFunc_beq hmajor hfunc
    refine ⟨fun hform => ?_, fun hform => ?_⟩
    · exact ⟨fun hat k hk => ho.trans (eff_coreRow_faulted hat hm ((if_pos hform).trans (guarded_fault hk))),
        fun hruns hk => ho.trans (eff_coreRow_done hruns hm ((if_pos hform).trans (guarded_pass hk)) (cvtRecord_programs ..))⟩
    · have vector : ¬ fld w 36 1 = 0 := by simp [hform]
      intro kc chk vals xs
      exact ⟨fun hat k hk => ho.trans (eff_coreRow_faulted hat hm ((if_neg vector).trans (guarded_fault hk))),
        fun hruns hk => ho.trans (eff_coreRow_done hruns hm ((if_neg vector).trans (guarded_pass hk)) (cvtRecord_programs ..))⟩

end Sys2Proof.Proofs
end

section
/-! The solver unit and the assembly stage in a program (06 R207; 08 R247, R250, R251, R255, R280, R281; log 15). -/
namespace Sys2Proof.Proofs
open Sys2Proof Sys2Proof.Machine Sys2Proof.Laws

/-- The sources of a kind, read where the program has a window for them. -/
def asmFetched (c : Core) (desc : Bytes) (kind : Nat) (es : List Nat) (d : Dev) : Dev × Option (Fl (List (Nat × Nat))) :=
  match asmWin c desc kind with
  | none => (d, some ([], 0))
  | some w => asmFetch c w es d

theorem asmFetched_programs (c : Core) (desc : Bytes) (kind : Nat) (es : List Nat) (d : Dev) :
    (asmFetched c desc kind es d).1.programs = d.programs := by
  unfold asmFetched
  split
  · rfl
  · exact asmFetch_programs ..

theorem asmJobOf_programs (d : Dev) (c : Core) (ra : BitVec 64) : (asmJobOf d c ra).1.programs = d.programs := by
  unfold asmJobOf
  dsimp only
  split
  · rfl
  split
  · rfl
  split
  · rfl
  split
  · exact (asmFetched_programs ..).trans (asmFetched_programs ..)
  · exact (asmFetched_programs ..).trans (asmFetched_programs ..)

/-- The unit, the assembly stage and the output stage are idle: ASM and SLVS may start (08 R247). -/
def UnitsIdle (c : Core) : Prop := (c.slvJob = none ∧ c.asmJob = none) ∧ c.outJobs = []

/-- What ASM and SLVS share: the wait for the units, and what a DMA owes them. -/
def unitRow (owes : Option (Nat × Nat)) (start : CRes) (d : Dev) (c : Core) : CRes :=
  if c.slvJob.isSome || c.asmJob.isSome || !c.outJobs.isEmpty then .stall
  else match owes with
    | some t => .memory t.1 t.2 d
    | none => start

section
variable {owes : Option (Nat × Nat)} {start : CRes} {d : Dev} {c : Core}

theorem unitRow_busy (h : ¬ UnitsIdle c) : unitRow owes start d c = .stall := by
  refine if_pos ?_
  contrapose! h
  simpa [UnitsIdle, and_assoc] using h

section
variable (h : UnitsIdle c)
include h

theorem unitRow_owed {t : Nat × Nat} (ho : owes = some t) : unitRow owes start d c = .memory t.1 t.2 d := by
  obtain ⟨⟨hslv, hasm⟩, hout⟩ := h
  simp [unitRow, hslv, hasm, hout, ho]

theorem unitRow_free (ho : owes = none) : unitRow owes start d c = start := by
  obtain ⟨⟨hslv, hasm⟩, hout⟩ := h
  simp [unitRow, hslv, hasm, hout, ho]

end

end

theorem exec_asm (l : Nat) (w : BitVec 64) (s : State) : exec (.asm l w) s =
    eff (coreRow l w (wMajor w == 0x1C && wFunc w == 0) (fun d c => unitRow (asmOwes c (rdS c (wRA w)))
      (done (asmJobOf d c (rdS c (wRA w))).1 { c with asmJob := some (asmJobOf d c (rdS c (wRA w))).2 }) d c)) s := rfl

theorem exec_slvs (l : Nat) (w : BitVec 64) (s : State) : exec (.slvs l w) s =
    eff (coreRow l w (wMajor w == 0x1C && wFunc w == 1) (fun d c => unitRow (slvOwes c (rdS c (wRA w)) (rdS c (wRB w)))
      (done d { c with slvJob := some (slvJobOf c (rdS c (wRA w)) (rdS c (wRB w))) }) d c)) s := rfl

/-- SLVW once the units are idle: the kept memory fault, the kept fault, or the summary. -/
def slvAnswer (w : BitVec 64) (d : Dev) (c : Core) : CRes :=
  match c.slvPoison, c.slvFault with
  | some t, _ => .memory t c.slvFaultAddr.toNat d
  | none, some k => .fault k c.slvFaultAddr.toNat d
  | none, none => done d (wrS (wRD w) c.slvSummary c)

theorem exec_slvw (l : Nat) (w : BitVec 64) (s : State) : exec (.slvw l w) s =
    eff (coreRow l w (wMajor w == 0x1C && wFunc w == 2) (fun d c =>
      if c.slvJob.isSome || c.asmJob.isSome then .stall else slvAnswer w d c)) s := rfl

section
variable {w : BitVec 64} {d : Dev} {c : Core}

theorem slvAnswer_memory {t : Nat} (h : c.slvPoison = some t) : slvAnswer w d c = .memory t c.slvFaultAddr.toNat d := by
  simp [slvAnswer, h]

theorem slvAnswer_fault {k : Nat} (h : c.slvPoison = none) (hk : c.slvFault = some k) :
    slvAnswer w d c = .fault k c.slvFaultAddr.toNat d := by simp [slvAnswer, h, hk]

theorem slvAnswer_summary (h : c.slvPoison = none) (hk : c.slvFault = none) :
    slvAnswer w d c = done d (wrS (wRD w) c.slvSummary c) := by simp [slvAnswer, h, hk]

end

/-- The status word that SLVQ answers; beyond the last solve's problems the spec leaves it open (log 20). -/
def slvStatusAt (c : Core) (q : BitVec 64) : BitVec 64 :=
  match c.slvStatus[q.toNat]? with
  | some v => v
  | none => Config.slvqBeyond c.slvStatus q

theorem exec_slvq (l : Nat) (w : BitVec 64) (s : State) : exec (.slvq l w) s =
    eff (coreRow l w (wMajor w == 0x1C && wFunc w == 3) (fun d c => done d (wrS (wRD w) (slvStatusAt c (rdS c (wRB w))) c))) s := by
  show execSlvq l w s = _
  simp only [execSlvq, slvStatusAt]
  congr
  funext d c
  cases c.slvStatus[(rdS c (wRB w)).toNat]? <;> rfl

section
variable {l : Nat} {s : State} {c : Core}

theorem exec_solverComplete_assembly {j : Job} (h : coreRuns s.dev l = some c) (hj : c.asmJob = some j) :
    exec (.solverComplete l) s = .next (s.onDev (setCore l (jobDone j false { c with asmJob := none }))) :=
  eff_eq_onDev (by simp only [h, hj])

theorem exec_solverComplete_solve {j : Job} (h : coreRuns s.dev l = some c) (ha : c.asmJob = none) (hj : c.slvJob = some j) :
    exec (.solverComplete l) s = .next (s.onDev (setCore l (jobDone j true { c with slvJob := none }))) :=
  eff_eq_onDev (by simp only [h, ha, hj])

theorem exec_solverComplete_idle (h : coreRuns s.dev l = some c) (hi : EngineIdle c) : exec (.solverComplete l) s = .next s :=
  eff_idle (by simp only [h, hi.1, hi.2])

end

/-- Settles O15: ASM and SLVS are one `unitRow`, SLVW answers by `slvAnswer`, and SOLVER_COMPLETE by which unit is busy. -/
theorem solverInvocation : Obligations.SolverInvocation := by
  intro s l w c d ra rb idle
  refine ⟨fun hmajor => ⟨fun hfunc => ?asm, fun hfunc => ?slvs, fun hfunc => ?slvw, fun hfunc hruns => ?slvq⟩, fun hruns =>
    ⟨fun j => exec_solverComplete_assembly hruns, fun j => exec_solverComplete_solve hruns, exec_solverComplete_idle hruns⟩⟩
  all_goals have hm := majorFunc_beq hmajor hfunc
  case asm =>
    have ho := exec_asm l w s
    exact ⟨fun hat hbusy => ho.trans (eff_coreRow_stall hat hm (unitRow_busy hbusy)),
      fun hat hidle hout t ht => ho.trans (eff_coreRow_memory hat hm (unitRow_owed ⟨hidle, hout⟩ ht)),
      fun hruns hidle hout hnone => ho.trans (eff_coreRow_done hruns hm (unitRow_free ⟨hidle, hout⟩ hnone) (asmJobOf_programs ..))⟩
  case slvs =>
    have ho := exec_slvs l w s
    exact ⟨fun hat hbusy => ho.trans (eff_coreRow_stall hat hm (unitRow_busy hbusy)),
      fun hat hidle hout t ht => ho.trans (eff_coreRow_memory hat hm (unitRow_owed ⟨hidle, hout⟩ ht)),
      fun hruns hidle hout hnone => ho.trans (eff_coreRow_own hruns hm (unitRow_free ⟨hidle, hout⟩ hnone))⟩
  case slvw =>
    have ho := exec_slvw l w s
    exact ⟨fun hat hbusy => ho.trans (eff_coreRow_stall hat hm (engine_busy hbusy)),
      fun hat hidle t ht => ho.trans (eff_coreRow_memory hat hm ((engine_idle hidle).trans (slvAnswer_memory ht))),
      fun hat hidle hnone k hk => ho.trans (eff_coreRow_faulted hat hm ((engine_idle hidle).trans (slvAnswer_fault hnone hk))),
      fun hruns hidle hnone hk => ho.trans (eff_coreRow_own hruns hm ((engine_idle hidle).trans (slvAnswer_summary hnone hk)))⟩
  case slvq => exact (exec_slvq l w s).trans (eff_coreRow_own hruns hm rfl)

end Sys2Proof.Proofs
end

section
/-! Flags, CSRs and synchronisation (06 R185, R196, R208, R209, R212; Table 6-9, 07 Table 7-4, 08 Table 8-10). -/
namespace Sys2Proof.Proofs
open Sys2Proof Sys2Proof.Machine Sys2Proof.Laws

/-! ### CSRs (06 R208) -/

/-- The CSRs with their values, CSR_CYCLE left out, which is a free value (log 19). -/
def csrValues (c : Core) : List (Nat × Nat) :=
  [(0x000, c.flags.toNat), (0x010, c.inst), (0x011, c.insts), (0x012, c.seg), (0x013, c.step), (0x014, c.bound),
    (0x016, openGroups c), (0x017, dmaCount c), (0x100, c.vl), (0x101, c.vfmt), (0x102, 256), (0x103, c.vff.toNat),
    (0x180, b2n c.slvJob.isSome + 2 * b2n c.asmJob.isSome), (0x181, c.slvSummary.toNat)]

/-- The numbers that are assigned. -/
def csrAssigned : List Nat :=
  [0x000, 0x010, 0x011, 0x012, 0x013, 0x014, 0x015, 0x016, 0x017, 0x100, 0x101, 0x102, 0x103, 0x180, 0x181]

/-- A number that no program may touch (06 R208). -/
def CsrPrivileged (n : Nat) : Prop := 0x700 ≤ n ∧ n ≤ 0x7FF

theorem csrValues_spec (d : Dev) (c : Core) : ∀ x ∈ csrValues c, ¬ CsrPrivileged x.1 ∧ x.1 ≠ 0x15 ∧ csrRead d c x.1 = x.2 := by
  simp [csrValues, csrRead, CsrPrivileged]

theorem csrRead_unassigned {n : Nat} (d : Dev) (c : Core) (h : n ∉ csrAssigned) : csrRead d c n = 0 := by
  unfold csrRead
  split
  case h_16 => rfl
  all_goals exact absurd (by decide) h

theorem csrReadOnly_iff {n : Nat} : csrReadOnly n = true ↔ n ∈ csrAssigned ∧ n ≠ 0 := by
  simp only [csrReadOnly, csrAssigned, Bool.or_eq_true, Bool.and_eq_true, decide_eq_true_eq, beq_iff_eq, List.mem_cons,
    List.not_mem_nil, or_false]
  omega

/-- CSRR: what it writes, and CSR_CYCLE's free value. -/
def csrrRow (w : BitVec 64) (d : Dev) (c : Core) : CRes :=
  let n := fld w 0 12
  if 0x700 ≤ n ∧ n ≤ 0x7FF then .fault 0x109 n d
  else done (if n = 0x15 then takeFree 1 d else d) (wrS (wRD w) (BitVec.ofNat 64 (csrRead d c n))
    (if n = 0x15 then { c with cycle := (Config.cycleCount d.free).toNat } else c))

theorem exec_csrr (l : Nat) (w : BitVec 64) (s : State) :
    exec (.csrr l w) s = eff (coreRow l w (wMajor w == 0x24 && wFunc w == 2) (csrrRow w)) s := rfl

section
variable {w : BitVec 64} {d : Dev} {c : Core}

theorem csrrRow_privileged (h : CsrPrivileged (fld w 0 12)) : csrrRow w d c = .fault 0x109 (fld w 0 12) d := if_pos h

theorem csrrRow_cycle (h : fld w 0 12 = 0x15) : csrrRow w d c = done (takeFree 1 d)
    (wrS (wRD w) (BitVec.ofNat 64 (Config.cycleCount d.free).toNat) { c with cycle := (Config.cycleCount d.free).toNat }) := by
  simp [csrrRow, h, csrRead]

theorem csrrRow_value {v : Nat} (hp : ¬ CsrPrivileged (fld w 0 12)) (h : fld w 0 12 ≠ 0x15) (hv : csrRead d c (fld w 0 12) = v) :
    csrrRow w d c = done d (wrS (wRD w) (BitVec.ofNat 64 v) c) :=
  (if_neg hp).trans (by simp [h, hv])

end

/-- CSRW: a refusal, a clear of flags, or nothing. -/
def csrwRow (w : BitVec 64) (d : Dev) (c : Core) : CRes :=
  let n := fld w 0 12
  if (0x700 ≤ n ∧ n ≤ 0x7FF) ∨ csrReadOnly n = true then .fault 0x109 n d
  else if n = 0 then done d { c with flags := c.flags &&& ~~~(BitVec.ofNat 4 ((rdS c (wRA w)).toNat % 16)) }
  else done d c

theorem exec_csrw (l : Nat) (w : BitVec 64) (s : State) :
    exec (.csrw l w) s = eff (coreRow l w (wMajor w == 0x24 && wFunc w == 3) (csrwRow w)) s := rfl

section
variable {w : BitVec 64} {d : Dev} {c : Core}

theorem csrwRow_refused (h : CsrPrivileged (fld w 0 12) ∨ (fld w 0 12 ∈ csrAssigned ∧ fld w 0 12 ≠ 0)) :
    csrwRow w d c = .fault 0x109 (fld w 0 12) d := if_pos (h.imp_right csrReadOnly_iff.mpr)

theorem csrwRow_flags (h : fld w 0 12 = 0) :
    csrwRow w d c = done d { c with flags := c.flags &&& ~~~(BitVec.ofNat 4 ((rdS c (wRA w)).toNat % 16)) } := by
  simp [csrwRow, h, csrReadOnly]

theorem csrwRow_unassigned (h : fld w 0 12 ∉ csrAssigned) (hp : ¬ CsrPrivileged (fld w 0 12)) : csrwRow w d c = done d c := by
  have hzero : fld w 0 12 ≠ 0 := fun h0 => h (by rw [h0]; decide)
  have hwritable : ¬ csrReadOnly (fld w 0 12) = true := fun hro => h (csrReadOnly_iff.mp hro).1
  exact (if_neg (not_or.mpr ⟨hp, hwritable⟩)).trans (if_neg hzero)

end

/-- The high part of an immediate that is small. -/
theorem fld_high_zero {x : BitVec 64} {k n : Nat} (h : fld x 0 32 / 2 ^ k = 0) (hn : k + n = 32) : fld x k n = 0 := by
  have hlow : x.toNat % 2 ^ (k + n) / 2 ^ k = 0 := by simpa [fld, bitsOf, hn] using h
  simpa [fld, bitsOf, pow_add, Nat.mod_mul_right_div_self] using hlow

/-- A word of major 0x24 in an image: its function, with the immediate's reserved bits zero. -/
theorem wordOk_csr {x : BitVec 64} (hmajor : wMajor x = 0x24) (h : wordOk x = true) :
    (wFunc x = 0 → fld x 0 32 = 0) ∧ (wFunc x = 1 → fld x 0 32 / 2 ^ 4 = 0) ∧ (wFunc x = 2 ∨ wFunc x = 3 → fld x 0 32 / 2 ^ 12 = 0) := by
  have hscalar : wordSOk x = true := by simpa [wordOk, hmajor] using h
  simp only [wordSOk, hmajor, Bool.and_eq_true] at hscalar
  obtain ⟨_, himm⟩ := hscalar
  refine ⟨fun hf => ?_, fun hf => ?_, fun hf => ?_⟩
  · simpa [hf] using himm
  · simpa [hf] using himm
  · rcases hf with hf | hf <;> simpa [hf] using himm

/-- Settles O16: the flags at once, CSRR and CSRW by the case of the number, and the reserved bits by `wordOk_csr`. -/
theorem flagsAndCsrs : Obligations.FlagsAndCsrs := by
  intro s l w c hruns hmajor d n clear priv
  refine ⟨fun hf => ?frd, fun hf => ?fclr, fun hf v hv => ?read, fun hf hn hp => ?readOther, fun hf hn => ?cycle, fun hf hp => ?readPriv,
    fun hf hn => ?clearFlags, fun hf hn => ?writePriv, fun hf hn hp => ?writeOther, fun x hx hok => ?image⟩
  case frd => exact eff_coreRow_own hruns (majorFunc_beq hmajor hf) rfl
  case fclr => exact eff_coreRow_own hruns (majorFunc_beq hmajor hf) rfl ⟨rfl, rfl, rfl⟩
  case read =>
    obtain ⟨hp, hcycle, hval⟩ := csrValues_spec d c (n, v) hv
    exact eff_coreRow_own hruns (majorFunc_beq hmajor hf) (csrrRow_value hp hcycle hval)
  case readOther =>
    have hcycle : n ≠ 0x15 := fun h => hn (by rw [h]; decide)
    exact eff_coreRow_own hruns (majorFunc_beq hmajor hf) (csrrRow_value hp hcycle (csrRead_unassigned d c hn))
  case cycle => exact eff_coreRow_done hruns (majorFunc_beq hmajor hf) (csrrRow_cycle hn) rfl
  case readPriv => exact eff_coreRow_fault hruns.1 (majorFunc_beq hmajor hf) (csrrRow_privileged hp)
  case clearFlags => exact eff_coreRow_own hruns (majorFunc_beq hmajor hf) (csrwRow_flags hn) ⟨rfl, rfl, rfl⟩
  case writePriv =>
    have hno : CsrPrivileged n ∨ (n ∈ csrAssigned ∧ n ≠ 0) := by
      refine hn.symm.imp_right fun h => ⟨List.mem_cons_of_mem _ h, fun h0 => ?_⟩
      exact absurd (h0 ▸ h) (by decide)
    exact eff_coreRow_fault hruns.1 (majorFunc_beq hmajor hf) (csrwRow_refused hno)
  case writeOther => exact eff_coreRow_own hruns (majorFunc_beq hmajor hf) (csrwRow_unassigned hn hp)
  case image =>
    obtain ⟨hfrd, hfclr, hcsr⟩ := wordOk_csr hx hok
    exact ⟨hfrd, fun hf => fld_high_zero (hfclr hf) rfl, fun hf => fld_high_zero (hcsr hf) rfl⟩

/-! ### Waits (06 R209) -/

section
variable {l : Nat} {w : BitVec 64} {mine : Bool} {f : Dev → Core → CRes} {s : State} {c : Core} {p : Bool} {ready : Prop} {n : Nat}

/-- A row that waits for `p` and then moves on. -/
theorem eff_coreRow_waits (hm : mine = true) (hf : f s.dev c = if p then done s.dev c else .stall) (hp : p = true ↔ ready) :
    (Runs s.dev l w c → ready → eff (coreRow l w mine f) s = .next (s.advanced l c s.dev)) ∧
    (AtWord s.dev l w c → ¬ ready → eff (coreRow l w mine f) s = .next s) :=
  ⟨fun hruns h => eff_coreRow_own hruns hm (hf.trans (if_pos (hp.mpr h))),
    fun hat h => eff_coreRow_stall hat hm (hf.trans (if_neg (mt hp.mp h)))⟩

/-- A row that first takes the memory fault of a DMA that it waits for, then waits for `ready` and moves on. -/
def owedRow (n : Nat) (r : CRes) (d : Dev) (c : Core) : CRes :=
  match dmaOwes c n with
  | some t => .memory t 0 d
  | none => r

theorem owedRow_owed {r : CRes} {d : Dev} {t : Nat} (h : dmaOwes c n = some t) : owedRow n r d c = .memory t 0 d := by
  simp [owedRow, h]

theorem owedRow_free {r : CRes} {d : Dev} (h : dmaOwes c n = none) : owedRow n r d c = r := by simp [owedRow, h]

theorem eff_coreRow_owedWaits {r : CRes} (hm : mine = true) (hf : f s.dev c = owedRow n r s.dev c) (hyes : ready → r = done s.dev c)
    (hno : ¬ ready → r = .stall) :
    (Runs s.dev l w c → dmaOwes c n = none → ready → eff (coreRow l w mine f) s = .next (s.advanced l c s.dev)) ∧
    (AtWord s.dev l w c → dmaOwes c n = none → ¬ ready → eff (coreRow l w mine f) s = .next s) ∧
    (AtWord s.dev l w c → ∀ t, dmaOwes c n = some t → eff (coreRow l w mine f) s = .next (s.memFaulted l c t 0 s.dev)) :=
  ⟨fun hruns ho h => eff_coreRow_own hruns hm (hf.trans ((owedRow_free ho).trans (hyes h))) ⟨rfl, rfl, rfl⟩,
    fun hat ho h => eff_coreRow_stall hat hm (hf.trans ((owedRow_free ho).trans (hno h))),
    fun hat _ ht => eff_coreRow_memory hat hm (hf.trans (owedRow_owed ht))⟩

end

theorem allIdle_iff {c : Core} : allIdle c = true ↔ dmaCount c = 0 ∧ c.outJobs = [] ∧ c.slvJob = none ∧ c.asmJob = none := by
  simp [allIdle, and_assoc]

theorem exec_waitd (l : Nat) (w : BitVec 64) (s : State) : exec (.waitd l w) s =
    eff (coreRow l w (wMajor w == 0x28 && wFunc w == 2) (fun d c =>
      owedRow (fld w 0 4) (if dmaCount c ≤ fld w 0 4 then done d c else .stall) d c)) s := rfl

theorem exec_waita (l : Nat) (w : BitVec 64) (s : State) : exec (.waita l w) s =
    eff (coreRow l w (wMajor w == 0x28 && wFunc w == 4) (fun d c =>
      owedRow 0 (if allIdle c then done d c else .stall) d c)) s := rfl

/-! ### The end of a segment (06 R185, R209, R212) -/

/-- What a segment's end fails on: a bad next segment, an open group, a unit's kept fault. -/
def endCheck (w : BitVec 64) (d : Dev) (c : Core) : Chk :=
  let nxt := (rdS c (wRA w)).toNat % 65536
  let count := ((aGet d.programs c.prog).getD {}).segs.length
  lowest [if nxt ≠ 0xFFFF ∧ count ≤ nxt then some (0x10A, nxt) else none, if c.tiles.isEmpty then none else some (0x206, 0),
    c.slvFault.map (fun f => (f, c.slvFaultAddr.toNat))]

/-- The device after a segment has ended: its item keeps the next segment, the carry and the first tide. -/
def instEnded (w : BitVec 64) (d : Dev) (c : Core) : Dev :=
  { d with items := aMod d.items c.item (fun i =>
      { i with insts := aMod i.insts c.inst (instEnd d c ((rdS c (wRA w)).toNat % 65536)) }) }

/-- SEGEND once all is idle: a unit's kept memory fault, the checks, and the end. -/
def segmentEnd (w : BitVec 64) (d : Dev) (c : Core) : CRes :=
  match c.slvPoison with
  | some t => .memory t c.slvFaultAddr.toNat d
  | none => guarded (endCheck w d c) d (.ok (instEnded w d c) (coreStop c))

theorem exec_segend (l : Nat) (w : BitVec 64) (s : State) : exec (.segend l w) s =
    eff (coreRow l w (wMajor w == 0x28 && wFunc w == 5) (fun d c =>
      owedRow 0 (if !allIdle c then .stall else segmentEnd w d c) d c)) s := rfl

section
variable {w : BitVec 64} {d : Dev} {c : Core}

theorem segmentEnd_memory {t : Nat} (h : c.slvPoison = some t) : segmentEnd w d c = .memory t c.slvFaultAddr.toNat d := by
  simp [segmentEnd, h]

theorem segmentEnd_checked (h : c.slvPoison = none) :
    segmentEnd w d c = guarded (endCheck w d c) d (.ok (instEnded w d c) (coreStop c)) := by simp [segmentEnd, h]

end

/-- A core that its row stops stays stopped (06 R209). -/
theorem eff_coreRow_stops {l : Nat} {w : BitVec 64} {mine : Bool} {f : Dev → Core → CRes} {s : State} {c c' : Core} {d' : Dev}
    (h : AtWord s.dev l w c) (hm : mine = true) (hf : f s.dev c = .ok d' c') (hstop : c'.run = false) :
    eff (coreRow l w mine f) s = .next { s with dev := setCore l c' d' } :=
  eff_eq_dev (by rw [coreRow_settle h hm, hf]; exact if_neg (by simp [hstop]))

/-- Settles O17: each wait is `eff_coreRow_waits` or `eff_coreRow_owedWaits` with what it waits for, and SEGEND ends by `segmentEnd`. -/
theorem synchronisationAndSegmentEnd : Obligations.SynchronisationAndSegmentEnd := by
  intro s l w c hmajor d nxt count idle faults
  refine ⟨fun hf hruns => eff_coreRow_own hruns (majorFunc_beq hmajor hf) rfl ⟨rfl, rfl, rfl⟩, fun i f ready hi hf => ?wait,
    fun i f n ready hi hf => ?owedWait, fun hat hf => ?segend⟩
  case wait =>
    simp only [List.mem_cons, Prod.mk.injEq, List.not_mem_nil, or_false] at hi
    rcases hi with ⟨rfl, rfl, rfl⟩ | ⟨rfl, rfl, rfl⟩
    · exact eff_coreRow_waits (majorFunc_beq hmajor hf) rfl (by simp)
    · exact eff_coreRow_waits (majorFunc_beq hmajor hf) rfl (by simp)
  case owedWait =>
    simp only [List.mem_cons, Prod.mk.injEq, List.not_mem_nil, or_false] at hi
    rcases hi with ⟨rfl, rfl, rfl, rfl⟩ | ⟨rfl, rfl, rfl, rfl⟩
    · rw [exec_waitd]
      exact eff_coreRow_owedWaits (majorFunc_beq hmajor hf) rfl (fun h => if_pos h) (fun h => if_neg h)
    · rw [exec_waita]
      exact eff_coreRow_owedWaits (majorFunc_beq hmajor hf) rfl (fun h => if_pos (allIdle_iff.mpr h)) (fun h => if_neg (mt allIdle_iff.mp h))
  case segend =>
    have ho := exec_segend l w s
    have ends (howes : dmaOwes c 0 = none) (hidle : idle) :
        owedRow 0 (if !allIdle c then .stall else segmentEnd w d c) d c = segmentEnd w d c :=
      (owedRow_free howes).trans (if_neg (by simp [allIdle_iff.mpr hidle]))
    refine ⟨fun t ht => ho.trans (eff_coreRow_memory hat (majorFunc_beq hmajor hf) (owedRow_owed ht)),
      fun howes hbusy => ho.trans (eff_coreRow_stall hat (majorFunc_beq hmajor hf) ((owedRow_free howes).trans (if_pos ?_))),
      fun howes hidle t ht => ho.trans (eff_coreRow_memory hat (majorFunc_beq hmajor hf) ((ends howes hidle).trans (segmentEnd_memory ht))),
      fun howes hidle hnone k hk => ho.trans (eff_coreRow_faulted hat (majorFunc_beq hmajor hf)
        ((ends howes hidle).trans ((segmentEnd_checked hnone).trans (guarded_fault hk)))),
      fun howes hidle hnone hk => ho.trans (eff_coreRow_stops hat (majorFunc_beq hmajor hf)
        ((ends howes hidle).trans ((segmentEnd_checked hnone).trans (guarded_pass hk))) rfl)⟩
    simpa using mt allIdle_iff.mp hbusy

end Sys2Proof.Proofs
end

section
/-! The events of segments: SEGMENT_START, SEGMENT_BOUND_REACHED and ENGINE_RAMP_DOWN (05 R172, R182; 06 R186, R214; 02 R43, R48). -/
namespace Sys2Proof.Proofs
open Sys2Proof Sys2Proof.Machine Sys2Proof.Laws

/-- An idle core may start a segment: the working window of a running tide, and neither a fill nor a lost word stands against it. -/
structure MayStart (d : Dev) (l : Nat) (c : Core) : Prop where
  core : aGet d.cores l = some c
  clocks : clocksRun d = true
  phase : d.tide.phase = .work
  run : d.tide.run = true
  idle : c.run = false
  whole : c.pastFall = false
  unfilled : ∀ f ∈ d.units.fills, f.l ≠ l

/-- The core takes the planned segment: it starts, or is dropped where its item is gone or has ended. -/
def takePlanned (l : Nat) (c : Core) (o i g : Nat) (rest : List (Nat × Nat × Nat)) (d : Dev) : Dev :=
  match aGet d.items o with
  | none => setCore l { c with plan := rest } d
  | some it => if it.stage = .admitted then setCore l (startCore d { c with plan := rest } it i g) d else setCore l { c with plan := rest } d

section
variable {l : Nat} {s : State} {c : Core} {o i g : Nat} {rest : List (Nat × Nat × Nat)}

theorem exec_segmentStart {d : Dev} (h : MayStart s.dev l c) (hplan : c.plan = (o, i, g) :: rest)
    (htaken : takePlanned l c o i g rest s.dev = d) : exec (.segmentStart l) s = .next { s with dev := d } := by
  obtain ⟨hcore, hclocks, hphase, hrun, hidle, hwhole, hfills⟩ := h
  have hfree : s.dev.units.fills.any (fun f => f.l == l) = false := by simpa using hfills
  refine eff_eq_dev (Eq.trans ?_ htaken)
  simp only [hcore, hplan]
  exact if_pos (by simp [hclocks, hphase, hrun, hidle, hwhole, hfree])

theorem takePlanned_starts {d : Dev} {it : Item} (hit : aGet d.items o = some it) (hadm : it.stage = .admitted) :
    takePlanned l c o i g rest d = setCore l (startCore d { c with plan := rest } it i g) d := by simp [takePlanned, hit, hadm]

theorem takePlanned_drops {d : Dev} (hgone : ∀ it, aGet d.items o = some it → it.stage ≠ .admitted) :
    takePlanned l c o i g rest d = setCore l { c with plan := rest } d := by
  unfold takePlanned
  split
  · rfl
  · exact if_neg (hgone _ ‹_›)

theorem exec_segmentBoundReached_stops (h : coreRuns s.dev l = some c) :
    exec (.segmentBoundReached l) s = .next { s with dev := stopSegment l 1 s.dev c } :=
  eff_eq_dev (by simp only [h])

theorem exec_engineRampDown_disables (h : coreRuns s.dev l = some c) :
    exec (.engineRampDown l) s = .next (s.onDev (setCore l { c with rowGroups := 0, idle := 256 })) :=
  eff_eq_onDev (by simp only [h])

end

/-- Settles O18: a planned segment starts or is dropped by its item, and a running core's two events each have the one effect. -/
theorem segmentEvents : Obligations.SegmentEvents := by
  intro s l c d
  refine ⟨fun hcore hclocks hphase hrun hidle hwhole hfills o i g rest hplan => ?start, fun hruns =>
    ⟨exec_segmentBoundReached_stops hruns, exec_engineRampDown_disables hruns⟩⟩
  have hmay : MayStart d l c := ⟨hcore, hclocks, hphase, hrun, hidle, hwhole, hfills⟩
  exact ⟨fun it hit hadm => exec_segmentStart hmay hplan (takePlanned_starts hit hadm),
    fun hgone => exec_segmentStart hmay hplan (takePlanned_drops hgone)⟩

end Sys2Proof.Proofs
end

section
/-! Vector length and predicates (07 R220 to R223), and the masks of bits that predicates are written from. -/
namespace Sys2Proof.Proofs
open Sys2Proof Sys2Proof.Machine Sys2Proof.Laws

/-! ### Masks of bits -/

theorem testBit_foldl_setBit (l : List Nat) (m k : Nat) :
    (l.foldl (fun acc i => acc ||| 2 ^ i) m).testBit k = (m.testBit k || l.contains k) := by
  induction l generalizing m with
  | nil => simp
  | cons i l ih => simp [ih, Nat.testBit_two_pow, Bool.or_assoc, eq_comm]

theorem testBit_bitMask (l : List Nat) (k : Nat) : (bitMask l).testBit k = l.contains k :=
  (testBit_foldl_setBit l 0 k).trans (by simp)

/-- A predicate register written from the list of its true bits. -/
theorem getLsbD_ofNat_bitMask {k : Nat} (l : List Nat) (hk : k < 256) : (BitVec.ofNat 256 (bitMask l)).getLsbD k = l.contains k := by
  rw [BitVec.getLsbD_ofNat, testBit_bitMask, decide_eq_true hk, Bool.true_and]

theorem getLsbD_predOf {k : Nat} (f : Nat → Bool) (hk : k < 256) : (predOf f).getLsbD k = f k :=
  (getLsbD_ofNat_bitMask _ hk).trans (by simp [hk])

/-! ### The predicate functions (07 R223) -/

/-- The logic functions with their results. -/
def predResults (a b : BitVec 256) : List (Nat × BitVec 256) :=
  [(8, a &&& b), (9, a ||| b), (10, a &&& ~~~b), (11, a ^^^ b), (12, ~~~a)]

theorem predResults_spec {a b : BitVec 256} : ∀ x ∈ predResults a b, (8 ≤ x.1 ∧ x.1 ≤ 12) ∧ predOp x.1 a b = x.2 := by
  simp [predResults, predOp]

/-- The lowest true bit below `n`, or `n`. -/
def firstBelow (p : BitVec 256) (n : Nat) : Nat := ((List.range n).find? (fun i => p.getLsbD i)).getD n

theorem firstBelow_spec (p : BitVec 256) (n : Nat) : firstBelow p n ≤ n ∧ (∀ i, i < firstBelow p n → p.getLsbD i = false) ∧
    (firstBelow p n < n → p.getLsbD (firstBelow p n) = true) := by
  unfold firstBelow
  cases hfind : (List.range n).find? (fun i => p.getLsbD i) with
  | none => simpa using hfind
  | some m =>
    obtain ⟨htrue, hmem, hbelow⟩ := List.find?_range_eq_some.mp hfind
    exact ⟨(List.mem_range.mp hmem).le, fun i hi => by simpa using hbelow i hi, fun _ => htrue⟩

/-- Settles O19: each row writes the one register of its rule; the bits of PWHILE are those of `predOf`, and PFIRST is `firstBelow`. -/
theorem grantsAndPredicates : Obligations.GrantsAndPredicates := by
  intro s l w c hruns hmajor d vmax pa pb granted x
  have place (n : Nat) : (granted n).pc = c.pc ∧ (granted n).prog = c.prog ∧ (granted n).seg = c.seg := by simp [granted]
  refine ⟨fun hf => eff_coreRow_own hruns (majorFunc_beq hmajor hf) rfl (place _),
    fun hf => eff_coreRow_own hruns (majorFunc_beq hmajor hf) rfl (place _), fun hf => eff_coreRow_own hruns (majorFunc_beq hmajor hf) rfl,
    fun v hv => ?logic, fun hf => ⟨predOf fun i => decide (i < vmax) && decide (x + i < (rdS c (wRB w)).toNat),
      eff_coreRow_own hruns (majorFunc_beq hmajor hf) rfl, fun i hi => getLsbD_predOf _ hi⟩,
    fun hf => eff_coreRow_own hruns (majorFunc_beq hmajor hf) rfl,
    fun hf => ⟨firstBelow pa c.vl, eff_coreRow_own hruns (majorFunc_beq hmajor hf) rfl, firstBelow_spec pa c.vl⟩⟩
  obtain ⟨⟨hlow, hhigh⟩, hop⟩ := predResults_spec (wFunc w, v) hv
  obtain rfl : predOp (wFunc w) pa pb = v := hop
  exact eff_coreRow_own hruns (by simp [hmajor, hlow, hhigh]) rfl

end Sys2Proof.Proofs
end

section
/-! Vector arithmetic, approximations and comparisons (07 R222, R226, R227, R236), and what every vector row shares: the test of VL. -/
namespace Sys2Proof.Proofs
open Sys2Proof Sys2Proof.Machine Sys2Proof.Laws

/-! ### Rows that test VL (07 R221) -/

section
variable {l : Nat} {w : BitVec 64} {mine : Bool} {f : Dev → Core → CRes} {s : State} {c c' : Core} {fmts : List Nat} {r : CRes} {i : Nat}

theorem vlCheck_over (hi : i ∈ fmts) (hv : vlMax i < c.vl) : vlCheck c fmts = some (0x301, 0) :=
  if_pos (List.any_eq_true.mpr ⟨i, hi, decide_eq_true hv⟩)

theorem vlCheck_within (hv : ∀ i ∈ fmts, c.vl ≤ vlMax i) : vlCheck c fmts = none := by
  simpa [vlCheck] using hv

/-- A row faults where VL exceeds VLMAX of a format that it tests. -/
theorem eff_vlRow_over (h : AtWord s.dev l w c) (hm : mine = true) (hf : f s.dev c = guarded (vlCheck c fmts) s.dev r) (hi : i ∈ fmts)
    (hv : vlMax i < c.vl) : eff (coreRow l w mine f) s = .next (s.faulted l c (0x301, 0)) :=
  eff_coreRow_faulted h hm (hf.trans (guarded_fault (vlCheck_over hi hv)))

/-- A row whose formats VL suits, and that changes nothing but its core. -/
theorem eff_vlRow_own (h : Runs s.dev l w c) (hm : mine = true) (hf : f s.dev c = guarded (vlCheck c fmts) s.dev r)
    (hv : ∀ i ∈ fmts, c.vl ≤ vlMax i) (hr : r = done s.dev c') (hp : c'.pc = c.pc ∧ c'.prog = c.prog ∧ c'.seg = c.seg := by simp) :
    eff (coreRow l w mine f) s = .next (s.advanced l c' s.dev) :=
  eff_coreRow_own h hm (hf.trans ((guarded_pass (vlCheck_within hv)).trans hr)) hp

end

/-! ### The floating functions (07 R226) -/

/-- The floating functions with their results on the elements of the three sources. -/
def vectorFloatForms (f : FpFmt) (a b z : Nat → Nat) : List (Nat × (Nat → Fl Nat)) :=
  [(0, fun k => fpAdd f (a k) (b k)), (1, fun k => fpSub f (a k) (b k)), (2, fun k => fpMul f (a k) (b k)),
    (3, fun k => fpDiv f (a k) (b k)), (4, fun k => fpSqrt f (a k)), (5, fun k => fpMin f (a k) (b k)),
    (6, fun k => fpMax f (a k) (b k)), (7, fun k => fpFma f (a k) (b k) (z k)), (9, fun k => (fpAbs f (a k), 0)),
    (10, fun k => (fpNeg f (a k), 0))]

/-- VECTOR_FLOAT_OP has the function. -/
def vectorFloatFunc (n : Nat) : Bool := decide (n ≤ 7) || n == 9 || n == 10

theorem vectorFloatForms_spec {f : FpFmt} {a b z : Nat → Nat} : ∀ x ∈ vectorFloatForms f a b z,
    vectorFloatFunc x.1 = true ∧ (fun k => vfOp x.1 f (a k) (b k) (z k)) = x.2 := by
  simp [vectorFloatForms, vectorFloatFunc, vfOp]

theorem vectorFloatFunc_listed : ∀ n ∈ [0, 1, 2, 3, 4, 5, 6, 7, 9, 10], vectorFloatFunc n = true := by decide

/-! ### Comparisons (07 R223) -/

/-- The elements that a list of truth values marks. -/
theorem marked_eq_filter (ks : List Nat) (p : Nat → Bool) : ((ks.zip (ks.map p)).filter (·.2)).map (·.1) = ks.filter p := by
  induction ks with
  | nil => rfl
  | cons k ks ih => cases hk : p k <;> simpa [hk] using ih

/-- The predicate that a comparison writes: the active elements that compare true. -/
def comparedTrue (ks : List Nat) (one : Nat → Fl Bool) : BitVec 256 :=
  BitVec.ofNat 256 (bitMask (((ks.zip (flSeq (ks.map one)).1).filter (·.2)).map (·.1)))

theorem getLsbD_comparedTrue {ks : List Nat} {one : Nat → Fl Bool} {k : Nat} (hk : k < 256) :
    (comparedTrue ks one).getLsbD k = (ks.contains k && (one k).1) := by
  have hmarked := marked_eq_filter ks (fun k => (one k).1)
  have hvals : (flSeq (ks.map one)).1 = ks.map (fun k => (one k).1) := List.map_map
  rw [comparedTrue, getLsbD_ofNat_bitMask _ hk, hvals, hmarked, Bool.eq_iff_iff]
  simp

/-- Results that raise no flag raise none together. -/
theorem flSeq_noFlags {α : Type} (xs : List (Fl α)) (h : ∀ x ∈ xs, x.2 = 0) : (flSeq xs).2 = 0 :=
  List.foldlRecOn (motive := fun f => f = 0) xs _ rfl fun f hf x hx => by simp [hf, h x hx]

/-- One element's comparison, with its flags: floating or integer by the format. -/
def compareElem (w : BitVec 64) (c : Core) (k : Nat) : Fl Bool :=
  let wd := fmtW (vFmt w)
  let a := vElem (rdV c (wRA w)) wd k
  let b := vElem (rdV c (wRB w)) wd k
  if (fpOf (fmtCode (vFmt w))).isSome then fpCmp (vFp (vFmt w)) (wFunc w) a (if vBS w then (bsFloat c w).1 else b)
  else (viCmp (wFunc w) wd a (if vBS w then (rdS c (wRB w)).toNat % 2 ^ wd else b), 0)

/-- The flags that a comparison raises, with those of the scalar operand's conversion. -/
def compareFlags (w : BitVec 64) (c : Core) (ks : List Nat) : BitVec 4 :=
  (flSeq (ks.map (compareElem w c))).2 |||
    (if (fpOf (fmtCode (vFmt w))).isSome && vBS w && !ks.isEmpty then (bsFloat c w).2 else 0)

theorem compareFlags_integer {w : BitVec 64} {c : Core} {ks : List Nat} (h : (fpOf (fmtCode (vFmt w))).isSome = false) :
    compareFlags w c ks = 0 := by
  have hnone : (flSeq (ks.map (compareElem w c))).2 = 0 := flSeq_noFlags _ (by simp [compareElem, h])
  simp [compareFlags, hnone, h]

/-- Settles O20: every row tests VL and then writes its destination; a comparison's predicate is `comparedTrue` of `compareElem`. -/
theorem vectorArithmeticActsOnActiveElements : Obligations.VectorArithmeticActsOnActiveElements := by
  intro s l w c
  refine ⟨fun hat hv i hi => ?excess, fun hruns hv => ?within⟩
  case excess =>
    have hmem : vFmt w ∈ [vFmt w] := List.mem_singleton_self _
    rcases hi with ⟨rfl, hmajor, hf⟩ | ⟨rfl, hmajor, hlow, hhigh⟩ | ⟨rfl, hmajor⟩ | ⟨rfl, hmajor⟩
    · exact eff_vlRow_over hat (Bool.and_eq_true_iff.mpr ⟨beq_iff_eq.mpr hmajor, vectorFloatFunc_listed _ hf⟩) rfl hmem hv
    · exact eff_vlRow_over hat (by simp [hmajor, hlow, hhigh]) rfl hmem hv
    · exact eff_vlRow_over hat (by simp [hmajor]) rfl hmem hv
    · exact eff_vlRow_over hat (by simp [hmajor]) rfl hmem hv
  case within =>
    have hvl : ∀ i ∈ [vFmt w], c.vl ≤ vlMax i := by simpa using hv
    intro d f wd ks ea ez sb fb ib out scalarFlags
    refine ⟨fun hmajor op hop => ?float, fun hmajor ⟨hlow, hhigh⟩ => ?approx, fun hmajor => ?integer, fun hmajor => ?compare⟩
    case float =>
      obtain ⟨hfunc, hop⟩ := vectorFloatForms_spec (wFunc w, op) hop
      obtain rfl : (fun k => vfOp (wFunc w) f (ea k) (fb k) (ez k)) = op := hop
      exact eff_vlRow_own hruns (Bool.and_eq_true_iff.mpr ⟨beq_iff_eq.mpr hmajor, hfunc⟩) rfl hvl rfl ⟨rfl, rfl, rfl⟩
    case approx => exact eff_vlRow_own hruns (by simp [hmajor, hlow, hhigh]) rfl hvl rfl ⟨rfl, rfl, rfl⟩
    case integer => exact eff_vlRow_own hruns (by simp [hmajor]) rfl hvl rfl ⟨rfl, rfl, rfl⟩
    case compare =>
      refine ⟨comparedTrue ks (compareElem w c), compareFlags w c ks, eff_vlRow_own hruns (by simp [hmajor]) rfl hvl rfl,
        compareFlags_integer, fun hfloat => ?_, fun k hk => (getLsbD_comparedTrue hk).trans ?_⟩
      · have hone : compareElem w c = fun k => fpCmp f (wFunc w) (ea k) (fb k) := funext fun k => if_pos hfloat
        simp only [compareFlags, hone, hfloat, Bool.true_and]
        rfl
      · unfold compareElem
        split <;> rfl

end Sys2Proof.Proofs
end

section
/-! Reductions, permutations, moves and VCVTP (07 R221, R224, R228 to R231, R235). -/
namespace Sys2Proof.Proofs
open Sys2Proof Sys2Proof.Machine Sys2Proof.Laws

/-! ### The leaves of a reduction's tree (07 R228, R229) -/

/-- The leaves over the listed elements: the conversion of each active one. -/
def leavesOf (p : Nat → Bool) (x : Nat → Fl Nat) (ns : List Nat) : List (Option (Fl Nat)) := ns.map (fun k => if p k then some (x k) else none)

/-- The flags that the leaves' conversions raise. -/
def leavesFlags (ls : List (Option (Fl Nat))) : BitVec 4 := ls.foldl (fun f x => f ||| ((x.map (·.2)).getD 0)) 0

section
variable {α : Type} (p : Nat → Bool) (x : Nat → Fl Nat) (g : Nat → α)

/-- A leaf as the rows hold it: the value that the tree combines, and the flags. -/
def leafPair (k : Nat) : Option α × BitVec 4 := if p k then (some (g (x k).1), (x k).2) else (none, 0)

theorem map_leafPair_fst (ns : List Nat) :
    (ns.map (leafPair p x g)).map (·.1) = (leavesOf p x ns).map (Option.map (fun y => g y.1)) := by
  rw [leavesOf, List.map_map, List.map_map]
  refine List.map_congr_left fun k _ => ?_
  by_cases hk : p k <;> simp [leafPair, hk]

theorem foldl_leafPair_snd (ns : List Nat) :
    (ns.map (leafPair p x g)).foldl (fun f y => f ||| y.2) 0 = leavesFlags (leavesOf p x ns) := by
  rw [leavesFlags, leavesOf, List.foldl_map, List.foldl_map]
  congr 1
  funext f k
  by_cases hk : p k <;> simp [leafPair, hk]

end

/-- The leaves of a reduction instruction. -/
def redLeaves (w : BitVec 64) (c : Core) : List (Option (Fl Nat)) :=
  leavesOf (active c (vP w)) (fun k => cvtFF (vFp (vFmt w)) fp64 .rn true (vElem (rdV c (wRA w)) (fmtW (vFmt w)) k)) (List.range (vlMax (vFmt w)))

/-- The tree over the leaves' values, each carried as `g` has it. -/
def leafTree {α : Type} (comb : α → α → Fl α) (g : Nat → α) (w : BitVec 64) (c : Core) : List (Option α) × BitVec 4 :=
  treeRun comb (vlMax (vFmt w)).log2 ((redLeaves w c).map (Option.map (fun x => g x.1)), 0)

/-- A tree reduction: the tree `t` over the leaves, and what its root is rounded to, in element 0 of the destination. -/
def reduced {α : Type} (comb : α → α → Fl α) (g : Nat → α) (root : Option α → Fl Nat) (w : BitVec 64) (c : Core) : Core :=
  let t := leafTree comb g w c
  let y := root (t.1.headD none)
  raise (leavesFlags (redLeaves w c) ||| t.2 ||| y.2) (wrV (wRD w) (vUpdate (rdV c (wRD w)) (fmtW (vFmt2 w)) [(0, y.1)]) c)

/-- The floating form of VREDSUM and its kin. -/
def redFloat (w : BitVec 64) (c : Core) : Core :=
  reduced (redComb (wFunc w)) id (fun r => convert 1 (fmtCode (vFmt2 w)) .rn false false (r.getD (redEmpty (wFunc w)))) w c

/-- Their integer form. -/
def redInteger (w : BitVec 64) (c : Core) : Core :=
  let xs := (actives c (vP w) (vlMax (vFmt w))).map (fun k => signExt (fmtW (vFmt w)) (vElem (rdV c (wRA w)) (fmtW (vFmt w)) k))
  wrV (wRD w) (vUpdate (rdV c (wRD w)) 64 [(0, wrapBits 64 (redInt (wFunc w) xs))]) c

/-- A value as the pair whose low part is 0 (07 R229). -/
def highPart (x : Nat) : Nat × Nat := (x, 0)

/-- VREDSUMP. -/
def redPairs (w : BitVec 64) (c : Core) : Core :=
  reduced pairNode highPart (fun r => pairRound (r.getD (0, 0)) (fmtCode (vFmt2 w)) .rn false false) w c

/-- VREDSUM and its kin have the function. -/
def redFunc (n : Nat) : Bool := n == 0 || n == 2 || n == 3 || n == 4

theorem redFunc_listed : ∀ n ∈ [0, 2, 3, 4], redFunc n = true := by decide

theorem exec_vredsum (l : Nat) (w : BitVec 64) (s : State) : exec (.vredsum l w) s =
    eff (coreRow l w (wMajor w == 0x34 && redFunc (wFunc w)) (fun d c => guarded (vlCheck c [vFmt w]) d
      (if c.vl = 0 then done d c
       else if (fpOf (fmtCode (vFmt w))).isSome then done d (redFloat w c) else done d (redInteger w c)))) s := by
  simp only [redFloat, reduced, leafTree, redLeaves, ← map_leafPair_fst, ← foldl_leafPair_snd _ _ id]
  rfl

theorem exec_vredsump (l : Nat) (w : BitVec 64) (s : State) : exec (.vredsump l w) s =
    eff (coreRow l w (wMajor w == 0x34 && wFunc w == 1) (fun d c => guarded (vlCheck c [vFmt w]) d
      (if c.vl = 0 then done d c else done d (redPairs w c)))) s := by
  simp only [redPairs, reduced, leafTree, redLeaves, ← map_leafPair_fst, ← foldl_leafPair_snd _ _ highPart]
  rfl

theorem redFloat_place (w : BitVec 64) (c : Core) : (redFloat w c).pc = c.pc ∧ (redFloat w c).prog = c.prog ∧ (redFloat w c).seg = c.seg :=
  ⟨rfl, rfl, rfl⟩

theorem redPairs_place (w : BitVec 64) (c : Core) : (redPairs w c).pc = c.pc ∧ (redPairs w c).prog = c.prog ∧ (redPairs w c).seg = c.seg :=
  ⟨rfl, rfl, rfl⟩

/-! ### Permutations (07 R231) -/

section
variable {w : BitVec 64} {d : Dev} {c : Core} {p : Nat → Prop} [DecidablePred p] {g : Nat → Nat}

/-- A permutation that writes every active element. -/
theorem permute_all : permute w d c (fun k => some (g k)) = done d (wrV (wRD w) (vUpdate (rdV c (wRD w)) (fmtW (vFmt w))
    ((actives c (vP w) (vlMax (vFmt w))).map (fun k => (k, g k)))) c) := by
  simp [permute, List.filterMap_eq_map']

/-- A permutation that writes some of the active elements. -/
theorem permute_some : permute w d c (fun k => if p k then some (g k) else none) = done d (wrV (wRD w) (vUpdate (rdV c (wRD w)) (fmtW (vFmt w))
    (((actives c (vP w) (vlMax (vFmt w))).filter (fun k => decide (p k))).map (fun k => (k, g k)))) c) := by
  have hnew (ks : List Nat) : ks.filterMap (fun k => (if p k then some (g k) else none).map (fun v => (k, v))) =
      (ks.filter (fun k => decide (p k))).map (fun k => (k, g k)) := by
    rw [← List.filterMap_eq_map, List.filterMap_filter]
    simp
  rw [permute, hnew]

end

/-- The formats whose VLMAX VPERM tests: the indices' too, where they are elements of a register. -/
def permFmts (w : BitVec 64) : List Nat := if vBS w then [vFmt w] else [vFmt w, vFmt2 w]

theorem vFmt_mem_permFmts (w : BitVec 64) : vFmt w ∈ permFmts w := by
  unfold permFmts
  split <;> simp

theorem vFmt2_mem_permFmts {w : BitVec 64} (h : vBS w = false) : vFmt2 w ∈ permFmts w := by simp [permFmts, h]

theorem permFmts_within {w : BitVec 64} {n : Nat} (h : n ≤ vlMax (vFmt w)) (h2 : vBS w = false → n ≤ vlMax (vFmt2 w)) :
    ∀ i ∈ permFmts w, n ≤ vlMax i := by
  cases hbs : vBS w <;> simp [permFmts, hbs, h, h2]

/-- Settles O21: a reduction is `redFloat`, `redInteger` or `redPairs`; a permutation that tests VL writes what its rule lists. -/
theorem reductionsAndPermutations : Obligations.ReductionsAndPermutations := by
  intro s l w c d i o wd n ks ea eb rd imm put leaves leafFlags wide
  refine ⟨fun hat q hq => ?excess, fun hruns => ⟨fun hmajor hv => ?reduction, fun hmajor hv => ?permutation, fun hmajor hf => ?exts,
    fun hmajor hf => ?inss, fun hmajor hf => ?convert⟩⟩
  case excess =>
    have hmem : i ∈ [i] := List.mem_singleton_self _
    rcases hq with ⟨rfl, hmajor, hf, hv⟩ | ⟨rfl, hmajor, hf, hv⟩ | ⟨hmajor, hv, hq⟩ | ⟨rfl, hmajor, hf, hbs, hv⟩ | ⟨rfl, hmajor, hf, hv⟩
    · exact eff_vlRow_over hat (Bool.and_eq_true_iff.mpr ⟨beq_iff_eq.mpr hmajor, redFunc_listed _ hf⟩) rfl hmem hv
    · exact eff_vlRow_over hat (majorFunc_beq hmajor hf) rfl hmem hv
    · simp only [List.mem_cons, Prod.mk.injEq, List.not_mem_nil, or_false] at hq
      rcases hq with ⟨rfl, hf⟩ | ⟨rfl, hf⟩ | ⟨rfl, hf⟩ | ⟨rfl, hf⟩ | ⟨rfl, hf⟩ | ⟨rfl, hf⟩ | ⟨rfl, hf⟩
      case inr.inr.inl => exact eff_vlRow_over hat (majorFunc_beq hmajor hf) rfl (vFmt_mem_permFmts w) hv
      all_goals exact eff_vlRow_over hat (majorFunc_beq hmajor hf) rfl hmem hv
    · exact eff_vlRow_over hat (majorFunc_beq hmajor hf) rfl (vFmt2_mem_permFmts hbs) hv
    · exact eff_vlRow_over hat (majorFunc_beq hmajor hf) rfl (List.mem_singleton_self wide) hv
  case reduction =>
    have hvl : ∀ i ∈ [vFmt w], c.vl ≤ vlMax i := by simpa using hv
    have hm (hf : wFunc w ∈ [0, 2, 3, 4]) : (wMajor w == 0x34 && redFunc (wFunc w)) = true :=
      Bool.and_eq_true_iff.mpr ⟨beq_iff_eq.mpr hmajor, redFunc_listed _ hf⟩
    refine ⟨fun hz => ⟨fun hf => ?_, fun hf => ?_⟩, fun hnz hf hfloat => ?_, fun hnz hf hint => ?_, fun hnz hf => ?_⟩
    · exact (exec_vredsum l w s).trans (eff_vlRow_own hruns (hm hf) rfl hvl (if_pos hz))
    · exact (exec_vredsump l w s).trans (eff_vlRow_own hruns (majorFunc_beq hmajor hf) rfl hvl (if_pos hz))
    · exact (exec_vredsum l w s).trans (eff_vlRow_own hruns (hm hf) rfl hvl ((if_neg hnz).trans (if_pos hfloat)) (redFloat_place w c))
    · exact (exec_vredsum l w s).trans (eff_vlRow_own hruns (hm hf) rfl hvl ((if_neg hnz).trans (if_neg (ne_true_of_eq_false hint))) ⟨rfl, rfl, rfl⟩)
    · exact (exec_vredsump l w s).trans (eff_vlRow_own hruns (majorFunc_beq hmajor hf) rfl hvl (if_neg hnz) (redPairs_place w c))
  case permutation =>
    have hvl : ∀ i ∈ [vFmt w], c.vl ≤ vlMax i := by simpa using hv
    refine ⟨fun hf => ?_, fun hf => ?_, fun hf hbs => ?_, fun hf => ?_, fun hf => ?_, fun hf => ?_, fun hf => ?_⟩
    · exact eff_vlRow_own hruns (majorFunc_beq hmajor hf) rfl hvl permute_some ⟨rfl, rfl, rfl⟩
    · exact eff_vlRow_own hruns (majorFunc_beq hmajor hf) rfl hvl permute_all ⟨rfl, rfl, rfl⟩
    · exact eff_vlRow_own hruns (majorFunc_beq hmajor hf) rfl (permFmts_within hv hbs) permute_all ⟨rfl, rfl, rfl⟩
    · exact eff_vlRow_own hruns (majorFunc_beq hmajor hf) rfl hvl (congrArg (fun n => done d (put wd ((List.range n).zip (ks.map ea)))) (List.length_map ea)) ⟨rfl, rfl, rfl⟩
    · exact eff_vlRow_own hruns (majorFunc_beq hmajor hf) rfl hvl (congrArg (fun es => done d (put wd es)) List.map_prod_left_eq_zip.symm) ⟨rfl, rfl, rfl⟩
    · exact eff_vlRow_own hruns (majorFunc_beq hmajor hf) rfl hvl rfl ⟨rfl, rfl, rfl⟩
    · exact eff_vlRow_own hruns (majorFunc_beq hmajor hf) rfl hvl permute_all ⟨rfl, rfl, rfl⟩
  case exts => exact eff_coreRow_own hruns (majorFunc_beq hmajor hf) rfl
  case inss => exact eff_coreRow_own hruns (majorFunc_beq hmajor hf) rfl ⟨rfl, rfl, rfl⟩
  case convert =>
    intro m kw hv xs
    exact eff_vlRow_own hruns (majorFunc_beq hmajor hf) rfl (by simpa using hv) rfl ⟨rfl, rfl, rfl⟩

end Sys2Proof.Proofs
end

section
/-! VGATHER, VSCATTER, VLDFF and VGATHERFF (07 R221, R232 to R234). -/
namespace Sys2Proof.Proofs
open Sys2Proof Sys2Proof.Machine Sys2Proof.Laws

/-! ### A first-fault load (07 R234) -/

@[simp] theorem firstFault_programs (v : Window) (js : List (Nat × Int)) (d : Dev) (c : Core) :
    (firstFault v js d c).1.programs = d.programs := by
  refine foldl_keeps (fun x : Dev × List (Nat × Nat) × Option (Nat × Nat) => x.1.programs) (fun x kj => ?_) js (d, [], none)
  dsimp only
  split
  · rfl
  · split
    · rfl
    · split <;> exact winRead_programs ..

/-- The core with the values that a first-fault load read before it stopped. -/
def faultLoaded (w : BitVec 64) (v : Window) (vals : List (Nat × Nat)) (d : Dev) (c : Core) : Core :=
  let xs := flSeq (vals.map (fun kb => fromTensor d (coreItem d c) (optV w) v.tensor v.fmt (fmtCode (vFmt w)) kb.2))
  raise xs.2 (wrV (wRD w) (vUpdate (rdV c (wRD w)) (fmtW (vFmt w)) ((vals.map (·.1)).zip xs.1)) c)

/-- A first-fault load through window `v` once nothing keeps it waiting. -/
def loadToFault (w : BitVec 64) (ks : List Nat) (js : List Int) (d : Dev) (c : Core) (v : Window) : CRes :=
  let r := firstFault v (ks.zip js) d c
  match r.2.2 with
  | none => done r.1 { faultLoaded w v r.2.1 d c with vff := 0 }
  | some (k, code) =>
    if r.2.1.isEmpty then .memory v.tensor (wrapBits 64 (js.headD 0)) r.1
    else done r.1 { faultLoaded w v r.2.1 d c with
      vl := k, vff := BitVec.ofNat 32 ((if code = 0 then vffMemory else code) * 65536 + k) }

section
variable {w : BitVec 64} {ks : List Nat} {js : List Int} {d : Dev} {c : Core} {v : Window}

theorem loadToFault_whole (h : (firstFault v (ks.zip js) d c).2.2 = none) : loadToFault w ks js d c v =
    done (firstFault v (ks.zip js) d c).1 { faultLoaded w v (firstFault v (ks.zip js) d c).2.1 d c with vff := 0 } := by
  simp only [loadToFault, h]

theorem loadToFault_first (hr : (firstFault v (ks.zip js) d c).2.1 = []) (h : (firstFault v (ks.zip js) d c).2.2 ≠ none) :
    loadToFault w ks js d c v = .memory v.tensor (wrapBits 64 (js.headD 0)) (firstFault v (ks.zip js) d c).1 := by
  obtain ⟨⟨k, code⟩, hstop⟩ := Option.ne_none_iff_exists'.mp h
  simp [loadToFault, hstop, hr]

theorem loadToFault_later {k code : Nat} (hr : (firstFault v (ks.zip js) d c).2.1 ≠ [])
    (h : (firstFault v (ks.zip js) d c).2.2 = some (k, code)) : loadToFault w ks js d c v =
      done (firstFault v (ks.zip js) d c).1 { faultLoaded w v (firstFault v (ks.zip js) d c).2.1 d c with
        vl := k, vff := BitVec.ofNat 32 ((if code = 0 then vffMemory else code) * 65536 + k) } := by
  simp [loadToFault, h, hr]

end

/-! ### What the four rows share -/

/-- A row of major 0x36 with function `f` over the window indices `js`: the window, its checks, the wait, and then its move. The
first-fault loads check the bounds of the first index only. -/
def indexedRow (w : BitVec 64) (f : Nat) (fmts : List Nat) (js : List Int) (move : Window → CRes) (d : Dev) (c : Core) : CRes :=
  if js.isEmpty then guarded (vlCheck c fmts) d (done d (if f = 2 ∨ f = 3 then { c with vff := 0 } else c))
  else match rdW c (vWin w) with
  | none => guarded (lowest [some (0x104, 0), vlCheck c fmts]) d .stall
  | some v =>
    guarded (lowest [winPerm (some v) (decide (f = 1)), if f = 2 ∨ f = 3 then winBound d c v (js.headD 0) else winBounds d c v js,
      vlCheck c fmts]) d (if winBusy c v then .stall else move v)

section
variable {w : BitVec 64} {f : Nat} {fmts ks : List Nat} {js : List Int} {move : Window → CRes} {d : Dev} {c : Core} {v : Window}

theorem indexedRow_inactive (h : js = []) : indexedRow w f fmts js move d c =
    guarded (vlCheck c fmts) d (done d (if f = 2 ∨ f = 3 then { c with vff := 0 } else c)) := by
  simp [indexedRow, h]

theorem indexedRow_shut (h : js ≠ []) (hw : rdW c (vWin w) = none) : indexedRow w f fmts js move d c = .fault 0x104 0 d := by
  simp [indexedRow, h, hw, guarded_fault lowest_unset_vlCheck]

theorem indexedRow_open (h : js ≠ []) (hw : rdW c (vWin w) = some v) : indexedRow w f fmts js move d c =
    guarded (lowest [winPerm (some v) (decide (f = 1)), if f = 2 ∨ f = 3 then winBound d c v (js.headD 0) else winBounds d c v js,
      vlCheck c fmts]) d (if winBusy c v then .stall else move v) := by
  simp [indexedRow, h, hw]

theorem firstFaultLoad_eq (g : Nat → Int) (hf : f = 2 ∨ f = 3) (hjs : js = ks.map g) :
    firstFaultLoad w fmts ks js d c = indexedRow w f fmts js (loadToFault w ks js d c) d c := by
  subst hjs
  rcases hf with rfl | rfl
  · cases ks <;> rfl
  · cases ks <;> rfl

end

/-- What each row moves through its window, by its function. -/
def indexedMove (l : Nat) (w : BitVec 64) (f : Nat) (ks : List Nat) (js : List Int) (d : Dev) (c : Core) (v : Window) : CRes :=
  match f with
  | 0 => loadInto (wRD w) (vFmt w) (optV w) v ks js d c
  | 1 =>
    let r := winStore l d c v (optV w) (fmtCode (vFmt w))
      ((winIdx d c v js).zip (ks.map (vElem (rdV c (wRD w)) (fmtW (vFmt w)))))
    done r.1 r.2
  | _ => loadToFault w ks js d c v

/-- The active elements of a row with an index for each element. -/
def activeIndexed (w : BitVec 64) (c : Core) : List Nat := actives c (vP w) (min (vlMax (vFmt w)) (vlMax (vFmt2 w)))

/-- The active elements of VLDFF, which takes consecutive indices. -/
def activeRun (w : BitVec 64) (c : Core) : List Nat := actives c (vP w) (vlMax (vFmt w))

/-- Their indices in the window (07 R234). -/
def runIdx (w : BitVec 64) (c : Core) : List Int := (activeRun w c).map (fun k => ((rdS c (wRA w)).toNat : Int) + (k : Nat))

/-- The four rows: function, formats tested, active elements and their indices in the window. -/
def indexedForms (l : Nat) (w : BitVec 64) (c : Core) : List (Instr × Nat × List Nat × List Nat × List Int) :=
  let two := [vFmt w, vFmt2 w]
  let ks := activeIndexed w c
  [(.vgather l w, 0, two, ks, gatherIdx c w ks), (.vscatter l w, 1, two, ks, gatherIdx c w ks),
    (.vldff l w, 2, [vFmt w], activeRun w c, runIdx w c), (.vgatherff l w, 3, two, ks, gatherIdx c w ks)]

/-- The instruction is `indexedRow` of its function; it has indices where it has active elements; and it is a first-fault load by its
function. -/
def IsIndexedRow (l : Nat) (w : BitVec 64) (s : State) (c : Core) (i : Instr) (f : Nat) (fs ks : List Nat) (js : List Int) : Prop :=
  (∃ row, exec i s = eff (coreRow l w (wMajor w == 0x36 && wFunc w == f) row) s ∧
    row s.dev c = indexedRow w f fs js (indexedMove l w f ks js s.dev c) s.dev c) ∧
  (js = [] ↔ ks = []) ∧ ((i = .vldff l w ∨ i = .vgatherff l w) ↔ (f = 2 ∨ f = 3))

theorem exec_vldff (l : Nat) (w : BitVec 64) (s : State) : exec (.vldff l w) s =
    eff (coreRow l w (wMajor w == 0x36 && wFunc w == 2) (fun d c => firstFaultLoad w [vFmt w] (activeRun w c) (runIdx w c) d c)) s := by
  show execVldff l w s = _
  simp only [execVldff, map_castList]
  rfl

theorem indexedForms_rows (l : Nat) (w : BitVec 64) (s : State) (c : Core) :
    ∀ x ∈ indexedForms l w c, IsIndexedRow l w s c x.1 x.2.1 x.2.2.1 x.2.2.2.1 x.2.2.2.2 := by
  simp only [indexedForms, List.forall_mem_cons]
  refine ⟨⟨⟨_, rfl, rfl⟩, List.map_eq_nil_iff, by simp⟩, ⟨⟨_, rfl, rfl⟩, List.map_eq_nil_iff, by simp⟩,
    ⟨⟨_, exec_vldff l w s, firstFaultLoad_eq _ (.inl rfl) rfl⟩, List.map_eq_nil_iff, by simp⟩,
    ⟨⟨_, rfl, firstFaultLoad_eq _ (.inr rfl) rfl⟩, List.map_eq_nil_iff, by simp⟩, by simp⟩

/-- Settles O22: the four share `indexedRow` up to their move, which is `loadInto`, `winStore` or `loadToFault`. -/
theorem gatherScatterAndFirstFault : Obligations.GatherScatterAndFirstFault := by
  intro s l w c hmajor d wd conv base two ki ji kl jl clear i f fs ks js hform hfunc vl ff
  obtain ⟨⟨row, ho, hrow⟩, hempty, hclear⟩ := indexedForms_rows l w s c (i, f, fs, ks, js) hform
  have hm := majorFunc_beq hmajor hfunc
  refine ⟨fun hnone => ?inactive, fun hat hks hw => ?shut, fun hks v hw => ?moves⟩
  case inactive =>
    have hclears : clear i = if f = 2 ∨ f = 3 then { c with vff := 0 } else c := if_congr hclear rfl rfl
    have place : (clear i).pc = c.pc ∧ (clear i).prog = c.prog ∧ (clear i).seg = c.seg := by
      rw [hclears]
      split <;> exact ⟨rfl, rfl, rfl⟩
    have hres : row d c = guarded vl d (done d (clear i)) := hclears ▸ hrow.trans (indexedRow_inactive (hempty.mpr hnone))
    exact ⟨fun hat k hk => ho.trans (eff_coreRow_faulted hat hm (hres.trans (guarded_fault hk))),
      fun hruns hk => ho.trans (eff_coreRow_own hruns hm (hres.trans (guarded_pass hk)) place)⟩
  case shut =>
    exact ho.trans (eff_coreRow_faulted (k := (0x104, 0)) hat hm (hrow.trans (indexedRow_shut (mt hempty.mp hks) hw)))
  case moves =>
    intro chk rs r xs c1
    have hres : row d c = guarded chk d (if winBusy c v then .stall else indexedMove l w f ks js d c v) :=
      hrow.trans (indexedRow_open (mt hempty.mp hks) hw)
    refine ⟨fun hat k hk => ho.trans (eff_coreRow_faulted hat hm (hres.trans (guarded_fault hk))),
      fun hat hk hb => ho.trans (eff_coreRow_stall hat hm (hres.trans (guarded_waits hk hb))), fun hf hk hb => ?gather,
      fun hf hruns hk hb => ?scatter, fun hf hk hb => ?firstFault⟩
    case gather =>
      subst hf
      have moved : row d c = loadInto (wRD w) (vFmt w) (optV w) v ks js d c := hres.trans (guarded_goes hk hb)
      exact ⟨fun hat hr => ho.trans (eff_coreRow_memory hat hm (moved.trans (loadInto_unread hr))),
        fun hruns bs hr => ho.trans (eff_coreRow_done hruns hm (moved.trans (loadInto_read hr)) (winReads_programs ..) ⟨rfl, rfl, rfl⟩)⟩
    case scatter =>
      subst hf
      exact ho.trans (eff_coreRow_done hruns hm (hres.trans (guarded_goes hk hb)) (winStore_programs ..) (winStore_place ..))
    case firstFault =>
      have moved : row d c = loadToFault w ks js d c v := by
        rcases hf with rfl | rfl
        · exact hres.trans (guarded_goes hk hb)
        · exact hres.trans (guarded_goes hk hb)
      exact ⟨fun hruns hr => ho.trans (eff_coreRow_done hruns hm (moved.trans (loadToFault_whole hr)) (firstFault_programs ..) ⟨rfl, rfl, rfl⟩),
        fun hat hr hstop => ho.trans (eff_coreRow_memory hat hm (moved.trans (loadToFault_first hr hstop))),
        fun hruns hr k code hstop => ho.trans (eff_coreRow_done hruns hm (moved.trans (loadToFault_later hr hstop))
          (firstFault_programs ..) ⟨rfl, rfl, rfl⟩)⟩

end Sys2Proof.Proofs
end

section
/-! The problems of SOLVE, ADJOINT, TANGENT and ASSEMBLE (03 R99, 08 R245, R246, R269, R270, R278, R284). -/
namespace Sys2Proof.Proofs
open Sys2Proof Sys2Proof.Machine Sys2Proof.Laws

/-! ### The row of a problem on its held core -/

/-- A row of the solver acts on a problem of a working item that holds core `l` and has no status word yet (08 R245, R278). -/
def heldRow (slot seq op k : Nat) (act : Item → Prob → Nat → Dev → Dev) (d : Dev) : Dev :=
  match findItem d slot seq with
  | none => d
  | some it =>
    if !itemWorks d it 2 op then d
    else match aGet it.probs k with
      | none => d
      | some pr =>
        match pr.core, pr.word with
        | some l, none => act it pr l d
        | _, _ => d

section
variable {slot seq op k : Nat} {act : Item → Prob → Nat → Dev → Dev} {d : Dev} {it : Item} {pr : Prob}
  (hf : findItem d slot seq = some it) (hp : aGet it.probs k = some pr)
include hf hp

theorem heldRow_idle (h : itemWorks d it 2 op = false ∨ pr.core = none ∨ pr.word.isSome = true) : heldRow slot seq op k act d = d := by
  simp only [heldRow, hf, hp]
  split
  case isTrue => rfl
  case isFalse hw =>
    rcases h with h | h | h
    · simp [h] at hw
    · simp only [h]
    · obtain ⟨w, hword⟩ := Option.isSome_iff_exists.mp h
      cases pr.core <;> simp only [hword]

theorem heldRow_acts {l : Nat} (hw : itemWorks d it 2 op = true) (hcore : pr.core = some l) (hword : pr.word = none) :
    heldRow slot seq op k act d = act it pr l d := by
  simp only [heldRow, hf, hp, hw, hcore, hword, Bool.not_true, Bool.false_eq_true, if_false]

end

/-! ### Work units -/

/-- What the core holds of the problem: what it began with, or else its inputs as they are read now (08 R245). -/
def problemBegun (f : Dev → Item → Nat → Rd (SlvOut × Nat)) (k : Nat) (it : Item) (pr : Prob) (d : Dev) : Rd (SlvOut × Nat) :=
  match pr.run with
  | some r => .ok d r
  | none => f d it k

/-- The item once `iters` more units of problem `k` are counted, short of its total (08 R246). -/
def unitsCounted (k iters : Nat) (it : Item) (pr : Prob) (r : SlvOut × Nat) : Item :=
  { it with probs := aSet it.probs k { pr with run := some r, iters := pr.iters + iters } }

/-- The device once a problem's last unit has stored its result. -/
def problemStored (k : Nat) (it : Item) (l : Nat) (o : SlvOut) (d : Dev) : Dev :=
  let st := storeSolve d it k o
  endProblem it k l o st.2.2 st.2.1 st.1

/-- The device after `iters` more units of problem `k`. -/
def problemWorked (f : Dev → Item → Nat → Rd (SlvOut × Nat)) (k iters : Nat) (it : Item) (pr : Prob) (l : Nat) (d : Dev) : Dev :=
  match problemBegun f k it pr d with
  | .bad d' t => solverMemory it l k t d'
  | .ok d' r => if pr.iters + iters < r.2 then setItem (unitsCounted k iters it pr r) d' else problemStored k it l r.1 d'

section
variable {f : Dev → Item → Nat → Rd (SlvOut × Nat)} {k iters l : Nat} {it : Item} {pr : Prob} {d d' : Dev}

theorem problemWorked_unread {t : Nat} (h : problemBegun f k it pr d = .bad d' t) :
    problemWorked f k iters it pr l d = solverMemory it l k t d' := by
  simp only [problemWorked, h]

variable {o : SlvOut} {u : Nat} (h : problemBegun f k it pr d = .ok d' (o, u))
include h

theorem problemWorked_counted (hu : pr.iters + iters < u) :
    problemWorked f k iters it pr l d = setItem (unitsCounted k iters it pr (o, u)) d' := by
  simp only [problemWorked, h, if_pos hu]

theorem problemWorked_stored (hu : u ≤ pr.iters + iters) : problemWorked f k iters it pr l d = problemStored k it l o d' := by
  simp only [problemWorked, h, if_neg (Nat.not_lt.mpr hu)]

end

/-- The three operations that solve: the code, the command, and what its inputs come to. -/
abbrev solvingRows (slot seq k iters : Nat) : List (Nat × Instr × (Dev → Item → Nat → Rd (SlvOut × Nat))) :=
  [(1, .solve slot seq k iters, solveWork), (2, .adjoint slot seq k iters, adjointWork), (3, .tangent slot seq k iters, tangentWork)]

theorem exec_solvingRow {slot seq k iters : Nat} (s : State) : ∀ x ∈ solvingRows slot seq k iters,
    exec x.2.1 s = eff (heldRow slot seq x.1 k (problemWorked x.2.2 k iters)) s := by
  simp only [solvingRows, List.forall_mem_cons]
  exact ⟨rfl, rfl, rfl, List.forall_mem_nil _⟩

/-! ### ASSEMBLE -/

/-- The store of problem `k`'s assembled matrix, with whether all of it stood. -/
abbrev matrixStored (it : Item) (pl : Plan) (k : Nat) (v : List Nat) (d : Dev) : Dev × Bool :=
  storeVals (recH it 16) ((slvFirst it + k) * (planOfObj pl).entries) (v.take (planOfObj pl).entries) d

/-- The store of problem `k`'s assembled right-hand side, where the record names a tensor for it. -/
abbrev rhsStored (it : Item) (pl : Plan) (k : Nat) (v : List Nat) (d : Dev) : Dev × Bool :=
  if recH it 24 = 0 then (d, true)
  else storeVals (recH it 24) ((slvFirst it + k) * (planOfObj pl).rows) (v.drop (planOfObj pl).entries) d

/-- The first output of an ASSEMBLE of which a sector was discarded (10 R330). -/
abbrev unstored (it : Item) (matrix rhs : Bool) : Option Nat :=
  if matrix = false then some (hIdx (recH it 16)) else if rhs = false then some (hIdx (recH it 24)) else none

/-- What problem `q` of an ASSEMBLE comes to: it solves nothing, so it has no more than a state. -/
def assembleOut (pl : Plan) (q : Nat) : SlvOut := { state := b2n (Config.assembleState pl.desc q) }

theorem assembleOut_state (pl : Plan) (q : Nat) : (assembleOut pl q).state = 0 ∨ (assembleOut pl q).state = 1 := by
  simp only [assembleOut, b2n]
  split
  · exact .inr rfl
  · exact .inl rfl

/-- The device once problem `k` of an ASSEMBLE is worked: the targets are stored and the problem ends (08 R284). -/
def problemAssembled (k : Nat) (it : Item) (l : Nat) (d : Dev) : Dev :=
  let pl := itemPlan d it
  match assembled it pl (slvFirst it + k) false d with
  | .bad d' t => solverMemory it l k t d'
  | .ok d' a =>
    let w := matrixStored it pl k a.1 d'
    let r := rhsStored it pl k a.1 w.1
    endProblem it k l (assembleOut pl (slvFirst it + k)) a.2 (unstored it w.2 r.2) r.1

theorem exec_assemble (slot seq k : Nat) (s : State) :
    exec (.assemble slot seq k) s = eff (heldRow slot seq 4 k (fun it _ => problemAssembled k it)) s := by
  refine congrArg (fun row => eff row s) (funext fun d => ?_)
  simp only [heldRow, ne_eq, ite_not, Bool.not_eq_true']
  rfl

section
variable {k l : Nat} {it : Item} {d d' : Dev}

theorem problemAssembled_unread {t : Nat} (h : assembled it (itemPlan d it) (slvFirst it + k) false d = .bad d' t) :
    problemAssembled k it l d = solverMemory it l k t d' := by
  simp only [problemAssembled, h]

theorem problemAssembled_stored {v : List Nat} {fl : BitVec 4}
    (h : assembled it (itemPlan d it) (slvFirst it + k) false d = .ok d' (v, fl)) :
    problemAssembled k it l d =
      (let w := matrixStored it (itemPlan d it) k v d'
       let r := rhsStored it (itemPlan d it) k v w.1
       endProblem it k l (assembleOut (itemPlan d it) (slvFirst it + k)) fl (unstored it w.2 r.2) r.1) := by
  simp only [problemAssembled, h]

end

/-! ### The end of a problem -/

/-- An item whose problem `k` has its status word: the problem's flags join the item's, and the work is over with the last word. -/
def withWord (k : Nat) (o : SlvOut) (fl : BitVec 4) (warm : Option (Nat × WarmSlot)) (i : Item) : Item :=
  let ps := aMod i.probs k (fun pr => { pr with word := some o.word, warm := warm, core := none, run := none })
  { i with probs := ps, flags := i.flags ||| o.flags ||| fl, work := ps.all (fun x => x.2.word.isSome) }

theorem withWord_prob {k : Nat} {o : SlvOut} {fl : BitVec 4} {warm : Option (Nat × WarmSlot)} {i : Item} {q : Prob}
    (h : aGet i.probs k = some q) :
    ∃ q', aGet (withWord k o fl warm i).probs k = some q' ∧ q'.word = some o.word ∧ q'.core = none := by
  simp [withWord, aGet_aMod, h]

theorem releaseCore_free {l o k : Nat} {d : Dev} {c : Core} (h : aGet (releaseCore l o k d).cores l = some c) : (o, k) ∉ c.heldBy := by
  simp only [releaseCore, aGet_aMod, if_true, Option.map_eq_some_iff] at h
  obtain ⟨c, _, rfl⟩ := h
  simp

section
variable {it : Item} {k l : Nat} {o : SlvOut} {fl : BitVec 4} {d : Dev}
  (hwarm : (planOfObj (itemPlan d it)).warm = false ∨ it.op ≠ 1 ∨ it.step = 0)
include hwarm

/-- A problem whose outputs stood and that writes no warm slot now gets its word and frees its core. -/
theorem endProblem_clean : ∃ warm, endProblem it k l o fl none d =
    releaseCore l it.order k { d with items := aMod d.items it.order (withWord k o fl warm) } := by
  by_cases hslot : it.op = 1 ∧ (planOfObj (itemPlan d it)).warm = true ∧ (o.state = 1 ∨ o.state = 2)
  · have hstep : it.step = 0 := by simpa [hslot] using hwarm
    exact ⟨_, by simp only [endProblem, if_pos hslot, hstep, ne_eq, not_true, if_false]; rfl⟩
  · exact ⟨none, by simp only [endProblem, if_neg hslot]; rfl⟩

theorem endProblem_item {i : Item} (hi : aGet d.items it.order = some i) :
    ∃ j, aGet (endProblem it k l o fl none d).items it.order = some j ∧
      (∀ q, aGet i.probs k = some q → ∃ q', aGet j.probs k = some q' ∧ q'.word = some o.word ∧ q'.core = none) ∧
      j.flags = i.flags ||| o.flags ||| fl ∧ j.work = j.probs.all (fun x => x.2.word.isSome) := by
  obtain ⟨warm, he⟩ := endProblem_clean (k := k) (l := l) (o := o) (fl := fl) hwarm
  refine ⟨withWord k o fl warm i, ?_, fun q => withWord_prob, rfl, rfl⟩
  simp [he, releaseCore, aGet_aMod, hi]

theorem endProblem_core {c : Core} (hc : aGet (endProblem it k l o fl none d).cores l = some c) : (it.order, k) ∉ c.heldBy := by
  obtain ⟨warm, he⟩ := endProblem_clean (k := k) (l := l) (o := o) (fl := fl) hwarm
  exact releaseCore_free (he ▸ hc)

end

/-- Settles O52: each clause is one case of `heldRow`, whose action is `problemWorked` or `problemAssembled`. -/
theorem solverItemsSolveTheirProblems : Obligations.SolverItemsSolveTheirProblems := by
  intro s slot seq k it pr hf hp d rows
  refine ⟨fun iters x hx hoff => (exec_solvingRow s x hx).trans (eff_idle (heldRow_idle hf hp hoff)),
    fun hoff => (exec_assemble slot seq k s).trans (eff_idle (heldRow_idle hf hp hoff)), fun l hcore hword => ?held⟩
  intro fails ends
  have hends : ∀ o fl bad d', ends o fl bad d' (endProblem it k l o fl bad d') := by
    rintro o fl _ d' rfl hwarm
    exact ⟨fun i => endProblem_item hwarm, fun c => endProblem_core hwarm⟩
  refine ⟨fun iters x hx hw => ?solving, fun hw => ?assembling⟩
  case solving =>
    intro begun
    have hrow {e : Dev} (h : problemWorked x.2.2 k iters it pr l d = e) : exec x.2.1 s = .next { s with dev := e } :=
      (exec_solvingRow s x hx).trans (eff_eq_dev ((heldRow_acts hf hp hw hcore hword).trans h))
    exact ⟨fun d' t hb => hrow (problemWorked_unread hb), fun d' o u hb => ⟨fun hu => hrow (problemWorked_counted hb hu),
      fun hu => ⟨hrow (problemWorked_stored hb hu), hends _ _ _ _⟩⟩⟩
  case assembling =>
    intro pl n q
    have hrow {e : Dev} (h : problemAssembled k it l d = e) : exec (.assemble slot seq k) s = .next { s with dev := e } :=
      (exec_assemble slot seq k s).trans (eff_eq_dev ((heldRow_acts hf hp hw hcore hword).trans h))
    exact ⟨fun d' t hb => hrow (problemAssembled_unread hb),
      fun d' v fl hb => ⟨assembleOut pl q, hrow (problemAssembled_stored hb), assembleOut_state pl q, hends _ _ _ _⟩⟩

end Sys2Proof.Proofs
end

section
/-! The numerics commands: the loss scale, the flags, the masters and the scale records (09 R309, R316 to R319). -/
namespace Sys2Proof.Proofs
open Sys2Proof Sys2Proof.Machine Sys2Proof.Laws

/-! ### The loss scale and the flags -/

/-- The loss-scale record that a request sets: its counters start again (09 Table 9-6). -/
def newLossScale (d : Dev) (c : Bytes) : LossScale :=
  { d.loss with exp := (fieldLe c 16 1 : Nat), lo := (fieldLe c 17 1 : Nat), hi := (fieldLe c 18 1 : Nat), interval := fieldLe c 20 4
                clean := 0, skipped := 0, tensor := BitVec.ofNat 64 (fieldLe c 24 8) }

section
variable {s : State} {m : Nat}

theorem exec_lossScaleSet_ok (ha : Asks s.dev m 0x0701) (hc : lossSetCheck s.dev (request s.dev m) = none) :
    exec (.lossScaleSet m) s =
      .next (s.answered m [] (writeLossTensor { s.dev with loss := newLossScale s.dev (request s.dev m) })) :=
  eff_mbxRow_ok ha (by simp only [hc, newLossScale])

theorem exec_lossScaleSet_no (ha : Asks s.dev m 0x0701) {x : Nat × Nat} (hc : lossSetCheck s.dev (request s.dev m) = some x) :
    exec (.lossScaleSet m) s = .next (s.refused m x.1 x.2) :=
  eff_mbxRow_no ha (by simp only [hc])

theorem exec_lossScaleQuery (ha : Asks s.dev m 0x0702) : exec (.lossScaleQuery m) s = .next (s.answered m
    (toLe 1 s.dev.loss.exp.toNat ++ toLe 1 s.dev.loss.lo.toNat ++ toLe 1 s.dev.loss.hi.toNat ++ zeros 1 ++ toLe 4 s.dev.loss.interval
      ++ toLe 4 s.dev.loss.clean ++ toLe 4 s.dev.loss.skipped ++ toLe 8 s.dev.loss.tensor.toNat ++ toLe 4 s.dev.loss.lastStep) s.dev) :=
  eff_mbxRow_ok ha rfl

theorem exec_flagsQuery (ha : Asks s.dev m 0x0703) : exec (.flagsQuery m) s = .next (s.answered m
    (toLe 4 s.dev.devFlags.toNat ++
      (s.dev.cluFlags.map (fun x => toLe 4 x.flags.toNat ++ toLe 2 x.nvCore.toNat ++ zeros 2)).flatten) s.dev) :=
  eff_mbxRow_ok ha rfl

theorem exec_flagsClear (ha : Asks s.dev m 0x0704) : exec (.flagsClear m) s = .next (s.answered m [] { s.dev with
    devFlags := 0, cluFlags := List.replicate 6 {}
    cores := aMap s.dev.cores (fun _ x => { x with flagsSince := 0, segCount := 0 }) }) :=
  eff_mbxRow_ok ha rfl

end

/-! ### A command on the tensor that the handle at offset 16 names -/

section
variable {s : State} {m op : Nat} {t : Tensor} (f : Dev → Bytes → Nat → Tensor → MRes) (ha : Asks s.dev m op)
  (hk : handleOk s.dev 2 (handleAt s.dev m 16) = true) (ht : aGet s.dev.tensors (hIdx (handleAt s.dev m 16)) = some t)
include ha hk ht

theorem eff_withTensor_lost (hl : t.lost = true) :
    eff (mbxRow m op (fun d c => withTensor d c 16 (f d c))) s = .next (s.refused m rTensorLost 16) :=
  eff_mbxRow_no ha (withTensor_lost hk ht hl)

variable (hl : t.lost = false)
include hl

theorem eff_withTensor_ok {d' : Dev} {body : Bytes}
    (hf : f s.dev (request s.dev m) (hIdx (handleAt s.dev m 16)) t = .ok d' body) :
    eff (mbxRow m op (fun d c => withTensor d c 16 (f d c))) s = .next (s.answered m body d') :=
  eff_mbxRow_ok ha ((withTensor_ok hk ht hl).trans hf)

theorem eff_withTensor_no {r off : Nat}
    (hf : f s.dev (request s.dev m) (hIdx (handleAt s.dev m 16)) t = .no r off) :
    eff (mbxRow m op (fun d c => withTensor d c 16 (f d c))) s = .next (s.refused m r off) :=
  eff_mbxRow_no ha ((withTensor_ok hk ht hl).trans hf)

end

/-- No command on masters or scale records takes a lost tensor (03 R110). -/
theorem trainingCommand_lost {s : State} {m : Nat} {t : Tensor} (hk : handleOk s.dev 2 (handleAt s.dev m 16) = true)
    (ht : aGet s.dev.tensors (hIdx (handleAt s.dev m 16)) = some t) (hl : t.lost = true) {x : Instr} {op : Nat}
    (hx : (x, op) ∈ [(Instr.masterConfig m, 0x0711), (.masterQuery m, 0x0712), (.scaleConfig m, 0x0721), (.scaleQuery m, 0x0722)])
    (ha : Asks s.dev m op) : exec x s = .next (s.refused m rTensorLost 16) := by
  simp only [List.mem_cons, Prod.mk.injEq, List.not_mem_nil, or_false] at hx
  rcases hx with h | h | h | h
  all_goals
    obtain ⟨rfl, rfl⟩ := h
    exact eff_withTensor_lost _ ha hk ht hl

/-! ### MASTER_CONFIG and MASTER_QUERY -/

/-- A tensor that can have a master mode: a parameter that is not itself a working copy (09 R317). -/
def CanBeMaster (t : Tensor) : Prop := t.role = 2 ∧ t.workingOf = none

theorem canBeMaster_iff {t : Tensor} : CanBeMaster t ↔ ¬ (t.role ≠ 2 ∨ t.workingOf.isSome = true) := by
  simp [CanBeMaster]

/-- The working format of a request: BF16, FP16, E4M3 or E5M2 in COPY, and zero in another mode (09 R318). -/
def WorkFmtOk (c : Bytes) : Prop := if fieldLe c 24 1 = 2 then fieldLe c 25 1 ∈ [3, 4, 5, 6] else fieldLe c 25 1 = 0

theorem workFmtOk_iff {c : Bytes} : WorkFmtOk c ↔
    ¬ (if fieldLe c 24 1 = 2 then !(fieldLe c 25 1 == 4 || fieldLe c 25 1 == 3 || fieldLe c 25 1 == 5 || fieldLe c 25 1 == 6)
      else fieldLe c 25 1 != 0) = true := by
  unfold WorkFmtOk
  split
  · simp only [List.mem_cons, List.not_mem_nil, or_false, Bool.not_eq_true', Bool.not_eq_false, Bool.or_eq_true, beq_iff_eq]
    omega
  · simp

/-- No step is open, and no admitted item names the master or its working copy (09 R317). -/
def MasterIdle (d : Dev) (i : Nat) (t : Tensor) : Prop :=
  stepIsOpen d = false ∧ namedByItem d (tensorHandle d i) = false ∧ ∀ w, t.working = some w → namedByItem d (tensorHandle d w) = false

theorem masterIdle_iff {d : Dev} {i : Nat} {t : Tensor} : MasterIdle d i t ↔ ¬ (stepIsOpen d || namedByItem d (tensorHandle d i) ||
    (t.working.map (fun w => namedByItem d (tensorHandle d w))).getD false) = true := by
  cases hw : t.working <;> simp [MasterIdle, hw, and_assoc]

/-- The device after the change of mode, where the memory is there; the mode that the tensor has needs no change. -/
def masterChanged (d : Dev) (c : Bytes) (i : Nat) (t : Tensor) : Option Dev :=
  if fieldLe c 24 1 = t.master ∧ fieldLe c 25 1 = t.workFmt then some d
  else enterMaster i (fieldLe c 24 1) (fieldLe c 25 1) (leaveMaster i t d)

/-- A new low plane would pass the secured budget (13 R431). -/
def LowPlaneOverBudget (d : Dev) (c : Bytes) (t : Tensor) : Prop :=
  fieldLe c 24 1 = 1 ∧ t.master ≠ 1 ∧ overBudget d (2 * tElems t) = true

theorem lowPlaneOverBudget_iff {d : Dev} {c : Bytes} {t : Tensor} : LowPlaneOverBudget d c t ↔
    (fieldLe c 24 1 = 1 && t.master != 1 && overBudget d (2 * tElems t)) = true := by
  simp [LowPlaneOverBudget, and_assoc]

section
variable {s : State} {m : Nat} {t : Tensor} (hk : handleOk s.dev 2 (handleAt s.dev m 16) = true)
  (ht : aGet s.dev.tensors (hIdx (handleAt s.dev m 16)) = some t) (hl : t.lost = false)
include hk ht hl

theorem exec_masterQuery_otherRole (ha : Asks s.dev m 0x0712) (hr : t.role ≠ 2) :
    exec (.masterQuery m) s = .next (s.refused m rNotAllowed 16) :=
  eff_withTensor_no _ ha hk ht hl (if_pos hr)

theorem exec_masterQuery_ok (ha : Asks s.dev m 0x0712) (hr : t.role = 2) : exec (.masterQuery m) s = .next (s.answered m
    (toLe 1 t.master ++ toLe 1 t.workFmt ++ zeros 6
      ++ toLe 8 ((t.working.map (fun w => (tensorHandle s.dev w).toNat)).getD 0)) s.dev) :=
  eff_withTensor_ok _ ha hk ht hl (if_neg (not_not.mpr hr))

variable (ha : Asks s.dev m 0x0711)
include ha

theorem exec_masterConfig_otherRole (hm : ¬ CanBeMaster t) : exec (.masterConfig m) s = .next (s.refused m rNotAllowed 16) :=
  eff_withTensor_no _ ha hk ht hl (if_pos (not_not.mp (mt canBeMaster_iff.mpr hm)))

variable (hm : CanBeMaster t)
include hm

theorem exec_masterConfig_badMode (hf : ¬ masterFmtOk (fieldLe (request s.dev m) 24 1) t.fmt = true) :
    exec (.masterConfig m) s = .next (s.refused m rBadField 24) :=
  eff_withTensor_no _ ha hk ht hl ((if_neg (canBeMaster_iff.mp hm)).trans (if_pos (by simpa using hf)))

variable (hf : masterFmtOk (fieldLe (request s.dev m) 24 1) t.fmt = true)
include hf

theorem exec_masterConfig_badWorkFmt (hw : ¬ WorkFmtOk (request s.dev m)) :
    exec (.masterConfig m) s = .next (s.refused m rBadField 25) :=
  eff_withTensor_no _ ha hk ht hl ((if_neg (canBeMaster_iff.mp hm)).trans
    ((if_neg (by simp [hf])).trans (if_pos (not_not.mp (mt workFmtOk_iff.mpr hw)))))

variable (hw : WorkFmtOk (request s.dev m))
include hw

theorem exec_masterConfig_inUse (hi : ¬ MasterIdle s.dev (hIdx (handleAt s.dev m 16)) t) :
    exec (.masterConfig m) s = .next (s.refused m rInUse 16) :=
  eff_withTensor_no _ ha hk ht hl ((if_neg (canBeMaster_iff.mp hm)).trans
    ((if_neg (by simp [hf])).trans ((if_neg (workFmtOk_iff.mp hw)).trans (if_pos (not_not.mp (mt masterIdle_iff.mpr hi))))))

variable (hi : MasterIdle s.dev (hIdx (handleAt s.dev m 16)) t)
include hi

theorem exec_masterConfig_noRoom (h : LowPlaneOverBudget s.dev (request s.dev m) t ∨
      masterChanged s.dev (request s.dev m) (hIdx (handleAt s.dev m 16)) t = none) :
    exec (.masterConfig m) s = .next (s.refused m rNoRoom (Config.noField 0x0711 rNoRoom)) := by
  refine eff_withTensor_no _ ha hk ht hl ((if_neg (canBeMaster_iff.mp hm)).trans
    ((if_neg (by simp [hf])).trans ((if_neg (workFmtOk_iff.mp hw)).trans ((if_neg (masterIdle_iff.mp hi)).trans ?_))))
  by_cases hbudget : LowPlaneOverBudget s.dev (request s.dev m) t
  case pos => exact if_pos (lowPlaneOverBudget_iff.mp hbudget)
  have hnone := h.resolve_left hbudget
  refine (if_neg (mt lowPlaneOverBudget_iff.mpr hbudget)).trans ?_
  simp only [masterChanged] at hnone
  simp only [hnone]

theorem exec_masterConfig_ok (hbudget : ¬ LowPlaneOverBudget s.dev (request s.dev m) t) {e : Dev}
    (he : masterChanged s.dev (request s.dev m) (hIdx (handleAt s.dev m 16)) t = some e) :
    exec (.masterConfig m) s =
      (let i := hIdx (handleAt s.dev m 16)
       .next (s.answered m
        (toLe 8 ((((aGet e.tensors i).bind (·.working)).map (fun w => (tensorHandle e w).toNat)).getD 0)
          ++ toLe 8 (wrapBits 64 ((masterBytes e i : Int) - masterBytes s.dev i))) (noteChange (mkHandle 2 t.gen i) e))) := by
  refine eff_withTensor_ok _ ha hk ht hl ((if_neg (canBeMaster_iff.mp hm)).trans
    ((if_neg (by simp [hf])).trans ((if_neg (workFmtOk_iff.mp hw)).trans ((if_neg (masterIdle_iff.mp hi)).trans
      ((if_neg (mt lowPlaneOverBudget_iff.mpr hbudget)).trans ?_)))))
  simp only [masterChanged] at he
  simp only [he]

end

/-! ### SCALE_CONFIG and SCALE_QUERY -/

/-- The modes of a scale record (09 Table 9-5). -/
def ScaleModeOk (c : Bytes) : Prop := 1 ≤ fieldLe c 24 1 ∧ fieldLe c 24 1 ≤ 3

/-- Only a working copy has the mode CURRENT (09 R316). -/
def CurrentModeFits (c : Bytes) (t : Tensor) : Prop := fieldLe c 24 1 = 1 → t.workingOf.isSome = true

/-- The windows of a scale record (09 Table 9-5). -/
def ScaleWindowOk (c : Bytes) : Prop := 1 ≤ fieldLe c 26 1 ∧ fieldLe c 26 1 ≤ 64

/-- No step is open, and no admitted item names the tensor (09 R317). -/
def TensorIdle (d : Dev) (i : Nat) : Prop := stepIsOpen d = false ∧ namedByItem d (tensorHandle d i) = false

theorem scaleModeOk_iff {c : Bytes} : ScaleModeOk c ↔ ¬ (fieldLe c 24 1 = 0 ∨ 3 < fieldLe c 24 1) := by
  unfold ScaleModeOk
  omega

theorem currentModeFits_iff {c : Bytes} {t : Tensor} : CurrentModeFits c t ↔ ¬ (fieldLe c 24 1 = 1 ∧ t.workingOf.isNone = true) := by
  simp [CurrentModeFits, Option.isSome_iff_ne_none]

theorem scaleWindowOk_iff {c : Bytes} : ScaleWindowOk c ↔ ¬ (fieldLe c 26 1 = 0 ∨ 64 < fieldLe c 26 1) := by
  unfold ScaleWindowOk
  omega

theorem tensorIdle_iff {d : Dev} {i : Nat} : TensorIdle d i ↔ ¬ (stepIsOpen d || namedByItem d (tensorHandle d i)) = true := by
  simp [TensorIdle]

/-- The record that SCALE_CONFIG sets: its window is emptied (09 Table 9-6). -/
def newScaleRec (c : Bytes) (r : ScaleRec) : ScaleRec :=
  { r with mode := fieldLe c 24 1, headroom := fieldLe c 25 1, window := fieldLe c 26 1, exp := signExt 8 (fieldLe c 27 1)
           amaxes := [], hasExp := true }

section
variable {s : State} {m : Nat} {t : Tensor} (hk : handleOk s.dev 2 (handleAt s.dev m 16) = true)
  (ht : aGet s.dev.tensors (hIdx (handleAt s.dev m 16)) = some t) (hl : t.lost = false)
include hk ht hl

theorem exec_scaleConfig_noRecord (hs : t.scale = none) (ha : Asks s.dev m 0x0721) :
    exec (.scaleConfig m) s = .next (s.refused m rNotAllowed 16) :=
  eff_withTensor_no _ ha hk ht hl (by simp only [hs])

theorem exec_scaleQuery_noRecord (hs : t.scale = none) (ha : Asks s.dev m 0x0722) :
    exec (.scaleQuery m) s = .next (s.refused m rNotAllowed 16) :=
  eff_withTensor_no _ ha hk ht hl (by simp only [hs])

theorem exec_scaleQuery_ok {r : ScaleRec} (hs : t.scale = some r) (ha : Asks s.dev m 0x0722) :
    exec (.scaleQuery m) s = .next (s.answered m
      (toLe 1 r.mode ++ toLe 1 r.headroom ++ toLe 1 r.window ++ toLe 1 (wrapBits 8 r.exp) ++ toLe 1 r.amaxes.length ++ zeros 3
        ++ toLe 8 (amaxOf (r.amaxes.map (·.toNat)))) s.dev) :=
  eff_withTensor_ok _ ha hk ht hl (by simp only [hs, windowMax])

section
variable {r : ScaleRec} (hs : t.scale = some r) (ha : Asks s.dev m 0x0721)
include hs ha

theorem exec_scaleConfig_badMode (h24 : ¬ ScaleModeOk (request s.dev m)) : exec (.scaleConfig m) s = .next (s.refused m rBadField 24) := by
  refine eff_withTensor_no _ ha hk ht hl ?_
  simp only [hs, if_pos (not_not.mp (mt scaleModeOk_iff.mpr h24))]

variable (h24 : ScaleModeOk (request s.dev m))
include h24

theorem exec_scaleConfig_notWorkingCopy (hcur : ¬ CurrentModeFits (request s.dev m) t) :
    exec (.scaleConfig m) s = .next (s.refused m rNotAllowed 24) := by
  refine eff_withTensor_no _ ha hk ht hl ?_
  simp only [hs, if_neg (scaleModeOk_iff.mp h24), if_pos (not_not.mp (mt currentModeFits_iff.mpr hcur))]

variable (hcur : CurrentModeFits (request s.dev m) t)
include hcur

theorem exec_scaleConfig_badHeadroom (h25 : ¬ fieldLe (request s.dev m) 25 1 ≤ 3) :
    exec (.scaleConfig m) s = .next (s.refused m rBadField 25) := by
  refine eff_withTensor_no _ ha hk ht hl ?_
  simp only [hs, if_neg (scaleModeOk_iff.mp h24), if_neg (currentModeFits_iff.mp hcur), if_pos (Nat.not_le.mp h25)]

variable (h25 : fieldLe (request s.dev m) 25 1 ≤ 3)
include h25

theorem exec_scaleConfig_badWindow (h26 : ¬ ScaleWindowOk (request s.dev m)) :
    exec (.scaleConfig m) s = .next (s.refused m rBadField 26) := by
  refine eff_withTensor_no _ ha hk ht hl ?_
  simp only [hs, if_neg (scaleModeOk_iff.mp h24), if_neg (currentModeFits_iff.mp hcur), if_neg (Nat.not_lt.mpr h25),
    if_pos (not_not.mp (mt scaleWindowOk_iff.mpr h26))]

variable (h26 : ScaleWindowOk (request s.dev m))
include h26

theorem exec_scaleConfig_badExponent (h27 : ¬ -126 ≤ signExt 8 (fieldLe (request s.dev m) 27 1)) :
    exec (.scaleConfig m) s = .next (s.refused m rBadField 27) := by
  refine eff_withTensor_no _ ha hk ht hl ?_
  simp only [hs, if_neg (scaleModeOk_iff.mp h24), if_neg (currentModeFits_iff.mp hcur), if_neg (Nat.not_lt.mpr h25),
    if_neg (scaleWindowOk_iff.mp h26), if_pos (Int.not_le.mp h27)]

variable (h27 : -126 ≤ signExt 8 (fieldLe (request s.dev m) 27 1))
include h27

theorem exec_scaleConfig_inUse (hi : ¬ TensorIdle s.dev (hIdx (handleAt s.dev m 16))) :
    exec (.scaleConfig m) s = .next (s.refused m rInUse 16) := by
  refine eff_withTensor_no _ ha hk ht hl ?_
  simp only [hs, if_neg (scaleModeOk_iff.mp h24), if_neg (currentModeFits_iff.mp hcur), if_neg (Nat.not_lt.mpr h25),
    if_neg (scaleWindowOk_iff.mp h26), if_neg (Int.not_lt.mpr h27), if_pos (not_not.mp (mt tensorIdle_iff.mpr hi))]

theorem exec_scaleConfig_ok (hi : TensorIdle s.dev (hIdx (handleAt s.dev m 16))) :
    exec (.scaleConfig m) s = .next (s.answered m [] (noteChange (mkHandle 2 t.gen (hIdx (handleAt s.dev m 16))) { s.dev with
      tensors := aSet s.dev.tensors (hIdx (handleAt s.dev m 16)) { t with scale := some (newScaleRec (request s.dev m) r) } })) := by
  refine eff_withTensor_ok _ ha hk ht hl ?_
  simp only [hs, if_neg (scaleModeOk_iff.mp h24), if_neg (currentModeFits_iff.mp hcur), if_neg (Nat.not_lt.mpr h25),
    if_neg (scaleWindowOk_iff.mp h26), if_neg (Int.not_lt.mpr h27), if_neg (tensorIdle_iff.mp hi), newScaleRec]

end

end

/-- Settles O30: each clause is one case of a command on the loss scale, the flags, a master or a scale record. -/
theorem numericsCommandsAnswer : Obligations.NumericsCommandsAnswer := by
  intro s m d c f h i no
  refine ⟨exec_lossScaleSet_ok, fun ha x hc => exec_lossScaleSet_no ha hc, exec_lossScaleQuery, exec_flagsQuery, exec_flagsClear,
    fun t hk ht => ⟨fun hl x op hx ha => trainingCommand_lost hk ht hl hx ha, fun hl ha => ?masterConfig,
      fun hl ha => ⟨exec_masterQuery_otherRole hk ht hl ha, exec_masterQuery_ok hk ht hl ha⟩,
      fun hl hs => ⟨exec_scaleConfig_noRecord hk ht hl hs, exec_scaleQuery_noRecord hk ht hl hs⟩,
      fun r hl hs => ⟨fun ha => ?scaleConfig, exec_scaleQuery_ok hk ht hl hs⟩⟩⟩
  case masterConfig =>
    exact ⟨exec_masterConfig_otherRole hk ht hl ha, exec_masterConfig_badMode hk ht hl ha, exec_masterConfig_badWorkFmt hk ht hl ha,
      exec_masterConfig_inUse hk ht hl ha, exec_masterConfig_noRoom hk ht hl ha,
      fun hm hf hw hi hbudget e he => exec_masterConfig_ok hk ht hl ha hm hf hw hi hbudget he⟩
  case scaleConfig =>
    exact ⟨exec_scaleConfig_badMode hk ht hl hs ha, exec_scaleConfig_notWorkingCopy hk ht hl hs ha,
      exec_scaleConfig_badHeadroom hk ht hl hs ha, exec_scaleConfig_badWindow hk ht hl hs ha, exec_scaleConfig_badExponent hk ht hl hs ha,
      exec_scaleConfig_inUse hk ht hl hs ha, exec_scaleConfig_ok hk ht hl hs ha⟩

end Sys2Proof.Proofs
end

section
/-! The device memory commands: placement, scrubs, and retirement of granules (10 R339, R342, R343, R346, Table 10-3). -/
namespace Sys2Proof.Proofs
open Sys2Proof Sys2Proof.Machine Sys2Proof.Laws

/-! ### MEM_QUERY and MEM_LOCATE -/

theorem exec_memQuery {s : State} {m : Nat} (ha : Asks s.dev m 0x0841) : exec (.memQuery m) s = .next (s.answered m
    (toLe 4 (fullRegionsFree s.dev) ++ toLe 4 (fullRegionsFree s.dev + s.dev.mem.regions.length) ++ ((List.range 24).map (fun k =>
      toLe 1 (stack s.dev k).state.toNat ++ zeros 1 ++ toLe 2 (freeGranules s.dev k) ++ toLe 2 (stack s.dev k).retired.length
        ++ zeros 2)).flatten) s.dev) :=
  eff_mbxRow_ok ha rfl

/-- The epoch that MEM_LOCATE names: the committed one, or the other one of a secured tensor. -/
def EpochOk (c : Bytes) (t : Tensor) : Prop := fieldLe c 32 1 = 0 ∨ (fieldLe c 32 1 = 1 ∧ tSecured t = true)

theorem epochOk_iff {c : Bytes} {t : Tensor} : EpochOk c t ↔ ¬ (1 < fieldLe c 32 1 ∨ (fieldLe c 32 1 = 1 ∧ (!tSecured t) = true)) := by
  cases hs : tSecured t <;> simp [EpochOk, hs] <;> omega

/-- The key of the sector that MEM_LOCATE names. -/
def locatedKey (c : Bytes) (i : Nat) (t : Tensor) : SectorKey :=
  dataKey i (if fieldLe c 32 1 = 1 then tOther t else tCommitted t) (fieldLe c 24 8 / 64)

/-- Stack of the parity unit of a key's row, 0xFF where the row has none. -/
def parityStack (d : Dev) (k : SectorKey) : Nat :=
  let w := keyRow d k
  let r := region d w.1
  if r.parity then (r.onStacks[unitPlace r w.2.1 (r.width - 1)]?).getD 0 else 0xFF

section
variable {s : State} {m : Nat} {t : Tensor} (hk : handleOk s.dev 2 (handleAt s.dev m 16) = true)
  (ht : aGet s.dev.tensors (hIdx (handleAt s.dev m 16)) = some t) (ha : Asks s.dev m 0x0842)
include hk ht ha

theorem exec_memLocate_lost (hl : t.lost = true) : exec (.memLocate m) s = .next (s.refused m rTensorLost 16) :=
  eff_withTensor_lost _ ha hk ht hl

variable (hl : t.lost = false)
include hl

theorem exec_memLocate_badOffset (ho : tBytes t ≤ fieldLe (request s.dev m) 24 8) :
    exec (.memLocate m) s = .next (s.refused m rBadField 24) :=
  eff_withTensor_no _ ha hk ht hl (if_pos ho)

variable (ho : fieldLe (request s.dev m) 24 8 < tBytes t)
include ho

theorem exec_memLocate_badEpoch (he : ¬ EpochOk (request s.dev m) t) : exec (.memLocate m) s = .next (s.refused m rBadField 32) :=
  eff_withTensor_no _ ha hk ht hl ((if_neg (Nat.not_le.mpr ho)).trans (if_pos (not_not.mp (mt epochOk_iff.mpr he))))

theorem exec_memLocate_ok (he : EpochOk (request s.dev m) t) : exec (.memLocate m) s =
    (let k := locatedKey (request s.dev m) (hIdx (handleAt s.dev m 16)) t
     .next (s.answered m (toLe 8 (sectorAddr s.dev 0 k).toNat ++ toLe 1 (parityStack s.dev k)
      ++ toLe 1 (region s.dev (keyRow s.dev k).1).width ++ zeros 6) s.dev)) :=
  eff_withTensor_ok _ ha hk ht hl ((if_neg (Nat.not_le.mpr ho)).trans (if_neg (epochOk_iff.mp he)))

end

/-! ### Scrubs -/

/-- Scrubs that run. -/
def runningScrubs (d : Dev) : Nat := (d.mem.scrubs.filter (fun x => x.state == 0)).length

/-- The device with one more scrub; summaries stay until 256 newer scrubs are issued (10 R339, Table 10-3). -/
def scrubStarted (d : Dev) (t : Option Nat) (off len : Nat) : Dev :=
  { d with mem := { d.mem with nextScrub := d.mem.nextScrub + 1
                               scrubs := d.mem.scrubs.filter (fun x => decide (d.mem.nextScrub < x.sid + 256)) ++
                                 [{ sid := d.mem.nextScrub, tensor := t, off := off, len := len }] } }

/-- What SCRUB_START answers once its fields are good: four scrubs run at most (10 R340). -/
def startScrub (d : Dev) (t : Option Nat) (off len : Nat) : MRes :=
  if 4 ≤ runningScrubs d then .no rNoRoom (Config.noField 0x0851 rNoRoom)
  else .ok (scrubStarted d t off len) (toLe 4 d.mem.nextScrub)

/-- The next state of a SCRUB_START whose fields are good. -/
def scrubAnswer (s : State) (m : Nat) (t : Option Nat) (off len : Nat) : Res :=
  if runningScrubs s.dev < 4 then .next (s.answered m (toLe 4 s.dev.mem.nextScrub) (scrubStarted s.dev t off len))
  else .next (s.refused m rNoRoom (Config.noField 0x0851 rNoRoom))

theorem eff_startScrub {s : State} {m off len : Nat} {t : Option Nat} {f : Dev → Bytes → MRes} (ha : Asks s.dev m 0x0851)
    (hf : f s.dev (request s.dev m) = startScrub s.dev t off len) : eff (mbxRow m 0x0851 f) s = scrubAnswer s m t off len := by
  by_cases hroom : runningScrubs s.dev < 4
  · exact (eff_mbxRow_ok ha (hf.trans (if_neg (Nat.not_le.mpr hroom)))).trans (if_pos hroom).symm
  · exact (eff_mbxRow_no ha (hf.trans (if_pos (Nat.not_lt.mp hroom)))).trans (if_neg hroom).symm

section
variable {s : State} {m : Nat} (ha : Asks s.dev m 0x0851)
include ha

/-- A SCRUB_START without a handle scans all memory. -/
theorem exec_scrubStart_all (hz : fieldLe (request s.dev m) 16 8 = 0) : exec (.scrubStart m) s = scrubAnswer s m none 0 0 :=
  eff_startScrub ha (if_pos hz)

variable (hz : fieldLe (request s.dev m) 16 8 ≠ 0)
include hz

theorem exec_scrubStart_stale (hk : handleOk s.dev 2 (handleAt s.dev m 16) = false) :
    exec (.scrubStart m) s = .next (s.refused m rBadHandle 16) :=
  eff_mbxRow_no ha ((if_neg hz).trans (withHandle_no hk))

variable {t : Tensor} (hk : handleOk s.dev 2 (handleAt s.dev m 16) = true)
  (ht : aGet s.dev.tensors (hIdx (handleAt s.dev m 16)) = some t)
include hk ht

theorem exec_scrubStart_lost (hl : t.lost = true) : exec (.scrubStart m) s = .next (s.refused m rTensorLost 16) :=
  eff_mbxRow_no ha ((if_neg hz).trans (withTensor_lost hk ht hl))

variable (hl : t.lost = false)
include hl

theorem exec_scrubStart_badOffset (ho : tBytes t ≤ fieldLe (request s.dev m) 24 8) :
    exec (.scrubStart m) s = .next (s.refused m rBadField 24) :=
  eff_mbxRow_no ha ((if_neg hz).trans ((withTensor_ok hk ht hl).trans (if_pos ho)))

variable (ho : fieldLe (request s.dev m) 24 8 < tBytes t)
include ho

theorem exec_scrubStart_badLength (hn : tBytes t < fieldLe (request s.dev m) 24 8 + fieldLe (request s.dev m) 32 8) :
    exec (.scrubStart m) s = .next (s.refused m rBadField 32) :=
  eff_mbxRow_no ha ((if_neg hz).trans ((withTensor_ok hk ht hl).trans ((if_neg (Nat.not_le.mpr ho)).trans (if_pos hn))))

/-- A SCRUB_START of a tensor scans its range, whose length 0 means the rest of the tensor. -/
theorem exec_scrubStart_range (hn : fieldLe (request s.dev m) 24 8 + fieldLe (request s.dev m) 32 8 ≤ tBytes t) :
    exec (.scrubStart m) s = scrubAnswer s m (some (hIdx (handleAt s.dev m 16))) (fieldLe (request s.dev m) 24 8)
      (if fieldLe (request s.dev m) 32 8 = 0 then tBytes t - fieldLe (request s.dev m) 24 8 else fieldLe (request s.dev m) 32 8) :=
  eff_startScrub ha ((if_neg hz).trans ((withTensor_ok hk ht hl).trans
    ((if_neg (Nat.not_le.mpr ho)).trans (if_neg (Nat.not_lt.mpr hn)))))

end

section
variable {s : State} {m : Nat}

theorem exec_scrubQuery_unknown (hx : scrubOf s.dev (fieldLe (request s.dev m) 16 4) = none) (ha : Asks s.dev m 0x0852) :
    exec (.scrubQuery m) s = .next (s.refused m rBadField 16) :=
  eff_mbxRow_no ha (by simp only [hx])

theorem exec_scrubCancel_unknown (hx : scrubOf s.dev (fieldLe (request s.dev m) 16 4) = none) (ha : Asks s.dev m 0x0853) :
    exec (.scrubCancel m) s = .next (s.refused m rBadField 16) :=
  eff_mbxRow_no ha (by simp only [hx])

variable {x : Scrub} (hx : scrubOf s.dev (fieldLe (request s.dev m) 16 4) = some x)
include hx

theorem exec_scrubQuery_ok (ha : Asks s.dev m 0x0852) : exec (.scrubQuery m) s = .next (s.answered m
    (toLe 1 x.state ++ toLe 1 x.addrs.length ++ zeros 6 ++ toLe 8 x.scanned ++ toLe 8 x.corrected ++ toLe 8 x.rebuilt
      ++ toLe 8 x.uncorr ++ toLe 8 x.mismatch ++ ((List.range 16).map (fun i => toLe 8 ((x.addrs[i]?).getD 0).toNat)).flatten) s.dev) :=
  eff_mbxRow_ok ha (by simp only [hx])

theorem exec_scrubCancel_ok (ha : Asks s.dev m 0x0853) : exec (.scrubCancel m) s =
    .next (s.answered m [] (if x.state = 0 then setScrub { x with state := 2 } s.dev else s.dev)) :=
  eff_mbxRow_ok ha (by simp only [hx])

end

/-! ### Retirement of granules -/

/-- Of the granules to retire, those that regions hold: they wait for their move (10 R342). -/
def heldOf (d : Dev) (k : Nat) (gs : List Nat) : List Nat := gs.filter (heldGranules d k).contains

/-- The stack is neither lost nor under test (10 Table 10-3). -/
def InService (d : Dev) (k : Nat) : Prop := (stack d k).lost = false ∧ (stack d k).testing = false

/-- The repair log takes an entry, and the stack keeps a free granule for each one that is to move (10 R342; 14 R477). -/
def RetireFits (d : Dev) (k : Nat) (gs : List Nat) : Prop :=
  repairLogFull d = false ∧ freeGranules d k ≠ 0 ∧
    (heldOf d k gs ≠ [] → (heldOf d k gs).length ≤ freeGranules d k - (gs.length - (heldOf d k gs).length))

theorem inService_iff {d : Dev} {k : Nat} : InService d k ↔ ¬ ((stack d k).lost || (stack d k).testing) = true := by
  simp [InService]

theorem retireFits_iff {d : Dev} {k : Nat} {gs : List Nat} : RetireFits d k gs ↔
    ¬ (repairLogFull d || freeGranules d k == 0 ||
      (!(heldOf d k gs).isEmpty && decide (freeGranules d k - (gs.length - (heldOf d k gs).length) < (heldOf d k gs).length))) = true := by
  simp only [RetireFits, Bool.not_eq_true, Bool.or_eq_false_iff, beq_eq_false_iff_ne, Bool.and_eq_false_imp, Bool.not_eq_true',
    List.isEmpty_eq_false_iff, decide_eq_false_iff_not, Nat.not_lt, and_assoc]

/-- The device after the free granules are retired, with the ticket of the held ones. -/
def retireStarted (d : Dev) (k : Nat) (gs : List Nat) (bank : Bool) : Dev :=
  let free := gs.filter (fun g => !(heldOf d k gs).contains g)
  let d1 := free.foldl (fun d g => retireGranule k g (if bank then 5 else 4) d) d
  { d1 with mem := { d1.mem with
      nextTicket := d.mem.nextTicket + 1
      retires := d1.mem.retires.filter (fun t => decide (d.mem.nextTicket < t.ticket + 256)) ++
        [{ ticket := d.mem.nextTicket, stack := k, todo := heldOf d k gs, done := free.length, total := gs.length, bank := bank }] } }

section
variable {d : Dev} {op k : Nat} {gs : List Nat} {bank : Bool}

theorem retireRow_outOfService (hup : ¬ InService d k) : retireRow d op k gs bank = .no rNotAllowed 16 :=
  if_pos (not_not.mp (mt inService_iff.mpr hup))

theorem retireRow_taken (hup : InService d k) (htaken : gs.any (granuleTaken d k) = true) :
    retireRow d op k gs bank = .no rInUse (Config.noField op rInUse) :=
  (if_neg (inService_iff.mp hup)).trans (if_pos htaken)

variable (hup : InService d k) (htaken : gs.any (granuleTaken d k) = false)
include hup htaken

theorem retireRow_noRoom (hfits : ¬ RetireFits d k gs) : retireRow d op k gs bank = .no rNoRoom (Config.noField op rNoRoom) :=
  (if_neg (inService_iff.mp hup)).trans ((if_neg (Bool.eq_false_iff.mp htaken)).trans (if_pos (not_not.mp (mt retireFits_iff.mpr hfits))))

theorem retireRow_ok (hfits : RetireFits d k gs) :
    retireRow d op k gs bank = .ok (retireStarted d k gs bank) (toLe 4 d.mem.nextTicket) :=
  (if_neg (inService_iff.mp hup)).trans ((if_neg (Bool.eq_false_iff.mp htaken)).trans (if_neg (retireFits_iff.mp hfits)))

end

/-- The first field of a PAGE_RETIRE that is out of range. -/
def pageBadField (c : Bytes) : Option Nat := if 24 ≤ fieldLe c 16 1 then some 16 else if 18432 ≤ fieldLe c 18 2 then some 18 else none

/-- The first field of a BANK_RETIRE that is out of range. -/
def bankBadField (c : Bytes) : Option Nat :=
  if 24 ≤ fieldLe c 16 1 then some 16 else if 32 ≤ fieldLe c 17 1 then some 17 else if 48 ≤ fieldLe c 18 1 then some 18 else none

/-- The granules with rows in a bank (10 R343). -/
def bankGranules (b : Nat) : List Nat := (List.range 384).map (fun i => 48 * i + b)

/-- A check on one more field comes before those that follow it. -/
theorem elim_badField_ite {p : Prop} [Decidable p] {off : Nat} {o : Option Nat} {r : MRes} :
    (if p then some off else o).elim r (.no rBadField) = if p then .no rBadField off else o.elim r (.no rBadField) :=
  apply_ite (fun o => Option.elim o r (.no rBadField)) p (some off) o

/-- The two commands differ in their fields and granules only: the first bad field refuses (log 24), else `retireRow` decides. -/
theorem retireCommand_row {s : State} {m : Nat} {x : Instr} {op : Nat} {bad : Option Nat} {gs : List Nat} {bank : Bool}
    (hx : (x, op, bad, gs, bank) ∈
      [(Instr.pageRetire m, 0x0861, pageBadField (request s.dev m), [fieldLe (request s.dev m) 18 2], false),
        (.bankRetire m, 0x0862, bankBadField (request s.dev m), bankGranules (fieldLe (request s.dev m) 18 1), true)]) :
    ∃ f, exec x s = eff (mbxRow m op f) s ∧
      f s.dev (request s.dev m) = bad.elim (retireRow s.dev op (fieldLe (request s.dev m) 16 1) gs bank) (.no rBadField) := by
  simp only [List.mem_cons, Prod.mk.injEq, List.not_mem_nil, or_false] at hx
  rcases hx with ⟨rfl, rfl, rfl, rfl, rfl⟩ | ⟨rfl, rfl, rfl, rfl, rfl⟩
  · refine ⟨_, rfl, ?_⟩
    simp only [pageBadField, elim_badField_ite]
    rfl
  · refine ⟨_, rfl, ?_⟩
    simp only [bankBadField, elim_badField_ite]
    rfl

section
variable {s : State} {m : Nat}

theorem exec_retireQuery_unknown (ht : s.dev.mem.retires.find? (fun t => t.ticket == fieldLe (request s.dev m) 16 4) = none)
    (ha : Asks s.dev m 0x0863) : exec (.retireQuery m) s = .next (s.refused m rBadField 16) :=
  eff_mbxRow_no ha (by simp only [ht])

theorem exec_retireQuery_ok {t : Retire} (ht : s.dev.mem.retires.find? (fun t => t.ticket == fieldLe (request s.dev m) 16 4) = some t)
    (ha : Asks s.dev m 0x0863) : exec (.retireQuery m) s =
      .next (s.answered m (toLe 1 (if t.todo = [] then 1 else 0) ++ zeros 3 ++ toLe 2 t.done ++ toLe 2 t.total) s.dev) :=
  eff_mbxRow_ok ha (by simp only [ht, List.isEmpty_iff])

end

/-- Settles O31: each clause is one case of a memory command; the two retirements share `retireCommand_row` and the cases of `retireRow`. -/
theorem memoryCommandsAnswer : Obligations.MemoryCommandsAnswer := by
  intro s m d c f h i no n running started fullScrubs
  refine ⟨exec_memQuery, fun t hk ht => ?tensor, fun hk ha hz => exec_scrubStart_stale ha hz hk, exec_scrubStart_all,
    fun x hx => ⟨exec_scrubQuery_ok hx, exec_scrubCancel_ok hx⟩, fun hx => ⟨exec_scrubQuery_unknown hx, exec_scrubCancel_unknown hx⟩,
    fun x op bad gs bank hx ha => ?retire, fun t ht => exec_retireQuery_ok ht, exec_retireQuery_unknown⟩
  case tensor =>
    exact ⟨fun hl => ⟨fun ha => exec_memLocate_lost hk ht ha hl, fun ha hz => exec_scrubStart_lost ha hz hk ht hl⟩,
      fun hl ha => ⟨exec_memLocate_badOffset hk ht ha hl, exec_memLocate_badEpoch hk ht ha hl, exec_memLocate_ok hk ht ha hl⟩,
      fun hl ha hz => ⟨exec_scrubStart_badOffset ha hz hk ht hl, exec_scrubStart_badLength ha hz hk ht hl,
        exec_scrubStart_range ha hz hk ht hl⟩⟩
  case retire =>
    obtain ⟨row, hexec, hrow⟩ := retireCommand_row hx
    rw [hexec]
    refine ⟨fun off hbad => eff_mbxRow_no ha (by rw [hrow, hbad, Option.elim_some]), ?_⟩
    have hgood (hbad : bad = none) : row d c = retireRow d op (f 16 1) gs bank := by rw [hrow, hbad, Option.elim_none]
    exact ⟨fun hbad hup => eff_mbxRow_no ha ((hgood hbad).trans (retireRow_outOfService hup)),
      fun hbad hup htaken => eff_mbxRow_no ha ((hgood hbad).trans (retireRow_taken hup htaken)),
      fun hbad hup htaken hfits => eff_mbxRow_no ha ((hgood hbad).trans (retireRow_noRoom hup htaken hfits)),
      fun hbad hup htaken hfits => eff_mbxRow_ok ha ((hgood hbad).trans (retireRow_ok hup htaken hfits))⟩

end Sys2Proof.Proofs
end

section
/-! Links: their training states and the events of 11 Table 11-7, IDENT, probes that are asked again (R377 to R384), and the lanes of the
causeways (01 R17, R18). -/
namespace Sys2Proof.Proofs
open Sys2Proof Sys2Proof.Machine Sys2Proof.Laws

/-! ### A link row -/

/-- Link (st, ln) is one of the module's, and the clocks and the link block run. -/
def LinkRuns (d : Dev) (st ln : Nat) : Prop := clocksRun d = true ∧ d.lnk.run = true ∧ st < 6 ∧ ln < 4

section
variable {s : State} {st ln : Nat} {inState : Nat → Bool} {f : Link → Dev → Dev}

theorem eff_linkRow_in {g : Dev → Dev} (h : LinkRuns s.dev st ln) (hin : inState (linkOf s.dev st ln).state = true)
    (hf : f (linkOf s.dev st ln) s.dev = g s.dev) : eff (linkRow st ln inState f) s = .next (s.onDev g) := by
  obtain ⟨hc, hr, hs, hl⟩ := h
  exact eff_eq_onDev ((linkRow_in hc hr hs hl hin).trans hf)

theorem eff_linkRow_out (hout : inState (linkOf s.dev st ln).state = false) : eff (linkRow st ln inState f) s = .next s :=
  eff_idle (linkRow_out hout)

/-- A row whose action changes nothing where it would act changes nothing. -/
theorem eff_linkRow_idle (hf : f (linkOf s.dev st ln) s.dev = s.dev) : eff (linkRow st ln inState f) s = .next s := by
  refine eff_idle ?_
  unfold linkRow
  split
  · exact hf
  · rfl

/-- An event without operands does nothing in a state for which Table 11-7 does not list it. -/
theorem exec_trainingEvent_out {c : Instr} {allowed : List Nat} (hx : (c, allowed) ∈ [(Instr.linkNoSignalTimer st ln, [1]),
      (.alignDone st ln, [3]), (.linkStateTimeout st ln, [2, 3, 4, 9]), (.retrainDone st ln, [9]), (.linkLossOfSignal st ln, [6, 7, 8])])
    (hout : (linkOf s.dev st ln).state ∉ allowed) : exec c s = .next s := by
  simp only [List.mem_cons, Prod.mk.injEq, List.not_mem_nil, or_false] at hx
  rcases hx with ⟨rfl, rfl⟩ | ⟨rfl, rfl⟩ | ⟨rfl, rfl⟩ | ⟨rfl, rfl⟩ | ⟨rfl, rfl⟩ <;>
    exact eff_linkRow_out (by simpa [and_assoc] using hout)

end

/-! ### Training and qualification (11 R378, R379, Table 11-7) -/

section
variable {s : State} {st ln : Nat} (h : LinkRuns s.dev st ln)
include h

theorem exec_linkSignalDetected_enough (hk : (linkOf s.dev st ln).state = 1) {lanes : BitVec 18} (hn : 16 ≤ lanesUp lanes) :
    exec (.linkSignalDetected st ln lanes) s =
      .next (s.onDev (setLink st ln { linkOf s.dev st ln with state := 2, lanesSeen := lanes, cause := 0 })) :=
  eff_linkRow_in h (beq_iff_eq.mpr hk) (if_pos hn)

theorem exec_linkSignalDetected_few (hk : (linkOf s.dev st ln).state = 1) {lanes : BitVec 18} (hn : lanesUp lanes < 16) :
    exec (.linkSignalDetected st ln lanes) s = .next (s.onDev (setLink st ln { linkOf s.dev st ln with lanesSeen := lanes })) :=
  eff_linkRow_in h (beq_iff_eq.mpr hk) (if_neg (Nat.not_le.mpr hn))

theorem exec_equaliseDone (hk : (linkOf s.dev st ln).state = 2) {lanes : BitVec 18} (hn : 16 ≤ lanesUp lanes) :
    exec (.equaliseDone st ln lanes) s = .next (s.onDev (setLink st ln { linkOf s.dev st ln with
      state := 3, lanesSeen := lanes, rxMap := (bitList 18 lanes.toNat).take 16, txMap := (bitList 18 lanes.toNat).take 16 })) :=
  eff_linkRow_in h (beq_iff_eq.mpr hk) (if_pos hn)

omit h in
theorem exec_equaliseDone_idle {lanes : BitVec 18} (hi : (linkOf s.dev st ln).state ≠ 2 ∨ lanesUp lanes < 16) :
    exec (.equaliseDone st ln lanes) s = .next s := by
  rcases hi with hk | hn
  · exact eff_linkRow_out (beq_eq_false_iff_ne.mpr hk)
  · exact eff_linkRow_idle (if_neg (Nat.not_le.mpr hn))

theorem exec_delayProbe (hlo : 4 ≤ (linkOf s.dev st ln).state) (hne : (linkOf s.dev st ln).state ≠ 10) (stamp : BitVec 64) :
    exec (.delayProbe st ln stamp) s = .next (s.onDev (send (.delay 6 st ln stamp))) :=
  eff_linkRow_in h (by simp [hlo, hne]) rfl

/-- A one-way delay of 150 ns is not too long. -/
theorem exec_delayReply_short (hk : (linkOf s.dev st ln).state = 4) {rt ta : Nat} (hd : (rt - ta) / 2 ≤ 1500) :
    exec (.delayReply st ln rt ta) s = .next (s.onDev (setLink st ln { linkOf s.dev st ln with
      state := 5, delay := (rt - ta) / 2, asking := none, bits := 0, laneErr := List.replicate 18 0 })) :=
  eff_linkRow_in h (by simp [hk]) ((if_neg (by simp [hk])).trans (if_neg (Nat.not_lt.mpr hd)))

theorem exec_delayReply_long (hk : (linkOf s.dev st ln).state = 4) {rt ta : Nat} (hd : 1500 < (rt - ta) / 2) :
    exec (.delayReply st ln rt ta) s =
      .next (s.onDev (fun d => linkFailed st ln 4 (setLink st ln { linkOf s.dev st ln with delay := (rt - ta) / 2 } d))) :=
  eff_linkRow_in h (by simp [hk]) ((if_neg (by simp [hk])).trans (if_pos hd))

theorem exec_delayReply_retraining (hk : (linkOf s.dev st ln).state = 9) (rt ta : Nat) :
    exec (.delayReply st ln rt ta) s =
      .next (s.onDev (setLink st ln { linkOf s.dev st ln with delay := (rt - ta) / 2, asking := none })) :=
  eff_linkRow_in h (by simp [hk]) (if_pos hk)

theorem exec_linkStateTimeout {n cause : Nat} (hx : (n, cause) ∈ [(2, 2), (3, 3), (4, 4), (9, 6)])
    (hk : (linkOf s.dev st ln).state = n) : exec (.linkStateTimeout st ln) s = .next (s.onDev (linkFailed st ln cause)) := by
  simp only [List.mem_cons, Prod.mk.injEq, List.not_mem_nil, or_false] at hx
  rcases hx with ⟨rfl, rfl⟩ | ⟨rfl, rfl⟩ | ⟨rfl, rfl⟩ | ⟨rfl, rfl⟩ <;> exact eff_linkRow_in h (by simp [hk]) (by simp [hk])

/-- The link after its lanes are classed by the errors of a window. -/
def classed (k : Link) (bits : Nat) (errs : List Nat) : Link :=
  let es := (List.range 18).map (fun i => (errs[i]?).getD 0)
  { k with cls := (List.range 18).map (fun i => laneClass (k.lanesSeen.getLsbD i) ((es[i]?).getD 0) bits), laneErr := es, bits := bits }

omit h in
/-- Before the window's bits have passed it has not ended. -/
theorem exec_qualifyWindowEnd_early {bits : Nat} {errs : List Nat} (hb : bits < qualBits s.dev) :
    exec (.qualifyWindowEnd st ln bits errs) s = .next s :=
  eff_linkRow_idle (if_pos hb)

theorem exec_qualifyWindowEnd_few (hk : (linkOf s.dev st ln).state = 5) {bits : Nat} {errs : List Nat} (hb : qualBits s.dev ≤ bits)
    (hm : (laneMap (classed (linkOf s.dev st ln) bits errs).cls).length < 16) : exec (.qualifyWindowEnd st ln bits errs) s =
      .next (s.onDev (fun _ => linkFailed st ln 5 (setLink st ln (classed (linkOf s.dev st ln) bits errs) s.dev))) :=
  eff_linkRow_in h (beq_iff_eq.mpr hk) ((if_neg (Nat.not_lt.mpr hb)).trans (if_pos hm))

theorem exec_qualifyWindowEnd_enough (hk : (linkOf s.dev st ln).state = 5) {bits : Nat} {errs : List Nat} (hb : qualBits s.dev ≤ bits)
    (hm : 16 ≤ (laneMap (classed (linkOf s.dev st ln) bits errs).cls).length) : exec (.qualifyWindowEnd st ln bits errs) s =
      .next (s.onDev (fun _ =>
        let d1 := setLink st ln (classed (linkOf s.dev st ln) bits errs) s.dev
        enterIdent st ln (setLink st ln { linkOf d1 st ln with rxMap := laneMap (classed (linkOf s.dev st ln) bits errs).cls } d1))) :=
  eff_linkRow_in h (beq_iff_eq.mpr hk) ((if_neg (Nat.not_lt.mpr hb)).trans (if_neg (Nat.not_lt.mpr hm)))

/-! ### IDENT and loss of signal (11 R377, R384) -/

theorem exec_linkLossOfSignal (hk : (linkOf s.dev st ln).state = 6 ∨ (linkOf s.dev st ln).state = 7 ∨ (linkOf s.dev st ln).state = 8) :
    exec (.linkLossOfSignal st ln) s = .next (s.onDev (linkDown st ln 0)) :=
  eff_linkRow_in h (by simpa [or_assoc] using hk) rfl

theorem exec_ident_kept (hk : (linkOf s.dev st ln).state = 6 ∨ (linkOf s.dev st ln).state = 7 ∨ (linkOf s.dev st ln).state = 8)
    (id : IdentPayload) : exec (.ident st ln id) s = .next (s.onDev (fun d =>
      judgeLink st ln ((straitOf d st).neighValid && (straitOf d st).serial != id.serial)
        (setLink st ln { linkOf s.dev st ln with ident := some id } (setStrait st { straitOf d st with
          neighValid := true, neigh := id.pos.getD { x := 63, y := 63, z := 63 }, serial := id.serial, wrap := id.wrap, numv := id.numv
          partId := id.partId } d)))) := by
  obtain ⟨hc, -, hs, hl⟩ := h
  have hup : 6 ≤ (linkOf s.dev st ln).state ∧ (linkOf s.dev st ln).state ≤ 8 := by omega
  exact eff_eq_onDev ((if_pos hc).trans (if_pos (by simp [hs, hl, hup])))

omit h in
theorem exec_ident_out (hk : (linkOf s.dev st ln).state < 6 ∨ 8 < (linkOf s.dev st ln).state) (id : IdentPayload) :
    exec (.ident st ln id) s = .next s := by
  have hout : ¬ (6 ≤ (linkOf s.dev st ln).state ∧ (linkOf s.dev st ln).state ≤ 8) := by omega
  refine eff_idle ?_
  split
  · refine if_neg fun hin => hout ?_
    simp only [Bool.and_eq_true, decide_eq_true_eq] at hin
    exact ⟨hin.1.2, hin.2⟩
  · rfl

/-! ### A control flit without an answer (11 R371, R373, R384) -/

/-- What a link asks for again. -/
def askAgain (st ln : Nat) (d : Dev) : Option Sent :=
  let k := linkOf d st ln
  if k.asking = some 5 then some (.delay 5 st ln 0)
  else if k.asking = some 2 then k.moves.head?.map (fun m => .control 2 st ln ln k.rxSeq m.1 m.2)
  else if k.asking = some 7 then (activeLinks d st).head?.map (fun o => .control 7 st o ln (k.rxSeq - 1) 0 0)
  else none

theorem exec_controlRepeatTimer :
    exec (.controlRepeatTimer st ln) s = eff (fun d => (askAgain st ln d).elim d (send · d)) s := by
  obtain ⟨hc, hr, hs, hl⟩ := h
  refine eff_eq_onDev ((if_pos (by simp [hc, hr, hs, hl])).trans ?_)
  dsimp only
  split
  case h_1 ha => simp [askAgain, ha]
  case h_2 ha => cases hm : (linkOf s.dev st ln).moves.head? <;> simp [askAgain, ha, hm]
  case h_3 ha => cases ho : (activeLinks s.dev st).head? <;> simp [askAgain, ha, ho]
  case h_4 h5 h2 h7 => rw [askAgain, if_neg h5, if_neg h2, if_neg h7, Option.elim_none]

theorem exec_controlRepeatTimer_asks {x : Sent} (hx : askAgain st ln s.dev = some x) :
    exec (.controlRepeatTimer st ln) s = .next (s.onDev (send x)) :=
  (exec_controlRepeatTimer h).trans (eff_eq_onDev (by rw [hx]; rfl))

theorem exec_controlRepeatTimer_idle (hx : askAgain st ln s.dev = none) : exec (.controlRepeatTimer st ln) s = .next s :=
  (exec_controlRepeatTimer h).trans (eff_idle (by rw [hx]; rfl))

end

/-! ### Causeways (01 R17, R18) -/

section
variable {cw lane : Nat} {failed : Bool} {d : Dev}

theorem causewayDue_idle (h : firmwareRuns d = false ∨ 44 ≤ cw) : causewayDue cw lane failed d = d :=
  if_neg (by rcases h with h | h <;> simp [h, numCauseways, Nat.not_lt.mpr])

theorem causewayDue_waits (hf : firmwareRuns d = true) (hcw : cw < 44) :
    causewayDue cw lane failed d = { d with units := { d.units with cwDue := addNew d.units.cwDue (cw, lane, failed) } } :=
  if_pos (by simp [hf, hcw, numCauseways])

/-- The slack moves the only lane that waits for it. -/
theorem causewaySlack_single (hdue : d.units.cwDue = []) :
    causewaySlack { d with units := { d.units with cwDue := addNew d.units.cwDue (cw, lane, failed) } } = causewayMove cw lane failed d := by
  have hnone : { d with units := { d.units with cwDue := [] } } = d := by rw [← hdue]
  simp [causewaySlack, addNew, hdue, hnone]

/-- The spare lane of the lane's group is taken: a lane of the group has moved onto it. -/
def SpareTaken (d : Dev) (cw lane : Nat) : Prop := ∃ x ∈ d.units.cwSpare, x.1 = cw ∧ x.2 / 32 = lane / 32

theorem cwSpareFree_iff : cwSpareFree d cw lane = true ↔ ¬ SpareTaken d cw lane := by
  rw [cwSpareFree, Bool.not_eq_true', ← Bool.not_eq_true, List.any_eq_true]
  simp only [Bool.and_eq_true, beq_iff_eq, SpareTaken]

theorem spareTaken_of_moved (h : (cw, lane) ∈ d.units.cwSpare) : SpareTaken d cw lane := ⟨_, h, rfl, rfl⟩

theorem causewayMove_toSpare (hh : (cw, lane) ∉ d.units.cwHalf) (ht : ¬ SpareTaken d cw lane) :
    causewayMove cw lane failed d = logRec { sev := 2, cls := 0x401, unitKind := 6, logical := BitVec.ofNat 32 (cw * 256 + lane)
                                             physical := BitVec.ofNat 32 (cw * 256 + lane) }
      { d with units := { d.units with cwSpare := d.units.cwSpare ++ [(cw, lane)] } } := by
  have hmoved : (cw, lane) ∉ d.units.cwSpare := fun hm => ht (spareTaken_of_moved hm)
  exact (if_neg (by simp [hh, hmoved])).trans (if_pos (by simp [hmoved, cwSpareFree_iff.mpr ht]))

theorem causewayMove_halves (hh : (cw, lane) ∉ d.units.cwHalf) (ht : SpareTaken d cw lane) :
    causewayMove cw lane true d = logRec { sev := 3, cls := 0x402, unitKind := 6, logical := BitVec.ofNat 32 (cw * 256 + lane)
                                           physical := BitVec.ofNat 32 (cw * 256 + lane) }
      { d with units := { d.units with cwHalf := d.units.cwHalf ++ [(cw, lane)] } } :=
  (if_neg (by simp [hh])).trans ((if_neg (by simp [cwSpareFree_iff, ht])).trans (if_pos rfl))

theorem causewayMove_stays (h : (cw, lane) ∈ d.units.cwHalf ∨ (SpareTaken d cw lane ∧ failed = false)) :
    causewayMove cw lane failed d = d := by
  rcases h with hh | ⟨ht, rfl⟩
  · exact if_pos (by simp [hh])
  · refine ite_eq_left_iff.mpr fun _ => ?_
    exact (if_neg (by simp [cwSpareFree_iff, ht])).trans (if_neg Bool.false_ne_true)

theorem exec_causewayLane {s : State} {c : Instr}
    (hx : (failed, c) ∈ [(false, Instr.causewayLaneThreshold cw lane), (true, .causewayLaneFail cw lane)]) :
    exec c s = eff (causewayDue cw lane failed) s := by
  simp only [List.mem_cons, Prod.mk.injEq, List.not_mem_nil, or_false] at hx
  rcases hx with ⟨rfl, rfl⟩ | ⟨rfl, rfl⟩ <;> rfl

end

/-- Settles O57: each clause is a link row in one of its states, a row in a state that is not one, or a case of `causewayMove`. -/
theorem linksTrainAndQualify : Obligations.LinksTrainAndQualify := by
  intro s st ln hc hr hs hl
  dsimp only
  have h : LinkRuns s.dev st ln := ⟨hc, hr, hs, hl⟩
  refine ⟨fun hk lanes => ⟨exec_linkSignalDetected_enough h hk, exec_linkSignalDetected_few h hk⟩,
    fun hk => eff_linkRow_in h (beq_iff_eq.mpr hk) rfl,
    fun hk lanes => exec_equaliseDone h hk,
    fun hk => eff_linkRow_in h (beq_iff_eq.mpr hk) rfl,
    exec_delayProbe h,
    fun hk rt ta => exec_delayReply_short h hk,
    fun hk rt ta => exec_delayReply_long h hk,
    exec_delayReply_retraining h,
    fun n cause => exec_linkStateTimeout h,
    fun hk bits errs => ⟨exec_qualifyWindowEnd_early, fun hb => ⟨exec_qualifyWindowEnd_few h hk hb, exec_qualifyWindowEnd_enough h hk hb⟩⟩,
    fun hk => eff_linkRow_in h (beq_iff_eq.mpr hk) rfl,
    exec_linkLossOfSignal h,
    exec_ident_kept h,
    fun c allowed => exec_trainingEvent_out,
    fun lanes stamp rt ta bits errs id => ⟨fun hk => eff_linkRow_out (beq_eq_false_iff_ne.mpr hk), exec_equaliseDone_idle,
      fun hk => eff_linkRow_out (by simp; omega), fun h4 h9 => eff_linkRow_out (by simp [h4, h9]),
      fun hk => eff_linkRow_out (beq_eq_false_iff_ne.mpr hk), fun hk => exec_ident_out hk id⟩,
    eff_eq_onDev (if_pos hc),
    fun ha => exec_controlRepeatTimer_asks h (by simp [askAgain, ha]),
    fun ha m t hm => exec_controlRepeatTimer_asks h (by simp [askAgain, ha, hm]),
    fun ha o t ho => exec_controlRepeatTimer_asks h (by simp [askAgain, ha, ho]),
    fun ha => exec_controlRepeatTimer_idle h ?unasked,
    fun cw lane failed c hx => ⟨fun hi => (exec_causewayLane hx).trans (eff_idle (causewayDue_idle hi)), fun hf hcw => ?causeway⟩⟩
  case unasked => rcases ha with ha | ⟨ha, hnone⟩ | ⟨ha, hnone⟩ <;> simp [askAgain, *]
  case causeway =>
    refine ⟨(exec_causewayLane hx).trans (eff_eq_dev (causewayDue_waits hf hcw)), fun hdue => ?_⟩
    rw [causewaySlack_single hdue]
    exact ⟨causewayMove_toSpare, fun hh ht hfail => hfail ▸ causewayMove_halves hh ht, fun h _ => causewayMove_stays h⟩

end Sys2Proof.Proofs
end

section
/-! The plan and discovery (11 R381 to R386): a plan comes into force or is refused, the links start and stop, and the straits are judged and
accepted. -/
namespace Sys2Proof.Proofs
open Sys2Proof Sys2Proof.Machine Sys2Proof.Laws

/-! ### Plan load (11 R381, R383) -/

section
variable {d : Dev}

/-- Why the plan of the registers is refused: 0 where it is not. -/
def ownRefusal (d : Dev) : Nat := planRefuse d d.lnk.pos d.lnk.wrap d.lnk.dim d.lnk.partId d.tide.master d.tide.backup

theorem loadPlan_ok (h : ownRefusal d = 0) : (loadPlan d).1 = noteEvent 1 (planEvent d) (adoptPlan d) := by
  unfold ownRefusal at h
  simp only [loadPlan, h, if_true]

theorem loadPlan_refused (h : ownRefusal d ≠ 0) :
    (loadPlan d).1 = { d with lnk := { d.lnk with refuse := ownRefusal d, planState := 6 } } := by
  unfold ownRefusal at h
  simp only [loadPlan, h, if_false, ownRefusal]

variable (ho : pf1Open d = true) (hc : clocksRun d = true)
include ho hc

theorem planLoad_first (h : brgState d 10 = 0) : planLoad d = goPlan d := (if_neg (by simp [ho, hc])).trans (if_pos h)

theorem planLoad_shut (h : brgState d 10 = 4 ∨ (brgState d 10 ≠ 0 ∧ d.brg.sparePath = true ∧ d.lnk.planLoaded = false)) :
    planLoad d = d := by
  have hbegun : brgState d 10 ≠ 0 := by omega
  have hshut : brgState d 10 = 4 ∨ (d.brg.sparePath && !d.lnk.planLoaded) = true := h.imp_right fun ⟨_, hs, hl⟩ => by simp [hs, hl]
  exact (if_neg (by simp [ho, hc])).trans ((if_neg hbegun).trans (if_pos hshut))

theorem planLoad_inService (h0 : brgState d 10 ≠ 0) (h4 : brgState d 10 ≠ 4) (h : d.brg.sparePath = false ∨ d.lnk.planLoaded = true) :
    planLoad d = (loadPlan d).1 :=
  (if_neg (by simp [ho, hc])).trans ((if_neg h0).trans (if_neg (by rcases h with h | h <;> simp [h4, h])))

end

/-! ### The discovery deadline (11 R385) -/

/-- What every link's action keeps, the round over all links keeps. -/
theorem eachLink_keeps {γ : Type} {f : Nat → Nat → Dev → Dev} (g : Dev → γ) (h : ∀ st ln d, g (f st ln d) = g d) (d : Dev) :
    g (eachLink d f) = g d := foldl_keeps g (fun e i => h (i / 4) (i % 4) e) _ d

theorem logUnit_serial (sev cls kind logical physical : Nat) (d : Dev) : (logUnit sev cls kind logical physical d).serial = d.serial := by
  obtain ⟨_, _, _, _, h⟩ := logUnit_frame sev cls kind logical physical d
  rw [h]

/-- Judging the straits renames nothing: the records that it logs leave position and serial number alone. -/
theorem judgeStraits_name (d : Dev) : (judgeStraits d).lnk.pos = d.lnk.pos ∧ (judgeStraits d).serial = d.serial := by
  unfold judgeStraits
  dsimp only
  constructor
  · refine eachLink_keeps (·.lnk.pos) (fun st ln e => ?_) _
    split
    · rw [logUnit_lnk]
    · rfl
  · refine eachLink_keeps (·.serial) (fun st ln e => ?_) _
    split
    · rw [logUnit_serial]
    · rfl

/-- A plan is loaded whose straits are not judged yet. -/
def Discovering (d : Dev) : Prop := firmwareRuns d = true ∧ d.lnk.planLoaded = true ∧ (d.lnk.planState = 1 ∨ d.lnk.planState = 2)

section
variable {s : State}

theorem exec_discoveryDeadline_idle
    (h : firmwareRuns s.dev = false ∨ s.dev.lnk.planLoaded = false ∨ (s.dev.lnk.planState ≠ 1 ∧ s.dev.lnk.planState ≠ 2)) :
    exec .discoveryDeadline s = .next s :=
  eff_idle (if_pos (by rcases h with h | h | ⟨h1, h2⟩ <;> simp [*]))

theorem exec_discoveryDeadline_match (h : Discovering s.dev) (hj : (judgeStraits s.dev).lnk.planState ≠ 4) :
    exec .discoveryDeadline s = .next (s.onDev judgeStraits) := by
  obtain ⟨hf, hl, hp⟩ := h
  exact eff_eq_onDev ((if_neg (by rcases hp with hp | hp <;> simp [hf, hl, hp])).trans (if_neg hj))

theorem exec_discoveryDeadline_mismatch (h : Discovering s.dev) (hj : (judgeStraits s.dev).lnk.planState = 4) :
    exec .discoveryDeadline s = .next (s.onDev (fun d =>
      let e := logUnit 15 0x408 12 (posWord d.lnk.pos) d.serial.toNat (judgeStraits d)
      if brgState e 10 = 1 then setStep 10 { state := 5 } e else e)) := by
  obtain ⟨hf, hl, hp⟩ := h
  obtain ⟨hpos, hserial⟩ := judgeStraits_name s.dev
  refine eff_eq_onDev ((if_neg (by rcases hp with hp | hp <;> simp [hf, hl, hp])).trans ((if_pos hj).trans ?_))
  rw [hpos, hserial]

end

/-! ### Mismatched straits are accepted as lost (11 R386) -/

theorem straitOf_setStrait (st j : Nat) (x : Strait) (d : Dev) :
    straitOf (setStrait st x d) j = if j = st ∧ st < d.lnk.straits.length then x else straitOf d j := by
  simp only [straitOf, setStrait, List.getElem?_set]
  grind

/-- Straits that were accepted stay so, as do the parts of the device that belong to no link. -/
structure AcceptedKept (d e : Dev) : Prop where
  run : e.lnk.run = d.lnk.run
  chans : e.chans = d.chans
  tensors : e.tensors = d.tensors
  length : e.lnk.straits.length = d.lnk.straits.length
  accepted : ∀ st, (straitOf d st).accepted = true → (straitOf e st).accepted = true

namespace AcceptedKept

theorem refl (d : Dev) : AcceptedKept d d := ⟨rfl, rfl, rfl, rfl, fun _ h => h⟩

theorem trans {d e f : Dev} (h : AcceptedKept d e) (h' : AcceptedKept e f) : AcceptedKept d f :=
  ⟨h'.run.trans h.run, h'.chans.trans h.chans, h'.tensors.trans h.tensors, h'.length.trans h.length,
    fun st ha => h'.accepted st (h.accepted st ha)⟩

theorem foldl {f : Dev → Nat → Dev} (hf : ∀ d a, AcceptedKept d (f d a)) (l : List Nat) (d : Dev) : AcceptedKept d (l.foldl f d) :=
  List.foldlRecOn (motive := AcceptedKept d) l f (refl d) fun e he a _ => he.trans (hf e a)

theorem setLink (st ln : Nat) (k : Link) (d : Dev) : AcceptedKept d (setLink st ln k d) := ⟨rfl, rfl, rfl, rfl, fun _ h => h⟩

theorem setStrait {st : Nat} {x : Strait} {d : Dev} (hx : (straitOf d st).accepted = true → x.accepted = true) :
    AcceptedKept d (setStrait st x d) := by
  refine ⟨rfl, rfl, rfl, List.length_set, fun j hj => ?_⟩
  rw [straitOf_setStrait]
  split
  case isTrue h => exact hx (h.1 ▸ hj)
  case isFalse => exact hj

theorem refreshStrait (st : Nat) (d : Dev) : AcceptedKept d (refreshStrait st d) := by
  unfold Machine.refreshStrait
  dsimp only
  split
  · exact refl d
  · exact (setStrait (d := d) (st := st) (x := { straitOf d st with lost := (activeLinks d st).isEmpty, changed := true })
      (fun h => h)).trans ⟨rfl, rfl, rfl, rfl, fun _ h => h⟩

theorem darken (st ln : Nat) (d : Dev) : AcceptedKept d (darken st ln d) := (setLink _ _ _ d).trans (refreshStrait _ _)

end AcceptedKept

/-- One mismatched strait is accepted as lost, and its links go dark. -/
def acceptStrait (d : Dev) (st : Nat) : Dev :=
  (List.range 4).foldl (fun d ln => if (linkOf d st ln).state = 6 ∨ (linkOf d st ln).state = 7 then darken st ln d else d)
    (setStrait st { straitOf d st with accepted := true, changed := true } d)

theorem darkenLinks_kept (st : Nat) (d : Dev) : AcceptedKept d ((List.range 4).foldl
    (fun d ln => if (linkOf d st ln).state = 6 ∨ (linkOf d st ln).state = 7 then darken st ln d else d) d) := by
  refine AcceptedKept.foldl (fun e ln => ?_) _ d
  split
  · exact AcceptedKept.darken st ln e
  · exact AcceptedKept.refl e

theorem acceptStrait_kept (d : Dev) (st : Nat) : AcceptedKept d (acceptStrait d st) :=
  (AcceptedKept.setStrait fun _ => rfl).trans (darkenLinks_kept st _)

theorem acceptStrait_accepts {d : Dev} {st : Nat} (h : st < d.lnk.straits.length) :
    (straitOf (acceptStrait d st) st).accepted = true := by
  refine (darkenLinks_kept st _).accepted st ?_
  rw [straitOf_setStrait, if_pos ⟨rfl, h⟩]

theorem foldl_acceptStrait_accepts {l : List Nat} {st : Nat} : ∀ {d : Dev}, st ∈ l → st < d.lnk.straits.length →
    (straitOf (l.foldl acceptStrait d) st).accepted = true := by
  induction l with
  | nil => intro d hl _; cases hl
  | cons a l ih =>
    intro d hl hst
    rcases List.mem_cons.mp hl with rfl | hl
    · exact (AcceptedKept.foldl acceptStrait_kept l _).accepted st (acceptStrait_accepts hst)
    · exact ih hl ((acceptStrait_kept d a).length.symm ▸ hst)

/-- Beyond the straits, ACCEPT_DEGRADED settles the plan, marks the tree stale, notes an event and lets step 10 go on. -/
theorem acceptDegraded_frame {d : Dev} (ho : pf1Open d = true) (hf : firmwareRuns d = true) (hp : d.lnk.planState = 4) :
    ∃ x b, acceptDegraded d = (let e := (mismatched d).foldl acceptStrait d
      { e with lnk := { e.lnk with planState := 5 }, tide := { e.tide with treeStale := true }, sec := x, brg := b }) := by
  unfold acceptDegraded
  rw [if_neg (by simp [ho, hf, hp])]
  dsimp only
  split <;> exact ⟨_, _, rfl⟩

theorem acceptDegraded_idle {d : Dev} (h : firmwareRuns d = false ∨ d.lnk.planState ≠ 4) : acceptDegraded d = d :=
  if_pos (by rcases h with h | h <;> simp [h])

theorem mem_mismatched {d : Dev} {st : Nat} : st ∈ mismatched d ↔ st < 6 ∧ (d.lnk.missing.getLsbD st = true ∨ d.lnk.wrong.getLsbD st = true) := by
  simp [mismatched]

theorem exec_acceptDegraded {s : State} (ho : pf1Open s.dev = true) (hf : firmwareRuns s.dev = true) (hp : s.dev.lnk.planState = 4)
    (hlen : s.dev.lnk.straits.length = 6) : ∃ d', exec .acceptDegraded s = .next { s with dev := d' } ∧
      d'.lnk.planState = 5 ∧ d'.tide.treeStale = true ∧ d'.lnk.run = s.dev.lnk.run ∧ d'.chans = s.dev.chans ∧ d'.tensors = s.dev.tensors ∧
      (∀ st, st < 6 → s.dev.lnk.missing.getLsbD st = true ∨ s.dev.lnk.wrong.getLsbD st = true → (straitOf d' st).accepted = true) := by
  obtain ⟨x, b, hframe⟩ := acceptDegraded_frame ho hf hp
  have hkept := AcceptedKept.foldl acceptStrait_kept (mismatched s.dev) s.dev
  exact ⟨_, eff_eq_dev hframe, rfl, rfl, hkept.run, hkept.chans, hkept.tensors,
    fun st hst hbad => foldl_acceptStrait_accepts (mem_mismatched.mpr ⟨hst, hbad⟩) (hlen ▸ hst)⟩

/-! ### Every link at once -/

/-- The device after each link is changed by itself. -/
def mapLinks (g : Link → Link) (d : Dev) : Dev := { d with lnk := { d.lnk with links := d.lnk.links.map g } }

theorem linkOf_of_map {d e : Dev} {g : Link → Link} (he : e.lnk.links = d.lnk.links.map g) (h : d.lnk.links.length = 24) {st ln : Nat}
    (hs : st < 6) (hl : ln < 4) : linkOf e st ln = g (linkOf d st ln) := by
  have hidx : 4 * st + ln < d.lnk.links.length := by omega
  simp [linkOf, he, hidx]

theorem setLink_linkOf_self (st ln : Nat) (d : Dev) : setLink st ln (linkOf d st ln) d = d := by
  have hself : d.lnk.links.set (4 * st + ln) (linkOf d st ln) = d.lnk.links := by
    by_cases h : 4 * st + ln < d.lnk.links.length
    · rw [linkOf, List.getElem?_eq_getElem h, Option.getD_some, List.set_getElem_self]
    · exact List.set_eq_of_length_le (Nat.not_lt.mp h)
  simp only [setLink, hself]

/-- Of a list whose first n entries are changed, the next entry is changed. -/
theorem set_map_take_append_drop {l : List Link} (g : Link → Link) {n : Nat} (h : n < l.length) :
    ((l.take n).map g ++ l.drop n).set n (g ((((l.take n).map g ++ l.drop n)[n]?).getD {})) = (l.take (n + 1)).map g ++ l.drop (n + 1) := by
  have hlen : ((l.take n).map g).length = n := by simp [Nat.le_of_lt h]
  rw [List.drop_eq_getElem_cons h, List.getElem?_append_right (Nat.le_of_eq hlen), List.set_append_right _ _ (Nat.le_of_eq hlen), hlen,
    Nat.sub_self, List.getElem?_cons_zero, Option.getD_some, List.set_cons_zero, List.take_succ_eq_append_getElem h, List.map_append,
    List.append_assoc, List.map_singleton, List.singleton_append]

section
variable {f : Nat → Nat → Dev → Dev} {g : Link → Link} (hf : ∀ st ln d, f st ln d = setLink st ln (g (linkOf d st ln)) d)
include hf

/-- A round over the first links changes each of them by itself. -/
theorem foldl_setLink {d : Dev} (n : Nat) (hn : n ≤ d.lnk.links.length) :
    (List.range n).foldl (fun d i => f (i / 4) (i % 4) d) d =
      { d with lnk := { d.lnk with links := (d.lnk.links.take n).map g ++ d.lnk.links.drop n } } := by
  induction n with
  | zero => rfl
  | succ n ih =>
    have hidx : 4 * (n / 4) + n % 4 = n := Nat.div_add_mod n 4
    rw [List.range_succ, List.foldl_append, ih (Nat.le_of_succ_le hn)]
    simp only [List.foldl_cons, List.foldl_nil, hf, setLink, linkOf, hidx]
    rw [set_map_take_append_drop g hn]

theorem eachLink_setLink {d : Dev} (h : d.lnk.links.length = 24) : eachLink d f = mapLinks g d := by
  refine (foldl_setLink hf 24 (Nat.le_of_eq h.symm)).trans ?_
  rw [List.take_of_length_le (Nat.le_of_eq h), List.drop_of_length_le (Nat.le_of_eq h), List.append_nil]
  rfl

end

/-! ### RUN starts and stops the links (11 R377) -/

/-- A link that is DOWN starts its training. -/
def wakeLink (k : Link) : Link := if k.state = 0 then { k with state := 1 } else k

/-- A link is taken DOWN. -/
def stillLink (k : Link) : Link := { freshLink k with state := 0, cause := 0, ident := none, identGood := false }

theorem linkOf_stilled {d e : Dev} (he : e.lnk.links = d.lnk.links.map stillLink) (h : d.lnk.links.length = 24) {st ln : Nat}
    (hs : st < 6) (hl : ln < 4) : (linkOf e st ln).state = 0 ∧ (linkOf e st ln).cause = 0 := by
  rw [linkOf_of_map he h hs hl]
  exact ⟨rfl, rfl⟩

theorem startLinks_eq {d : Dev} (h : d.lnk.links.length = 24) :
    startLinks d = mapLinks wakeLink { d with lnk := { d.lnk with run := true } } := by
  refine eachLink_setLink (fun st ln e => ?_) h
  unfold wakeLink
  split
  · rfl
  · exact (setLink_linkOf_self st ln e).symm

theorem refreshStrait_frame (st : Nat) (d : Dev) :
    ∃ x t, refreshStrait st d = { d with lnk := { d.lnk with straits := x }, tide := t } := by
  unfold refreshStrait
  dsimp only
  split <;> exact ⟨_, _, rfl⟩

/-- What follows the links' stop looks at the straits alone. -/
theorem foldl_refreshStrait_frame (l : List Nat) : ∀ d : Dev, ∃ x t,
    l.foldl (fun d st => refreshStrait st (setStrait st { straitOf d st with accepted := false } d)) d =
      { d with lnk := { d.lnk with straits := x }, tide := t } := by
  induction l with
  | nil => exact fun d => ⟨_, _, rfl⟩
  | cons st l ih =>
    intro d
    obtain ⟨x, t, hhead⟩ := refreshStrait_frame st (setStrait st { straitOf d st with accepted := false } d)
    obtain ⟨y, u, htail⟩ := ih (refreshStrait st (setStrait st { straitOf d st with accepted := false } d))
    rw [hhead] at htail
    exact ⟨y, u, (congrArg (List.foldl _ · l) hhead).trans htail⟩

theorem stopLinks_frame {d : Dev} (h : d.lnk.links.length = 24) : ∃ x t, stopLinks d =
    (let e := mapLinks stillLink { d with lnk := { d.lnk with run := false, planState := 0 } }
     { e with lnk := { e.lnk with straits := x }, tide := t }) := by
  have hround : eachLink { d with lnk := { d.lnk with run := false, planState := 0 } }
      (fun st ln d => setLink st ln (stillLink (linkOf d st ln)) d) = _ := eachLink_setLink (fun _ _ _ => rfl) h
  obtain ⟨x, t, hrest⟩ := foldl_refreshStrait_frame (List.range 6) (eachLink { d with lnk := { d.lnk with run := false, planState := 0 } }
    (fun st ln d => setLink st ln (stillLink (linkOf d st ln)) d))
  refine ⟨x, t, Eq.trans hrest ?_⟩
  rw [hround]

/-! ### A write of LNK_CTL (11 Table 11-9) -/

/-- Bit 31 clears the note of a rejected write. -/
def rejectCleared (v : BitVec 32) (d : Dev) : Dev :=
  if v.getLsbD 31 then { d with lnk := { d.lnk with writeRejected := false } } else d

/-- STRICT_SERIAL is RWS: a change of it while the links run is rejected. -/
def strictWritten (v : BitVec 32) (d : Dev) : Dev :=
  if v.getLsbD 1 = d.lnk.strictSerial then d
  else if d.lnk.run then rejectLnk 0x20000 d else { d with lnk := { d.lnk with strictSerial := v.getLsbD 1 } }

/-- RUN starts the links, or stops them while the tide generator is stopped. -/
def runWritten (v : BitVec 32) (d : Dev) : Dev :=
  if v.getLsbD 0 && !d.lnk.run then startLinks d else if !v.getLsbD 0 && d.lnk.run && !d.tide.run then stopLinks d else d

/-- The write notes at most a rejection: the links, the plan and the tide are as before. -/
def AsideFromRejection (d e : Dev) : Prop := (∃ b, e.lnk = { d.lnk with writeRejected := b }) ∧ e.tide = d.tide ∧ e.tensors = d.tensors

section
variable {v : BitVec 32} {d : Dev}

theorem lnkCtlWrite_eq : lnkCtlWrite v d = runWritten v (strictWritten v (rejectCleared v d)) := rfl

theorem rejectCleared_aside (v : BitVec 32) (d : Dev) : AsideFromRejection d (rejectCleared v d) := by
  unfold rejectCleared
  split <;> exact ⟨⟨_, rfl⟩, rfl, rfl⟩

@[simp] theorem rejectCleared_run : (rejectCleared v d).lnk.run = d.lnk.run := by
  obtain ⟨⟨_, h⟩, -⟩ := rejectCleared_aside v d
  rw [h]

@[simp] theorem rejectCleared_strictSerial : (rejectCleared v d).lnk.strictSerial = d.lnk.strictSerial := by
  obtain ⟨⟨_, h⟩, -⟩ := rejectCleared_aside v d
  rw [h]

@[simp] theorem rejectCleared_links : (rejectCleared v d).lnk.links = d.lnk.links := by
  obtain ⟨⟨_, h⟩, -⟩ := rejectCleared_aside v d
  rw [h]

theorem rejectLnk_aside (off : Nat) (d : Dev) : AsideFromRejection d (rejectLnk off d) :=
  ⟨⟨_, logRec_lnk _ _⟩, logRec_tide _ _, logRec_tensors _ _⟩

theorem strictWritten_same (h : v.getLsbD 1 = d.lnk.strictSerial) : strictWritten v d = d := if_pos h

theorem strictWritten_rejected (h : v.getLsbD 1 ≠ d.lnk.strictSerial) (hr : d.lnk.run = true) : strictWritten v d = rejectLnk 0x20000 d :=
  (if_neg h).trans (if_pos hr)

theorem strictWritten_stopped (hr : d.lnk.run = false) :
    strictWritten v d = { d with lnk := { d.lnk with strictSerial := v.getLsbD 1 } } := by
  unfold strictWritten
  split
  case isTrue h => rw [h]
  case isFalse => exact if_neg (ne_true_of_eq_false hr)

/-- While the links run, so much of the write as precedes RUN notes at most a rejection. -/
theorem strictWritten_running_aside (hr : d.lnk.run = true) : AsideFromRejection d (strictWritten v (rejectCleared v d)) := by
  obtain ⟨⟨b, hlnk⟩, htide, htensors⟩ := rejectCleared_aside v d
  by_cases h : v.getLsbD 1 = (rejectCleared v d).lnk.strictSerial
  · rw [strictWritten_same h]
    exact ⟨⟨b, hlnk⟩, htide, htensors⟩
  · rw [strictWritten_rejected h (rejectCleared_run.trans hr)]
    obtain ⟨⟨c, hlnk'⟩, htide', htensors'⟩ := rejectLnk_aside 0x20000 (rejectCleared v d)
    exact ⟨⟨c, by rw [hlnk', hlnk]⟩, htide'.trans htide, htensors'.trans htensors⟩

theorem runWritten_starts (h0 : v.getLsbD 0 = true) (hr : d.lnk.run = false) : runWritten v d = startLinks d :=
  if_pos (by rw [h0, hr]; rfl)

theorem runWritten_stops (h0 : v.getLsbD 0 = false) (hr : d.lnk.run = true) (ht : d.tide.run = false) : runWritten v d = stopLinks d :=
  (if_neg (by rw [h0]; exact Bool.false_ne_true)).trans (if_pos (by rw [h0, hr, ht]; rfl))

theorem runWritten_running (hr : d.lnk.run = true) (h : v.getLsbD 0 = true ∨ d.tide.run = true) : runWritten v d = d := by
  unfold runWritten
  rcases h with h | h <;> simp only [hr, h, Bool.not_true, Bool.and_false, Bool.false_and, Bool.false_eq_true, if_false]

theorem runWritten_stopped (h0 : v.getLsbD 0 = false) (hr : d.lnk.run = false) : runWritten v d = d := by
  unfold runWritten
  simp only [h0, hr, Bool.and_false, Bool.false_and, Bool.false_eq_true, if_false]

end

section
variable {s : State} {v : BitVec 32}

theorem exec_lnkCtlRunStart (ho : pf1Open s.dev = true) (h0 : v.getLsbD 0 = true) :
    exec (.lnkCtlRunStart v) s = eff (lnkCtlWrite v) s := eff_eq_onDev (if_pos (by rw [ho, h0]; rfl))

theorem exec_lnkCtlRunStop (ho : pf1Open s.dev = true) (h0 : v.getLsbD 0 = false) :
    exec (.lnkCtlRunStop v) s = eff (lnkCtlWrite v) s := eff_eq_onDev (if_pos (by rw [ho, h0]; rfl))

theorem exec_lnkCtlRunStart_starts (ho : pf1Open s.dev = true) (hlen : s.dev.lnk.links.length = 24) (h0 : v.getLsbD 0 = true)
    (hr : s.dev.lnk.run = false) : ∃ d', exec (.lnkCtlRunStart v) s = .next { s with dev := d' } ∧
      d' = { rejectCleared v s.dev with
        lnk := { (rejectCleared v s.dev).lnk with run := true, strictSerial := v.getLsbD 1, links := d'.lnk.links } } ∧
      (∀ st ln, st < 6 → ln < 4 → linkOf d' st ln =
        if (linkOf s.dev st ln).state = 0 then { linkOf s.dev st ln with state := 1 } else linkOf s.dev st ln) := by
  have hr0 : (rejectCleared v s.dev).lnk.run = false := rejectCleared_run.trans hr
  have hwrite : lnkCtlWrite v s.dev = startLinks { rejectCleared v s.dev with
      lnk := { (rejectCleared v s.dev).lnk with strictSerial := v.getLsbD 1 } } := by
    rw [lnkCtlWrite_eq, strictWritten_stopped hr0]
    exact runWritten_starts h0 hr0
  have hlen0 : (rejectCleared v s.dev).lnk.links.length = 24 := (congrArg List.length rejectCleared_links).trans hlen
  refine ⟨_, (exec_lnkCtlRunStart ho h0).trans (eff_eq_dev (hwrite.trans (startLinks_eq hlen0))), rfl, fun st ln hs hl => ?_⟩
  exact linkOf_of_map (d := s.dev) (g := wakeLink) (congrArg (List.map wakeLink) rejectCleared_links) hlen hs hl

/-- While the links run and do not stop, the write is one of STRICT_SERIAL alone. -/
theorem exec_lnkCtl_kept {c : Instr} (hexec : exec c s = eff (lnkCtlWrite v) s) (hr : s.dev.lnk.run = true)
    (h : v.getLsbD 0 = true ∨ s.dev.tide.run = true) :
    (v.getLsbD 1 = s.dev.lnk.strictSerial → exec c s = .next { s with dev := rejectCleared v s.dev }) ∧
      (¬ v.getLsbD 1 = s.dev.lnk.strictSerial → exec c s = .next { s with dev := rejectLnk 0x20000 (rejectCleared v s.dev) }) := by
  have hr0 : (rejectCleared v s.dev).lnk.run = true := rejectCleared_run.trans hr
  have hwrite : lnkCtlWrite v s.dev = strictWritten v (rejectCleared v s.dev) := by
    obtain ⟨⟨b, hlnk⟩, htide, -⟩ := strictWritten_running_aside (v := v) hr
    have hrun : (strictWritten v (rejectCleared v s.dev)).lnk.run = true := (congrArg LinkBlock.run hlnk).trans hr
    rw [lnkCtlWrite_eq]
    exact runWritten_running hrun (htide ▸ h)
  rw [← rejectCleared_strictSerial (v := v)]
  exact ⟨fun h => hexec.trans (eff_eq_dev (hwrite.trans (strictWritten_same h))),
    fun h => hexec.trans (eff_eq_dev (hwrite.trans (strictWritten_rejected h hr0)))⟩

theorem exec_lnkCtlRunStop_stopped (ho : pf1Open s.dev = true) (h0 : v.getLsbD 0 = false) (hr : s.dev.lnk.run = false) :
    exec (.lnkCtlRunStop v) s = .next { s with dev := { rejectCleared v s.dev with
      lnk := { (rejectCleared v s.dev).lnk with strictSerial := v.getLsbD 1 } } } := by
  have hr0 : (rejectCleared v s.dev).lnk.run = false := rejectCleared_run.trans hr
  refine (exec_lnkCtlRunStop ho h0).trans (eff_eq_dev ?_)
  rw [lnkCtlWrite_eq, strictWritten_stopped hr0]
  exact runWritten_stopped h0 hr0

theorem exec_lnkCtlRunStop_stops (ho : pf1Open s.dev = true) (hlen : s.dev.lnk.links.length = 24) (h0 : v.getLsbD 0 = false)
    (hr : s.dev.lnk.run = true) (ht : s.dev.tide.run = false) : ∃ d', exec (.lnkCtlRunStop v) s = .next { s with dev := d' } ∧
      d'.lnk.run = false ∧ d'.lnk.planState = 0 ∧ d'.lnk.planLoaded = s.dev.lnk.planLoaded ∧
      d'.lnk.strictSerial = s.dev.lnk.strictSerial ∧ d'.tensors = s.dev.tensors ∧
      (∀ st ln, st < 6 → ln < 4 → (linkOf d' st ln).state = 0 ∧ (linkOf d' st ln).cause = 0) := by
  have hwritten := strictWritten_running_aside (v := v) hr
  have hwrite : lnkCtlWrite v s.dev = runWritten v (strictWritten v (rejectCleared v s.dev)) := lnkCtlWrite_eq
  generalize strictWritten v (rejectCleared v s.dev) = e at hwritten hwrite
  obtain ⟨⟨b, hlnk⟩, htide, htensors⟩ := hwritten
  have hlinks : e.lnk.links = s.dev.lnk.links := by rw [hlnk]
  have hloaded : e.lnk.planLoaded = s.dev.lnk.planLoaded := by rw [hlnk]
  have hstrict : e.lnk.strictSerial = s.dev.lnk.strictSerial := by rw [hlnk]
  obtain ⟨x, t, hstop⟩ := stopLinks_frame (hlinks ▸ hlen)
  rw [runWritten_stops h0 ((congrArg LinkBlock.run hlnk).trans hr) ((congrArg TideBlock.run htide).trans ht)] at hwrite
  refine ⟨_, (exec_lnkCtlRunStop ho h0).trans (eff_eq_dev (hwrite.trans hstop)), rfl, rfl, hloaded, hstrict, htensors, fun st ln hs hl => ?_⟩
  exact linkOf_stilled (congrArg (List.map stillLink) hlinks) hlen hs hl

end

/-! ### RETRY (11 R377) -/

theorem linkRetry_idle {d : Dev} {st ln : Nat} (h : 6 ≤ st ∨ 4 ≤ ln ∨ (linkOf d st ln).state ≠ 10) : linkRetry st ln d = d := by
  refine if_neg fun hin => ?_
  simp only [Bool.and_eq_true, decide_eq_true_eq, beq_iff_eq] at hin
  omega

theorem exec_lnkLinkRetry_idle {s : State} {st ln : Nat} (h : 6 ≤ st ∨ 4 ≤ ln ∨ (linkOf s.dev st ln).state ≠ 10) :
    exec (.lnkLinkRetry st ln) s = .next s := by
  refine eff_idle ?_
  rw [linkRetry_idle h, ite_self]

theorem exec_lnkLinkRetry {s : State} {st ln : Nat} (ho : pf1Open s.dev = true) (hs : st < 6) (hl : ln < 4)
    (hk : (linkOf s.dev st ln).state = 10) : exec (.lnkLinkRetry st ln) s = .next (s.onDev (setLink st ln
      { freshLink (linkOf s.dev st ln) with state := if s.dev.lnk.run then 1 else 0, cause := 0 })) :=
  eff_eq_onDev ((if_pos ho).trans (if_pos (by simp [hs, hl, hk])))

/-- Settles O40: the clauses are the cases of `planLoad`, of the deadline, of ACCEPT_DEGRADED, of a write of LNK_CTL and of RETRY. -/
theorem planLoadAndDiscovery : Obligations.PlanLoadAndDiscovery := by
  intro s ho hc
  exact ⟨fun h => eff_idle (planLoad_shut ho hc h),
    fun h => eff_eq_onDev (planLoad_first ho hc h),
    fun h0 h4 h => ⟨fun hr => eff_eq_onDev ((planLoad_inService ho hc h0 h4 h).trans (loadPlan_ok hr)),
      fun hr => eff_eq_onDev ((planLoad_inService ho hc h0 h4 h).trans (loadPlan_refused hr))⟩,
    exec_discoveryDeadline_idle,
    fun hf hl hp => exec_discoveryDeadline_mismatch ⟨hf, hl, hp⟩,
    fun h => eff_idle (acceptDegraded_idle h),
    fun hf hl hp => exec_discoveryDeadline_match ⟨hf, hl, hp⟩,
    exec_acceptDegraded ho,
    fun v hlen => ⟨exec_lnkCtlRunStart_starts ho hlen,
      fun h0 hr => exec_lnkCtl_kept (exec_lnkCtlRunStart ho h0) hr (.inl h0),
      fun h0 hr ht => exec_lnkCtl_kept (exec_lnkCtlRunStop ho h0) hr (.inr ht),
      exec_lnkCtlRunStop_stopped ho, exec_lnkCtlRunStop_stops ho hlen⟩,
    fun st ln => exec_lnkLinkRetry_idle,
    fun st ln => exec_lnkLinkRetry ho⟩

end Sys2Proof.Proofs
end

section
/-! Collective packets: the launch that a packet names, and what each type does to it (12 R409 to R430). -/
namespace Sys2Proof.Proofs
open Sys2Proof Sys2Proof.Machine Sys2Proof.Laws

/-! ### The launch that a packet names (12 R430) -/

/-- The packets that only an admitted launch takes: all but JOIN, which may come before the admission. -/
noncomputable abbrev launchPackets (src : Pos) (h : CollHeader) (bs : Bytes) : List Instr :=
  [.start src h, .data src h bs, .prepass src h bs, .ack src h, .complete src h, .groupDone src h, .abort src h, .leave src h,
    .fail src h, .lost src h, .reissue src h]

theorem exec_launchPacket {src : Pos} {h : CollHeader} {bs : Bytes} {c : Instr} (hc : c ∈ launchPackets src h bs) :
    ∃ f : Dev → Item → Launch → Group → Dev, ∀ s, exec c s = eff (fun d => collPacket h d (f d)) s := by
  simp only [launchPackets, List.mem_cons, List.not_mem_nil, or_false] at hc
  rcases hc with rfl | rfl | rfl | rfl | rfl | rfl | rfl | rfl | rfl | rfl | rfl
  all_goals exact ⟨fun d => _, fun s => rfl⟩

section
variable {s : State} {h : CollHeader} (hs : serves s.dev = true)
include hs

theorem collPacket_dropped (hg : groupFor s.dev h = none) (f : Item → Launch → Group → Dev) : collPacket h s.dev f = dropColl s.dev := by
  simp only [collPacket, hs, hg, Bool.not_true, Bool.false_eq_true, if_false]

theorem joinD_dropped (hg : groupFor s.dev h = none) (src : Pos) : joinD src h s.dev = dropColl s.dev := by
  simp only [joinD, hs, hg, Bool.not_true, Bool.false_eq_true, if_false]

theorem exec_collective_dropped (hg : groupFor s.dev h = none) {src : Pos} {bs : Bytes} {c : Instr}
    (hc : c ∈ Instr.join src h :: launchPackets src h bs) : exec c s = .next (s.onDev dropColl) := by
  rcases List.mem_cons.mp hc with rfl | hc
  · exact eff_eq_onDev (joinD_dropped hs hg src)
  · obtain ⟨f, hf⟩ := exec_launchPacket hc
    exact (hf s).trans (eff_eq_onDev (collPacket_dropped hs hg _))

variable {gi : Nat} {g : Group} (hg : groupFor s.dev h = some (gi, g)) (hi : launchItem s.dev gi h.launch = none)
include hg hi

theorem exec_launchPacket_unnamed {src : Pos} {bs : Bytes} {c : Instr} (hc : c ∈ launchPackets src h bs) : exec c s = .next s := by
  obtain ⟨f, hf⟩ := exec_launchPacket hc
  refine (hf s).trans (eff_idle ?_)
  simp only [collPacket, hs, hg, hi, Bool.not_true, Bool.false_eq_true, if_false]

theorem joinD_unnamed (src : Pos) : joinD src h s.dev =
    if wasAbandoned s.dev h then
      send (.coll src 7 { gid := h.gid, launch := h.launch, digest := h.digest, rank := h.rank, cause := 2 } []) s.dev
    else { s.dev with earlyJoins := addNew s.dev.earlyJoins (h.gid, h.launch, h.rank) } := by
  simp only [joinD, hs, hg, hi, Bool.not_true, Bool.false_eq_true, if_false]

end

/-! ### A packet for an admitted launch -/

/-- The packet names the launch `l` of the group `g`, and the launch's item is admitted and still works. -/
structure NamesLaunch (d : Dev) (h : CollHeader) (it : Item) (l : Launch) (g : Group) : Prop where
  serving : serves d = true
  named : ∃ gi g', groupFor d h = some (gi, g') ∧ launchItem d gi h.launch = some it
  listed : aGet d.items it.order = some it
  launch : it.launch = some l
  group : aGet d.groups l.group = some g
  works : it.work = false
  admitted : it.stage = .admitted

section
variable {d : Dev} {h : CollHeader} {it : Item} {l : Launch} {g : Group} (hn : NamesLaunch d h it l g)
include hn

/-- PREPASS names its launch as DATA does: the phase says nothing of the group. -/
theorem NamesLaunch.withPhase (ph : Nat) : NamesLaunch d { h with phase := ph } it l g := { hn with }

theorem NamesLaunch.withLaunch_eq (f : Item → Launch → Group → Dev) : withLaunch it.order d f = f it l g := by
  simp [withLaunch, hn.listed, hn.launch, hn.group, hn.works, hn.admitted]

theorem NamesLaunch.collPacket_eq (f : Item → Launch → Group → Dev) : collPacket h d f = f it l g := by
  obtain ⟨gi, g', hgroup, hitem⟩ := hn.named
  simp only [collPacket, hn.serving, hgroup, hitem, Bool.not_true, Bool.false_eq_true, if_false, hn.withLaunch_eq]

theorem NamesLaunch.joinD_eq (src : Pos) :
    joinD src h d = maybeStart it.order (setLaunch it { l with joins := addNew l.joins h.rank } d) := by
  obtain ⟨gi, g', hgroup, hitem⟩ := hn.named
  simp only [joinD, hn.serving, hgroup, hitem, Bool.not_true, Bool.false_eq_true, if_false, hn.withLaunch_eq]

/-- An ABORT whose cause is neither a failed check nor a lost link names the rank in its detail (12 R425). -/
theorem NamesLaunch.endByAbort_left {cause rank : Nat} (h1 : cause ≠ 1) (h3 : cause ≠ 3) : endByAbort it cause rank d =
    finishItem it.order 0x14 (2 * 65536 + rank % 65536) { d with items := aMod d.items it.order (fun i =>
      { i with launch := i.launch.map (fun l => { l with abort := some (cause, rank, d.tide.count) }) }) } := by
  unfold endByAbort
  split
  case h_1 => exact absurd rfl h1
  case h_2 => exact absurd rfl h3
  case h_3 => simp only [hn.works, Bool.false_eq_true, if_false, h1]

/-! ### Re-issue (12 R427) -/

theorem NamesLaunch.reissueHere_unstarted (hc : h.chunk ∉ l.started) (asker : Nat) : reissueHere it.order h asker d = d := by
  simp [reissueHere, hn.withLaunch_eq, hc]

theorem NamesLaunch.reissueHere_moved (hc : h.chunk ∈ l.started) (hop : isReduce it.op = false) (asker : Nat) :
    reissueHere it.order h asker d = moveChunk it.order h.chunk (some asker) d := by
  simp [reissueHere, hn.withLaunch_eq, hc, hop]

end

/-! ### The packets of a chunk (12 R420, R421) -/

/-- The rank of the member that sent a packet. -/
def senderRank (g : Group) (src : Pos) : Nat := (g.members.findIdx? (· == src)).getD 0

/-- What stands of the packet's chunk before its first packet. -/
def emptyPart (h : CollHeader) : Partial := { chunk := h.chunk, lo := h.rank, level := h.level, phase := h.phase, packets := h.packets }

/-- The chunk's packets with this one among them. -/
def gathered (h : CollHeader) (bs : Bytes) (l : Launch) : Partial :=
  let old := (l.parts.find? (fun q => samePart (emptyPart h) q && !q.full)).getD (emptyPart h)
  { old with
    flags := old.flags ||| h.flags, got := addNew old.got h.packet, bytes := memWrite old.bytes (4032 * h.packet) bs
    packets := h.packets, check := if h.packet + 1 = h.packets then h.check else old.check }

/-- The launch's parts without the one that the packet belongs to. -/
def otherParts (h : CollHeader) (bs : Bytes) (l : Launch) : List Partial :=
  l.parts.filter (fun q => !(samePart (gathered h bs l) q && !q.full))

/-- The packet's chunk is one piece of a ring, not its whole range (12 R418). -/
def isPiece (h : CollHeader) (it : Item) (l : Launch) (g : Group) : Bool :=
  l.mode == 2 && isReduce it.op && (h.phase == 3 || h.level == 31 || isRing l g.members.length)

theorem isPiece_iff {h : CollHeader} {it : Item} {l : Launch} {g : Group} : isPiece h it l g = true ↔
    l.mode = 2 ∧ isReduce it.op = true ∧ (h.phase = 3 ∨ h.level = 31 ∨ isRing l g.members.length = true) := by
  simp [isPiece, and_assoc, or_assoc]

/-- Bytes of the packet's chunk on the wire: those that its check covers (log 30). -/
def checkedBytes (h : CollHeader) (from_ : Nat) (it : Item) (l : Launch) (g : Group) (d : Dev) : Nat :=
  let r := chunkRange d it.op l g.members.length h.chunk
  let lone := (partOf l g.members.length from_).1
  let piece := ringPiece d it.op l g.members.length h.chunk lone (h.rank - lone)
  let k := if isPiece h it l g then piece.2 - piece.1 else r.2 - r.1
  if h.phase = 4 then 2 * chunkBlocks d it.op l g.members.length h.chunk + k else wireWidth d it.op l * k

/-- The CRC-64 of the chunk's bytes is the check that its last packet brought (12 R421). -/
abbrev CheckHolds (h : CollHeader) (bs : Bytes) (from_ : Nat) (it : Item) (l : Launch) (g : Group) (d : Dev) : Prop :=
  crc64 (memRead (gathered h bs l).bytes 0 (checkedBytes h from_ it l g d)) = (gathered h bs l).check

/-- What the whole chunk does, once its packets are taken from the launch's parts. -/
def wholeArrived (h : CollHeader) (bs : Bytes) (from_ : Nat) (good : Bool) (it : Item) (l : Launch) (d : Dev) : Dev :=
  chunkArrived it.order from_ (gathered h bs l) good (setLaunch it { l with parts := otherParts h bs l } d)

/-- The ACK of a chunk to the rank that sent it. -/
def ackChunk (h : CollHeader) (from_ : Nat) (l : Launch) (g : Group) (d : Dev) : Dev :=
  collSend g from_ 4 { collHead l g with chunk := h.chunk, rank := h.rank, level := h.level, phase := h.phase } [] d

section
variable {d : Dev} {h : CollHeader} {it : Item} {l : Launch} {g : Group} (hn : NamesLaunch d h it l g) {src : Pos} {bs : Bytes}
include hn

/-- `from_` is bound as in the model, so that the two sides unify without the CRC being evaluated. -/
theorem NamesLaunch.collData_eq : collData src h bs d =
    if (gathered h bs l).got.length < (gathered h bs l).packets then
      setLaunch it { l with parts := otherParts h bs l ++ [gathered h bs l] } d
    else
      let from_ := senderRank g src
      let good := crc64 (memRead (gathered h bs l).bytes 0 (checkedBytes h from_ it l g d)) == (gathered h bs l).check
      let e := wholeArrived h bs from_ good it l d
      if good then checkComplete it.order (ackChunk h from_ l g e)
      else withLaunch it.order e (fun it l g => reportFail it l g 1 from_ e) := hn.collPacket_eq _

theorem NamesLaunch.collData_gathers (hlt : (gathered h bs l).got.length < (gathered h bs l).packets) :
    collData src h bs d = setLaunch it { l with parts := otherParts h bs l ++ [gathered h bs l] } d :=
  hn.collData_eq.trans (if_pos hlt)

variable (hall : (gathered h bs l).packets ≤ (gathered h bs l).got.length)
include hall

theorem NamesLaunch.collData_good (hcrc : CheckHolds h bs (senderRank g src) it l g d) : collData src h bs d =
    checkComplete it.order (ackChunk h (senderRank g src) l g (wholeArrived h bs (senderRank g src) true it l d)) := by
  rw [hn.collData_eq, if_neg (Nat.not_lt.mpr hall)]
  dsimp only
  rw [beq_iff_eq.mpr hcrc]
  exact if_pos rfl

theorem NamesLaunch.collData_bad (hcrc : ¬ CheckHolds h bs (senderRank g src) it l g d) : collData src h bs d =
    withLaunch it.order (wholeArrived h bs (senderRank g src) false it l d) (fun it' l' g' =>
      reportFail it' l' g' 1 (senderRank g src) (wholeArrived h bs (senderRank g src) false it l d)) := by
  rw [hn.collData_eq, if_neg (Nat.not_lt.mpr hall)]
  dsimp only
  rw [beq_false_of_ne hcrc]
  exact if_neg Bool.false_ne_true

end

/-- Settles O54: each packet's row is `collPacket` or `joinD` on the launch that it names, and DATA and PREPASS are one `collData`. -/
theorem collectivePacketsActOnTheLaunch : Obligations.CollectivePacketsActOnTheLaunch := by
  intro s src h bs hs
  refine ⟨fun hg c hc => exec_collective_dropped hs hg hc, fun gi g hg hi => ⟨?_, ?_, fun c hc => exec_launchPacket_unnamed hs hg hi hc⟩, ?_⟩
  · exact fun ha => eff_eq_onDev ((joinD_unnamed hs hg hi src).trans (if_neg (by simp [ha])))
  · exact fun ha => eff_eq_onDev ((joinD_unnamed hs hg hi src).trans (if_pos ha))
  intro gi g it l hg hi hit hl hgroup hw hst
  have hn : NamesLaunch s.dev h it l g := ⟨hs, ⟨gi, g, hg, hi⟩, hit, hl, hgroup, hw, hst⟩
  have acts {f : Dev → Item → Launch → Group → Dev} {e : Dev → Dev} (hf : f s.dev it l g = e s.dev) :
      eff (fun d => collPacket h d (f d)) s = .next (s.onDev e) := eff_eq_onDev ((hn.collPacket_eq _).trans hf)
  have idles {f : Dev → Item → Launch → Group → Dev} (hf : f s.dev it l g = s.dev) :
      eff (fun d => collPacket h d (f d)) s = .next s := eff_idle ((hn.collPacket_eq _).trans hf)
  refine ⟨eff_eq_onDev (hn.joinD_eq src),
    fun hp => acts (if_pos hp), fun hp => idles (if_neg hp),
    fun hlead => acts (if_pos hlead), fun hlead => idles (if_neg hlead),
    fun he => idles (if_neg he), fun he => acts (if_pos he), fun he => acts (if_pos he),
    fun he h1 h3 => acts ((if_pos he).trans (hn.endByAbort_left h1 h3)), fun he => idles (if_neg he),
    fun c hc => ?leaves,
    acts rfl,
    fun h3 => acts (if_pos h3), fun h3 => acts (if_neg h3),
    acts rfl, fun hc => idles (hn.reissueHere_unstarted hc _), fun hc hop => acts (hn.reissueHere_moved hc hop _),
    fun c ph hc => ?chunk⟩
  case leaves =>
    simp only [List.mem_cons, List.not_mem_nil, or_false] at hc
    rcases hc with rfl | rfl
    all_goals exact ⟨fun hlead => acts (if_pos hlead), fun hlead => idles (if_neg hlead)⟩
  case chunk =>
    have hrow : exec c s = eff (collData src { h with phase := ph } bs) s := by
      simp only [List.mem_cons, List.not_mem_nil, or_false, Prod.mk.injEq] at hc
      rcases hc with ⟨rfl, rfl⟩ | ⟨rfl, rfl⟩ <;> rfl
    have hp := hn.withPhase ph
    rw [hrow]
    refine ⟨fun hlt => eff_eq_onDev (hp.collData_gathers hlt), fun hall => ?_⟩
    intro r lone piece ring k len whole came
    have hlen : checkedBytes { h with phase := ph } (senderRank g src) it l g s.dev = len := by
      simp only [checkedBytes, isPiece_iff]
      rfl
    rw [← hlen]
    exact ⟨fun hcrc => eff_eq_dev (hp.collData_good hall hcrc), fun hcrc => eff_eq_dev (hp.collData_bad hall hcrc)⟩

end Sys2Proof.Proofs
end

section
/-! Security commands (16 R532 to R535): how each one ends, and what stands in the response area that the host reads. -/
namespace Sys2Proof.Proofs
open Sys2Proof Sys2Proof.Machine Sys2Proof.Laws

/-! ### The response (16 R535, 15 R505, R508) -/

/-- The bytes of a response: STATUS, DETAIL, LENGTH and the body. -/
def secResponse (reason off : Nat) (body : Bytes) : Bytes :=
  toLe 1 (if reason = 0 then 0 else 0x30) ++ zeros 3 ++ toLe 4 (if reason = 0 then 0 else reason * 65536 + off % 65536)
    ++ toLe 4 body.length ++ zeros 4 ++ body

/-- The device whose response area and STATE show the end of a command, before any message. -/
def secResponded (reason off : Nat) (body : Bytes) (d : Dev) : Dev :=
  { d with sec := { d.sec with state := 2, rsp := memWrite d.sec.rsp 0 (secResponse reason off body) } }

theorem secAnswer_quiet {reason off : Nat} {body : Bytes} {d : Dev} (h : d.sec.enable = false) :
    secAnswer reason off body d = secResponded reason off body d := if_neg (by simp [h])

theorem secAnswer_fires {reason off : Nat} {body : Bytes} {d : Dev} (h : d.sec.enable = true) :
    secAnswer reason off body d = fire1 d.sec.vector.toNat (secResponded reason off body d) := if_pos h

theorem secAnswer_sec (reason off : Nat) (body : Bytes) (d : Dev) : (secAnswer reason off body d).sec = (secResponded reason off body d).sec := by
  cases h : d.sec.enable
  case false => rw [secAnswer_quiet h]
  case true => rw [secAnswer_fires h, fire1_sec]

@[simp] theorem length_zeros (n : Nat) : (zeros n).length = n := by simp [zeros]

theorem length_secResponse (reason off : Nat) (body : Bytes) : (secResponse reason off body).length = 16 + body.length := by
  simp only [secResponse, List.length_append, length_toLe, length_zeros]

/-- A part of a stored string reads back as that part. -/
theorem memRead_memWrite_part (m : Mem) (xs ys zs : Bytes) : memRead (memWrite m 0 (xs ++ ys ++ zs)) xs.length ys.length = ys := by
  refine List.ext_getElem (by simp) fun i _ hi => ?_
  have hin : xs.length + i < (xs ++ ys ++ zs).length := by simp only [List.length_append]; omega
  have hbyte := memGet_memWrite_in m 0 (xs ++ ys ++ zs) (xs.length + i) hin
  rw [Nat.zero_add] at hbyte
  simp only [memRead_eq_map, List.getElem_map, List.getElem_range, hbyte]
  rw [List.append_assoc, List.getElem?_append_right (Nat.le_add_right _ _), Nat.add_sub_cancel_left, List.getElem?_append_left hi,
    List.getElem?_eq_getElem hi]
  rfl

/-- The byte of the response area at which each field starts, with what stands there. -/
theorem secResponse_fields (m : Mem) (reason off : Nat) (body : Bytes) :
    let b := memWrite m 0 (secResponse reason off body)
    memRead b 0 1 = toLe 1 (if reason = 0 then 0 else 0x30) ∧ memRead b 1 3 = zeros 3 ∧
    memRead b 4 4 = toLe 4 (if reason = 0 then 0 else reason * 65536 + off % 65536) ∧
    memRead b 8 4 = toLe 4 body.length ∧ memRead b 12 4 = zeros 4 ∧ memRead b 16 body.length = body := by
  generalize hs : toLe 1 (if reason = 0 then 0 else 0x30) = st
  generalize hd : toLe 4 (if reason = 0 then 0 else reason * 65536 + off % 65536) = dt
  generalize hl : toLe 4 body.length = ln
  have hsn : st.length = 1 := by rw [← hs, length_toLe]
  have hdn : dt.length = 4 := by rw [← hd, length_toLe]
  have hln : ln.length = 4 := by rw [← hl, length_toLe]
  have part (xs ys zs : Bytes) (a n : Nat) (ha : xs.length = a) (hn : ys.length = n)
      (h : st ++ zeros 3 ++ dt ++ ln ++ zeros 4 ++ body = xs ++ ys ++ zs) :
      memRead (memWrite m 0 (secResponse reason off body)) a n = ys := by
    rw [secResponse, hs, hd, hl, h, ← ha, ← hn, memRead_memWrite_part]
  refine ⟨part [] st (zeros 3 ++ dt ++ ln ++ zeros 4 ++ body) _ _ rfl hsn (by simp),
    part st (zeros 3) (dt ++ ln ++ zeros 4 ++ body) _ _ hsn (length_zeros 3) (by simp),
    part (st ++ zeros 3) dt (ln ++ zeros 4 ++ body) _ _ (by simp [hsn]) hdn (by simp),
    part (st ++ zeros 3 ++ dt) ln (zeros 4 ++ body) _ _ (by simp [hsn, hdn]) hln (by simp),
    part (st ++ zeros 3 ++ dt ++ ln) (zeros 4) body _ _ (by simp [hsn, hdn, hln]) (length_zeros 4) (by simp),
    part (st ++ zeros 3 ++ dt ++ ln ++ zeros 4) body [] _ _ (by simp [hsn, hdn, hln]) rfl (by simp)⟩

theorem fire1_masked {v : Nat} {d : Dev} (h : msixMasked d.pf1 v = true) :
    fire1 v d = { d with pf1 := { d.pf1 with pba := addNew d.pf1.pba v } } := if_pos h

theorem fire1_sends {v : Nat} {d : Dev} (h : msixMasked d.pf1 v = false)
    (hm : (d.pf1.busMaster && !d.pf1.d3 && !d.rst.hostDown) = true) :
    fire1 v d = { d with out := { d.out with msgs := d.out.msgs ++ [(1, v)] } } :=
  (if_neg (by simp [h])).trans (if_pos hm)

theorem fire1_holds {v : Nat} {d : Dev} (h : msixMasked d.pf1 v = false)
    (hm : (d.pf1.busMaster && !d.pf1.d3 && !d.rst.hostDown) = false) :
    fire1 v d = { d with pf1 := { d.pf1 with held := d.pf1.held ++ [v] } } :=
  (if_neg (by simp [h])).trans (if_neg (by simp [hm]))

/-- Settles O36: the fields are parts of one stored string, and the message is the vector's one firing. -/
theorem securityResponseIsWhatTheHostReads : Obligations.SecurityResponseIsWhatTheHostReads := by
  intro reason off body d _ d' v masked may
  have hsec : d'.sec = (secResponded reason off body d).sec := secAnswer_sec reason off body d
  have hrsp : d'.sec.rsp = memWrite d.sec.rsp 0 (secResponse reason off body) := by rw [hsec]; rfl
  obtain ⟨hstatus, hzero, hdetail, hlen, hzero', hbody⟩ := secResponse_fields d.sec.rsp reason off body
  rw [hrsp]
  refine ⟨hstatus, hzero, hdetail, hlen, hzero', hbody, fun x hx => ?beyond, by rw [hsec]; rfl, fun hq => ?quiet, fun hq => ⟨fun hm => ?masked,
    fun hm hs => ?sent, fun hm hs => ?held⟩, ?frame⟩
  case beyond =>
    have hout := length_secResponse reason off body
    simp [memGet_memWrite_out d.sec.rsp 0 (secResponse reason off body) x (Or.inr (by omega))]
  case quiet =>
    have e : d' = secResponded reason off body d := secAnswer_quiet hq
    rw [e]; exact ⟨rfl, rfl⟩
  case masked =>
    have e : d' = _ := (secAnswer_fires hq).trans (fire1_masked (d := secResponded reason off body d) hm)
    rw [e]; exact ⟨rfl, mem_addNew.mpr (Or.inr rfl), rfl⟩
  case sent =>
    have e : d' = _ := (secAnswer_fires hq).trans (fire1_sends (d := secResponded reason off body d) hm hs)
    rw [e]; exact ⟨rfl, rfl⟩
  case held =>
    have e : d' = _ := (secAnswer_fires hq).trans (fire1_holds (d := secResponded reason off body d) hm hs)
    rw [e]; exact ⟨rfl, rfl, rfl⟩
  case frame =>
    cases hq : d.sec.enable
    case false =>
      have e : d' = secResponded reason off body d := secAnswer_quiet hq
      rw [e]; rfl
    case true =>
      obtain ⟨x, y, hf⟩ := fire1_frame d.sec.vector.toNat (secResponded reason off body d)
      have e : d' = _ := (secAnswer_fires hq).trans hf
      rw [e]; rfl

/-! ### SEC_CMD -/

section
variable {op : BitVec 8} {d : Dev} (ho : pf1Open d = true) (hc : clocksRun d = true) (hb : brgPassed d 8 = true)
include ho hc hb

theorem secCmdWrite_open : secCmdWrite op d =
    if d.sec.state = 1 then { d with sec := { d.sec with cmdLost := true } }
    else if secOps.contains op.toNat = true then { d with sec := { d.sec with state := 1, opcode := op } }
    else secAnswer rBadOpcode (Config.noField op.toNat rBadOpcode) [] { d with sec := { d.sec with state := 1, opcode := op } } :=
  if_neg (by simp [ho, hc, hb])

theorem secCmdWrite_busy (hs : d.sec.state = 1) : secCmdWrite op d = { d with sec := { d.sec with cmdLost := true } } :=
  (secCmdWrite_open ho hc hb).trans (if_pos hs)

theorem secCmdWrite_starts (hs : d.sec.state ≠ 1) (hop : 1 ≤ op.toNat ∧ op.toNat ≤ 7) :
    secCmdWrite op d = { d with sec := { d.sec with state := 1, opcode := op } } := by
  have hin : secOps.contains op.toNat = true := by simp [secOps]; omega
  rw [secCmdWrite_open ho hc hb, if_neg hs, if_pos hin]

theorem secCmdWrite_undefined (hs : d.sec.state ≠ 1) (hop : op.toNat = 0 ∨ 7 < op.toNat) : secCmdWrite op d =
    secAnswer rBadOpcode (Config.noField op.toNat rBadOpcode) [] { d with sec := { d.sec with state := 1, opcode := op } } := by
  have hout : ¬ secOps.contains op.toNat = true := by simp [secOps]; omega
  rw [secCmdWrite_open ho hc hb, if_neg hs, if_neg hout]

end

/-! ### The commands that change no fuse (16 R532 to R534) -/

theorem secRow_wait {op : Nat} {g : Fuses → Dev → SRes} {s : State} (h : SecRuns s.dev op) (hg : g s.fuses s.dev = .wait) :
    secRow op g s = .next s := by
  obtain ⟨hclk, hstep, hbusy, hop⟩ := h
  simp [secRow, hclk, hstep, hbusy, hop, hg]

@[simp] theorem length_slice (bs : Bytes) (o n : Nat) : (slice bs o n).length = n := by
  simp only [slice, List.length_append, List.length_replicate, List.length_take]
  omega

/-- A middle part of a string is the slice at its place. -/
theorem slice_middle {bs : Bytes} (xs ys zs : Bytes) {o n : Nat} (h : bs = xs ++ ys ++ zs) (ho : xs.length = o) (hn : ys.length = n) :
    slice bs o n = ys := by
  subst h ho hn
  simp [slice, List.append_assoc]

/-- The parts of an attestation report before the serial number, and between the nonce and the key (16 Table 16-9). -/
def reportHead (f : Fuses) : Bytes := toLe 4 0x50545241 ++ toLe 2 1 ++ toLe 1 (lifecycle f) ++ zeros 1

def reportRest (f : Fuses) (d : Dev) : Bytes :=
  toLe 8 (tideNow d) ++ toLe 4 d.flash.startCount.toNat ++ toLe 4 d.sec.nEvents ++ toLe 1 f.floor ++ toLe 1 f.revoked.toNat ++ toLe 1 idNumv
    ++ toLe 1 d.sec.imageSvn ++ toLe 4 d.ophal.toNat ++ Machine.measure d 0 ++ Machine.measure d 1 ++ Machine.measure d 2 ++ Machine.measure d 3
    ++ toLe 8 (if d.pair.state = 0 then 0 else d.pair.partnerSerial.toNat)

theorem length_reportHead (f : Fuses) : (reportHead f).length = 8 := by
  simp only [reportHead, List.length_append, length_toLe, length_zeros]

theorem length_reportRest (f : Fuses) (d : Dev) : (reportRest f d).length = 160 := by
  simp only [reportRest, List.length_append, length_toLe, Machine.measure, length_slice]

theorem reportBody_eq (f : Fuses) (d : Dev) : reportBody f d =
    reportHead f ++ toLe 8 d.serial.toNat ++ memRead d.sec.req 0 32 ++ reportRest f d ++ attestPub d := by
  unfold reportBody reportHead reportRest
  simp only [List.append_assoc]

theorem length_attestPub {d : Dev} : (attestPub d).length = 32 := by
  unfold attestPub
  split <;> simp

/-- Where the report's fields stand (16 Table 16-9). -/
theorem reportBody_fields (f : Fuses) (d : Dev) :
    (reportBody f d).length = 240 ∧ slice (reportBody f d) 0 4 = toLe 4 0x50545241 ∧
    slice (reportBody f d) 8 8 = toLe 8 d.serial.toNat ∧ slice (reportBody f d) 16 32 = memRead d.sec.req 0 32 ∧
    slice (reportBody f d) 208 32 = attestPub d := by
  have hparts := reportBody_eq f d
  refine ⟨?length, slice_middle [] _ (toLe 2 1 ++ toLe 1 (lifecycle f) ++ zeros 1 ++ toLe 8 d.serial.toNat ++ memRead d.sec.req 0 32 ++
        reportRest f d ++ attestPub d) ?magic rfl (length_toLe 4 _),
    slice_middle (reportHead f) _ (memRead d.sec.req 0 32 ++ reportRest f d ++ attestPub d) ?serial (length_reportHead f) (length_toLe 8 _),
    slice_middle (reportHead f ++ toLe 8 d.serial.toNat) _ (reportRest f d ++ attestPub d) ?nonce ?_ (length_memRead _ _ 32),
    slice_middle (reportHead f ++ toLe 8 d.serial.toNat ++ memRead d.sec.req 0 32 ++ reportRest f d) _ [] ?key ?_ length_attestPub⟩
  case length => simp [hparts, length_reportHead, length_reportRest, length_attestPub]
  case magic => simp only [hparts, reportHead, List.append_assoc, List.nil_append]
  case serial => simp only [hparts, List.append_assoc]
  case nonce => simp only [hparts, List.append_assoc]
  case key => simp only [hparts, List.append_nil]
  all_goals simp [length_reportHead, length_reportRest]

section
variable {s : State}

theorem execGetIdentity_ok (h : SecRuns s.dev 1) (hi : s.dev.sec.identityOk = true) (hl : lifecycle s.fuses ≠ 3) :
    execGetIdentity s = .next (s.secDone s.fuses s.dev (slice s.dev.flash.idCert 0 7920)) :=
  secRow_done h (if_neg (by simp [hi, hl]))

theorem execGetIdentity_no (h : SecRuns s.dev 1) (hx : s.dev.sec.identityOk = false ∨ lifecycle s.fuses = 3) :
    execGetIdentity s = .next (s.secRefused rNotAllowed (Config.noField 1 rNotAllowed)) :=
  secRow_no h (if_pos (by simpa using hx))

theorem execGetAttestCert_no (h : SecRuns s.dev 2) (hl : lifecycle s.fuses = 3) :
    execGetAttestCert s = .next (s.secRefused rNotAllowed (Config.noField 2 rNotAllowed)) :=
  secRow_no h (if_pos (by simp [hl]))

theorem execGetAttestCert_waits (h : SecRuns s.dev 2) (hl : lifecycle s.fuses ≠ 3) (hr : s.dev.sec.attestReady = false) :
    execGetAttestCert s = .next s :=
  secRow_wait h ((if_neg (by simp [hl])).trans (if_pos (by simp [hr])))

theorem execGetAttestCert_ok (h : SecRuns s.dev 2) (hl : lifecycle s.fuses ≠ 3) (hr : s.dev.sec.attestReady = true) :
    execGetAttestCert s = .next (s.secDone s.fuses s.dev s.dev.sec.attestCert) :=
  secRow_done h ((if_neg (by simp [hl])).trans (if_neg (by simp [hr])))

theorem execAttest_no (h : SecRuns s.dev 3) (hl : lifecycle s.fuses = 3) :
    execAttest s = .next (s.secRefused rNotAllowed (Config.noField 3 rNotAllowed)) :=
  secRow_no h (if_pos (by simp [hl]))

theorem execAttest_waits (h : SecRuns s.dev 3) (hl : lifecycle s.fuses ≠ 3)
    (hr : s.dev.sec.attestReady = false ∨ s.dev.sec.attestKey = none) : execAttest s = .next s := by
  refine secRow_wait h ((if_neg (by simp [hl])).trans ?_)
  rcases hr with hr | hr <;> simp [hr]

theorem execAttest_ok (h : SecRuns s.dev 3) (hl : lifecycle s.fuses ≠ 3) (hr : s.dev.sec.attestReady = true) {n : Nat}
    (hk : s.dev.sec.attestKey = some n) : execAttest s = .next (s.secDone s.fuses s.dev
      (reportBody s.fuses s.dev ++ slice (Config.attestSign n (reportBody s.fuses s.dev)) 0 17088)) :=
  secRow_done h ((if_neg (by simp [hl])).trans (by simp only [hr, Bool.not_true, Bool.false_eq_true, if_false, hk]))

theorem execConfigLog_no (h : SecRuns s.dev 4) (hi : s.dev.sec.events.length < ofLe (memRead s.dev.sec.req 0 4)) :
    execConfigLog s = .next (s.secRefused rBadField 0) := secRow_no h (if_pos hi)

theorem execConfigLog_ok (h : SecRuns s.dev 4) (hi : ofLe (memRead s.dev.sec.req 0 4) ≤ s.dev.sec.events.length) :
    execConfigLog s =
      (let rs := (s.dev.sec.events.drop (ofLe (memRead s.dev.sec.req 0 4))).take 1000
       .next (s.secDone s.fuses s.dev
        (toLe 4 s.dev.sec.events.length ++ toLe 4 rs.length ++ (rs.map (fun r => slice r 0 32)).flatten))) :=
  secRow_done h (if_neg (Nat.not_lt.mpr hi))

theorem exec_attestCertReady_signs (hc : clocksRun s.dev = true) (hr : s.dev.brg.ready = true) (ha : s.dev.sec.attestReady = false)
    (hk : s.dev.sec.attestKey.isSome = true) : exec .attestCertReady s = .next (s.onDev (fun d => { d with sec := { d.sec with
      attestReady := true, attestCert := makeAttestCert s.fuses d } })) :=
  eff_eq_onDev (if_pos (by simp [hc, hr, ha, hk]))

theorem exec_attestCertReady_idle (h : clocksRun s.dev = false ∨ s.dev.brg.ready = false ∨ s.dev.sec.attestReady = true ∨
    s.dev.sec.attestKey = none) : exec .attestCertReady s = .next s :=
  eff_idle (if_neg (by rcases h with h | h | h | h <;> simp [h]))

end

/-- Settles O34: each clause is one way in which a write of SEC_CMD or a command ends. -/
theorem securityCommandsAnswer : Obligations.SecurityCommandsAnswer := by
  intro s d f
  refine ⟨fun op ho hc hb => ⟨fun hs hop => eff_eq_onDev (secCmdWrite_starts ho hc hb hs hop),
      fun hs hop => eff_eq_onDev (secCmdWrite_undefined ho hc hb hs hop), fun hs => eff_eq_onDev (secCmdWrite_busy ho hc hb hs)⟩,
    execGetIdentity_ok, execGetIdentity_no, execGetAttestCert_ok, execGetAttestCert_waits, execGetAttestCert_no,
    fun n h hl hr hk => ?report, execAttest_waits, execAttest_no, fun h => ⟨execConfigLog_no h, execConfigLog_ok h⟩,
    exec_attestCertReady_signs, exec_attestCertReady_idle⟩
  case report =>
    obtain ⟨hlen, hmagic, hserial, hnonce, hkey⟩ := reportBody_fields f d
    have hpub : attestPub d = slice (Config.attestPublic n) 0 32 := by simp only [attestPub, hk]
    exact ⟨reportBody f d, hlen, hmagic, hserial, hnonce, hkey.trans hpub, execAttest_ok h hl hr hk⟩

/-! ### The commands that blow fuses (16 R527 to R530) -/

/-- Some other slot is unrevoked and holds a hash (16 R528). -/
theorem lastSlot_eq_true {f : Fuses} {k : Nat} :
    lastSlot f k = true ↔ ¬ ∃ j, j < 3 ∧ j ≠ k ∧ f.revoked.getLsbD j = false ∧ allZero (keyHash f j) = false := by
  simp [lastSlot]

theorem lifecycle_eq_zero {f : Fuses} : lifecycle f = 0 ↔ f.returned = false ∧ f.deployed = false := by
  cases hr : f.returned <;> cases hd : f.deployed <;> simp [lifecycle, hr, hd]

theorem lifecycle_eq_one {f : Fuses} : lifecycle f = 1 ↔ f.returned = false ∧ f.deployed = true := by
  cases hr : f.returned <;> cases hd : f.deployed <;> simp [lifecycle, hr, hd]

section
variable {s : State}

theorem execSvnCommit_kept (h : SecRuns s.dev 5) (hn : min 64 s.dev.sec.imageSvn ≤ s.fuses.floor) :
    execSvnCommit s = .next (s.secDone s.fuses s.dev (toLe 1 s.fuses.floor)) := secRow_done h (if_pos hn)

theorem execSvnCommit_raised (h : SecRuns s.dev 5) (hn : s.fuses.floor < min 64 s.dev.sec.imageSvn) : execSvnCommit s =
    (let g : Fuses := { s.fuses with floor := min 64 s.dev.sec.imageSvn }
     .next (s.secDone g (fuseEvent g (logInfo 0x0901 g.floor s.dev)) (toLe 1 g.floor))) :=
  secRow_done h (if_neg (Nat.not_le.mpr hn))

/-- The slot that REVOKE_SLOT names. -/
def slotAsked (d : Dev) : Nat := ofLe (memRead d.sec.req 0 1)

theorem execRevokeSlot_bad (h : SecRuns s.dev 6) (hk : 2 < slotAsked s.dev) : execRevokeSlot s = .next (s.secRefused rBadField 0) :=
  secRow_no h (if_pos hk)

theorem execRevokeSlot_no (h : SecRuns s.dev 6) (hk : slotAsked s.dev ≤ 2)
    (hx : slotAsked s.dev = s.dev.sec.imageSlot ∨ lastSlot s.fuses (slotAsked s.dev) = true) :
    execRevokeSlot s = .next (s.secRefused rNotAllowed (Config.noField 6 rNotAllowed)) :=
  secRow_no h ((if_neg (Nat.not_lt.mpr hk)).trans (if_pos hx))

/-- REVOKE_SLOT of a slot that it may revoke: blown already, or blown now. -/
theorem execRevokeSlot_done (h : SecRuns s.dev 6) (hk : slotAsked s.dev ≤ 2) (hi : slotAsked s.dev ≠ s.dev.sec.imageSlot)
    (hl : ¬ lastSlot s.fuses (slotAsked s.dev) = true) :
    (s.fuses.revoked.getLsbD (slotAsked s.dev) = true → execRevokeSlot s = .next (s.secDone s.fuses s.dev (toLe 1 s.fuses.revoked.toNat))) ∧
    (s.fuses.revoked.getLsbD (slotAsked s.dev) = false → execRevokeSlot s =
      (let g : Fuses := { s.fuses with revoked := s.fuses.revoked ||| BitVec.ofNat 3 (2 ^ slotAsked s.dev) }
       .next (s.secDone g (fuseEvent g (logInfo 0x0902 (slotAsked s.dev) s.dev)) (toLe 1 g.revoked.toNat)))) := by
  have hnot : ¬ (slotAsked s.dev = s.dev.sec.imageSlot ∨ lastSlot s.fuses (slotAsked s.dev) = true) := fun hx => hx.elim hi hl
  constructor
  · intro hr
    exact secRow_done h ((if_neg (Nat.not_lt.mpr hk)).trans ((if_neg hnot).trans (if_pos hr)))
  · intro hr
    exact secRow_done h ((if_neg (Nat.not_lt.mpr hk)).trans ((if_neg hnot).trans (if_neg (ne_true_of_eq_false hr))))

/-- The state that LIFECYCLE_SET asks for, and the confirmation word. -/
def stateAsked (d : Dev) : Nat := ofLe (memRead d.sec.req 0 1)
def wordAsked (d : Dev) : Nat := ofLe (memRead d.sec.req 4 4)

/-- What LIFECYCLE_SET comes to, for each of the two steps forward and for every other request. -/
def lifecycleAnswer (f : Fuses) (d : Dev) : SRes :=
  if !(stateAsked d == 1 && lifecycle f == 0) && !(stateAsked d == 3 && lifecycle f == 1) then .no rBadField 0
  else if stateAsked d = 3 ∧ wordAsked d ≠ d.serial.toNat % 2 ^ 32 then .no rBadField 4
  else if stateAsked d = 1 ∧ d.sec.identityOk = false then notNow 7
  else if stateAsked d = 1 then
    .done { f with deployed := true } (fuseEvent { f with deployed := true } (logInfo 0x0903 (stateAsked d) d))
      (toLe 1 (lifecycle { f with deployed := true }))
  else
    .done { f with returned := true, seedErased := true } (fuseEvent { f with returned := true, seedErased := true }
      (logInfo 0x0903 (stateAsked d) { d with sec := { d.sec with attestKey := none } }))
      (toLe 1 (lifecycle { f with returned := true, seedErased := true }))

theorem execLifecycleSet_eq : execLifecycleSet s = secRow 7 lifecycleAnswer s := rfl

theorem lifecycleAnswer_bad {f : Fuses} {d : Dev} (h1 : ¬ (stateAsked d = 1 ∧ lifecycle f = 0)) (h3 : ¬ (stateAsked d = 3 ∧ lifecycle f = 1)) :
    lifecycleAnswer f d = .no rBadField 0 := by
  refine if_pos ?_
  simp only [Bool.and_eq_true, Bool.not_eq_true', Bool.and_eq_false_iff, beq_eq_false_iff_ne]
  exact ⟨not_and_or.mp h1, not_and_or.mp h3⟩

section
variable {f : Fuses} {d : Dev}

theorem lifecycleAnswer_deploy (hn : stateAsked d = 1) (hl : lifecycle f = 0) : lifecycleAnswer f d =
    if d.sec.identityOk = false then notNow 7
    else .done { f with deployed := true } (fuseEvent { f with deployed := true } (logInfo 0x0903 1 d)) (toLe 1 1) := by
  have hone : lifecycle { f with deployed := true } = 1 := lifecycle_eq_one.mpr ⟨(lifecycle_eq_zero.mp hl).1, rfl⟩
  simp [lifecycleAnswer, hn, hl, hone]

theorem lifecycleAnswer_return (hn : stateAsked d = 3) (hl : lifecycle f = 1) : lifecycleAnswer f d =
    if wordAsked d ≠ d.serial.toNat % 2 ^ 32 then .no rBadField 4
    else .done { f with returned := true, seedErased := true } (fuseEvent { f with returned := true, seedErased := true }
      (logInfo 0x0903 3 { d with sec := { d.sec with attestKey := none } })) (toLe 1 3) := by
  have hthree : lifecycle { f with returned := true, seedErased := true } = 3 := rfl
  simp [lifecycleAnswer, hn, hl, hthree]

end

end

/-- Settles O35: each clause is one case of a command that blows fuses. -/
theorem fuseCommandsBlowTheirFuses : Obligations.FuseCommandsBlowTheirFuses := by
  intro s d f event
  refine ⟨fun h => ⟨execSvnCommit_kept h, execSvnCommit_raised h⟩, fun h => ⟨execRevokeSlot_bad h,
      fun hk hx => execRevokeSlot_no h hk (hx.imp_right lastSlot_eq_true.mpr), fun hk hi ho => ?again, fun hk hi ho => ?blown⟩,
    fun h => ⟨fun h1 h3 => secRow_no h (lifecycleAnswer_bad h1 h3),
      fun hn hl hw => secRow_no h ((lifecycleAnswer_return hn hl).trans (if_pos hw)),
      fun hn hl hi => secRow_no h ((lifecycleAnswer_deploy hn hl).trans (if_pos hi)),
      fun hn hl hi => secRow_done h ((lifecycleAnswer_deploy hn hl).trans (if_neg (ne_false_of_eq_true hi))),
      fun hn hl hw => secRow_done h ((lifecycleAnswer_return hn hl).trans (if_neg (not_not.mpr hw)))⟩⟩
  case again => exact (execRevokeSlot_done h hk hi (mt lastSlot_eq_true.mp (not_not.mpr ho))).1
  case blown => exact (execRevokeSlot_done h hk hi (mt lastSlot_eq_true.mp (not_not.mpr ho))).2

end Sys2Proof.Proofs
end

section
/-! The fuses (16 R524, R527 to R530): only the three security commands blow any, and no step and no run unblows one. -/
namespace Sys2Proof.Proofs
open Sys2Proof Sys2Proof.Machine Sys2Proof.Laws

/-! ### Commands that blow none -/

/-- A command after which every fuse is as before. -/
def KeepsFuses (f : State → Res) : Prop := ∀ s t : State, f s = .next t → t.fuses = s.fuses

/-- A command that changes the device alone keeps the fuses; it may read them. -/
theorem keepsFuses_of_dev {f : State → Res} (h : ∀ s, f s = .next { s with dev := devAlone f s }) : KeepsFuses f := by
  intro s t ht
  rw [← Host.Outcome.next.inj ((h s).symm.trans ht)]

theorem keepsFuses_of_eff {f : State → Res} {g : Dev → Dev} (h : ∀ s, f s = eff g s) : KeepsFuses f := by
  intro s t ht
  rw [← Host.Outcome.next.inj ((h s).symm.trans ht), onDev_fuses]

/-- A security command changes the fuses as its answer does, and not at all where it does not answer DONE. -/
theorem secRow_fuses {R : Fuses → Fuses → Prop} {op : Nat} {g : Fuses → Dev → SRes} {s t : State} (hrefl : R s.fuses s.fuses)
    (hdone : ∀ z d body, g s.fuses s.dev = .done z d body → R s.fuses z) (h : secRow op g s = .next t) : R s.fuses t.fuses := by
  simp only [secRow] at h
  split at h
  case isTrue =>
    split at h
    next z d body hg =>
      cases h
      exact hdone z d body hg
    next => cases h; exact hrefl
    next => cases h; exact hrefl
  case isFalse => cases h; exact hrefl

theorem keepsFuses_secRow {op : Nat} {g : Fuses → Dev → SRes} (h : ∀ f d z e body, g f d = .done z e body → z = f) :
    KeepsFuses (secRow op g) :=
  fun s _ ht => secRow_fuses (R := fun f z => z = f) rfl (fun z d body hg => h s.fuses s.dev z d body hg) ht

theorem execGetIdentity_keepsFuses : KeepsFuses execGetIdentity := by
  refine keepsFuses_secRow fun f d z e body hg => ?_
  split at hg <;> cases hg
  rfl

theorem execGetAttestCert_keepsFuses : KeepsFuses execGetAttestCert := by
  refine keepsFuses_secRow fun f d z e body hg => ?_
  split at hg
  · cases hg
  · split at hg <;> cases hg
    rfl

theorem execAttest_keepsFuses : KeepsFuses execAttest := by
  refine keepsFuses_secRow fun f d z e body hg => ?_
  split at hg
  · cases hg
  · split at hg
    · cases hg
    · split at hg <;> cases hg
      rfl

theorem execConfigLog_keepsFuses : KeepsFuses execConfigLog := by
  refine keepsFuses_secRow fun f d z e body hg => ?_
  dsimp only at hg
  split at hg <;> cases hg
  rfl

/-- Every command but the three is a security command that answers the fuses it was given, or a change of the device. -/
theorem exec_keepsFuses {c : Instr} (h5 : c ≠ .svnCommit) (h6 : c ≠ .revokeSlot) (h7 : c ≠ .lifecycleSet) : KeepsFuses (exec c) := by
  cases c
  case svnCommit => exact absurd rfl h5
  case revokeSlot => exact absurd rfl h6
  case lifecycleSet => exact absurd rfl h7
  case getIdentity => exact execGetIdentity_keepsFuses
  case getAttestCert => exact execGetAttestCert_keepsFuses
  case attest => exact execAttest_keepsFuses
  case configLog => exact execConfigLog_keepsFuses
  case unitQuery => exact keepsFuses_of_dev fun _ => rfl
  case repairLogClear => exact keepsFuses_of_dev fun _ => rfl
  case rcRegisterRead => exact keepsFuses_of_dev fun _ => rfl
  case bringupStepDone => exact keepsFuses_of_dev fun _ => rfl
  case attestCertReady => exact keepsFuses_of_dev fun _ => rfl
  case frzAccess => exact keepsFuses_of_dev fun _ => rfl
  case frzFreeze => exact keepsFuses_of_dev fun _ => rfl
  all_goals exact keepsFuses_of_eff fun _ => rfl

/-- Settles O4: it is `exec_keepsFuses`. -/
theorem onlySecurityCommandsBlowFuses : Obligations.OnlySecurityCommandsBlowFuses := fun _ s t h5 h6 h7 => exec_keepsFuses h5 h6 h7 s t

/-! ### Commands that blow fuses -/

/-- The fuses can be those of a later time: legal, with none unblown. -/
def FusesLater (f z : Fuses) : Prop := FusesLegal z ∧ FusesKept f z

theorem fusesKept_refl (f : Fuses) : FusesKept f f := ⟨Nat.le_refl _, fun _ => id, id, id, id, rfl⟩

theorem fusesKept_trans {f g z : Fuses} (h : FusesKept f g) (h' : FusesKept g z) : FusesKept f z := by
  obtain ⟨hfloor, hrev, hdep, hret, hseed, hrest⟩ := h
  obtain ⟨hfloor', hrev', hdep', hret', hseed', hrest'⟩ := h'
  refine ⟨hfloor.trans hfloor', fun k hk => hrev' k (hrev k hk), hdep' ∘ hdep, hret' ∘ hret, hseed' ∘ hseed, ?_⟩
  rw [hrest', hrest]

section
variable {s t : State} (hlegal : FusesLegal s.fuses)
include hlegal

theorem execSvnCommit_later (h : execSvnCommit s = .next t) : FusesLater s.fuses t.fuses := by
  obtain ⟨hfloor, hret, hseed⟩ := hlegal
  refine secRow_fuses ⟨⟨hfloor, hret, hseed⟩, fusesKept_refl _⟩ (fun z d body hg => ?_) h
  dsimp only at hg
  split at hg
  next => cases hg; exact ⟨⟨hfloor, hret, hseed⟩, fusesKept_refl _⟩
  next hn =>
    cases hg
    exact ⟨⟨Nat.min_le_left _ _, hret, hseed⟩, Nat.le_of_not_le hn, fun _ => id, id, id, id, rfl⟩

theorem execRevokeSlot_later (h : execRevokeSlot s = .next t) : FusesLater s.fuses t.fuses := by
  refine secRow_fuses ⟨hlegal, fusesKept_refl _⟩ (fun z d body hg => ?_) h
  dsimp only at hg
  split at hg
  next => cases hg
  next =>
    split at hg
    next => cases hg
    next =>
      split at hg
      next => cases hg; exact ⟨hlegal, fusesKept_refl _⟩
      next =>
        cases hg
        exact ⟨hlegal, Nat.le_refl _, fun k hk => by simp [hk], id, id, id, rfl⟩

theorem execLifecycleSet_later (h : execLifecycleSet s = .next t) : FusesLater s.fuses t.fuses := by
  obtain ⟨hfloor, hret, hseed⟩ := hlegal
  rw [execLifecycleSet_eq] at h
  refine secRow_fuses ⟨⟨hfloor, hret, hseed⟩, fusesKept_refl _⟩ (fun z d body hg => ?_) h
  by_cases h1 : stateAsked s.dev = 1 ∧ lifecycle s.fuses = 0
  case pos =>
    rw [lifecycleAnswer_deploy h1.1 h1.2] at hg
    split at hg <;> cases hg
    exact ⟨⟨hfloor, fun _ => rfl, hseed⟩, Nat.le_refl _, fun _ => id, fun _ => rfl, id, id, rfl⟩
  by_cases h3 : stateAsked s.dev = 3 ∧ lifecycle s.fuses = 1
  case pos =>
    rw [lifecycleAnswer_return h3.1 h3.2] at hg
    split at hg <;> cases hg
    exact ⟨⟨hfloor, fun _ => (lifecycle_eq_one.mp h3.2).2, rfl⟩, Nat.le_refl _, fun _ => id, id, fun _ => rfl, fun _ => rfl, rfl⟩
  rw [lifecycleAnswer_bad h1 h3] at hg
  cases hg

theorem exec_later {c : Instr} (h : exec c s = .next t) : FusesLater s.fuses t.fuses := by
  by_cases h5 : c = .svnCommit
  case pos => subst h5; exact execSvnCommit_later hlegal h
  by_cases h6 : c = .revokeSlot
  case pos => subst h6; exact execRevokeSlot_later hlegal h
  by_cases h7 : c = .lifecycleSet
  case pos => subst h7; exact execLifecycleSet_later hlegal h
  rw [exec_keepsFuses h5 h6 h7 s t h]
  exact ⟨hlegal, fusesKept_refl _⟩

/-! ### Steps and runs -/

theorem step_later (h : step s = .next t) : FusesLater s.fuses t.fuses := by
  cases hq : s.pending with
  | nil =>
    simp only [step, hq] at h
    cases h
    exact ⟨hlegal, fusesKept_refl _⟩
  | cons c rest =>
    simp only [step, hq] at h
    exact exec_later (s := { s with pending := rest }) hlegal h

end

/-- A run that answers a next state takes a first step that does. -/
theorem run_succ_inv {n : Nat} {s t : State} (h : Host.Core.run Sys2Proof.core (n + 1) s = .next t) :
    ∃ u, step s = .next u ∧ Host.Core.run Sys2Proof.core n u = .next t := by
  have hstep : Sys2Proof.core.step s = step s := rfl
  simp only [Host.Core.run, hstep] at h
  cases hu : step s <;> simp only [hu] at h
  case next u => exact ⟨u, rfl, h⟩
  all_goals cases h

theorem run_later (n : Nat) : ∀ {s t : State}, FusesLegal s.fuses → Host.Core.run Sys2Proof.core n s = .next t → FusesLater s.fuses t.fuses := by
  induction n with
  | zero =>
    intro s t hlegal h
    cases h
    exact ⟨hlegal, fusesKept_refl _⟩
  | succ n ih =>
    intro s t hlegal h
    obtain ⟨u, hstep, hrun⟩ := run_succ_inv h
    obtain ⟨hu, hkept⟩ := step_later hlegal hstep
    obtain ⟨ht, hkept'⟩ := ih hu hrun
    exact ⟨ht, fusesKept_trans hkept hkept'⟩

/-- Settles O5: every command keeps legal fuses legal and unblows none (`exec_later`), so by induction every run does. -/
theorem fusesOnlyBlowOverARun : Obligations.FusesOnlyBlowOverARun :=
  ⟨fun _ _ hlegal h => step_later hlegal h, fun n _ _ hlegal h => run_later n hlegal h⟩

end Sys2Proof.Proofs
end

section
/-! Power domains (14 R467 to R469): what a write of PWR_CTL asks for, what a domain's end changes, and the limits of the steps (R471). -/
namespace Sys2Proof.Proofs
open Sys2Proof Sys2Proof.Machine Sys2Proof.Laws

/-! ### PWR_CTL (14 R467, R468) -/

/-- The domains that a write of PWR_CTL asks for; the security domain is always among them (14 Table 14-1). -/
def pwrAsked (v : BitVec 32) : BitVec 20 := v.truncate 20 ||| 0x4000#20

/-- The domains that the write newly asks for, and those that it clears. -/
def pwrSet (v : BitVec 32) (d : Dev) : List Nat := (List.range 20).filter (fun k => (pwrAsked v).getLsbD k && !d.power.on.getLsbD k)
def pwrCleared (v : BitVec 32) (d : Dev) : List Nat := (List.range 20).filter (fun k => !(pwrAsked v).getLsbD k && d.power.on.getLsbD k)

/-- The device that holds the requests, with the GOOD bits and the ramp of the cleared domains gone. -/
def pwrTaken (v : BitVec 32) (d : Dev) : Dev :=
  { d with power := { d.power with
      on := pwrAsked v
      good := d.power.good &&& ~~~(BitVec.ofNat 20 (bitMask (pwrCleared v d)))
      ramping := if d.power.ramping.any (pwrCleared v d).contains then none else d.power.ramping } }

/-- Step 2 begins where a write of a device asks for a domain before any step 2. -/
def rampBegins (v : BitVec 32) (d e : Dev) : Dev :=
  nextRamp (if (List.range 20).any (fun k => (pwrAsked v).getLsbD k && !d.power.on.getLsbD k) = true ∧ brgState e 2 = 0 then beginStep 2 e else e)

theorem mem_pwrSet {v : BitVec 32} {d : Dev} {k : Nat} :
    k ∈ pwrSet v d ↔ k < 20 ∧ (pwrAsked v).getLsbD k = true ∧ d.power.on.getLsbD k = false := by simp [pwrSet]

theorem mem_pwrCleared {v : BitVec 32} {d : Dev} {k : Nat} :
    k ∈ pwrCleared v d ↔ k < 20 ∧ (pwrAsked v).getLsbD k = false ∧ d.power.on.getLsbD k = true := by simp [pwrCleared]

theorem any_filter_true {α : Type} (p : α → Bool) (l : List α) : (!(l.filter p).isEmpty) = l.any p := by
  cases h : l.any p <;> simp_all

section
variable {v : BitVec 32} {d : Dev}

theorem pwrWrite_eq : pwrWrite v d =
    if ((pwrSet v d).any (fun k => !pdReady d k) || (d.brg.ready && !(pwrCleared v d).isEmpty)) = true
    then { d with power := { d.power with orderErr := true } }
    else nextRamp (
      let e := (pwrCleared v d).foldl (fun d k => stacksDown k d) (pwrTaken v d)
      if (!(pwrSet v d).isEmpty && brgState e 2 == 0) = true then beginStep 2 e else e) := rfl

theorem pwrWrite_refused (h : (∃ k ∈ pwrSet v d, pdReady d k = false) ∨ (d.brg.ready = true ∧ ∃ k, k ∈ pwrCleared v d)) :
    pwrWrite v d = { d with power := { d.power with orderErr := true } } := by
  refine pwrWrite_eq.trans (if_pos ?_)
  rcases h with ⟨k, hk, hr⟩ | ⟨hready, k, hk⟩
  · have hany : (pwrSet v d).any (fun k => !pdReady d k) = true := List.any_eq_true.mpr ⟨k, hk, by simp [hr]⟩
    simp [hany]
  · have hne : pwrCleared v d ≠ [] := List.ne_nil_of_mem hk
    simp [hready, hne]

/-- A write that asks for domains whose earlier groups are all GOOD, and clears none in service, is taken. -/
theorem pwrWrite_taken (hs : ∀ k ∈ pwrSet v d, pdReady d k = true) (hc : d.brg.ready = false ∨ pwrCleared v d = []) :
    pwrWrite v d = rampBegins v d ((pwrCleared v d).foldl (fun d k => stacksDown k d) (pwrTaken v d)) := by
  have hany : (pwrSet v d).any (fun k => !pdReady d k) = false := List.any_eq_false.mpr fun k hk => by simp [hs k hk]
  have hkept : (d.brg.ready && !(pwrCleared v d).isEmpty) = false := by rcases hc with hc | hc <;> simp [hc]
  have hset : (!(pwrSet v d).isEmpty) = (List.range 20).any (fun k => (pwrAsked v).getLsbD k && !d.power.on.getLsbD k) :=
    any_filter_true _ _
  rw [pwrWrite_eq, hany, hkept, hset]
  simp only [rampBegins, Bool.or_self, Bool.false_eq_true, if_false, Bool.and_eq_true, beq_iff_eq]

/-- With nothing cleared the write keeps its requests and changes nothing else before the ramp. -/
theorem pwrTaken_nothing (h : pwrCleared v d = []) : pwrTaken v d = { d with power := { d.power with on := pwrAsked v } } := by
  have hmask : ~~~(BitVec.ofNat 20 (bitMask [])) = BitVec.allOnes 20 := by decide
  have hramp : d.power.ramping.any ([] : List Nat).contains = false := by cases d.power.ramping <;> rfl
  simp only [pwrTaken, h, hmask, hramp, BitVec.and_allOnes, Bool.false_eq_true, if_false]

theorem exec_pwrCtlOn {s : State} {g : Dev → Dev} (hup : pf1Up s.dev = true) (h : pwrWrite v s.dev = g s.dev) :
    exec (.pwrCtlOn v) s = .next (s.onDev g) := eff_eq_onDev ((if_pos hup).trans h)

end

/-! ### Domains that are good, and that fail (14 R467, R469) -/

section
variable {s : State} {k : Nat}

theorem exec_powerDomainGood_ramps (ho : isOn s.dev = true) (hr : s.dev.power.ramping = some k) :
    exec (.powerDomainGood k) s = .next (s.onDev (fun d =>
      nextRamp { d with power := { d.power with ramping := none, good := d.power.good ||| BitVec.ofNat 20 (2 ^ k) } })) :=
  eff_eq_onDev (if_pos (by simp [ho, hr]))

theorem exec_powerDomainGood_idle (h : isOn s.dev = false ∨ s.dev.power.ramping ≠ some k) : exec (.powerDomainGood k) s = .next s :=
  eff_idle (if_neg (by rcases h with h | h <;> simp [h]))

/-- The device whose domain `k` has its FAULT bit and has lost GOOD. -/
def domainCut (k : Nat) (d : Dev) : Dev :=
  { d with power := { d.power with
      fault := d.power.fault ||| BitVec.ofNat 20 (2 ^ k), good := d.power.good &&& ~~~(BitVec.ofNat 20 (2 ^ k)) } }

/-- The record of a domain that fails in service (14 Table 14-2). -/
def domainRec (k : Nat) : RasRec :=
  if k < 6 then { sev := 3, cls := 0x0F0B, code := BitVec.ofNat 32 k, unitKind := 11, logical := BitVec.ofNat 32 k, physical := BitVec.ofNat 32 k }
  else if k ≤ 11 then
    { sev := 4, cls := 0x0F0B, code := BitVec.ofNat 32 k, unitKind := 8, logical := BitVec.ofNat 32 (k - 6), physical := BitVec.ofNat 32 (k - 6) }
  else { sev := if k ≤ 13 then 3 else 4, cls := 0x0F0B, code := BitVec.ofNat 32 k }

theorem domainRec_eq (k : Nat) :
    (let sev := if k < 6 ∨ k = 12 ∨ k = 13 then 3 else 4
     let rec_ : RasRec := { sev := sev, cls := 0x0F0B, code := BitVec.ofNat 32 k }
     if k < 6 then { rec_ with unitKind := 11, logical := BitVec.ofNat 32 k, physical := BitVec.ofNat 32 k }
     else if 6 ≤ k ∧ k ≤ 11 then { rec_ with unitKind := 8, logical := BitVec.ofNat 32 (k - 6), physical := BitVec.ofNat 32 (k - 6) } else rec_)
      = domainRec k := by
  by_cases hcore : k < 6
  case pos => simp [domainRec, hcore]
  by_cases hstack : k ≤ 11
  case pos =>
    have h12 : ¬ (k = 12 ∨ k = 13) := by omega
    simp [domainRec, hcore, hstack, h12, Nat.not_lt.mp hcore]
  have hlink : (k = 12 ∨ k = 13) ↔ k ≤ 13 := by omega
  simp [domainRec, hcore, hstack, hlink]

theorem exec_powerDomainFault_idle (h : isOn s.dev = false ∨ 20 ≤ k ∨ s.dev.power.good.getLsbD k = false) :
    exec (.powerDomainFault k) s = .next s := by
  refine eff_idle (if_pos ?_)
  rcases h with h | h | h
  · simp [h]
  · simp [Nat.not_lt.mpr h]
  · simp [pdGood, h]

variable (ho : isOn s.dev = true) (hk : k < 20) (hg : s.dev.power.good.getLsbD k = true)
include ho hk hg

theorem exec_powerDomainFault_before (h : s.dev.brg.ready = false) :
    exec (.powerDomainFault k) s = .next (s.onDev (fun d => stacksDown k (domainCut k d))) :=
  eff_eq_onDev ((if_neg (by simp [ho, hk, pdGood, hg])).trans (if_pos (by simp [h])))

theorem exec_powerDomainFault_inService (h : s.dev.brg.ready = true) (hf : firmwareRuns s.dev = true) :
    exec (.powerDomainFault k) s = .next (s.onDev (fun d => domainCut k (domainLost k (logRec (domainRec k) d)))) := by
  refine eff_eq_onDev ((if_neg (by simp [ho, hk, pdGood, hg])).trans ((if_neg (by simp [h, hf])).trans ?_))
  rw [← domainRec_eq k]
  rfl

end

theorem stacksDown_none {k : Nat} {d : Dev} (h : brgPassed d 6 = false ∨ domainStacks k = []) : stacksDown k d = d := by
  unfold stacksDown
  split
  case isTrue h6 =>
    have hnone : domainStacks k = [] := h.resolve_left (by simp [h6])
    simp [hnone]
  case isFalse => rfl

/-! ### Limits (14 R471, Table 14-4) -/

section
variable {n : Nat} {mask : BitVec 32} {s : State}

theorem exec_bringupStepTimeout_idle (h : isOn s.dev = false ∨ brgState s.dev n ≠ 1) : exec (.bringupStepTimeout n mask) s = .next s :=
  eff_idle (if_pos (by rcases h with h | h <;> simp [h]))

/-- A running step of a module that is on comes to its limit. -/
theorem timeout_acts {d : Dev} (ho : isOn d = true) (hr : brgState d n = 1) : ¬ (!(isOn d && brgState d n == 1)) = true := by simp [ho, hr]

theorem exec_bringupStepTimeout_plain (ho : isOn s.dev = true) {ms : Nat}
    (hn : (n, ms) ∈ [(3, 10), (5, 200), (6, 1500), (7, 2000), (8, 500), (11, 1000)]) (hr : brgState s.dev n = 1) :
    exec (.bringupStepTimeout n mask) s = .next (s.onDev (failStep n 1 mask.toNat ms)) := by
  simp only [List.mem_cons, Prod.mk.injEq, List.not_mem_nil, or_false] at hn
  rcases hn with ⟨rfl, rfl⟩ | ⟨rfl, rfl⟩ | ⟨rfl, rfl⟩ | ⟨rfl, rfl⟩ | ⟨rfl, rfl⟩ | ⟨rfl, rfl⟩ <;>
    exact eff_eq_onDev (if_neg (timeout_acts ho hr))

theorem exec_bringupStepTimeout_plan_fails (ho : isOn s.dev = true) (hr : brgState s.dev 10 = 1)
    (hp : s.dev.lnk.planState = 3 ∨ s.dev.lnk.planState = 5) :
    exec (.bringupStepTimeout 10 mask) s = .next (s.onDev (failStep 10 0x0B 0 1000)) :=
  eff_eq_onDev ((if_neg (timeout_acts ho hr)).trans (if_pos hp))

theorem exec_bringupStepTimeout_plan_goesOn (ho : isOn s.dev = true) (hr : brgState s.dev 10 = 1)
    (hp : ¬ (s.dev.lnk.planState = 3 ∨ s.dev.lnk.planState = 5)) : exec (.bringupStepTimeout 10 mask) s = .next s :=
  eff_idle ((if_neg (timeout_acts ho hr)).trans (if_neg hp))

end

/-- Settles O37: each clause is one outcome of a write of PWR_CTL, of a domain's row, or of a step's limit. -/
theorem powerDomainsRampInOrder : Obligations.PowerDomainsRampInOrder := by
  intro s d
  refine ⟨fun v hup => ⟨fun h => ?refused, fun hs hc => ?asked⟩, fun v hup hr hs => ?cleared,
    fun v hup => eff_idle (if_neg (ne_true_of_eq_false hup)), fun k => exec_powerDomainGood_idle,
    fun k ho _ hr => exec_powerDomainGood_ramps ho hr,
    fun k ho hk hg => ⟨exec_powerDomainFault_before ho hk hg, fun _ h => stacksDown_none (d := domainCut k d) h,
      fun h hf => ⟨_, _, exec_powerDomainFault_inService ho hk hg h hf, rfl, rfl⟩⟩,
    fun k => exec_powerDomainFault_idle, fun mask n => exec_bringupStepTimeout_idle,
    fun mask ho => ⟨fun hr => eff_eq_onDev (if_neg (timeout_acts ho hr)), fun n ms => exec_bringupStepTimeout_plain ho,
      fun hr => eff_eq_onDev (if_neg (timeout_acts ho hr)), fun hr => eff_eq_onDev (if_neg (timeout_acts ho hr)),
      fun hr h3 h5 => exec_bringupStepTimeout_plan_goesOn ho hr (not_or.mpr ⟨h3, h5⟩), exec_bringupStepTimeout_plan_fails ho⟩⟩
  case refused =>
    refine exec_pwrCtlOn hup (pwrWrite_refused (h.imp ?_ ?_))
    · rintro ⟨k, hk, hnew, hready⟩
      exact ⟨k, mem_pwrSet.mpr ⟨hk, hnew⟩, hready⟩
    · rintro ⟨hready, k, hk, hgone⟩
      exact ⟨hready, k, mem_pwrCleared.mpr ⟨hk, hgone⟩⟩
  case asked =>
    have hnone : pwrCleared v d = [] := List.eq_nil_iff_forall_not_mem.mpr fun k hk => hc k (mem_pwrCleared.mp hk).1 (mem_pwrCleared.mp hk).2
    have hready (k : Nat) (hk : k ∈ pwrSet v d) : pdReady d k = true := hs k (mem_pwrSet.mp hk).1 (mem_pwrSet.mp hk).2
    refine exec_pwrCtlOn hup ((pwrWrite_taken hready (Or.inr hnone)).trans ?_)
    rw [pwrTaken_nothing hnone, hnone]
    rfl
  case cleared =>
    have hready (k : Nat) (hk : k ∈ pwrSet v d) : pdReady d k = true := by
      obtain ⟨hlt, hon, hoff⟩ := mem_pwrSet.mp hk
      exact hs k hlt hon hoff
    exact exec_pwrCtlOn hup (pwrWrite_taken hready (Or.inl hr))

end Sys2Proof.Proofs
end

section
/-! GO (14 R470, R472): a step begins after the step before it has passed, once, and out of order it only sets ORDER_ERR. -/
namespace Sys2Proof.Proofs
open Sys2Proof Sys2Proof.Machine Sys2Proof.Laws

/-- A GO of step `n` keeps the order: the step before it has passed, and it has not run since PERST#. -/
def GoInOrder (n : Nat) (d : Dev) : Prop := brgPassed d (n - 1) = true ∧ brgState d n = 0

/-- Step 7 may run again, up to its third try. -/
def GoAgain (d : Dev) : Prop := brgPassed d 6 = true ∧ brgState d 7 = 4 ∧ d.brg.tries < 3

theorem goBad_iff {n : Nat} {d : Dev} (h : n ≠ 7) : goBad n d = true ↔ ¬ GoInOrder n d := by
  simp [goBad, GoInOrder, h, imp_iff_not_or]

theorem goBad_seven_iff {d : Dev} : goBad 7 d = true ↔ ¬ (GoInOrder 7 d ∨ GoAgain d) := by
  cases hp : brgPassed d 6 <;> by_cases h0 : brgState d 7 = 0 <;> by_cases h4 : brgState d 7 = 4 <;> simp [goBad, GoInOrder, GoAgain, hp, h0, h4]

section
variable {n : Nat} {f : Dev → Dev} {d : Dev} (hu : pf1Up d = true) (hc : clocksRun d = true)
include hu hc

theorem goStep_taken : goStep n f d = if goBad n d = true then { d with brg := { d.brg with orderErr := true } } else f (beginStep n d) :=
  if_neg (by simp [hu, hc])

theorem goStep_inOrder (hn : n ≠ 7) (h : GoInOrder n d) : goStep n f d = f (beginStep n d) :=
  (goStep_taken hu hc).trans (if_neg (fun hb => (goBad_iff hn).mp hb h))

theorem goStep_outOfOrder (hn : n ≠ 7) (h : ¬ GoInOrder n d) : goStep n f d = { d with brg := { d.brg with orderErr := true } } :=
  (goStep_taken hu hc).trans (if_pos ((goBad_iff hn).mpr h))

theorem goImageVerify_inOrder (h : GoInOrder 7 d ∨ GoAgain d) : goImageVerify d =
    (let e := beginStep 7 d
     { e with brg := { e.brg with tries := e.brg.tries + 1 } }) :=
  (goStep_taken hu hc).trans (if_neg (fun hb => goBad_seven_iff.mp hb h))

theorem goImageVerify_outOfOrder (h : ¬ (GoInOrder 7 d ∨ GoAgain d)) : goImageVerify d = { d with brg := { d.brg with orderErr := true } } :=
  (goStep_taken hu hc).trans (if_pos (goBad_seven_iff.mpr h))

end

section
variable {d : Dev}

/-- Beginning a step changes nothing that the plan's check reads. -/
theorem ownRefusal_beginStep (n : Nat) (d : Dev) : ownRefusal (beginStep n d) = ownRefusal d := rfl

theorem step10Load_refused {r : Nat} (h : ownRefusal d = r) (hr : r ≠ 0) :
    step10Load d = failStep 10 0x0A r 0 { d with lnk := { d.lnk with refuse := r, planState := 6 } } := by
  unfold ownRefusal at h
  simp only [step10Load, loadPlan, h, hr, if_false]

theorem step10Load_ok (h : ownRefusal d = 0) : step10Load d = noteEvent 1 (planEvent d) (adoptPlan d) := by
  unfold ownRefusal at h
  simp only [step10Load, loadPlan, h, if_true]

end

/-- Settles O38: each GO is `goStep`, in order or out of order. -/
theorem bringUpStepsStart : Obligations.BringUpStepsStart := by
  intro s hu hc d may bad
  have began {n : Nat} {f g : Dev → Dev} {c : Instr} (hn : n ≠ 7) (hexec : exec c s = eff (goStep n f) s) (h : may n)
      (hg : f (beginStep n d) = g d) : exec c s = .next (s.onDev g) :=
    hexec.trans (eff_eq_onDev ((goStep_inOrder hu hc hn h).trans hg))
  have barred {n : Nat} {f : Dev → Dev} {c : Instr} (hn : n ≠ 7) (hexec : exec c s = eff (goStep n f) s) (h : ¬ may n) : exec c s = bad :=
    hexec.trans (eff_eq_onDev (goStep_outOfOrder hu hc hn h))
  refine ⟨?plain, fun h => began (by decide) rfl h rfl, barred (by decide) rfl, fun h => eff_eq_onDev (goImageVerify_inOrder hu hc h),
    fun h h' => eff_eq_onDev (goImageVerify_outOfOrder hu hc (not_or.mpr ⟨h, h'⟩)), fun h => began (by decide) rfl h rfl,
    barred (by decide) rfl, fun h => ⟨fun r hr hne => began (by decide) rfl h (step10Load_refused hr hne),
      fun hr => began (by decide) rfl h (step10Load_ok hr), began (by decide) rfl h rfl⟩,
    fun h => ⟨barred (by decide) rfl h, barred (by decide) rfl h⟩⟩
  case plain =>
    intro n c hn
    simp only [List.mem_cons, Prod.mk.injEq, List.not_mem_nil, or_false] at hn
    rcases hn with ⟨rfl, rfl⟩ | ⟨rfl, rfl⟩ | ⟨rfl, rfl⟩ | ⟨rfl, rfl⟩ <;>
      exact ⟨fun h => began (by decide) rfl h rfl, barred (by decide) rfl⟩

end Sys2Proof.Proofs
end

section
/-! The ends of the bring-up steps (14 R471, R474, R476, Table 14-4): what a step's end leaves in the tables, and what the steps that bind
units and start firmware keep. -/
namespace Sys2Proof.Proofs
open Sys2Proof Sys2Proof.Machine Sys2Proof.Laws

/-! ### The table of the steps -/

theorem brgRec_steps (r : RasRec) (d : Dev) : (brgRec r d).brg.steps = d.brg.steps := by
  unfold brgRec
  split <;> simp

theorem brgRec_units (r : RasRec) (d : Dev) : (brgRec r d).units = d.units := by
  unfold brgRec
  split <;> simp

theorem brgRec_tensors (r : RasRec) (d : Dev) : (brgRec r d).tensors = d.tensors := by
  unfold brgRec
  split <;> simp

theorem brgRec_flash (r : RasRec) (d : Dev) : (brgRec r d).flash = d.flash := by
  unfold brgRec
  split <;> simp

theorem brgState_setAt {d : Dev} {n m : Nat} {b : BringStep} {l : List BringStep} (hs : d.brg.steps = setAt l n b) (hm : m - 1 = n)
    (hn : n < l.length) : brgState d m = b.state := by
  simp [brgState, hs, setAt, hm, hn]

/-- The record of a step that ended degraded or failed (14 R471). -/
def stepRecord (n state cause : Nat) (d : Dev) : Dev :=
  if state = 3 then brgRec { sev := 3, cls := 0x0F02, code := BitVec.ofNat 32 (n * 256 + cause) } d
  else if state = 4 then brgRec { sev := 4, cls := 0x0F01, code := BitVec.ofNat 32 (n * 256 + cause) } d else d

theorem stepRecord_kept {γ : Type} (g : Dev → γ) (hg : ∀ r d, g (brgRec r d) = g d) (n state cause : Nat) (d : Dev) :
    g (stepRecord n state cause d) = g d := by
  unfold stepRecord
  split
  · exact hg ..
  · split
    · exact hg ..
    · rfl

/-- The end of a step before the next one begins: its state, its cause and its record. -/
def stepEnded (n state cause detail elapsed : Nat) (d : Dev) : Dev :=
  let e := setStep n { state := state, cause := BitVec.ofNat 8 cause, elapsed := min elapsed 0xFFFF, detail := BitVec.ofNat 32 detail } d
  stepRecord n state cause { e with brg := { e.brg with
    current := if e.brg.current = n then 0 else e.brg.current
    lastPassed := if state = 2 ∨ state = 3 then max e.brg.lastPassed n else e.brg.lastPassed } }

section
variable {n state cause detail elapsed : Nat} {d : Dev}

theorem endStep_eq (hn : n ≠ 10) : endStep n state cause detail elapsed d = stepEnded n state cause detail elapsed d :=
  if_neg (fun h => hn h.1)

theorem stepEnded_steps : (stepEnded n state cause detail elapsed d).brg.steps =
    setAt d.brg.steps (n - 1) { state := state, cause := BitVec.ofNat 8 cause, elapsed := min elapsed 0xFFFF, detail := BitVec.ofNat 32 detail } :=
  stepRecord_kept (·.brg.steps) brgRec_steps ..

theorem stepEnded_units : (stepEnded n state cause detail elapsed d).units = d.units := stepRecord_kept (·.units) brgRec_units ..

theorem stepEnded_tensors : (stepEnded n state cause detail elapsed d).tensors = d.tensors := stepRecord_kept (·.tensors) brgRec_tensors ..

/-- A step that ends has the state that it ended with. -/
theorem brgState_stepEnded (h : n - 1 < d.brg.steps.length) : brgState (stepEnded n state cause detail elapsed d) n = state :=
  brgState_setAt stepEnded_steps rfl h

end

/-! ### Step 5: units that are found good or bad (14 R474, R475) -/

/-- What binding units at a start keeps: the table of steps, the tensors, and the control cores. -/
def startView (d : Dev) : List BringStep × Assoc Tensor × List Nat × List Nat := (d.brg.steps, d.tensors, d.units.ccIn, d.units.ccHolms)

theorem newlyBad_view (kind phys : Nat) (d : Dev) : startView (newlyBad kind phys d) = startView d := by
  simp [startView, newlyBad, brgRec_steps, brgRec_units, brgRec_tensors]

/-- A unit of one kind enters the log, and no unit of another kind does. -/
theorem newlyBad_inLog {kind other : Nat} (h : kind ≠ other) (phys p : Nat) (d : Dev) :
    inLog (newlyBad kind phys d) other p = inLog d other p := by
  simp only [inLog, newlyBad, brgRec_flash, repairLog]
  split
  · simp
  · simp [h]

theorem reconcile_view (kind : Nat) (all : List Nat) (fuseBad bistBad : Nat → Bool) (d : Dev) :
    startView (reconcile kind all fuseBad bistBad d).1 = startView d :=
  foldl_keeps startView (fun e p => newlyBad_view kind p e) _ d

theorem reconcile_inLog {kind other : Nat} (h : kind ≠ other) (all : List Nat) (fuseBad bistBad : Nat → Bool) (p : Nat) (d : Dev) :
    inLog (reconcile kind all fuseBad bistBad d).1 other p = inLog d other p :=
  foldl_keeps (fun e => inLog e other p) (fun e q => newlyBad_inLog h q p e) _ d

/-- With no bad fuse, no entry and no failure, every unit of a kind is good. -/
theorem reconcile_clean {kind : Nat} {all : List Nat} {fuseBad bistBad : Nat → Bool} {d : Dev} (hf : ∀ p, fuseBad p = false)
    (hl : ∀ p, inLog d kind p = false) (hb : ∀ p, bistBad p = false) : (reconcile kind all fuseBad bistBad d).2.1 = all := by
  simp [reconcile, hf, hl, hb]

theorem bindAll_view (good : List (Nat × Nat)) (d : Dev) : startView (bindAll good d).1 = startView d := by
  unfold bindAll
  generalize List.range numCores = all
  refine (foldl_keeps startView (fun e l => ?_) _ _).trans rfl
  dsimp only
  split
  · split
    · simp only [startView, brgRec_steps, brgRec_units, brgRec_tensors]
    · rfl
  · split
    · simp only [startView, brgRec_steps, brgRec_units, brgRec_tensors]
    · rfl

theorem bindBanks_view (bad : List (Nat × Nat × Nat)) (d : Dev) : startView (bindBanks bad d) = startView d := rfl

theorem bindRus_view (ld : Nat) (good : List Nat) (d : Dev) : startView (bindRus ld good d) = startView d := rfl

theorem bindLanes_view (bad : List (Nat × Nat)) (d : Dev) : startView (bindLanes bad d) = startView d := by
  refine foldl_keeps startView (fun e x => ?_) _ d
  dsimp only
  split
  · rfl
  · split <;> rfl

theorem retireLogged_view (d : Dev) : startView (retireLogged d) = startView d := by
  refine foldl_keeps startView (fun e x => ?_) _ d
  rfl

theorem retireLanes_view (d : Dev) : startView (retireLanes d) = startView d := by
  refine foldl_keeps startView (fun e x => ?_) _ d
  dsimp only
  split <;> rfl

section
variable (f : Fuses) (d : Dev)

/-- Banks that fuses or the log name, and those that failed now. -/
def banksKnown : List (Nat × Nat × Nat) := f.bankBad ++ (d.flash.log.filter (fun e => e.kind == 3)).map (fun e => bankOf e.phys.toNat)
def banksFresh : List (Nat × Nat × Nat) := (d.brg.bstBank.filter (fun x => !(banksKnown f d).contains x)).eraseDups
def banksBad : List (Nat × Nat × Nat) := (banksKnown f d ++ banksFresh f d).eraseDups

def allCores : List Nat := ((List.range 6).map (fun c => (List.range physPerCluster).map (corePhys c))).flatten

/-- The kinds of units in the order in which step 5 goes through them, each with the device as the one before left it. -/
def coresFound : Dev × List Nat × Bool :=
  reconcile 1 allCores (fun p => f.coreBad.contains (coreOf p)) (fun p => d.brg.bstCore.contains (coreOf p))
    ((banksFresh f d).foldl (fun d x => newlyBad 3 (x.1 * 2 ^ 24 + x.2.1 * 256 + x.2.2) d) d)
def ccsFound : Dev × List Nat × Bool :=
  reconcile 2 (List.range 16) (fun p => f.ccBad.getLsbD p) d.brg.bstCc.contains (coresFound f d).1
def rusFound0 : Dev × List Nat × Bool :=
  reconcile 4 (List.range 36) (fun p => f.ruBad0.getLsbD p) (fun p => d.brg.bstRu.contains (0, p)) (ccsFound f d).1
def rusFound1 : Dev × List Nat × Bool :=
  reconcile 4 ((List.range 36).map (256 + ·)) (fun p => f.ruBad1.getLsbD (p - 256)) (fun p => d.brg.bstRu.contains (1, p - 256)) (rusFound0 f d).1

/-- The cores that may serve: good ones with at most one bad bank. -/
def coresServing : List (Nat × Nat) :=
  ((coresFound f d).2.1.map coreOf).filter (fun u => decide (((banksBad f d).filter (fun x => x.1 == u.1 && x.2.1 == u.2)).length ≤ 1))

/-- The device with the control cores bound. -/
def ccsBound : Dev :=
  let e := (rusFound1 f d).1
  { e with units := { e.units with
      retired := (allCores.map coreOf).filter (fun u => !(coresServing f d).contains u)
      ccIn := (ccsFound f d).2.1.take 12, ccHolms := (ccsFound f d).2.1.drop 12
      ccRetired := (List.range 16).filter (fun p => !(ccsFound f d).2.1.contains p), ruDown := [], ruMap := [], cwSpare := [], cwHalf := [], cwDue := [] } }

/-- The device with cores, banks and reduction units bound too. -/
def rusBound : Dev :=
  bindRus 1 ((rusFound1 f d).2.1.map (· - 256)) (bindRus 0 (rusFound0 f d).2.1
    (bindBanks (banksBad f d) (bindAll (coresServing f d) (ccsBound f d)).1))

/-- The lanes of a device bound, and what its log retires. -/
def lanesBound (d : Dev) : Dev :=
  retireLanes (retireLogged (bindLanes (f.cwBad ++
    (d.flash.log.filter (fun e => e.kind == 6)).map (fun e => (e.phys.toNat / 256, e.phys.toNat % 256))) d))

/-- The device with every unit bound. -/
def unitsBound : Dev := lanesBound f (rusBound f d)

theorem rusFound1_view : startView (rusFound1 f d).1 = startView d := by
  simp only [rusFound1, rusFound0, ccsFound, coresFound, reconcile_view]
  exact foldl_keeps startView (fun e x => newlyBad_view 3 _ e) _ d

theorem unitsBound_view : startView (unitsBound f d) = (d.brg.steps, d.tensors, (ccsFound f d).2.1.take 12, (ccsFound f d).2.1.drop 12) := by
  have hfound := rusFound1_view f d
  simp only [startView, Prod.mk.injEq] at hfound
  obtain ⟨hsteps, htensors, -, -⟩ := hfound
  have hbound : startView (ccsBound f d) = (d.brg.steps, d.tensors, (ccsFound f d).2.1.take 12, (ccsFound f d).2.1.drop 12) := by
    simp only [startView, ccsBound, hsteps, htensors]
  calc startView (unitsBound f d)
      = startView (bindAll (coresServing f d) (ccsBound f d)).1 := by
        rw [unitsBound, lanesBound, retireLanes_view, retireLogged_view, bindLanes_view, rusBound, bindRus_view, bindRus_view, bindBanks_view]
    _ = _ := (bindAll_view _ _).trans hbound

/-- A module without bad control cores has its twelve and four holms (01 R20). -/
theorem ccsFound_clean (hl : d.flash.log = []) (hc : f.ccBad = 0) (hb : d.brg.bstCc = []) : (ccsFound f d).2.1 = List.range 16 := by
  refine reconcile_clean (fun p => by simp [hc]) (fun p => ?_) (fun p => by simp [hb])
  rw [coresFound, reconcile_inLog (by decide)]
  refine (foldl_keeps (fun e => inLog e 2 p) (fun e x => newlyBad_inLog (by decide) _ p e) _ d).trans ?_
  simp [inLog, hl]

end

section
variable {f : Fuses} {rep : StepReport} {d : Dev}

/-- The first tested domain whose logic or memory test failed. -/
def domainFailed (d : Dev) : Option Nat := tested.find? (fun k => !((d.brg.bstLogicOk[k]?).getD false && (d.brg.bstMemOk[k]?).getD false))

theorem step5_domain {k : Nat} (h : domainFailed d = some k) : step5 f rep d = failStep 5 4 k rep.elapsed d := by
  unfold domainFailed at h
  simp only [step5, h]

theorem step5_log (h : domainFailed d = none) (hl : rep.logBad = true) : step5 f rep d = failStep 5 6 0 rep.elapsed d := by
  unfold domainFailed at h
  simp only [step5, h, hl, if_true]

theorem step5_bound (h : domainFailed d = none) (hl : rep.logBad = false) : step5 f rep d =
    if (ccsFound f d).2.1.length < 8 then failStep 5 5 2 rep.elapsed (rusFound1 f d).1
    else if (bindAll (coresServing f d) (ccsBound f d)).2 = true then degradeStep 5 0x22 rep.elapsed (unitsBound f d)
    else if (!(banksFresh f d).isEmpty || (coresFound f d).2.2 || (ccsFound f d).2.2 || (rusFound0 f d).2.2 || (rusFound1 f d).2.2) = true
      then degradeStep 5 0x20 rep.elapsed (unitsBound f d)
    else passStep 5 rep.elapsed (unitsBound f d) := by
  unfold domainFailed at h
  unfold step5
  extract_lets b old fresh entered bad all cs cores ccs r0 r1 found src bound x lanes e5 e6
  have hbound : e6 = unitsBound f d := by
    have hlanes : lanes = rusBound f d := rfl
    rw [unitsBound, ← hlanes]
    rfl
  rw [h]
  dsimp only
  rw [if_neg (ne_true_of_eq_false hl), hbound]
  rfl

/-- Step 5 without a failed domain fails for want of control cores, or ends with every unit bound. -/
theorem step5_ends (h : domainFailed d = none) (hl : rep.logBad = false) :
    ((ccsFound f d).2.1.length < 8 ∧ step5 f rep d = stepEnded 5 4 5 2 rep.elapsed (rusFound1 f d).1) ∨
    ∃ state ∈ [2, 3], ∃ cause, step5 f rep d = stepEnded 5 state cause 0 rep.elapsed (unitsBound f d) := by
  rw [step5_bound h hl]
  split
  · exact .inl ⟨‹_›, endStep_eq (by decide)⟩
  · refine .inr ?_
    split
    · exact ⟨3, by decide, _, endStep_eq (by decide)⟩
    · split
      · exact ⟨3, by decide, _, endStep_eq (by decide)⟩
      · exact ⟨2, by decide, _, endStep_eq (by decide)⟩

theorem step5_kept (h : domainFailed d = none) (hl : rep.logBad = false) (hn : d.brg.steps.length = 11) :
    (step5 f rep d).tensors = d.tensors ∧ brgState (step5 f rep d) 5 ∈ [2, 3, 4] ∧
    (d.flash.log = [] → f.ccBad = 0 → d.brg.bstCc = [] → brgState (step5 f rep d) 5 ∈ [2, 3] ∧
      (step5 f rep d).units.ccIn = List.range 12 ∧ (step5 f rep d).units.ccHolms = [12, 13, 14, 15]) := by
  obtain ⟨hfew, he⟩ | ⟨state, hst, cause, he⟩ := step5_ends (f := f) h hl
  · have hview := rusFound1_view f d
    simp only [startView, Prod.mk.injEq] at hview
    obtain ⟨hsteps, htensors, -, -⟩ := hview
    rw [he, stepEnded_tensors, brgState_stepEnded (by rw [hsteps, hn]; decide)]
    refine ⟨htensors, by decide, fun hlog hcc hbist => ?_⟩
    rw [ccsFound_clean f d hlog hcc hbist] at hfew
    exact absurd hfew (by decide)
  · have hview := unitsBound_view f d
    simp only [startView, Prod.mk.injEq] at hview
    obtain ⟨hsteps, htensors, hin, hholms⟩ := hview
    rw [he, stepEnded_tensors, stepEnded_units, brgState_stepEnded (by rw [hsteps, hn]; decide)]
    have hany : state ∈ [2, 3, 4] := by simp only [List.mem_cons, List.not_mem_nil, or_false] at hst ⊢; omega
    refine ⟨htensors, hany, fun hlog hcc hbist => ⟨hst, ?_⟩⟩
    rw [hin, hholms, ccsFound_clean f d hlog hcc hbist]
    exact ⟨rfl, rfl⟩

end

/-! ### Step 4 -/

/-- BIST is done in every tested domain. -/
theorem bistStates_tested : ∀ k ∈ tested, ((List.range 20).map (fun k => if tested.contains k then 2 else 0))[k]? = some 2 := by decide

/-! ### Step 8: firmware starts (14 R471) -/

theorem adoptCore_brg (l cl p : Nat) (rs : List (Nat × Nat × Nat)) (d : Dev) : (adoptCore l cl p rs d).brg = d.brg := by
  obtain ⟨x, hfail⟩ := failReplays_frame l rs
    (logUnit 3 0x0F06 1 l (corePhys cl p) { d with cores := aMod d.cores l (fun c => { c with heldBy := [] }) })
  simp only [adoptCore, hfail]
  split
  · simp
  · split
    · simp
    · split <;> simp

theorem coreMoved_brg (cl p l : Nat) (d : Dev) : (coreMoved cl p l d).brg = d.brg := by
  obtain ⟨its, hmoved, -⟩ := coreMoved_eq cl p l d
  rw [hmoved, adoptCore_brg]
  rfl

/-- A core that is lost changes nothing of bring-up. -/
theorem coreLost_brg (cl p cause : Nat) (d : Dev) : (coreLost cl p cause d).brg = d.brg := by
  have hmoved : ((servedBy d (cl, p)).foldl (fun e l => coreMoved cl p l e) (coreUnbound cl p cause d)).brg = d.brg :=
    (foldl_keeps Dev.brg (fun e l => coreMoved_brg cl p l e) _ _).trans (repairLog_brg ..)
  unfold coreLost
  split
  · rfl
  · dsimp only
    split
    · exact hmoved
    · split
      · exact hmoved
      · exact hmoved

theorem startSecurity_brg (f : Fuses) (d : Dev) : (startSecurity f d).brg = d.brg := by
  unfold startSecurity
  dsimp only
  split
  · rw [logRec_brg]; rfl
  · rfl

section
variable (f : Fuses) (rep : StepReport) (d : Dev)

/-- The control cores that hold firmware, and those that failed to load. -/
def ccsLoaded : List Nat := (d.units.ccIn ++ d.units.ccHolms).filter (fun p => !rep.ccLoadFail.contains p)
def ccsUnloaded : List Nat := (d.units.ccIn ++ d.units.ccHolms).filter rep.ccLoadFail.contains

/-- The device whose control cores are those that hold firmware, with the others in the repair log. -/
def ccsPlaced : Dev :=
  (ccsUnloaded rep d).foldl (fun d p => repairLog 2 2 p 0 0 d) { d with
    units := { d.units with
      ccIn := (ccsLoaded rep d).take 12, ccHolms := (ccsLoaded rep d).drop 12, ccRetired := d.units.ccRetired ++ ccsUnloaded rep d }
    brg := { d.brg with waitRecs := [] } }

/-- The device whose firmware has started and has written the records of the steps before. -/
def firmwareStarted : Dev := startSecurity f (d.brg.waitRecs.foldl (fun d r => logRec r d) (ccsPlaced rep d))

/-- The cores that failed to load, among those in use. -/
def coresUnloaded (e : Dev) : List (Nat × Nat) :=
  rep.coreLoadFail.filter (fun u => decide (u.1 < 6) && decide (u.2 < physPerCluster) && !e.units.retired.contains u)

theorem firmwareStarted_steps : (firmwareStarted f rep d).brg.steps = d.brg.steps := by
  unfold firmwareStarted ccsPlaced
  rw [startSecurity_brg, foldl_keeps Dev.brg (fun e r => logRec_brg r e), foldl_keeps Dev.brg (fun e p => repairLog_brg ..)]

end

section
variable {f : Fuses} {rep : StepReport} {d : Dev}

theorem step8_few (h : (ccsLoaded rep d).length < 8) : step8 f rep d = failStep 8 9 (ccsLoaded rep d).length rep.elapsed d := if_pos h

/-- Eight control cores hold firmware: the step passes, or is degraded by the cores that it lost. -/
theorem step8_runs (h : 8 ≤ (ccsLoaded rep d).length) :
    (coresUnloaded rep (ccsPlaced rep d) = [] → step8 f rep d = passStep 8 rep.elapsed (firmwareStarted f rep d)) ∧
    (coresUnloaded rep (ccsPlaced rep d) ≠ [] → step8 f rep d = degradeStep 8 0x20 rep.elapsed
      ((coresUnloaded rep (ccsPlaced rep d)).foldl (fun d u => coreLost u.1 u.2 0 d) (firmwareStarted f rep d))) := by
  have hruns : step8 f rep d =
      let lost := coresUnloaded rep (ccsPlaced rep d)
      let e := lost.foldl (fun d u => coreLost u.1 u.2 0 d) (firmwareStarted f rep d)
      if lost.isEmpty = true then passStep 8 rep.elapsed e else degradeStep 8 0x20 rep.elapsed e := if_neg (Nat.not_lt.mpr h)
  rw [hruns]
  refine ⟨fun hnone => ?_, fun hsome => if_neg (by simpa using hsome)⟩
  rw [hnone]
  rfl

/-- Step 8 with enough control cores ends passed or degraded. -/
theorem step8_ends (h : 8 ≤ (ccsLoaded rep d).length) (hn : d.brg.steps.length = 11) : brgState (step8 f rep d) 8 ∈ [2, 3] := by
  have hsteps := firmwareStarted_steps f rep d
  obtain ⟨hpass, hdegrade⟩ := step8_runs (f := f) h
  by_cases hlost : coresUnloaded rep (ccsPlaced rep d) = []
  · rw [hpass hlost, passStep, endStep_eq (by decide), brgState_stepEnded (by rw [hsteps, hn]; decide)]
    decide
  · have hkept : ((coresUnloaded rep (ccsPlaced rep d)).foldl (fun d u => coreLost u.1 u.2 0 d) (firmwareStarted f rep d)).brg =
        (firmwareStarted f rep d).brg := foldl_keeps Dev.brg (fun e u => coreLost_brg ..) _ _
    rw [hdegrade hlost, degradeStep, endStep_eq (by decide), brgState_stepEnded (by rw [hkept, hsteps, hn]; decide)]
    decide

/-- With nothing that failed to load, every control core is in use, and the step passes. -/
theorem step8_clean (hc : rep.ccLoadFail = []) (hu : rep.coreLoadFail = []) (h : 8 ≤ (d.units.ccIn ++ d.units.ccHolms).length) :
    step8 f rep d = (
      let all := d.units.ccIn ++ d.units.ccHolms
      let e : Dev := { d with units := { d.units with ccIn := all.take 12, ccHolms := all.drop 12 }, brg := { d.brg with waitRecs := [] } }
      passStep 8 rep.elapsed (startSecurity f (d.brg.waitRecs.foldl (fun d r => logRec r d) e))) := by
  have hloaded : ccsLoaded rep d = d.units.ccIn ++ d.units.ccHolms := by simp [ccsLoaded, hc]
  have hunloaded : ccsUnloaded rep d = [] := by simp [ccsUnloaded, hc]
  rw [(step8_runs (by rw [hloaded]; exact h)).1 (by simp [coresUnloaded, hu])]
  simp only [firmwareStarted, ccsPlaced, hloaded, hunloaded, List.foldl_nil, List.append_nil]

/-! ### Steps 6, 9 and 10 -/

/-- The stacks that failed training or whose domain is down, in ascending order (10 R335). -/
def stacksLost (rep : StepReport) (d : Dev) : List Nat :=
  sortByKey id (((rep.stacksBad ++ ((List.range 20).filter (fun k => !pdGood d k)).flatMap domainStacks).filter
    (fun k => decide (k < 24))).eraseDups)

theorem step6_all (h : stacksLost rep d = []) : step6 rep d = passStep 6 rep.elapsed d := by
  unfold stacksLost at h
  simp only [step6, h]

theorem step6_one {k : Nat} (h : stacksLost rep d = [k]) : step6 rep d = degradeStep 6 0x21 rep.elapsed
    (brgRec { sev := 3, cls := 0x305, unitKind := 7, logical := BitVec.ofNat 32 k, physical := BitVec.ofNat 32 k }
      (onStack k (fun x => { x with lost := true, state := 3 }) d)) := by
  unfold stacksLost at h
  simp only [step6, h]

theorem step6_more (h : 2 ≤ (stacksLost rep d).length) : step6 rep d = failStep 6 7 (bitMask (stacksLost rep d)) rep.elapsed d := by
  obtain ⟨i, j, l, hl⟩ : ∃ i j l, stacksLost rep d = i :: j :: l := by
    match hs : stacksLost rep d with
    | [] => simp [hs] at h
    | [k] => simp [hs] at h
    | i :: j :: l => exact ⟨i, j, l, rfl⟩
  have hlost := hl
  unfold stacksLost at hl
  simp only [step6, hl, hlost]

theorem allSettled_iff {d : Dev} : allSettled d = true ↔ ∀ st ln, st < 6 → ln < 4 → (linkOf d st ln).state ∈ [6, 7, 8, 10] := by
  have hone (n : Nat) : linkSettled n = true ↔ n ∈ [6, 7, 8, 10] := by simp [linkSettled, or_assoc]
  simp only [allSettled, List.all_eq_true, List.mem_range, hone]
  refine ⟨fun h st ln hs hl => ?_, fun h i hi => h _ _ (by omega) (by omega)⟩
  have hi := h (4 * st + ln) (by omega)
  rwa [show (4 * st + ln) / 4 = st by omega, show (4 * st + ln) % 4 = ln by omega] at hi

/-- The tide is locked, or runs on the acting master. -/
def TideHolds (d : Dev) : Prop := d.tide.locked = true ∨ (d.tide.run = true ∧ d.tide.roleNow = 1)

theorem tideHolds_iff {d : Dev} : TideHolds d ↔ (d.tide.locked || (d.tide.run && d.tide.roleNow == 1)) = true := by simp [TideHolds]

theorem step10_waits (h : ¬ TideHolds d ∨ (d.lnk.planState ≠ 3 ∧ d.lnk.planState ≠ 5)) : step10 rep d = d := by
  unfold step10
  by_cases ht : TideHolds d
  · obtain ⟨h3, h5⟩ := h.resolve_left (not_not.mpr ht)
    simp only [tideHolds_iff.mp ht, h3, h5, Bool.not_true, Bool.false_eq_true, if_false]
  · exact if_pos (by rw [Bool.eq_false_iff.mpr (mt tideHolds_iff.mpr ht)]; rfl)

theorem step10_matched (h : TideHolds d) (h3 : d.lnk.planState = 3) : step10 rep d = passStep 10 rep.elapsed d := by
  simp only [step10, tideHolds_iff.mp h, h3, Bool.not_true, Bool.false_eq_true, if_false, if_true]

theorem step10_accepted (h : TideHolds d) (h5 : d.lnk.planState = 5) : step10 rep d = degradeStep 10 0x23 rep.elapsed d := by
  have h3 : d.lnk.planState ≠ 3 := by omega
  exact (if_neg (by rw [tideHolds_iff.mp h]; decide)).trans ((if_neg h3).trans (if_pos h5))

end

/-! ### BRINGUP_STEP_DONE -/

section
variable {s : State} {rep : StepReport}

theorem exec_bringupStepDone_idle {n : Nat} (h : ¬ brgState s.dev n = 1) : exec (.bringupStepDone n rep) s = .next s :=
  eff_idle (if_pos (by simp [h]))

/-- A running step comes to its end. -/
theorem stepDone_acts {n : Nat} {d : Dev} (hc : clocksRun d = true) (hr : brgState d n = 1) : ¬ (!(clocksRun d && brgState d n == 1)) = true := by
  simp [hc, hr]

end

/-- Settles O39: each clause is one outcome of the step's own work, on the table entry that it ends. -/
theorem bringUpStepsEnd : Obligations.BringUpStepsEnd := by
  intro s rep hc d t on
  have ends {n : Nat} {e : Dev} (he : stepDone s.fuses n rep d = e) : exec (.bringupStepDone n rep) s = .next { s with dev := e } := eff_eq_dev he
  refine ⟨fun hr hg => ends ((if_neg (stepDone_acts hc hr)).trans (if_pos hg)), fun hr => ⟨fun w hw => ends ?fuseBad, fun hw => ends ?fuseOk⟩,
    fun hr => ⟨_, ends (if_neg (stepDone_acts hc hr)), rfl, rfl, rfl, rfl, bistStates_tested, rfl⟩,
    fun hr k hk => ends ((if_neg (stepDone_acts hc hr)).trans (step5_domain hk)),
    fun hr hk hl => ends ((if_neg (stepDone_acts hc hr)).trans (step5_log hk hl)),
    fun hr hk hl hn => ⟨_, ends (if_neg (stepDone_acts hc hr)), step5_kept hk hl hn⟩,
    fun hr => ⟨fun h => ends ((if_neg (stepDone_acts hc hr)).trans (step6_all h)),
      fun k h => ends ((if_neg (stepDone_acts hc hr)).trans (step6_one h)),
      fun h => ends ((if_neg (stepDone_acts hc hr)).trans (step6_more h))⟩,
    fun hr h => ends ((if_neg (stepDone_acts hc hr)).trans (if_pos h)), fun hr r h hne => ends ?imageBad,
    fun hr run h hfew => ends ?few, fun hr hcc hu hn => ends ((if_neg (stepDone_acts hc hr)).trans (step8_clean hcc hu hn)),
    fun hr hn hs => ⟨_, ends (if_neg (stepDone_acts hc hr)), step8_ends hn hs⟩,
    fun hr ⟨st, ln, hs, hl, hx⟩ => eff_idle ((if_neg (stepDone_acts hc hr)).trans (if_neg fun h => hx (allSettled_iff.mp h st ln hs hl))),
    fun hr hg => eff_idle ((if_neg (stepDone_acts hc hr)).trans (if_neg hg)), fun hr h => eff_idle ((if_neg (stepDone_acts hc hr)).trans ?waits),
    fun n => exec_bringupStepDone_idle, fun hr h => ends ((if_neg (stepDone_acts hc hr)).trans (if_pos (allSettled_iff.mpr h))),
    fun hr h => ⟨fun h3 => ends ((if_neg (stepDone_acts hc hr)).trans (step10_matched h h3)),
      fun h5 => ends ((if_neg (stepDone_acts hc hr)).trans (step10_accepted h h5))⟩,
    fun hr => ends (if_neg (stepDone_acts hc hr))⟩
  case fuseBad => exact (if_neg (stepDone_acts hc hr)).trans (by simp only [step3, hw]; rfl)
  case fuseOk => exact (if_neg (stepDone_acts hc hr)).trans (by simp only [step3, hw]; rfl)
  case imageBad =>
    subst h
    exact (if_neg (stepDone_acts hc hr)).trans (if_neg hne)
  case few =>
    subst h
    exact (if_neg (stepDone_acts hc hr)).trans (step8_few hfew)
  case waits =>
    refine step10_waits (h.imp_left fun ⟨hl, hrun⟩ => ?_)
    rintro (h1 | ⟨h1, h2⟩)
    · exact absurd h1 (ne_true_of_eq_false hl)
    · exact hrun.elim (fun h => absurd h1 (ne_true_of_eq_false h)) (fun h => h h2)

end Sys2Proof.Proofs
end

section
/-! What a packet or a marker that leaves can change of the torus: the links with the packets on them, and the packets that wait. -/
namespace Sys2Proof.Proofs
open Sys2Proof Sys2Proof.Machine Sys2Proof.Laws

/-- The second device is the first with other contents of its links, its straits and its log of what was sent. -/
def Sends (d e : Dev) : Prop := ∃ ls ss y, e = { d with lnk := { d.lnk with links := ls, straits := ss }, out := y }

namespace Sends

theorem refl (d : Dev) : Sends d d := ⟨_, _, _, rfl⟩

theorem trans {d e f : Dev} (h : Sends d e) (h' : Sends e f) : Sends d f := by
  obtain ⟨_, _, _, rfl⟩ := h
  obtain ⟨_, _, _, rfl⟩ := h'
  exact ⟨_, _, _, rfl⟩

theorem foldl {α : Type} {f : Dev → α → Dev} (h : ∀ d a, Sends d (f d a)) (l : List α) (d : Dev) : Sends d (l.foldl f d) :=
  List.foldlRecOn (motive := fun e => Sends d e) l f (refl d) fun e he a _ => he.trans (h e a)

theorem transmit (st : Nat) (h : PacketHeader) (bytes : Bytes) (d : Dev) : Sends d (transmit st h bytes d) := by
  unfold Machine.transmit
  split
  · exact refl d
  · exact ⟨_, _, _, rfl⟩

theorem inject (p : Pos) (vl use : Nat) (bs : Bytes) (d : Dev) : Sends d (inject p vl use bs d) := by
  unfold Machine.inject
  dsimp only
  split
  · exact transmit ..
  · exact ⟨_, _, _, rfl⟩
  · exact refl d

theorem send (x : Sent) (d : Dev) : Sends d (send x d) := by
  have hnoted : Sends d { d with out := { d.out with sent := d.out.sent ++ [x] } } := ⟨_, _, _, rfl⟩
  unfold Machine.send
  dsimp only
  split
  · exact hnoted.trans (inject ..)
  · refine hnoted.trans (foldl (fun e s => ?_) _ _)
    split
    · exact transmit ..
    · exact refl e
  · exact hnoted

theorem sendMarker (kind : Nat) (mk : Marker) (sts : List Nat) (d : Dev) : Sends d (sendMarker kind mk sts d) :=
  foldl (fun e st => foldl (fun e _ => send _ e) (activeLinks e st) e) sts d

end Sends

end Sys2Proof.Proofs
end

section
/-! Freeze, release and readout (14 R491 to R495). -/
namespace Sys2Proof.Proofs
open Sys2Proof Sys2Proof.Machine Sys2Proof.Laws

/-! ### FRZ_CTL (14 Table 14-16) -/

/-- The controls of FRZ_CTL: JTAG_EN with the event of its change, and the enables of the pin and of propagation. -/
def frzControls (v : BitVec 32) (d : Dev) : Dev :=
  let e := if v.getLsbD 4 = d.frz.jtagEn then d else noteEvent 5 (toLe 1 (b2n (v.getLsbD 4))) d
  { e with frz := { e.frz with jtagEn := v.getLsbD 4, pinEnable := v.getLsbD 3, pinPropagate := v.getLsbD 2, propagate := v.getLsbD 1 } }

/-- The controls change the freeze block and note an event. -/
theorem frzControls_frame (v : BitVec 32) (d : Dev) : ∃ q, frzControls v d = { d with
    sec := { d.sec with queued := q }
    frz := { d.frz with jtagEn := v.getLsbD 4, pinEnable := v.getLsbD 3, pinPropagate := v.getLsbD 2, propagate := v.getLsbD 1 } } := by
  unfold frzControls
  dsimp only
  split
  · exact ⟨_, rfl⟩
  · exact ⟨_, rfl⟩

/-- What a write of FRZ_CTL does after its controls: a release, a freeze now, or one of the partition. -/
def frzAsked (v : BitVec 32) (d : Dev) : Dev :=
  if d.frz.frozen then (if v.getLsbD 8 then release d else d)
  else if !v.getLsbD 0 then d
  else if d.frz.propagate && d.tide.run then
    let d := freezeMarkers d
    { d with frz := { d.frz with due := some (d.tide.count + 2), dueSource := 2, partition := true } }
  else freezeNow 2 false false d

section
variable {v : BitVec 32} {d : Dev}

/-- The controls are written first, and what FRZ_CTL asks for follows. -/
theorem frzCtlWrite_eq : frzCtlWrite v d = frzAsked v (frzControls v d) := by
  unfold frzCtlWrite frzAsked frzControls
  with_reducible rfl

theorem frzControls_frozen : (frzControls v d).frz.frozen = d.frz.frozen := by
  obtain ⟨q, h⟩ := frzControls_frame v d
  rw [h]

theorem frzControls_propagate : (frzControls v d).frz.propagate = v.getLsbD 1 := by
  obtain ⟨q, h⟩ := frzControls_frame v d
  rw [h]

theorem frzControls_run : (frzControls v d).tide.run = d.tide.run := by
  obtain ⟨q, h⟩ := frzControls_frame v d
  rw [h]

theorem frzCtlWrite_released (hf : d.frz.frozen = true) (hr : v.getLsbD 8 = true) : frzCtlWrite v d = release (frzControls v d) :=
  frzCtlWrite_eq.trans ((if_pos (frzControls_frozen.trans hf)).trans (if_pos hr))

section
variable (hf : d.frz.frozen = false)
include hf

theorem frzCtlWrite_kept (h0 : v.getLsbD 0 = false) : frzCtlWrite v d = frzControls v d :=
  frzCtlWrite_eq.trans ((if_neg (by rw [frzControls_frozen, hf]; decide)).trans (if_pos (by rw [h0]; rfl)))

variable (h0 : v.getLsbD 0 = true)
include h0

theorem frzCtlWrite_freezes (hp : v.getLsbD 1 = false ∨ d.tide.run = false) :
    frzCtlWrite v d = freezeNow 2 false false (frzControls v d) := by
  have hoff : ¬(v.getLsbD 1 && d.tide.run) = true := ne_true_of_eq_false (Bool.and_eq_false_iff.mpr hp)
  refine frzCtlWrite_eq.trans ((if_neg (by rw [frzControls_frozen, hf]; decide)).trans ((if_neg (by rw [h0]; decide)).trans (if_neg ?_)))
  rwa [frzControls_propagate, frzControls_run]

theorem frzCtlWrite_propagates (h1 : v.getLsbD 1 = true) (hr : d.tide.run = true) :
    frzCtlWrite v d =
      let e := freezeMarkers (frzControls v d)
      { e with frz := { e.frz with due := some (e.tide.count + 2), dueSource := 2, partition := true } } := by
  refine frzCtlWrite_eq.trans ((if_neg (by rw [frzControls_frozen, hf]; decide)).trans ((if_neg (by rw [h0]; decide)).trans (if_pos ?_)))
  rw [frzControls_propagate, frzControls_run, h1, hr]
  rfl

end

end

/-! ### Markers and releases (14 R492 to R494) -/

/-- FREEZE markers leave, and FREEZE_TIDE is noted as seen. -/
theorem freezeMarkers_sends (d : Dev) :
    Sends { d with lnk := { d.lnk with freezeSeen := addNew d.lnk.freezeSeen (d.tide.count + 2) } } (freezeMarkers d) := Sends.sendMarker ..

/-- A release changes the freeze block alone, besides its record. -/
theorem release_frame (d : Dev) : ∃ x y z w, release d = { d with
    frz := { d.frz with
      frozen := false
      holdEdge := !(d.frz.partition && (d.tide.roleNow == 1 || d.tide.roleNow == 3))
      partition := d.frz.partition && !(d.frz.partition && (d.tide.roleNow == 1 || d.tide.roleNow == 3)) }
    ras := x, pf0 := y, pf1 := z, out := w } := by
  obtain ⟨x, y, z, w, h⟩ := logRec_frame { sev := 15, cls := 0x0F0C } { d with frz := { d.frz with
    frozen := false
    holdEdge := !(d.frz.partition && (d.tide.roleNow == 1 || d.tide.roleNow == 3))
    partition := d.frz.partition && !(d.frz.partition && (d.tide.roleNow == 1 || d.tide.roleNow == 3)) } }
  exact ⟨x, y, z, w, h⟩

section
variable {s : State} {v : BitVec 32} (hu : pf1Up s.dev = true)
include hu

theorem exec_frzFreezeWrite {e : Dev} (h0 : v.getLsbD 0 = true) (he : frzCtlWrite v s.dev = e) :
    exec (.frzFreezeWrite v) s = .next { s with dev := e } := eff_eq_dev ((if_pos (by simp [hu, h0])).trans he)

theorem exec_frzRelease {e : Dev} (h8 : v.getLsbD 8 = true) (he : frzCtlWrite v s.dev = e) :
    exec (.frzRelease v) s = .next { s with dev := e } := eff_eq_dev ((if_pos (by simp [hu, h8])).trans he)

end

/-! ### FREEZE_N, markers that arrive, and FREEZE_TIDE (14 R491, R492) -/

section
variable {s : State}

theorem exec_freezeNFall_idle (h : isOn s.dev = false ∨ s.dev.frz.pinEnable = false ∨ s.dev.frz.frozen = true) :
    exec .freezeNFall s = .next s := eff_idle (if_pos (by rcases h with h | h | h <;> simp [h]))

section
variable (ho : isOn s.dev = true) (hp : s.dev.frz.pinEnable = true) (hf : s.dev.frz.frozen = false)
include ho hp hf

theorem exec_freezeNFall_alone (h : s.dev.frz.pinPropagate = false ∨ s.dev.tide.run = false) :
    exec .freezeNFall s = .next { s with dev := freezeNow 1 false false s.dev } :=
  eff_eq_dev ((if_neg (by simp [ho, hp, hf])).trans (if_neg (by rcases h with h | h <;> simp [h])))

theorem exec_freezeNFall_propagates (h : s.dev.frz.pinPropagate = true) (hr : s.dev.tide.run = true) :
    exec .freezeNFall s = .next { s with dev := freezeNow 1 false true (freezeMarkers s.dev) } :=
  eff_eq_dev ((if_neg (by simp [ho, hp, hf])).trans (if_pos (by simp [h, hr])))

end

/-- The device that has relayed a FREEZE marker. -/
def freezeRelayed (mk : Marker) (d : Dev) : Dev :=
  let e : Dev := { d with lnk := { d.lnk with freezeSeen := addNew d.lnk.freezeSeen mk.freezeTide } }
  sendMarker 4 { bareMarker e with freezeTide := mk.freezeTide } (List.range 6) e

theorem freezeRelayed_sends (mk : Marker) (d : Dev) :
    Sends { d with lnk := { d.lnk with freezeSeen := addNew d.lnk.freezeSeen mk.freezeTide } } (freezeRelayed mk d) := Sends.sendMarker ..

/-- The device that obeys a FREEZE marker: at once where its edge has passed, else at that edge. -/
def freezeObeyed (mk : Marker) (d : Dev) : Dev :=
  if mk.freezeTide ≤ d.tide.count then freezeNow 3 true true d
  else { d with frz := { d.frz with due := some mk.freezeTide, dueSource := 3, partition := true } }

section
variable {st ln : Nat} {mk : Marker}

theorem exec_freezeMarker_seen (h : s.dev.lnk.freezeSeen.contains mk.freezeTide = true) : exec (.freezeMarker st ln mk) s = .next s :=
  eff_idle (if_pos (by rw [h, Bool.or_true]))

theorem exec_freezeMarker_new (hc : clocksRun s.dev = true) (hs : st < 6) (hl : ln < 4) (hk : (linkOf s.dev st ln).state = 7)
    (hp : mk.partId = s.dev.lnk.partId) (h : s.dev.lnk.freezeSeen.contains mk.freezeTide = false) :
    exec (.freezeMarker st ln mk) s = .next { s with dev := freezeObeyed mk (freezeRelayed mk s.dev) } := by
  have hopen : ¬(!(clocksRun s.dev && decide (st < 6) && decide (ln < 4) && (linkOf s.dev st ln).state == 7 && mk.partId == s.dev.lnk.partId)
      || s.dev.lnk.freezeSeen.contains mk.freezeTide) = true := by
    rw [h]
    simp [hc, hs, hl, hk, hp]
  refine eff_eq_dev ((if_neg hopen).trans ?_)
  unfold freezeObeyed freezeRelayed
  with_reducible rfl

variable {d : Dev}

theorem freezeObeyed_late (h : mk.freezeTide ≤ d.tide.count) :
    (freezeObeyed mk d).frz.frozen = true ∧ (freezeObeyed mk d).frz.late = true ∧ (freezeObeyed mk d).frz.source = 3 := by
  rw [show freezeObeyed mk d = freezeNow 3 true true d from if_pos h]
  exact ⟨rfl, rfl, rfl⟩

theorem freezeObeyed_due (h : d.tide.count < mk.freezeTide) :
    (freezeObeyed mk d).frz = { d.frz with due := some mk.freezeTide, dueSource := 3, partition := true } := by
  rw [show freezeObeyed mk d = { d with frz := { d.frz with due := some mk.freezeTide, dueSource := 3, partition := true } } from
    if_neg (Nat.not_le.mpr h)]

theorem freezeObeyed_lnk : (freezeObeyed mk d).lnk = d.lnk := by
  unfold freezeObeyed
  split
  · rfl
  · rfl

end

theorem exec_freezeTideReached {t : Nat} (hd : s.dev.frz.due = some t) (hc : clocksRun s.dev = true) : exec .freezeTideReached s =
    .next { s with dev := if t ≤ s.dev.tide.count then freezeNow s.dev.frz.dueSource false true s.dev else s.dev } := by
  refine eff_eq_dev ?_
  simp only [hd, hc, Bool.true_and, decide_eq_true_eq]

/-! ### JTAG (14 R495, Table 14-15) -/

theorem exec_frzAccess_open (hp : s.dev.tel.powered = true) (hj : jtagOpen s.fuses s.dev = true) (sel off : BitVec 32) :
    exec (.frzAccess sel off) s = .next (s.onDev (fun d =>
      jtag 0x10 (toLe 4 sel.toNat ++ toLe 4 off.toNat ++ (List.range 32768).map (frzData d sel off))
        { d with frz := { d.frz with sel := sel, off := off } })) :=
  eff_eq_onDev ((if_neg (by simp [hp])).trans (if_pos hj))

theorem exec_frzAccess_shut (hp : s.dev.tel.powered = true) (hj : jtagOpen s.fuses s.dev = false) (sel off : BitVec 32) :
    exec (.frzAccess sel off) s = .next (s.onDev (jtag 0xFF [])) :=
  eff_eq_onDev ((if_neg (by simp [hp])).trans (if_neg (ne_true_of_eq_false hj)))

theorem exec_frzFreeze_shut (hp : s.dev.tel.powered = true) (hj : jtagOpen s.fuses s.dev = false) :
    exec .frzFreeze s = .next (s.onDev (jtag 0xFF [])) :=
  eff_eq_onDev ((if_neg (by simp [hp])).trans (if_pos (by simp [hj])))

theorem exec_frzFreeze_stops (hp : s.dev.tel.powered = true) (hj : jtagOpen s.fuses s.dev = true) (ho : isOn s.dev = true)
    (hf : s.dev.frz.frozen = false) : exec .frzFreeze s = .next { s with dev := jtag 0x11 [] (freezeNow 2 false false s.dev) } :=
  eff_eq_dev ((if_neg (by simp [hp])).trans ((if_neg (by simp [hj])).trans (if_pos (by simp [ho, hf]))))

theorem exec_frzFreeze_stopped (hp : s.dev.tel.powered = true) (hj : jtagOpen s.fuses s.dev = true)
    (h : isOn s.dev = false ∨ s.dev.frz.frozen = true) : exec .frzFreeze s = .next (s.onDev (jtag 0x11 [])) :=
  eff_eq_onDev ((if_neg (by simp [hp])).trans ((if_neg (by simp [hj])).trans (if_neg (by rcases h with h | h <;> simp [h]))))

theorem frzData_eq (d : Dev) (sel off : BitVec 32) : frzData d sel off = fun i =>
    let o := off.toNat / 32768 * 32768 + i
    if d.frz.frozen = true ∧ o < Config.frozenLen sel then Config.frozenByte d.free sel o else 0 := by
  funext i
  simp only [frzData, Bool.and_eq_true, decide_eq_true_eq]

end

/-- Relaying a marker leaves the tide and the freeze block alone, and notes FREEZE_TIDE as seen. -/
theorem freezeRelayed_keeps (mk : Marker) (d : Dev) : (freezeRelayed mk d).tide.count = d.tide.count ∧ (freezeRelayed mk d).frz = d.frz ∧
    mk.freezeTide ∈ (freezeRelayed mk d).lnk.freezeSeen := by
  obtain ⟨ls, ss, y, hsend⟩ := freezeRelayed_sends mk d
  rw [hsend]
  exact ⟨rfl, rfl, mem_addNew.mpr (Or.inr rfl)⟩

/-- A marker that is relayed and obeyed: at once where its edge has passed, else at that edge. -/
theorem marker_obeyed (mk : Marker) (d : Dev) :
    let e := freezeObeyed mk (freezeRelayed mk d)
    (mk.freezeTide ≤ d.tide.count → e.frz.frozen = true ∧ e.frz.late = true ∧ e.frz.source = 3) ∧
    (d.tide.count < mk.freezeTide → e.frz = { d.frz with due := some mk.freezeTide, dueSource := 3, partition := true }) ∧
    mk.freezeTide ∈ e.lnk.freezeSeen := by
  obtain ⟨htide, hfrz, hseen⟩ := freezeRelayed_keeps mk d
  generalize freezeRelayed mk d = r at *
  rw [← htide, ← hfrz]
  refine ⟨freezeObeyed_late, freezeObeyed_due, ?_⟩
  rwa [freezeObeyed_lnk]

/-- Settles O45: each clause is one way in which a freeze, a release or an instruction of the TAP goes. -/
theorem freezeAndReadout : Obligations.FreezeAndReadout := by
  intro s d stops controls
  refine ⟨fun v hu h0 hf => ⟨fun hp => exec_frzFreezeWrite hu h0 (frzCtlWrite_freezes hf h0 hp), fun h1 hr => ?propagates⟩,
    fun v hu h8 => ⟨fun hf => ?released, fun hf h0 => exec_frzRelease hu h8 (frzCtlWrite_kept hf h0)⟩,
    fun ho hp hf => ⟨exec_freezeNFall_alone ho hp hf, fun h hr => ?pin⟩, exec_freezeNFall_idle,
    fun st ln mk hc hs hl hk hp => ⟨fun h => ?marker, exec_freezeMarker_seen⟩,
    fun t hd hc => ⟨fun ht => ?reached, fun ht => ?early⟩,
    fun hp hj => ⟨fun sel off => ?access, exec_frzFreeze_stops hp hj, exec_frzFreeze_stopped hp hj⟩,
    fun hp hj sel off => ⟨exec_frzAccess_shut hp hj sel off, exec_frzFreeze_shut hp hj⟩,
    fun hp => ⟨eff_eq_onDev (if_pos hp), eff_eq_onDev (if_pos hp), fun _ => eff_eq_onDev (if_pos hp)⟩, fun hp c hc => ?unpowered,
    fun hp code sel off => ⟨eff_idle (if_neg (ne_true_of_eq_false hp)), eff_idle (if_pos (by rw [hp]; rfl))⟩⟩
  case propagates =>
    refine ⟨_, exec_frzFreezeWrite hu h0 (frzCtlWrite_propagates hf h0 h1 hr), ?_⟩
    obtain ⟨ls, ss, y, hsend⟩ := freezeMarkers_sends (frzControls v d)
    obtain ⟨q, hctl⟩ := frzControls_frame v d
    rw [hsend]
    have hc : controls v d = frzControls v d := rfl
    rw [hc, hctl]
    exact ⟨rfl, rfl⟩
  case released =>
    obtain ⟨x, y, z, w, hrel⟩ := release_frame (frzControls v d)
    obtain ⟨q, hctl⟩ := frzControls_frame v d
    refine ⟨_, exec_frzRelease hu h8 (frzCtlWrite_released hf h8), ?_⟩
    rw [hrel, hctl]
    exact ⟨rfl, rfl, rfl, rfl, rfl⟩
  case pin =>
    obtain ⟨ls, ss, y, hsend⟩ := freezeMarkers_sends d
    refine ⟨_, exec_freezeNFall_propagates ho hp hf h hr, ?_⟩
    rw [hsend]
    exact ⟨rfl, mem_addNew.mpr (Or.inr rfl)⟩
  case marker => exact ⟨_, exec_freezeMarker_new hc hs hl hk hp h, marker_obeyed mk d⟩
  case reached => exact (exec_freezeTideReached hd hc).trans (by rw [if_pos ht]; rfl)
  case early => exact (exec_freezeTideReached hd hc).trans (by rw [if_neg (Nat.not_le.mpr ht)])
  case access =>
    refine (exec_frzAccess_open hp hj sel off).trans ?_
    simp only [frzData_eq]
    rfl
  case unpowered =>
    simp only [List.mem_cons, List.not_mem_nil, or_false] at hc
    rcases hc with rfl | rfl | rfl
    · exact eff_idle (if_neg (ne_true_of_eq_false hp))
    · exact eff_idle (if_neg (ne_true_of_eq_false hp))
    · exact eff_idle (if_pos (by rw [hp]; rfl))

end Sys2Proof.Proofs
end

section
/-! The commands of pairing and of spares (13 Table 13-12). -/
namespace Sys2Proof.Proofs
open Sys2Proof Sys2Proof.Machine Sys2Proof.Laws

/-! ### PAIR_SET (13 R433) -/

/-- The request names another position of the partition as partner. -/
def PartnerOk (d : Dev) (c : Bytes) : Prop := inPart d (posAt c 16) = true ∧ posAt c 16 ≠ d.lnk.pos

/-- The request's own budget is within the limit and holds what is secured. -/
def OwnBudgetOk (d : Dev) (c : Bytes) : Prop := fieldLe c 20 8 ≤ 206158430208 ∧ securedBytes d ≤ fieldLe c 20 8

/-- No pairing and no step stands. -/
def PairIdle (d : Dev) : Prop := unpaired d = true ∧ d.step.state = .none

theorem partnerOk_iff {d : Dev} {c : Bytes} : ¬(!inPart d (posAt c 16) || posAt c 16 == d.lnk.pos) = true ↔ PartnerOk d c := by
  simp [PartnerOk]

theorem ownBudgetOk_iff {d : Dev} {c : Bytes} : ¬(maxBudget < fieldLe c 20 8 ∨ fieldLe c 20 8 < securedBytes d) ↔ OwnBudgetOk d c := by
  simp [OwnBudgetOk, maxBudget]

theorem stepBusy_eq_false {d : Dev} : stepBusy d = false ↔ d.step.state = .none := by simp [stepBusy]

theorem stepBusy_eq_true {d : Dev} : stepBusy d = true ↔ d.step.state ≠ .none := by simp [stepBusy]

theorem pairIdle_iff {d : Dev} : ¬(!unpaired d || stepBusy d) = true ↔ PairIdle d := by
  simp [PairIdle, stepBusy]

section
variable {s : State} {m : Nat} (ha : Asks s.dev m 0x0601)
include ha

theorem exec_pairSet_badPartner (h : ¬ PartnerOk s.dev (request s.dev m)) : exec (.pairSet m) s = .next (s.refused m rBadField 16) :=
  eff_mbxRow_no ha (if_pos (not_not.mp (mt partnerOk_iff.mp h)))

variable (hp : PartnerOk s.dev (request s.dev m))
include hp

theorem exec_pairSet_badBudget (h : ¬ OwnBudgetOk s.dev (request s.dev m)) : exec (.pairSet m) s = .next (s.refused m rBadField 20) :=
  eff_mbxRow_no ha ((if_neg (partnerOk_iff.mpr hp)).trans (if_pos (not_not.mp (mt ownBudgetOk_iff.mp h))))

variable (ho : OwnBudgetOk s.dev (request s.dev m))
include ho

theorem exec_pairSet_badPartnerBudget (h : 206158430208 < fieldLe (request s.dev m) 28 8) :
    exec (.pairSet m) s = .next (s.refused m rBadField 28) :=
  eff_mbxRow_no ha ((if_neg (partnerOk_iff.mpr hp)).trans ((if_neg (ownBudgetOk_iff.mpr ho)).trans (if_pos h)))

variable (hb : fieldLe (request s.dev m) 28 8 ≤ 206158430208)
include hb

theorem exec_pairSet_inUse (h : ¬ PairIdle s.dev) : exec (.pairSet m) s = .next (s.refused m rInUse 16) :=
  eff_mbxRow_no ha ((if_neg (partnerOk_iff.mpr hp)).trans ((if_neg (ownBudgetOk_iff.mpr ho)).trans
    ((if_neg (Nat.not_lt.mpr hb)).trans (if_pos (not_not.mp (mt pairIdle_iff.mp h))))))

variable (hi : PairIdle s.dev)
include hi

theorem exec_pairSet_noRoom
    (h : takeLagoon (2 * fieldLe (request s.dev m) 28 8 / 2 ^ 25 + 1) (2 * fieldLe (request s.dev m) 28 8) [] s.dev = none) :
    exec (.pairSet m) s = .next (s.refused m rNoRoom 28) :=
  eff_mbxRow_no ha ((if_neg (partnerOk_iff.mpr hp)).trans ((if_neg (ownBudgetOk_iff.mpr ho)).trans
    ((if_neg (Nat.not_lt.mpr hb)).trans ((if_neg (pairIdle_iff.mpr hi)).trans (by rw [h])))))

/-- The device after PAIR_SET, over the device with the lagoon's regions: the pairing is pending. -/
def pairPending (c : Bytes) (rs : List Nat) (d : Dev) : Dev :=
  { d with pair := { d.pair with
    state := 1, partner := posAt c 16, feedOverride := bitOf (fieldLe c 19 1) 0, ownBudget := fieldLe c 20 8, partnerBudget := fieldLe c 28 8
    lagoonRegions := rs, lagoonBytes := lagoonSize d rs, exposed := false, partnerExposed := false, unacked := [] } }

theorem exec_pairSet_ok {rs : List Nat} {e : Dev}
    (h : takeLagoon (2 * fieldLe (request s.dev m) 28 8 / 2 ^ 25 + 1) (2 * fieldLe (request s.dev m) 28 8) [] s.dev = some (rs, e)) :
    exec (.pairSet m) s =
      (let d1 := pairPending (request s.dev m) rs e
       .next (s.answered m (toLe 8 d1.pair.lagoonBytes)
        (send (.pair (posAt (request s.dev m) 16) (ownPair d1)) (noteEvent 3 (pairEvent d1) d1)))) :=
  eff_mbxRow_ok ha ((if_neg (partnerOk_iff.mpr hp)).trans ((if_neg (ownBudgetOk_iff.mpr ho)).trans
    ((if_neg (Nat.not_lt.mpr hb)).trans ((if_neg (pairIdle_iff.mpr hi)).trans (by rw [h]; rfl)))))

end

/-! ### PAIR_CLEAR -/

section
variable {s : State} {m : Nat} (ha : Asks s.dev m 0x0603)
include ha

theorem exec_pairClear_unpaired (hu : unpaired s.dev = true) :
    exec (.pairClear m) s = .next (s.refused m rNotAllowed (Config.noField 0x0603 rNotAllowed)) := eff_mbxRow_no ha (if_pos hu)

variable (hu : unpaired s.dev = false)
include hu

theorem exec_pairClear_inUse (hs : s.dev.step.state ≠ .none) :
    exec (.pairClear m) s = .next (s.refused m rInUse (Config.noField 0x0603 rInUse)) :=
  eff_mbxRow_no ha ((if_neg (ne_true_of_eq_false hu)).trans (if_pos (stepBusy_eq_true.mpr hs)))

theorem exec_pairClear_ok (hs : s.dev.step.state = .none) :
    exec (.pairClear m) s =
      (let d1 := freeLagoon (noteEvent 3 (pairEvent s.dev) s.dev)
       .next (s.answered m [] { d1 with pair := { d1.pair with
        state := 0, partner := {}, feedOverride := false, partnerOverride := false, partnerFeed := 0, partnerSerial := 0
        ownBudget := 206158430208, partnerBudget := 0, exposed := false, partnerExposed := false, unacked := [] } })) :=
  eff_mbxRow_ok ha ((if_neg (ne_true_of_eq_false hu)).trans (if_neg (ne_true_of_eq_false (stepBusy_eq_false.mpr hs))))

end

/-! ### SPARE_ARM and SPARE_ADOPT (13 R449, R450) -/

section
variable {s : State} {m : Nat}

/-- What R381 finds against the plan that SPARE_ADOPT gives. -/
def adoptFault (d : Dev) (c : Bytes) : Nat :=
  planRefuse d (posAt c 16) (BitVec.ofNat 3 (fieldLe c 19 1)) (posAt c 20) (BitVec.ofNat 16 (fieldLe c 24 2)) (posAt c 28) (posAt c 32)

/-- The partner that SPARE_ADOPT gives is a position of the plan other than the spare's own. -/
def AdoptPartnerOk (c : Bytes) : Prop := posOk (posAt c 20) (posAt c 36) = true ∧ posAt c 36 ≠ posAt c 16

theorem adoptPartnerOk_iff {c : Bytes} : ¬(!posOk (posAt c 20) (posAt c 36) || posAt c 36 == posAt c 16) = true ↔ AdoptPartnerOk c := by
  simp [AdoptPartnerOk]

/-- The spare that has taken the position and the plan of SPARE_ADOPT. -/
def spareTakes (c : Bytes) (d : Dev) : Dev :=
  adoptPlan (noteEvent 4 (posBytes (posAt c 16)) { d with
    lnk := { d.lnk with pos := posAt c 16, wrap := BitVec.ofNat 3 (fieldLe c 19 1), dim := posAt c 20, partId := BitVec.ofNat 16 (fieldLe c 24 2) }
    tide := { d.tide with master := posAt c 28, backup := posAt c 32 }
    pair := { d.pair with partner := posAt c 36, feedOverride := bitOf (fieldLe c 39 1) 0, state := 0 }
    spare := { state := 1, adoptedBy := d.spare.adoptedBy } })

section
variable (ha : Asks s.dev m 0x0632)
include ha

theorem exec_spareAdopt_unarmed (h : s.dev.spare.armed = false) :
    exec (.spareAdopt m) s = .next (s.refused m rNotAllowed (Config.noField 0x0632 rNotAllowed)) :=
  eff_mbxRow_no ha (if_pos (by rw [h]; rfl))

variable (h : s.dev.spare.armed = true)
include h

theorem exec_spareAdopt_badPlan (hw : adoptFault s.dev (request s.dev m) ≠ 0) : exec (.spareAdopt m) s = .next (s.refused m rBadField
    (adoptField (posAt (request s.dev m) 20) (posAt (request s.dev m) 28) (adoptFault s.dev (request s.dev m)))) :=
  eff_mbxRow_no ha ((if_neg (by rw [h]; decide)).trans (if_pos hw))

variable (hw : adoptFault s.dev (request s.dev m) = 0)
include hw

theorem exec_spareAdopt_badPartner (hp : ¬ AdoptPartnerOk (request s.dev m)) : exec (.spareAdopt m) s = .next (s.refused m rBadField 36) :=
  eff_mbxRow_no ha ((if_neg (by rw [h]; decide)).trans ((if_neg (not_not.mpr hw)).trans (if_pos (not_not.mp (mt adoptPartnerOk_iff.mp hp)))))

theorem exec_spareAdopt_ok (hp : AdoptPartnerOk (request s.dev m)) : exec (.spareAdopt m) s =
    (let d1 := spareTakes (request s.dev m) s.dev
     .next (s.answered m [] (tryAdoptReq (if posAt (request s.dev m) 16 = posAt (request s.dev m) 28
      then remakeTree { d1 with tide := { d1.tide with acting := posAt (request s.dev m) 32 } } else d1)))) := by
  refine eff_mbxRow_ok ha ((if_neg (by rw [h]; decide)).trans ((if_neg (not_not.mpr hw)).trans ((if_neg (adoptPartnerOk_iff.mpr hp)).trans ?_)))
  simp only [beq_iff_eq]
  unfold spareTakes
  with_reducible rfl

end

/-! ### LEDGER_READ (13 R456) -/

section
variable (ha : Asks s.dev m 0x0634)
include ha

/-- The entries of the ledger of the request's channel, in the order of their sequence numbers. -/
def ledgerOf (d : Dev) (c : Bytes) : List Bytes := sortByKey entrySeq (d.spare.ledger.filter (fun e => (entryChan e).toNat == fieldLe c 16 8))

theorem exec_ledgerRead_notReady (h : s.dev.spare.state ≠ 4) :
    exec (.ledgerRead m) s = .next (s.refused m rNotAllowed (Config.noField 0x0634 rNotAllowed)) := eff_mbxRow_no ha (if_pos h)

variable (h : s.dev.spare.state = 4)
include h

theorem exec_ledgerRead_unknown (he : ledgerOf s.dev (request s.dev m) = []) : exec (.ledgerRead m) s = .next (s.refused m rBadField 16) :=
  eff_mbxRow_no ha ((if_neg (not_not.mpr h)).trans (if_pos (List.isEmpty_iff.mpr he)))

variable (he : ledgerOf s.dev (request s.dev m) ≠ [])
include he

theorem exec_ledgerRead_past (hi : (ledgerOf s.dev (request s.dev m)).length < fieldLe (request s.dev m) 24 4) :
    exec (.ledgerRead m) s = .next (s.refused m rBadField 24) :=
  eff_mbxRow_no ha ((if_neg (not_not.mpr h)).trans ((if_neg (mt List.isEmpty_iff.mp he)).trans (if_pos hi)))

theorem exec_ledgerRead_ok (hi : fieldLe (request s.dev m) 24 4 ≤ (ledgerOf s.dev (request s.dev m)).length) :
    exec (.ledgerRead m) s =
      (let es := ledgerOf s.dev (request s.dev m)
       let out := (es.drop (fieldLe (request s.dev m) 24 4)).take 511
       .next (s.answered m (toLe 4 out.length ++ toLe 4 es.length ++ toLe 8 ((es.getLast?.map entrySeq).getD 0)
        ++ (out.map ledgerOutcome).flatten) s.dev)) :=
  eff_mbxRow_ok ha ((if_neg (not_not.mpr h)).trans ((if_neg (mt List.isEmpty_iff.mp he)).trans (if_neg (Nat.not_lt.mpr hi))))

end

end

/-- Settles O28: each clause is one case of a command of pairing or of a spare. -/
theorem pairAndSpareCommandsAnswer : Obligations.PairAndSpareCommandsAnswer := by
  intro s m d c f no
  refine ⟨fun ha => ⟨exec_pairSet_badPartner ha, exec_pairSet_badBudget ha, exec_pairSet_badPartnerBudget ha, exec_pairSet_inUse ha,
      exec_pairSet_noRoom ha, fun hp ho hb hi rs d' h => exec_pairSet_ok ha hp ho hb hi h⟩,
    fun ha => eff_mbxRow_ok ha rfl, exec_pairClear_unpaired, exec_pairClear_inUse, exec_pairClear_ok,
    fun ha h => eff_mbxRow_no ha (if_pos h), fun ha h => eff_mbxRow_ok ha (if_neg (ne_true_of_eq_false h)),
    fun ha => ⟨exec_spareAdopt_unarmed ha, exec_spareAdopt_badPlan ha, exec_spareAdopt_badPartner ha, fun h hw hp => ?adopts⟩,
    fun ha => eff_mbxRow_ok ha rfl,
    fun ha => ⟨exec_ledgerRead_notReady ha, exec_ledgerRead_unknown ha, exec_ledgerRead_past ha, exec_ledgerRead_ok ha⟩⟩
  case adopts =>
    refine (exec_spareAdopt_ok ha h hw hp).trans ?_
    unfold spareTakes
    with_reducible rfl

end Sys2Proof.Proofs
end

section
/-! The step commands and STATE_LOAD (13 R441, R565). -/
namespace Sys2Proof.Proofs
open Sys2Proof Sys2Proof.Machine Sys2Proof.Laws

/-! ### STEP_OPEN and STEP_ABORT -/

/-- The request's step number is above the last committed one. -/
def StepNumOk (d : Dev) (c : Bytes) : Prop := fieldLe c 16 4 ≠ 0 ∧ d.step.lastCommitted < fieldLe c 16 4

/-- The request's START_TIDE lies 2 to 65,536 tides ahead. -/
def StartTideOk (d : Dev) (c : Bytes) : Prop := d.tide.count + 2 ≤ fieldLe c 24 8 ∧ fieldLe c 24 8 ≤ d.tide.count + 65536

/-- The pair and the partition may open a step. -/
def StepSafe (d : Dev) : Prop :=
  paired d = true ∧ d.pair.exposed = false ∧ d.pair.partnerExposed = false ∧ d.lnk.lostPos = [] ∧ d.tide.holdover = false

theorem stepNumOk_iff {d : Dev} {c : Bytes} : ¬(fieldLe c 16 4 = 0 ∨ fieldLe c 16 4 ≤ d.step.lastCommitted) ↔ StepNumOk d c := by
  simp [StepNumOk]

theorem startTideOk_iff {d : Dev} {c : Bytes} : ¬(fieldLe c 24 8 < d.tide.count + 2 ∨ d.tide.count + 65536 < fieldLe c 24 8) ↔ StartTideOk d c := by
  rw [not_or, Nat.not_lt, Nat.not_lt]
  rfl

theorem stepSafe_iff {d : Dev} :
    ¬(!paired d || d.pair.exposed || d.pair.partnerExposed || partitionLost d || d.tide.holdover) = true ↔ StepSafe d := by
  simp [StepSafe, partitionLost, and_assoc]

section
variable {s : State} {m : Nat}

section
variable (ha : Asks s.dev m 0x0611)
include ha

theorem exec_stepOpen_badNum (h : ¬ StepNumOk s.dev (request s.dev m)) : exec (.stepOpen m) s = .next (s.refused m rBadField 16) :=
  eff_mbxRow_no ha (if_pos (not_not.mp (mt stepNumOk_iff.mp h)))

variable (hn : StepNumOk s.dev (request s.dev m))
include hn

theorem exec_stepOpen_badTide (h : ¬ StartTideOk s.dev (request s.dev m)) : exec (.stepOpen m) s = .next (s.refused m rBadField 24) :=
  eff_mbxRow_no ha ((if_neg (stepNumOk_iff.mpr hn)).trans (if_pos (not_not.mp (mt startTideOk_iff.mp h))))

variable (ht : StartTideOk s.dev (request s.dev m))
include ht

theorem exec_stepOpen_unsafe (h : ¬ StepSafe s.dev) : exec (.stepOpen m) s = .next (s.refused m rNotAllowed 16) :=
  eff_mbxRow_no ha ((if_neg (stepNumOk_iff.mpr hn)).trans ((if_neg (startTideOk_iff.mpr ht)).trans
    (if_pos (not_not.mp (mt stepSafe_iff.mp h)))))

variable (hs : StepSafe s.dev)
include hs

theorem exec_stepOpen_inUse (h : s.dev.step.state ≠ .none) : exec (.stepOpen m) s = .next (s.refused m rInUse 16) :=
  eff_mbxRow_no ha ((if_neg (stepNumOk_iff.mpr hn)).trans ((if_neg (startTideOk_iff.mpr ht)).trans
    ((if_neg (stepSafe_iff.mpr hs)).trans (if_pos (stepBusy_eq_true.mpr h)))))

theorem exec_stepOpen_ok (h : s.dev.step.state = .none) : exec (.stepOpen m) s = .next (s.answered m [] { s.dev with step := {
    state := .scheduled, num := fieldLe (request s.dev m) 16 4, startTide := fieldLe (request s.dev m) 24 8
    lastCommitted := s.dev.step.lastCommitted, lastDecision := s.dev.step.lastDecision, flipTide := s.dev.step.flipTide
    flip := s.dev.step.flip, written := s.dev.step.written, writtenWarm := s.dev.step.writtenWarm } }) :=
  eff_mbxRow_ok ha ((if_neg (stepNumOk_iff.mpr hn)).trans ((if_neg (startTideOk_iff.mpr ht)).trans
    ((if_neg (stepSafe_iff.mpr hs)).trans (if_neg (ne_true_of_eq_false (stepBusy_eq_false.mpr h))))))

end

theorem exec_stepAbort_ok (ha : Asks s.dev m 0x0613) (hs : s.dev.step.state ≠ .none) (hn : fieldLe (request s.dev m) 16 4 = s.dev.step.num) :
    exec (.stepAbort m) s = .next (s.answered m [] { s.dev with step := { s.dev.step with abortReq := true } }) :=
  eff_mbxRow_ok ha (if_neg (not_or.mpr ⟨hs, not_not.mpr hn⟩))

/-! ### STEP_QUERY -/

theorem stepView_none {d : Dev} (h : d.step.state = .none) : (stepView d).1 = 0 := by simp [stepView, h]

theorem stepView_scheduled {d : Dev} (h : d.step.state = .scheduled) : (stepView d).1 = 1 := by simp [stepView, h]

theorem stepView_running {d : Dev} (h : d.step.state = .running) :
    (stepView d).1 = if d.step.ready || d.step.no then 4 else if d.step.isSealed then 3 else 2 := by simp [stepView, h]

/-! ### STATE_LOAD -/

section
variable {t : Tensor} (hk : handleOk s.dev 2 (handleAt s.dev m 16) = true) (ht : aGet s.dev.tensors (hIdx (handleAt s.dev m 16)) = some t)
  (ha : Asks s.dev m 0x0621)
include hk ht ha

theorem exec_stateLoad_lost (hl : t.lost = true) : exec (.stateLoad m) s = .next (s.refused m rTensorLost 16) :=
  eff_mbxRow_no ha (withTensor_lost hk ht hl)

variable (hl : t.lost = false)
include hl

theorem exec_stateLoad_no {x : Nat × Nat} (hc : stateLoadCheck s.dev (request s.dev m) t = some x) :
    exec (.stateLoad m) s = .next (s.refused m x.1 x.2) :=
  eff_mbxRow_no ha ((withTensor_ok hk ht hl).trans (by simp only [hc]))

variable (hc : stateLoadCheck s.dev (request s.dev m) t = none)
include hc

theorem exec_stateLoad_waits (hr : pf0Requests s.dev = false) : exec (.stateLoad m) s = .next s :=
  eff_mbxRow_busy ha ((withTensor_ok hk ht hl).trans (by simp only [hc, hr, Bool.not_false, if_true]))

/-- The device of STATE_LOAD after its store, with the records of the sectors left unwritten. -/
def stateStored (i : Nat) (t : Tensor) (d : Dev) (c : Bytes) : Dev × List SectorKey :=
  let r := stateLoadWrite i t (fieldLe c 32 8) (memRead d.host (fieldLe c 24 8) (fieldLe c 40 8)) d
  (r.2.foldl (fun d k => logSector 1 0x303 3 k d) r.1, r.2)

theorem exec_stateLoad_ok (hr : pf0Requests s.dev = true) : exec (.stateLoad m) s =
    (let i := hIdx (handleAt s.dev m 16)
     let c := request s.dev m
     let r := stateStored i t s.dev c
     let size := max (fmtBytes t.fmt) 1
     .next (s.answered m (toLe 4 r.2.length ++ zeros 4)
      (if ((t.working.bind (aGet r.1.tensors)).bind (·.scale)).any (fun x => x.mode == 1) then regenWorking i [tCommitted t] r.1
       else regenRange i (fieldLe c 32 8 / size) ((fieldLe c 32 8 + fieldLe c 40 8) / size) r.1))) := by
  refine eff_mbxRow_ok ha ((withTensor_ok hk ht hl).trans ?_)
  simp only [hc, hr, Bool.not_true, Bool.false_eq_true, if_false]
  rfl

end

end

/-- Settles O29: each clause is one case of a step command or of STATE_LOAD. -/
theorem stepAndStateCommandsAnswer : Obligations.StepAndStateCommandsAnswer := by
  intro s m d c f no
  exact ⟨fun ha => ⟨exec_stepOpen_badNum ha, exec_stepOpen_badTide ha, exec_stepOpen_unsafe ha, exec_stepOpen_inUse ha, exec_stepOpen_ok ha⟩,
    fun ha => ⟨_, _, eff_mbxRow_ok ha rfl, stepView_none, stepView_scheduled, stepView_running, rfl⟩,
    exec_stepAbort_ok, fun ha h => eff_mbxRow_no ha (if_pos h),
    fun t hk ht ha => ⟨exec_stateLoad_lost hk ht ha, fun hl x hc => exec_stateLoad_no hk ht ha hl hc, exec_stateLoad_waits hk ht ha,
      exec_stateLoad_ok hk ht ha⟩⟩

end Sys2Proof.Proofs
end

section
/-! Input power, throttles and telemetry (17 R545 to R553, R561). -/
namespace Sys2Proof.Proofs
open Sys2Proof Sys2Proof.Machine Sys2Proof.Laws

/-! ### TEL_STATUS and SMB_ALERT# (17 Table 17-10, R561) -/

theorem b2n_le_one (b : Bool) : b2n b ≤ 1 := by cases b <;> decide

/-- TEL_STATUS as a sum of its fields. -/
theorem telStatus_eq (d : Dev) : telStatus d = d.tel.feedId.toNat * 256 + b2n d.tel.hot * 128 + b2n d.tel.refLost * 64 +
    b2n (!d.tel.trips.isEmpty) * 32 + b2n d.tel.elec * 16 + b2n d.tel.warm * 8 + b2n d.tel.vinHigh * 4 + b2n d.tel.vinLow * 2 +
    b2n d.tel.capping := by simp [telStatus, pack, flag]

theorem decide_b2n (b : Bool) : decide (b2n b = 1) = b := by cases b <;> rfl

section
variable (d : Dev)

theorem telStatus_vinLow : (telStatus d).testBit 1 = d.tel.vinLow := by
  have h : telStatus d / 2 ^ 1 % 2 = b2n d.tel.vinLow := by
    have h0 := b2n_le_one d.tel.capping
    have h1 := b2n_le_one d.tel.vinLow
    rw [telStatus_eq]
    omega
  rw [Nat.testBit_eq_decide_div_mod_eq, h, decide_b2n]

theorem telStatus_vinHigh : (telStatus d).testBit 2 = d.tel.vinHigh := by
  have h : telStatus d / 2 ^ 2 % 2 = b2n d.tel.vinHigh := by
    have h0 := b2n_le_one d.tel.capping
    have h1 := b2n_le_one d.tel.vinLow
    have h2 := b2n_le_one d.tel.vinHigh
    rw [telStatus_eq]
    omega
  rw [Nat.testBit_eq_decide_div_mod_eq, h, decide_b2n]

theorem telStatus_elec : (telStatus d).testBit 4 = d.tel.elec := by
  have h : telStatus d / 2 ^ 4 % 2 = b2n d.tel.elec := by
    have h0 := b2n_le_one d.tel.capping
    have h1 := b2n_le_one d.tel.vinLow
    have h2 := b2n_le_one d.tel.vinHigh
    have h3 := b2n_le_one d.tel.warm
    have h4 := b2n_le_one d.tel.elec
    rw [telStatus_eq]
    omega
  rw [Nat.testBit_eq_decide_div_mod_eq, h, decide_b2n]

end

/-- Besides the alert, the device is the one that the row makes. -/
theorem withAlert_frame (f : Dev → Dev) (d : Dev) : ∃ a, withAlert f d = { f d with tel := { (f d).tel with alert := a } } := ⟨_, rfl⟩

/-- A bit of TEL_STATUS[7:1] that becomes set asserts the alert. -/
theorem withAlert_rises {f : Dev → Dev} {d : Dev} (i : Nat) (hi : i < 7) (hset : (telStatus (f d)).testBit (i + 1) = true)
    (hclear : (telStatus d).testBit (i + 1) = false) : (withAlert f d).tel.alert = true := by
  have hrose : (List.range 7).any (fun i => (telStatus (f d)).testBit (i + 1) && !(telStatus d).testBit (i + 1)) = true :=
    List.any_eq_true.mpr ⟨i, List.mem_range.mpr hi, by rw [hset, hclear]; rfl⟩
  exact (congrArg ((f d).tel.alert || ·) hrose).trans (Bool.or_true _)

/-- A row that makes a change and logs a record: besides the records, their signals and the alert, the device is the changed one. -/
theorem withAlert_log_frame (r : Dev → RasRec) (g : Dev → Dev) (d : Dev) : ∃ x0 x1 x2 x3 a,
    withAlert (fun d => logWhenRuns (r d) (g d)) d = { g d with ras := x0, pf0 := x1, pf1 := x2, out := x3, tel := { (g d).tel with alert := a } } := by
  obtain ⟨x, y, z, w, hl⟩ := logWhenRuns_frame (r d) (g d)
  obtain ⟨a, ha⟩ := withAlert_frame (fun d => logWhenRuns (r d) (g d)) d
  refine ⟨x, y, z, w, a, ha.trans ?_⟩
  simp only [hl]

/-! ### Input voltage (17 Table 17-4) -/

/-- A change of the telemetry, with a record where it is new. -/
def noted (new : Bool) (r : RasRec) (d : Dev) : Dev := if new then logWhenRuns r d else d

theorem noted_frame (new : Bool) (r : RasRec) (d : Dev) : ∃ x0 x1 x2 x3, noted new r d = { d with ras := x0, pf0 := x1, pf1 := x2, out := x3 } := by
  unfold noted
  split
  · exact logWhenRuns_frame r d
  · exact ⟨_, _, _, _, rfl⟩

/-- The telemetry of an input voltage. -/
def vinSeen (mv : Nat) (low high : Bool) (d : Dev) : Dev := { d with tel := { d.tel with vin := mv, vinLow := low, vinHigh := high } }

/-- An excursion, with the record of a new one and its alert. -/
def excursionSeen (mv : Nat) (low high new : Bool) : Dev → Dev :=
  withAlert (fun d => noted new { sev := 15, cls := 0x0A01, code := BitVec.ofNat 32 mv } (vinSeen mv low high d))

/-- An excursion sets the telemetry's voltage and flags, and keeps the items and the tensors; one that is not new leaves no record. -/
theorem excursionSeen_spec (mv : Nat) (low high new : Bool) (d : Dev) :
    let e := excursionSeen mv low high new d
    e.tel.vin = mv ∧ e.tel.vinLow = low ∧ e.tel.vinHigh = high ∧ e.tel.powered = d.tel.powered ∧ e.items = d.items ∧ e.tensors = d.tensors ∧
    (new = false → e.ras = d.ras) := by
  unfold excursionSeen
  intro e
  obtain ⟨a, ha⟩ := withAlert_frame (fun d => noted new { sev := 15, cls := 0x0A01, code := BitVec.ofNat 32 mv } (vinSeen mv low high d)) d
  have hras : new = false → (noted new { sev := 15, cls := 0x0A01, code := BitVec.ofNat 32 mv } (vinSeen mv low high d)).ras = d.ras := by
    rintro rfl
    rfl
  obtain ⟨x, y, z, w, hn⟩ := noted_frame new { sev := 15, cls := 0x0A01, code := BitVec.ofNat 32 mv } (vinSeen mv low high d)
  simp only [e, ha]
  refine ⟨?_, ?_, ?_, ?_, ?_, ?_, hras⟩ <;> rw [hn] <;> rfl

section
variable {s : State} {mv : Nat}

theorem exec_vinLow_seen (hp : s.dev.tel.powered = true) (h1 : 44000 ≤ mv) (h2 : mv < 48000) :
    exec (.vinLow mv) s = .next { s with dev := excursionSeen mv true false (!s.dev.tel.vinLow) s.dev } :=
  eff_eq_dev (if_neg (by simp [hp, h1, h2]))

theorem exec_vinHigh_seen (hp : s.dev.tel.powered = true) (h1 : 58000 < mv) (h2 : mv ≤ 61000) :
    exec (.vinHigh mv) s = .next { s with dev := excursionSeen mv false true (!s.dev.tel.vinHigh) s.dev } :=
  eff_eq_dev (if_neg (by simp [hp, h1, h2]))

end

theorem excursionSeen_low_alert {mv : Nat} {new : Bool} {d : Dev} (h : d.tel.vinLow = false) :
    (excursionSeen mv true false new d).tel.alert = true := by
  refine withAlert_rises 0 (by decide) ?_ ((telStatus_vinLow d).trans h)
  obtain ⟨x, y, z, w, hn⟩ := noted_frame new { sev := 15, cls := 0x0A01, code := BitVec.ofNat 32 mv } (vinSeen mv true false d)
  rw [telStatus_vinLow, hn]
  rfl

theorem excursionSeen_high_alert {mv : Nat} {new : Bool} {d : Dev} (h : d.tel.vinHigh = false) :
    (excursionSeen mv false true new d).tel.alert = true := by
  refine withAlert_rises 1 (by decide) ?_ ((telStatus_vinHigh d).trans h)
  obtain ⟨x, y, z, w, hn⟩ := noted_frame new { sev := 15, cls := 0x0A01, code := BitVec.ofNat 32 mv } (vinSeen mv false true d)
  rw [telStatus_vinHigh, hn]
  rfl

/-! ### The converter stops (17 R546, Table 17-12) -/

/-- Power is off: the cause word is in flash, host memory stays, and the rest of the module is lost. -/
def PoweredOff (d : Dev) (word : Nat) (e : Dev) : Prop :=
  e.flash = { d.flash with lastOff := BitVec.ofNat 16 word } ∧ e.host = d.host ∧ e.tel.powered = false ∧ e.power.good = 0 ∧
  e.tensors = [] ∧ e.items = [] ∧ e.cores = [] ∧ e.mem = {} ∧ e.tide = {} ∧ e.ophal = 0

theorem powerOff_off (cause unit : Nat) (d : Dev) : PoweredOff d (unit % 256 * 256 + cause % 16) (powerOff cause unit true d) :=
  ⟨rfl, rfl, rfl, rfl, rfl, rfl, rfl, rfl, rfl, rfl⟩

theorem powerOff_unwritten (cause unit : Nat) (d : Dev) : PoweredOff d 0xFF0F (powerOff cause unit false d) :=
  ⟨rfl, rfl, rfl, rfl, rfl, rfl, rfl, rfl, rfl, rfl⟩

/-- The word of an undervoltage. -/
theorem offWord_under (d : Dev) : 255 % 256 * 256 + offCause d 1 % 16 = if d.tel.perst = true then 0xFF00 else 0xFF01 := by
  unfold offCause
  cases d.tel.perst <;> rfl

section
variable {s : State} (hp : s.dev.tel.powered = true)
include hp

theorem exec_inputLockout_off {mv : Nat} (h : mv < 44000) :
    exec (.inputLockout mv) s = .next { s with dev := powerOff (offCause s.dev 1) 0xFF true s.dev } := eff_eq_dev (if_pos (by simp [hp, h]))

theorem exec_inputProtection_off {mv : Nat} (h : 61000 < mv) :
    exec (.inputProtection mv) s = .next { s with dev := powerOff 2 0xFF true s.dev } := eff_eq_dev (if_pos (by simp [hp, h]))

theorem exec_converterStop_off (c : Nat) (w : Bool) :
    exec (.converterStop c w) s = .next { s with dev := powerOff (offCause s.dev c) 0xFF w s.dev } := eff_eq_dev (if_pos hp)

theorem exec_thermalShutdown_off {unit temp : Nat} (hu : unitPowered unit s.dev = true) (ht : 1150 ≤ temp) :
    exec (.thermalShutdown unit temp) s = .next { s with dev := powerOff 3 unit true s.dev } := eff_eq_dev (if_pos (by simp [hp, hu, ht]))

end

/-! ### Throttles (02 R53; 17 R551, R552) -/

section
variable {s : State}

/-- A compute die trips: struck, counted and recorded. -/
def tripped (c temp : Nat) (d : Dev) : Dev :=
  let e := strike [c] (dieMeasured c temp d)
  { e with tel := { e.tel with trips := e.tel.trips ++ [c], thermTrips := satInc 0xFFFF e.tel.thermTrips } }

/-- The record of a trip. -/
def tripRec (c temp : Nat) : RasRec :=
  { sev := 15, cls := 0x0A04, unitKind := 11, logical := BitVec.ofNat 32 c, physical := BitVec.ofNat 32 c, code := BitVec.ofNat 32 temp }

/-- The device after a trip, with its record and its alert. -/
def tripSeen (c temp : Nat) : Dev → Dev := withAlert (fun d => logWhenRuns (tripRec c temp) (tripped c temp d))

/-- A trip halves the die's clock and counts; items, cores and tensors stay. -/
theorem tripSeen_spec (c temp : Nat) (d : Dev) : let e := tripSeen c temp d
    e.tel.halved = addNew d.tel.halved c ∧ e.tel.trips = d.tel.trips ++ [c] ∧ e.tel.thermTrips = satInc 0xFFFF d.tel.thermTrips ∧
    e.tide.throttles = satInc 0xFFFF d.tide.throttles ∧ e.items = d.items ∧ e.cores = d.cores ∧ e.tensors = d.tensors := by
  intro e
  obtain ⟨x, y, z, w, a, he⟩ := withAlert_log_frame (fun _ => tripRec c temp) (tripped c temp) d
  rw [show e = _ from he]
  exact ⟨rfl, rfl, rfl, rfl, rfl, rfl, rfl⟩

theorem exec_thermalTrip_strikes {c temp : Nat} (hr : clocksRun s.dev = true) (hc : c < 6) (hg : s.dev.power.good.getLsbD c = true)
    (ht : 1050 ≤ temp) (hn : c ∉ s.dev.tel.trips) :
    exec (.thermalTrip c temp) s = .next { s with dev := tripSeen c temp s.dev } :=
  eff_eq_dev (if_neg (by simpa [hr, hc, hg, hn] using ht))

/-- Every compute die is throttled by the input. -/
def elecStruck (avg : Nat) (d : Dev) : Dev :=
  let e := strike (List.range 6) d
  { e with tel := { e.tel with elec := true, elecTrips := satInc 0xFFFF e.tel.elecTrips, pinPeak := max e.tel.pinPeak (avg % 65536) } }

/-- The device after the throttle of the input, with its record and its alert. -/
def elecSeen (avg : Nat) : Dev → Dev :=
  withAlert (fun d => logWhenRuns { sev := 15, cls := 0x0A03, code := BitVec.ofNat 32 avg } (elecStruck avg d))

/-- The throttle halves every compute die's clock and counts; items, cores and tensors stay. -/
theorem elecSeen_spec (avg : Nat) (d : Dev) : let e := elecSeen avg d
    e.tel.halved = (List.range 6).foldl addNew d.tel.halved ∧ e.tel.elec = true ∧ e.tel.elecTrips = satInc 0xFFFF d.tel.elecTrips ∧
    e.items = d.items ∧ e.cores = d.cores ∧ e.tensors = d.tensors := by
  intro e
  obtain ⟨x, y, z, w, a, he⟩ := withAlert_log_frame (fun _ => { sev := 15, cls := 0x0A03, code := BitVec.ofNat 32 avg }) (elecStruck avg) d
  rw [show e = _ from he]
  unfold elecStruck
  generalize List.range 6 = dies
  exact ⟨rfl, rfl, rfl, rfl, rfl, rfl⟩

theorem exec_electricalThrottle_strikes {avg : Nat} (hr : clocksRun s.dev = true) (ha : 4950 < avg) (he : s.dev.tel.elec = false) :
    exec (.electricalThrottle avg) s = .next { s with dev := elecSeen avg s.dev } :=
  eff_eq_dev (if_neg (by simp [hr, ha, he]))

theorem elecSeen_alert {avg : Nat} {d : Dev} (he : d.tel.elec = false) : (elecSeen avg d).tel.alert = true := by
  refine withAlert_rises 3 (by decide) ?_ ((telStatus_elec d).trans he)
  obtain ⟨x, y, z, w, hl⟩ := logWhenRuns_frame { sev := 15, cls := 0x0A03, code := BitVec.ofNat 32 avg } (elecStruck avg d)
  rw [telStatus_elec, hl]
  rfl

/-! ### Hot units and coolant (17 R549, R553) -/

/-- The record of a hot unit (17 R553): a die, the module or a stack. -/
def hotRec (unit temp : Nat) (d : Dev) : RasRec :=
  let r : RasRec := { sev := 15, cls := 0x0A05, code := BitVec.ofNat 32 temp }
  if unit < 12 then { r with unitKind := 8, logical := BitVec.ofNat 32 (unit - 6), physical := BitVec.ofNat 32 (unit - 6) }
  else if unit < 15 then { ofModule d d.lnk.pos r with object := 0 }
  else { r with unitKind := 7, logical := BitVec.ofNat 32 (unit - 15), physical := BitVec.ofNat 32 (unit - 15) }

/-- The device with a hot unit's temperature and flag. -/
def hotSeen (unit temp : Nat) (d : Dev) : Dev := unitMeasured unit temp { d with tel := { d.tel with hot := true } }

/-- A measured temperature stays in the telemetry's temperatures. -/
theorem unitMeasured_frame (unit temp : Nat) (d : Dev) : ∃ x y z,
    unitMeasured unit temp d = { d with tel := { d.tel with temps := x, tempPeaks := y, hbmTemps := z } } ∧
    (15 ≤ unit → z = setAt d.tel.hbmTemps (unit - 15) (temp % 65536)) := by
  unfold unitMeasured
  split
  case isTrue hlt => exact ⟨_, _, _, rfl, fun h => absurd hlt (Nat.not_lt.mpr h)⟩
  case isFalse => exact ⟨_, _, _, rfl, fun _ => rfl⟩

/-- The device after a hot unit, with its record and its alert. -/
def hotWarned (unit temp : Nat) : Dev → Dev := withAlert (fun d => logWhenRuns (hotRec unit temp (hotSeen unit temp d)) (hotSeen unit temp d))

/-- A hot unit sets the flag and its temperature; the clocks, the items and the cores stay. -/
theorem hotWarned_spec (unit temp : Nat) (d : Dev) : let e := hotWarned unit temp d
    e.tel.hot = true ∧ e.tel.halved = d.tel.halved ∧ e.items = d.items ∧ e.cores = d.cores ∧
    (15 ≤ unit → e.tel.hbmTemps = setAt d.tel.hbmTemps (unit - 15) (temp % 65536)) := by
  intro e
  obtain ⟨x, y, z, w, a, he⟩ := withAlert_log_frame (fun d => hotRec unit temp (hotSeen unit temp d)) (hotSeen unit temp) d
  obtain ⟨x', y', z', hu, hbm⟩ := unitMeasured_frame unit temp { d with tel := { d.tel with hot := true } }
  rw [show e = _ from he, hotSeen, hu]
  exact ⟨rfl, rfl, rfl, rfl, hbm⟩

theorem exec_hotWarning_seen {unit temp : Nat} (ho : isOn s.dev = true) (h6 : 6 ≤ unit) (hu : unitPowered unit s.dev = true) (ht : 1000 ≤ temp) :
    exec (.hotWarning unit temp) s = .next { s with dev := hotWarned unit temp s.dev } :=
  eff_eq_dev (if_neg (by simp [ho, h6, hu, ht]))

/-- Warm coolant sets the inlet and the flag; coolant that was warm already leaves no record, and the first sets the alert. -/
theorem coolant_warm {inlet : Nat} {d : Dev} (h1 : 400 < inlet) (h2 : inlet < 65535) : let e := coolant inlet d
    e.tel.inlet = inlet ∧ e.tel.warm = true ∧ (d.tel.warm = true → e.ras = d.ras) ∧ (d.tel.warm = false → e.tel.alert = true) ∧
    e.items = d.items := by
  have hwarm : (decide (400 < inlet) && inlet != 0xFFFF) = true := by simp [h1, Nat.ne_of_lt h2]
  intro e
  simp only [e, coolant, hwarm]
  cases hw : d.tel.warm with
  | true => simp
  | false => simp

theorem coolant_cool {inlet : Nat} {d : Dev} (h : inlet ≤ 400) :
    coolant inlet d = { d with tel := { d.tel with inlet := inlet, warm := false } } := by
  have hcool : (decide (400 < inlet) && inlet != 0xFFFF) = false := by simp [Nat.not_lt.mpr h]
  simp [coolant, hcool]

/-! ### SMBus (17 R561) -/

theorem smbRead_unpowered {code : Nat} {d : Dev} (h : d.tel.powered = false) : smbRead code d = d := if_pos (by rw [h]; rfl)

theorem smbRead_status {d : Dev} (h : d.tel.powered = true) : smbRead 7 d =
    { d with out := { d.out with rdBytes := toLe 2 (telStatus d) }, tel := { d.tel with alert := false } } := if_neg (by rw [h]; decide)

theorem smbRead_other {code : Nat} {d : Dev} (h : d.tel.powered = true) (hc : code ≠ 7) : smbRead code d =
    { d with out := { d.out with rdBytes := smbData d code } } := (if_neg (by rw [h]; decide)).trans (if_neg hc)

/-- A read of a field releases the alert only where it reads STATUS. -/
theorem smbRead_answers {code : Nat} {x : Instr} {d : Dev} (h : d.tel.powered = true) (hx : (code == 7) = (x == .smbReadStatus)) :
    smbRead code d = { d with
      out := { d.out with rdBytes := smbData d code }, tel := { d.tel with alert := d.tel.alert && x != .smbReadStatus } } := by
  by_cases hc : code = 7
  · subst hc
    rw [smbRead_status h, bne, ← hx, show (!7 == 7) = false from rfl, Bool.and_false]
    rfl
  · rw [smbRead_other h hc, bne, ← hx, beq_eq_false_iff_ne.mpr hc, Bool.not_false, Bool.and_true]

/-- A read of a code is answered while the module is powered. -/
theorem eff_smbRead {code : Nat} {g : Dev → Dev} (h : s.dev.tel.powered = true → smbRead code s.dev = g s.dev) :
    eff (smbRead code) s = .next (if s.dev.tel.powered then s.onDev g else s) := by
  by_cases hp : s.dev.tel.powered = true
  · rw [if_pos hp]
    exact eff_eq_onDev (h hp)
  · rw [if_neg hp]
    exact eff_idle (smbRead_unpowered (Bool.eq_false_iff.mpr hp))

end

/-! ### Events outside their range -/

section
variable {s : State} {mv unit temp avg inlet : Nat}

theorem exec_vinInRange_seen (hp : s.dev.tel.powered = true) (h1 : 48000 ≤ mv) (h2 : mv ≤ 58000) :
    exec (.vinInRange mv) s = .next (s.onDev (vinSeen mv false false)) := eff_eq_onDev (if_pos (by simp [hp, h1, h2]))

theorem exec_vinLow_idle (h : s.dev.tel.powered = false ∨ mv < 44000 ∨ 48000 ≤ mv) : exec (.vinLow mv) s = .next s :=
  eff_idle (if_pos (by grind))

theorem exec_vinHigh_idle (h : s.dev.tel.powered = false ∨ mv ≤ 58000 ∨ 61000 < mv) : exec (.vinHigh mv) s = .next s :=
  eff_idle (if_pos (by grind))

theorem exec_vinInRange_idle (h : s.dev.tel.powered = false ∨ mv < 48000 ∨ 58000 < mv) : exec (.vinInRange mv) s = .next s :=
  eff_idle (if_neg (by grind))

theorem exec_inputLockout_idle (h : s.dev.tel.powered = false ∨ 44000 ≤ mv) : exec (.inputLockout mv) s = .next s :=
  eff_idle (if_neg (by grind))

theorem exec_inputProtection_idle (h : s.dev.tel.powered = false ∨ mv ≤ 61000) : exec (.inputProtection mv) s = .next s :=
  eff_idle (if_neg (by grind))

theorem exec_converterStop_idle (c : Nat) (w : Bool) (h : s.dev.tel.powered = false) : exec (.converterStop c w) s = .next s :=
  eff_idle (if_neg (ne_true_of_eq_false h))

theorem exec_softStart_idle (h : s.dev.tel.powered = true ∨ mv < 46000) : exec (.softStart mv) s = .next s :=
  eff_idle (if_pos (by grind))

theorem exec_softStart_starts (hp : s.dev.tel.powered = false) (h : 46000 ≤ mv) : exec (.softStart mv) s = .next { s with dev := { s.dev with
    flash := { s.dev.flash with startCount := s.dev.flash.startCount + 1 }
    tel := { s.dev.tel with powered := true, perst := true, vin := mv, vinLow := decide (mv < 48000), vinHigh := decide (58000 < mv) }
    power := {} } } := eff_eq_dev (if_neg (by grind))

theorem exec_thermalShutdown_idle (h : s.dev.tel.powered = false ∨ unitPowered unit s.dev = false ∨ temp < 1150) :
    exec (.thermalShutdown unit temp) s = .next s := eff_idle (if_neg (by grind))

theorem exec_thermalTrip_idle (h : clocksRun s.dev = false ∨ 6 ≤ unit ∨ s.dev.power.good.getLsbD unit = false ∨ temp < 1050 ∨
    unit ∈ s.dev.tel.trips) : exec (.thermalTrip unit temp) s = .next s :=
  eff_idle (if_pos (by rcases h with h | h | h | h | h <;> simp [h]))

theorem exec_thermalTripClear_idle (h : isOn s.dev = false ∨ unit ∉ s.dev.tel.trips ∨ 1000 < temp) :
    exec (.thermalTripClear unit temp) s = .next s := eff_idle (if_neg (by rcases h with h | h | h <;> simp [h]))

theorem exec_thermalTripClear_clears (ho : isOn s.dev = true) (hm : unit ∈ s.dev.tel.trips) (ht : temp ≤ 1000) :
    exec (.thermalTripClear unit temp) s = .next (s.onDev (fun d =>
      dieMeasured unit temp { d with tel := { d.tel with trips := d.tel.trips.filter (· != unit) } })) :=
  eff_eq_onDev (if_pos (by simp [ho, hm, ht]))

theorem exec_hotWarning_idle (h : isOn s.dev = false ∨ unit < 6 ∨ unitPowered unit s.dev = false ∨ temp < 1000) :
    exec (.hotWarning unit temp) s = .next s := eff_idle (if_pos (by grind))

theorem exec_electricalThrottle_idle (h : clocksRun s.dev = false ∨ avg ≤ 4950 ∨ s.dev.tel.elec = true) :
    exec (.electricalThrottle avg) s = .next s := eff_idle (if_pos (by grind))

theorem exec_electricalThrottleClear_idle (h : isOn s.dev = false ∨ s.dev.tel.elec = false ∨ 4950 < avg) :
    exec (.electricalThrottleClear avg) s = .next s := eff_idle (if_neg (by grind))

theorem exec_electricalThrottleClear_clears (ho : isOn s.dev = true) (he : s.dev.tel.elec = true) (ha : avg ≤ 4950) :
    exec (.electricalThrottleClear avg) s = .next (s.onDev (fun d => { d with tel := { d.tel with elec := false } })) :=
  eff_eq_onDev (if_pos (by simp [ho, he, ha]))

theorem exec_coolantWarm_idle (h : firmwareRuns s.dev = false ∨ inlet ≤ 400) : exec (.coolantWarm inlet) s = .next s :=
  eff_idle (if_neg (by grind))

theorem exec_coolantWarm_warms (hf : firmwareRuns s.dev = true) (h : 400 < inlet) :
    exec (.coolantWarm inlet) s = .next { s with dev := coolant inlet s.dev } := eff_eq_dev (if_pos (by simp [hf, h]))

theorem exec_coolantWarmEnd_idle (h : firmwareRuns s.dev = false ∨ 400 < inlet) : exec (.coolantWarmEnd inlet) s = .next s :=
  eff_idle (if_neg (by grind))

theorem exec_coolantWarmEnd_cools (hf : firmwareRuns s.dev = true) (h : inlet ≤ 400) : exec (.coolantWarmEnd inlet) s =
    .next (s.onDev (fun d => { d with tel := { d.tel with inlet := inlet, warm := false } })) :=
  eff_eq_onDev ((if_pos (by simp [hf, h])).trans (coolant_cool h))

/-- A code that no field has answers 0xFF. -/
theorem smbData_unassigned {d : Dev} {code : Nat} (h : code = 0 ∨ 0x0A < code) : smbData d code = [0xFF] := by
  unfold smbData
  split
  on_goal 11 => rfl
  all_goals omega

theorem exec_smbAlertResponse_eq : exec .smbAlertResponse s = .next (if s.dev.tel.powered && s.dev.tel.alert then s.onDev (fun d =>
    { d with out := { d.out with rdBytes := toLe 1 (2 * (0x58 + d.tel.addrSel.toNat)) } }) else s) := by
  by_cases h : (s.dev.tel.powered && s.dev.tel.alert) = true
  · rw [if_pos h]
    exact eff_eq_onDev (if_pos h)
  · rw [if_neg h]
    exact eff_idle (if_neg h)

end

/-- Settles O60: each clause is one way in which the input, a throttle or a read of the SMBus goes. -/
theorem inputPowerThrottlesAndTelemetry : Obligations.InputPowerThrottlesAndTelemetry := by
  intro s d off under
  refine ⟨fun hp => ⟨fun mv h1 h2 => ?low, fun mv h1 h2 => ?high, fun mv => exec_vinInRange_seen hp,
      fun mv h => ⟨_, exec_inputLockout_off hp h, ?under⟩, fun mv h => ⟨_, exec_inputProtection_off hp h, powerOff_off 2 255 d⟩,
      fun c => ⟨_, exec_converterStop_off hp c true, powerOff_off (offCause d c) 255 d⟩,
      fun c => ⟨_, exec_converterStop_off hp c false, powerOff_unwritten (offCause d c) 255 d⟩,
      fun unit temp hlt hu ht => ⟨_, exec_thermalShutdown_off hp hu ht, ?shutdown⟩, fun mv => exec_softStart_idle (Or.inl hp)⟩,
    fun mv => ⟨exec_vinLow_idle, exec_vinHigh_idle, exec_vinInRange_idle, exec_inputLockout_idle, exec_inputProtection_idle,
      fun h => exec_softStart_idle (Or.inr h)⟩,
    exec_converterStop_idle,
    fun unit temp => ⟨exec_thermalShutdown_idle, exec_thermalTrip_idle, exec_thermalTripClear_idle, exec_hotWarning_idle⟩,
    fun avg => ⟨exec_electricalThrottle_idle, exec_electricalThrottleClear_idle⟩,
    fun inlet => ⟨exec_coolantWarm_idle, exec_coolantWarmEnd_idle⟩,
    fun mv hp h => ⟨_, exec_softStart_starts hp h, rfl, rfl, rfl, rfl, rfl, rfl⟩,
    fun c temp hr hc hg ht hn => ⟨_, exec_thermalTrip_strikes hr hc hg ht hn, tripSeen_spec c temp d⟩,
    fun c temp ho hm ht => ⟨_, exec_thermalTripClear_clears ho hm ht, rfl, rfl, rfl, rfl⟩,
    fun avg hr ha he => ?elec, fun avg => exec_electricalThrottleClear_clears,
    fun unit temp ho h6 hu ht => ⟨_, exec_hotWarning_seen ho h6 hu ht, hotWarned_spec unit temp d⟩,
    fun inlet hf => ⟨fun h1 h2 => ⟨_, exec_coolantWarm_warms hf h1, coolant_warm h1 h2⟩, exec_coolantWarmEnd_cools hf⟩,
    fun x hx => ?smb, fun code hc => eff_smbRead fun hp => ?unassigned, exec_smbAlertResponse_eq⟩
  case low =>
    obtain ⟨hvin, hlow, hhigh, hpow, hitems, htensors, hras⟩ := excursionSeen_spec mv true false (!d.tel.vinLow) d
    exact ⟨_, exec_vinLow_seen hp h1 h2, hvin, hlow, hhigh, hpow.trans hp, hitems, htensors, fun h => hras (by rw [h]; rfl),
      excursionSeen_low_alert⟩
  case high =>
    obtain ⟨hvin, hlow, hhigh, hpow, hitems, htensors, hras⟩ := excursionSeen_spec mv false true (!d.tel.vinHigh) d
    exact ⟨_, exec_vinHigh_seen hp h1 h2, hvin, hhigh, hlow, hpow.trans hp, hitems, htensors, fun h => hras (by rw [h]; rfl),
      excursionSeen_high_alert⟩
  case under =>
    have hoff := powerOff_off (offCause d 1) 255 d
    rwa [offWord_under] at hoff
  case shutdown =>
    have hoff := powerOff_off 3 unit d
    rwa [Nat.mod_eq_of_lt (Nat.lt_trans hlt (by decide))] at hoff
  case elec =>
    obtain ⟨hhalved, helec, htrips, hitems, hcores, htensors⟩ := elecSeen_spec avg d
    exact ⟨_, exec_electricalThrottle_strikes hr ha he, hhalved, helec, elecSeen_alert he, htrips, hitems, hcores, htensors⟩
  case smb =>
    simp only [List.mem_cons, List.not_mem_nil, or_false] at hx
    rcases hx with rfl | rfl | rfl | rfl | rfl | rfl | rfl | rfl | rfl | rfl
    all_goals exact eff_smbRead fun hp => smbRead_answers hp rfl
  case unassigned =>
    have hcode : code.toNat = 0 ∨ 0x0A < code.toNat := hc.imp_left fun h => by rw [h]; rfl
    exact (smbRead_other hp (by omega)).trans (by rw [smbData_unassigned hcode])

end Sys2Proof.Proofs
end

section
/-! Configuration requests, the device-memory window and failed host reads (15 R498 to R504). -/
namespace Sys2Proof.Proofs
open Sys2Proof Sys2Proof.Machine Sys2Proof.Laws

section
variable {s : State}

/-! ### Configuration requests (15 R498, R499) -/

theorem cfgUp_answers {fn : Nat} {d : Dev} (h : cfgUp fn d = true) : isOn d = true ∧ d.rst.hostDown = false := by
  simp only [cfgUp, Bool.and_eq_true, Bool.not_eq_true'] at h
  exact h.1

theorem exec_configRequest_otherFn {fn : Nat} (w : Bool) (off : Nat) (v : BitVec 32) (ho : isOn s.dev = true) (hh : s.dev.rst.hostDown = false)
    (h2 : 2 ≤ fn) : exec (.configRequest fn w off v) s = .next (s.onDev (fun d => { d with out := { d.out with cpl := 2 } })) :=
  eff_eq_onDev ((if_neg (by simp [ho, hh])).trans (if_pos h2))

theorem exec_configRequest_unanswered {fn : Nat} (w : Bool) (off : Nat) (v : BitVec 32)
    (h : isOn s.dev = false ∨ s.dev.rst.hostDown = true ∨ (fn < 2 ∧ cfgUp fn s.dev = false)) :
    exec (.configRequest fn w off v) s = .next (s.onDev (fun d => { d with out := { d.out with cpl := 0 } })) := by
  by_cases hon : (isOn s.dev && !s.dev.rst.hostDown) = true
  · obtain ⟨hlt, hup⟩ : fn < 2 ∧ cfgUp fn s.dev = false := by grind
    exact eff_eq_onDev ((if_neg (by rw [hon]; decide)).trans ((if_neg (Nat.not_le.mpr hlt)).trans (if_pos (by rw [hup]; rfl))))
  · exact eff_eq_onDev (if_pos (by rw [Bool.eq_false_iff.mpr hon]; rfl))

section
variable {fn : Nat} (hlt : fn < 2) (hup : cfgUp fn s.dev = true)
include hlt hup

theorem exec_configRequest_read (off : Nat) (v : BitVec 32) : exec (.configRequest fn false off v) s =
    .next (s.onDev (fun d => { d with out := { d.out with rd := BitVec.ofNat 64 (cfgRead d fn (off / 4 * 4 % 4096)), cpl := 1 } })) := by
  obtain ⟨ho, hh⟩ := cfgUp_answers hup
  exact eff_eq_onDev ((if_neg (by simp [ho, hh])).trans ((if_neg (Nat.not_le.mpr hlt)).trans ((if_neg (by rw [hup]; decide)).trans
    (if_neg Bool.false_ne_true))))

theorem exec_configRequest_write (off : Nat) (v : BitVec 32) : exec (.configRequest fn true off v) s =
    .next (s.onDev (fun d0 =>
      let d := cfgWrite fn (off / 4 * 4 % 4096) v d0
      { d with out := { d.out with cpl := 1 } })) := by
  obtain ⟨ho, hh⟩ := cfgUp_answers hup
  exact eff_eq_onDev ((if_neg (by simp [ho, hh])).trans ((if_neg (Nat.not_le.mpr hlt)).trans ((if_neg (by rw [hup]; decide)).trans (if_pos rfl))))

end

/-- The device identifications of the two functions. -/
theorem cfgRead_id (d : Dev) : cfgRead d 0 0 = 0x00181F8B ∧ cfgRead d 1 0 = 0x00191F8B := ⟨rfl, rfl⟩

/-- A write of 3 to the power state puts PF1 into D3hot. -/
theorem cfgWrite_d3hot {v : BitVec 32} (h : v.extractLsb' 0 2 = 3#2) (d : Dev) :
    cfgWrite 1 0x44 v d = { d with pf1 := { d.pf1 with d3 := true } } := if_pos h

/-! ### The device-memory window (15 R502, Table 15-4) -/

/-- No mapping shows an offset that lies in none. -/
theorem mappingAt_none {d : Dev} {off : Nat} (h : ∀ m ∈ d.maps, off < m.off ∨ m.off + m.len ≤ off) : mappingAt d off = none := by
  refine List.find?_eq_none.mpr fun m hm => ?_
  have hout := h m hm
  simp only [Bool.and_eq_true, decide_eq_true_eq]
  omega

theorem exec_bar2Read_shut (off len : Nat) (h : bar2Up s.dev = false) : exec (.bar2Read off len) s =
    .next (s.onDev (fun d => { d with out := { d.out with cpl := if isOn s.dev = true ∧ s.dev.rst.hostDown = false then 2 else 0 } })) := by
  refine eff_eq_onDev ((if_pos (by rw [h]; rfl)).trans ?_)
  simp only [Bool.and_eq_true, Bool.not_eq_true']

theorem exec_bar2Write_shut (off : Nat) (bs : Bytes) (h : bar2Up s.dev = false) : exec (.bar2Write off bs) s = .next s :=
  eff_idle (if_pos (by rw [h]; rfl))

section
variable (hu : bar2Up s.dev = true)
include hu

theorem exec_bar2Read_unmapped {off : Nat} (len : Nat) (hm : mappingAt s.dev off = none) :
    exec (.bar2Read off len) s = .next (s.onDev bar2Refused) := eff_eq_onDev ((if_neg (by rw [hu]; decide)).trans (by simp only [hm]))

theorem exec_bar2Write_unmapped {off : Nat} (bs : Bytes) (hm : mappingAt s.dev off = none) :
    exec (.bar2Write off bs) s = .next (s.onDev bar2Advisory) := eff_eq_onDev ((if_neg (by rw [hu]; decide)).trans (by simp only [hm]))

section
variable {off : Nat} {m : Mapping} {t : Tensor} (hm : mappingAt s.dev off = some m) (ht : aGet s.dev.tensors m.tensor = some t)
include hm

theorem exec_bar2Read_past {len : Nat} (h : m.off + m.len < off + len) : exec (.bar2Read off len) s = .next (s.onDev bar2Refused) :=
  eff_eq_onDev ((if_neg (by rw [hu]; decide)).trans (by simp only [hm, if_pos h]))

theorem exec_bar2Write_past {bs : Bytes} (h : m.off + m.len < off + bs.length) : exec (.bar2Write off bs) s = .next (s.onDev bar2Advisory) :=
  eff_eq_onDev ((if_neg (by rw [hu]; decide)).trans (by simp only [hm, if_pos h]))

include ht

theorem exec_bar2Read_answers {len : Nat} (h : off + len ≤ m.off + m.len) : exec (.bar2Read off len) s =
    (let n := min len (tBytes t - (m.tOff + (off - m.off)))
     let r := readPoisoned m.tensor (m.tOff + (off - m.off)) n s.dev
     .next { s with dev := { r.1 with out := { r.1.out with rdBytes := r.2.1 ++ zeros (len - n), cpl := if r.2.2 then 3 else 1 } } }) :=
  eff_eq_dev ((if_neg (by rw [hu]; decide)).trans (by simp only [hm, ht, if_neg (Nat.not_lt.mpr h), Option.getD_some]))

section
variable {bs : Bytes} (h : off + bs.length ≤ m.off + m.len)
include h

theorem exec_bar2Write_tail (ho : tBytes t ≤ m.tOff + (off - m.off)) : exec (.bar2Write off bs) s = .next s :=
  eff_idle ((if_neg (by rw [hu]; decide)).trans (by simp only [hm, ht, if_neg (Nat.not_lt.mpr h), Option.getD_some, if_pos ho]))

variable (ho : m.tOff + (off - m.off) < tBytes t)
include ho

theorem exec_bar2Write_secured (hs : tSecured t = true) : exec (.bar2Write off bs) s = .next (s.onDev bar2Advisory) :=
  eff_eq_onDev ((if_neg (by rw [hu]; decide)).trans
    (by simp only [hm, ht, if_neg (Nat.not_lt.mpr h), Option.getD_some, if_neg (Nat.not_le.mpr ho), hs, if_true]))

/-- A write into an unsecured tensor writes its bytes up to the tail; one that is not written whole leaves a record. -/
theorem exec_bar2Write_writes (hs : tSecured t = false) : exec (.bar2Write off bs) s =
    (let w := writeTensor m.tensor (m.tOff + (off - m.off)) (bs.take (tBytes t - (m.tOff + (off - m.off)))) s.dev
     .next { s with dev := if w.2 = true then w.1 else logRec { sev := 15, cls := 0x0805, object := tensorHandle s.dev m.tensor } w.1 }) :=
  eff_eq_dev ((if_neg (by rw [hu]; decide)).trans
    (by simp only [hm, ht, if_neg (Nat.not_lt.mpr h), Option.getD_some, if_neg (Nat.not_le.mpr ho), hs, Bool.false_eq_true, if_false]))

section
variable (hs : tSecured t = false)
include hs

theorem exec_bar2Write_whole (hw : (writeTensor m.tensor (m.tOff + (off - m.off)) (bs.take (tBytes t - (m.tOff + (off - m.off)))) s.dev).2 = true) :
    exec (.bar2Write off bs) s =
      .next { s with dev := (writeTensor m.tensor (m.tOff + (off - m.off)) (bs.take (tBytes t - (m.tOff + (off - m.off)))) s.dev).1 } :=
  (exec_bar2Write_writes hu hm ht h ho hs).trans (by simp only [hw, if_true])

theorem exec_bar2Write_partly (hw : (writeTensor m.tensor (m.tOff + (off - m.off)) (bs.take (tBytes t - (m.tOff + (off - m.off)))) s.dev).2 = false) :
    exec (.bar2Write off bs) s =
      (let w := writeTensor m.tensor (m.tOff + (off - m.off)) (bs.take (tBytes t - (m.tOff + (off - m.off)))) s.dev
       .next { s with dev := logRec { sev := 15, cls := 0x0805, object := tensorHandle s.dev m.tensor } w.1 }) :=
  (exec_bar2Write_writes hu hm ht h ho hs).trans (by simp only [hw, Bool.false_eq_true, if_false])

end

end

end

end

/-! ### Failed reads of host memory (15 R504, Table 15-5) -/

/-- A second error of one source in a tide leaves no record. -/
theorem hostError_known {key : Nat} {addr : BitVec 64} {d : Dev} (h : d.ras.hostErr.contains key = true) : hostError key addr d = d := if_pos h

theorem hostError_new {slot : Nat} {addr : BitVec 64} {d : Dev} (hs : slot < 4096) (h : d.ras.hostErr.contains slot = false) :
    hostError slot addr d = logRec { sev := 15, cls := 0x0803, unitKind := 13, logical := BitVec.ofNat 32 slot, detail := addr.zeroExtend 128 }
      { d with ras := { d.ras with hostErr := d.ras.hostErr ++ [slot] } } := by
  unfold hostError
  rw [if_neg (ne_true_of_eq_false h)]
  simp only [if_pos hs]

theorem exec_hostReadError_idle (addr : BitVec 64) (what : ReadFor) (h : firmwareRuns s.dev = false ∨ pf0Requests s.dev = false) :
    exec (.hostReadError addr what) s = .next s := eff_idle (if_pos (by rcases h with h | h <;> simp [h]))

section
variable (hf : firmwareRuns s.dev = true) (hr : pf0Requests s.dev = true) {addr : BitVec 64}
include hf hr

theorem exec_descriptorError_none {slot : Nat} (h : (aGet s.dev.chans slot).isSome = false) :
    exec (.hostReadError addr (.descriptor slot)) s = .next s :=
  eff_idle ((if_neg (by rw [hf, hr]; decide)).trans (if_neg (ne_true_of_eq_false h)))

theorem exec_descriptorError {slot : Nat} (h : (aGet s.dev.chans slot).isSome = true) :
    exec (.hostReadError addr (.descriptor slot)) s = .next (s.onDev (hostError slot addr)) :=
  eff_eq_onDev ((if_neg (by rw [hf, hr]; decide)).trans (if_pos h))

theorem exec_transferError_idle {slot q : Nat} (h : (findItem s.dev slot q).any (fun it => itemWorks s.dev it 3 1) = false) :
    exec (.hostReadError addr (.transfer slot q)) s = .next s := by
  refine eff_idle ((if_neg (by rw [hf, hr]; decide)).trans ?_)
  cases hi : findItem s.dev slot q with
  | none => simp only [hi]
  | some it =>
    rw [hi, Option.any_some] at h
    simp only [hi, h, Bool.false_eq_true, if_false]

theorem exec_transferError_ends {slot q : Nat} {it : Item} (hi : findItem s.dev slot q = some it) (hw : itemWorks s.dev it 3 1 = true) :
    exec (.hostReadError addr (.transfer slot q)) s = .next (s.onDev (fun d =>
      hostError slot addr (finishItem it.order 0x12 (hIdx it.object) d))) :=
  eff_eq_onDev ((if_neg (by rw [hf, hr]; decide)).trans (by simp only [hi, hw, if_true]))

/-- The opcode of the command in a mailbox. -/
def opOf (d : Dev) (m : Nat) : Nat := fieldLe (memRead (mbx d m).cmd 0 2) 0 2

theorem exec_requestError_refuses {m off : Nat} (hm : m < 64) (hst : (mbx s.dev m).state = 1) (hop : opOf s.dev m = 0x0301 ∨ opOf s.dev m = 0x0401) :
    exec (.hostReadError addr (.request m off)) s = .next (s.onDev (fun d => hostError (4096 + m) addr (refuse m rBadAddress off d))) := by
  have hop' : (opOf s.dev m == 0x0301 || opOf s.dev m == 0x0401) = true := by simpa using hop
  exact eff_eq_onDev ((if_neg (by rw [hf, hr]; decide)).trans (if_pos (by simp only [hm, hst, decide_true, beq_self_eq_true, Bool.true_and]; exact hop')))

theorem exec_requestError_idle {m off : Nat} (h : 64 ≤ m ∨ (mbx s.dev m).state ≠ 1 ∨ (opOf s.dev m ≠ 0x0301 ∧ opOf s.dev m ≠ 0x0401)) :
    exec (.hostReadError addr (.request m off)) s = .next s := by
  refine eff_idle ((if_neg (by rw [hf, hr]; decide)).trans (if_neg fun hall => ?_))
  simp only [Bool.and_eq_true, Bool.or_eq_true, decide_eq_true_eq, beq_iff_eq] at hall
  obtain ⟨⟨hm, hst⟩, hop⟩ := hall
  rcases h with h | h | h
  · exact absurd hm (Nat.not_lt.mpr h)
  · exact h hst
  · exact hop.elim h.1 h.2

end

end

/-- Settles O42: each clause is one way in which a configuration request, a BAR2 request or a failed host read ends. -/
theorem configurationAndBar2Requests : Obligations.ConfigurationAndBar2Requests := by
  intro s d cpl
  refine ⟨fun fn w off v => exec_configRequest_otherFn w off v, fun fn w off v => exec_configRequest_unanswered w off v,
    fun fn off v hlt hup => ⟨exec_configRequest_read hlt hup off v, exec_configRequest_write hlt hup off v⟩, fun fn id hid hup => ?identity,
    fun v hup hv => ?d3hot, fun off len => exec_bar2Read_shut off len, fun off bs => exec_bar2Write_shut off bs,
    fun off len m t hu hm ht => ⟨exec_bar2Read_past hu hm, exec_bar2Read_answers hu hm ht⟩,
    fun off len bs hu hout => ⟨exec_bar2Read_unmapped hu len (mappingAt_none hout), exec_bar2Write_unmapped hu bs (mappingAt_none hout)⟩,
    fun off bs m t hu hm ht => ⟨exec_bar2Write_past hu hm, fun h => ⟨exec_bar2Write_tail hu hm ht h, exec_bar2Write_secured hu hm ht h,
      fun ho hs => ⟨exec_bar2Write_whole hu hm ht h ho hs, exec_bar2Write_partly hu hm ht h ho hs⟩⟩⟩,
    fun addr what => exec_hostReadError_idle addr what,
    fun hf hr => ⟨fun addr slot hlt => ⟨fun h => ?noDescriptor, fun hc hn => ?descriptor⟩, fun addr slot q => exec_transferError_idle hf hr,
      fun addr slot q it => exec_transferError_ends hf hr,
      fun addr m off => ⟨exec_requestError_refuses hf hr, exec_requestError_idle hf hr⟩⟩⟩
  case identity =>
    simp only [List.mem_cons, Prod.mk.injEq, List.not_mem_nil, or_false] at hid
    rcases hid with ⟨rfl, rfl⟩ | ⟨rfl, rfl⟩
    · exact exec_configRequest_read (by decide) hup 0 0
    · exact exec_configRequest_read (by decide) hup 0 0
  case d3hot =>
    refine (exec_configRequest_write (by decide) hup 0x44 v).trans ?_
    simp only [State.onDev, cfgWrite_d3hot hv]
  case noDescriptor =>
    rcases h with h | h
    · exact exec_descriptorError_none hf hr h
    · cases hc : (aGet s.dev.chans slot).isSome with
      | false => exact exec_descriptorError_none hf hr hc
      | true => exact (exec_descriptorError hf hr hc).trans (eff_idle (hostError_known h))
  case descriptor => exact (exec_descriptorError hf hr hc).trans (eff_eq_onDev (hostError_new hlt hn))

end Sys2Proof.Proofs
end

section
/-! Bus mastering, power states, resets of the functions, the host link and PERST# (15 R505 to R520). -/
namespace Sys2Proof.Proofs
open Sys2Proof Sys2Proof.Machine Sys2Proof.Laws

/-! ### Messages that are held (15 R505, R508) -/

/-- The messages that PF1 held go, where it may master the bus. -/
def flushHeld1 (d : Dev) : Dev :=
  if d.pf1.busMaster && !d.pf1.d3 && !d.rst.hostDown then d.pf1.held.foldl (fun d v => fire1 v d) { d with pf1 := { d.pf1 with held := [] } } else d

theorem flushHeld1_nothing {d : Dev} (h : d.pf1.held = []) : flushHeld1 d = d := by
  unfold flushHeld1
  split
  · rw [h]
    exact congrArg (fun l => { d with pf1 := { d.pf1 with held := l } }) h.symm
  · rfl

theorem flushHeld_shut {d : Dev} (h : pf0Requests d = false) : flushHeld d = flushHeld1 d := by
  unfold flushHeld
  rw [if_neg (ne_true_of_eq_false h)]
  rfl

theorem flushHeld_nothing {d : Dev} (h0 : d.pf0.held = []) (h1 : d.pf1.held = []) : flushHeld d = d := by
  have hkeep : { d with pf0 := { d.pf0 with held := [] } } = d := congrArg (fun l => { d with pf0 := { d.pf0 with held := l } }) h0.symm
  have hflush : flushHeld d = flushHeld1 d := by
    unfold flushHeld
    rw [h0, hkeep, List.foldl_nil, ite_self]
    rfl
  rw [hflush, flushHeld1_nothing h1]

/-- The device after messages of PF0. -/
def sentBy0 (vs : List Nat) (d : Dev) : Dev := { d with out := { d.out with msgs := d.out.msgs ++ vs.map (fun v => (0, v)) } }

theorem sentBy0_cons (v : Nat) (vs : List Nat) (d : Dev) : sentBy0 vs (sentBy0 [v] d) = sentBy0 (v :: vs) d := by simp [sentBy0]

/-- Vectors that are unmasked while PF0 may send leave as messages, in their order. -/
theorem foldl_fire0_sends {vs : List Nat} {d : Dev} (hr : pf0Requests d = true) (hm : ∀ v ∈ vs, msixMasked d.pf0 v = false) :
    vs.foldl (fun d v => fire0 v d) d = sentBy0 vs d := by
  induction vs generalizing d with
  | nil => simp [sentBy0]
  | cons v vs ih =>
    have hfire : fire0 v d = sentBy0 [v] d := (if_neg (ne_true_of_eq_false (hm v List.mem_cons_self))).trans (if_pos hr)
    have hrest : vs.foldl (fun d v => fire0 v d) (sentBy0 [v] d) = sentBy0 vs (sentBy0 [v] d) :=
      ih hr fun u hu => hm u (List.mem_cons_of_mem v hu)
    rw [List.foldl_cons, hfire, hrest, sentBy0_cons]

/-! ### Bus Master Enable, D3hot and D0 -/

section
variable {s : State}

theorem exec_busMasterEnableChange {v : Bool} (hup : cfgUp 0 s.dev = true) :
    exec (.busMasterEnableChange v) s = .next (s.onDev (setBusMaster 0 v)) := eff_eq_onDev (if_pos hup)

/-- PF0 with its bus mastering changed. -/
def mastering (v : Bool) (d : Dev) : Dev := { d with pf0 := { d.pf0 with busMaster := v } }

theorem setBusMaster_off (d : Dev) : setBusMaster 0 false d = flushHeld1 (mastering false d) := flushHeld_shut (d := mastering false d) rfl

theorem setBusMaster_on {d : Dev} (hd : d.pf0.d3 = false) (hh : d.rst.hostDown = false) (h1 : d.pf1.held = []) (hf : d.pf0.fnMask = false)
    (hm : ∀ v ∈ d.pf0.held, (msixEntry d.pf0 v).mask = false) : setBusMaster 0 true d = { d with
      pf0 := { d.pf0 with busMaster := true, held := [] }, out := { d.out with msgs := d.out.msgs ++ d.pf0.held.map (fun v => (0, v)) } } := by
  have hr : pf0Requests (mastering true d) = true := by simp [mastering, pf0Requests, hd, hh]
  have hsent : d.pf0.held.foldl (fun d v => fire0 v d) { mastering true d with pf0 := { (mastering true d).pf0 with held := [] } } = _ :=
    foldl_fire0_sends hr fun v hv => by
      simp only [msixMasked, mastering, hf, Bool.false_or]
      exact hm v hv
  have hflush : setBusMaster 0 true d = flushHeld1 (d.pf0.held.foldl (fun d v => fire0 v d)
      { mastering true d with pf0 := { (mastering true d).pf0 with held := [] } }) := by
    show flushHeld (mastering true d) = _
    unfold flushHeld
    rw [if_pos hr]
    rfl
  rw [hflush, hsent]
  exact flushHeld1_nothing h1

theorem exec_d3hotEntry {fn : Nat} (hlt : fn < 2) (hup : cfgUp fn s.dev = true) : exec (.d3hotEntry fn) s = .next (s.onDev (enterD3 fn)) :=
  eff_eq_onDev (if_pos (by simp [hlt, hup]))

theorem exec_d0Entry {fn : Nat} (hlt : fn < 2) (hup : cfgUp fn s.dev = true) : exec (.d0Entry fn) s = .next (s.onDev (enterD0 fn)) :=
  eff_eq_onDev (if_pos (by simp [hlt, hup]))

theorem exec_powerState_idle {fn : Nat} (h : cfgUp fn s.dev = false ∨ 2 ≤ fn) :
    exec (.d3hotEntry fn) s = .next s ∧ exec (.d0Entry fn) s = .next s := by
  have hoff : ¬(decide (fn < 2) && cfgUp fn s.dev) = true := by
    rcases h with h | h
    · simp [h]
    · simp [Nat.not_lt.mpr h]
  exact ⟨eff_idle (if_neg hoff), eff_idle (if_neg hoff)⟩

theorem enterD0_already {fn : Nat} {d : Dev} (h : (fnOf d fn).d3 = false) : enterD0 fn d = d := if_pos (by rw [h]; rfl)

theorem exec_d0Entry_already {fn : Nat} (h : (fnOf s.dev fn).d3 = false) : exec (.d0Entry fn) s = .next s := by
  refine eff_idle ?_
  split
  · exact enterD0_already h
  · rfl

section
variable {d : Dev} (h0 : d.pf0.held = []) (h1 : d.pf1.held = [])
include h0 h1

theorem enterD0_pf0 (h : d.pf0.d3 = true) : enterD0 0 d = { d with
    pf0 := { d.pf0 with d3 := false }, out := if d.pf0.busMaster then { d.out with ltr := d.out.ltr + 1 } else d.out } := by
  have hd3 : ¬(!(fnOf d 0).d3) = true := by simp [fnOf, h]
  refine (if_neg hd3).trans ?_
  cases hb : d.pf0.busMaster with
  | false =>
    have hoff : ¬(0 = 0 ∧ (onFn 0 (fun f => { f with d3 := false }) d).pf0.busMaster = true) := by simp [onFn, hb]
    refine (congrArg flushHeld (if_neg hoff)).trans ?_
    exact flushHeld_nothing (d := { d with pf0 := { d.pf0 with d3 := false } }) h0 h1
  | true =>
    have hon : 0 = 0 ∧ (onFn 0 (fun f => { f with d3 := false }) d).pf0.busMaster = true := ⟨rfl, hb⟩
    refine (congrArg flushHeld (if_pos hon)).trans ?_
    exact flushHeld_nothing (d := { d with pf0 := { d.pf0 with d3 := false }, out := { d.out with ltr := d.out.ltr + 1 } }) h0 h1

theorem enterD0_pf1 (h : d.pf1.d3 = true) : enterD0 1 d = { d with pf1 := { d.pf1 with d3 := false } } := by
  have hd3 : ¬(!(fnOf d 1).d3) = true := by simp [fnOf, h]
  refine (if_neg hd3).trans ?_
  refine (congrArg flushHeld (if_neg fun hboth => absurd hboth.1 (by decide))).trans ?_
  exact flushHeld_nothing (d := { d with pf1 := { d.pf1 with d3 := false } }) h0 h1

end

/-! ### Function-level resets (15 R511, R518) -/

theorem requestReset_pends {d : Dev} (h : d.rst.pending = false) : requestReset d = { d with rst := { d.rst with
    pending := true, applied := false, inProgress := true, complete := false, flrs := satInc 0xFFFF d.rst.flrs
    skipSlack := d.tide.run && d.tide.phase != .work } } := if_neg (by rw [h]; exact Bool.false_ne_true)

/-- A reset that is asked for changes the reset block alone, and is pending. -/
theorem requestReset_frame (d : Dev) : ∃ r, requestReset d = { d with rst := r } ∧ r.pending = true ∧ r.hostDown = d.rst.hostDown := by
  unfold requestReset
  split
  case isTrue h => exact ⟨d.rst, rfl, (Bool.and_eq_true_iff.mp h).1, rfl⟩
  case isFalse => exact ⟨_, rfl, rfl, rfl⟩

/-- PF1 at reset: its configuration, its vectors and its freeze selectors. -/
def pf1Cleared (d : Dev) : Dev :=
  { d with
    pf1 := {}, rst := { d.rst with enable := false, vector := 0 }, frz := { d.frz with sel := 0, off := 0 }
    ras := { d.ras with pf1 := { d.ras.pf1 with enable := false, minSev := 1, vector := 0 } }
    mem := { d.mem with flipArm := false } }

theorem resetPf1_eq (d : Dev) : resetPf1 d = logWhenRuns { sev := 15, cls := 0x0802 } (pf1Cleared d) := rfl

theorem firmwareRuns_pf1Cleared (d : Dev) : firmwareRuns (pf1Cleared d) = firmwareRuns d := rfl

theorem brgPassed_pf1Cleared (n : Nat) (d : Dev) : brgPassed (pf1Cleared d) n = brgPassed d n := rfl

theorem firmwareRuns_early {d : Dev} (h : brgPassed d 8 = false) : firmwareRuns d = false := by rw [firmwareRuns, h, Bool.and_false]

theorem resetPf1_early {d : Dev} (h : brgPassed d 8 = false) : resetPf1 d = pf1Cleared d := by
  rw [resetPf1_eq, logWhenRuns, if_neg (by rw [firmwareRuns_pf1Cleared, firmwareRuns_early h]; decide),
    if_neg (by rw [brgPassed_pf1Cleared, h]; decide)]

theorem resetPf1_running {d : Dev} (h : firmwareRuns d = true) : resetPf1 d = logRec { sev := 15, cls := 0x0802 } (pf1Cleared d) := by
  rw [resetPf1_eq, logWhenRuns, if_pos (by rw [firmwareRuns_pf1Cleared, h])]

theorem exec_flrPf1 (hup : cfgUp 1 s.dev = true) : exec .flrPf1 s = .next (s.onDev resetPf1) := eff_eq_onDev (if_pos hup)

/-! ### The host link and PERST# (15 R519, R520) -/

/-- The device whose host link went down: an FLR of both functions is pending. -/
def linkDown (d : Dev) : Dev :=
  let e := requestReset (logWhenRuns { sev := 3, cls := 0x0804 } d)
  { e with rst := { e.rst with hostDown := true, pf1Pending := true } }

theorem linkDown_spec (d : Dev) : (linkDown d).rst.hostDown = true ∧ (linkDown d).rst.pending = true ∧ (linkDown d).rst.pf1Pending = true ∧
    (linkDown d).chans = d.chans ∧ (linkDown d).tensors = d.tensors ∧ pf0Up (linkDown d) = false ∧ pf1Up (linkDown d) = false := by
  obtain ⟨x, y, z, w, hlog⟩ := logWhenRuns_frame { sev := 3, cls := 0x0804 } d
  obtain ⟨r, hreq, hpend, -⟩ := requestReset_frame (logWhenRuns { sev := 3, cls := 0x0804 } d)
  have hdown : linkDown d = { d with ras := x, pf0 := y, pf1 := z, out := w, rst := { r with hostDown := true, pf1Pending := true } } := by
    unfold linkDown
    rw [hreq, hlog]
  rw [hdown]
  exact ⟨rfl, hpend, rfl, rfl, rfl, Bool.and_false _, Bool.and_false _⟩

theorem exec_hostLinkDown (ho : isOn s.dev = true) (hh : s.dev.rst.hostDown = false) : exec .hostLinkDown s = .next { s with dev := linkDown s.dev } :=
  eff_eq_dev (if_pos (by simp [ho, hh]))

theorem exec_hostLinkDown_idle (h : isOn s.dev = false ∨ s.dev.rst.hostDown = true) : exec .hostLinkDown s = .next s :=
  eff_idle (if_neg (by rcases h with h | h <;> simp [h]))

theorem exec_hostLinkUp (ho : isOn s.dev = true) (hh : s.dev.rst.hostDown = true) (h0 : s.dev.pf0.held = []) (h1 : s.dev.pf1.held = []) :
    exec .hostLinkUp s = .next (s.onDev (fun d => { d with rst := { d.rst with hostDown := false } })) :=
  eff_eq_onDev ((if_pos (by simp [ho, hh])).trans (flushHeld_nothing (d := { s.dev with rst := { s.dev.rst with hostDown := false } }) h0 h1))

theorem exec_hostLinkUp_idle (h : isOn s.dev = false ∨ s.dev.rst.hostDown = false) : exec .hostLinkUp s = .next s :=
  eff_idle (if_neg (by rcases h with h | h <;> simp [h]))

theorem exec_perstDeassert_idle (id : BitVec 4) (sel : BitVec 2) (h : s.dev.tel.perst = false ∨ s.dev.tel.powered = false) :
    exec (.perstDeassert id sel) s = .next s := eff_idle (if_neg (by rcases h with h | h <;> simp [h]))

/-- The device while PERST# is asserted. -/
def perstHeld (d : Dev) : Dev :=
  let b := freshDev d
  { b with tel := { b.tel with perst := true, powered := d.tel.powered }, power := if d.tel.powered then b.power else d.power }

theorem exec_perstAssert (h : s.dev.tel.perst = false) : exec .perstAssert s = .next { s with dev := perstHeld s.dev } :=
  eff_eq_dev (if_neg (ne_true_of_eq_false h))

theorem clocksRun_perstHeld (d : Dev) : clocksRun (perstHeld d) = false := by
  have hoff : isOn (perstHeld d) = false := Bool.and_false _
  rw [clocksRun, hoff]
  rfl

/-- After PERST# no bring-up step but the first has run. -/
theorem brgState_perstHeld (d : Dev) {n : Nat} (h : 2 ≤ n) : brgState (perstHeld d) n = 0 := by
  obtain ⟨k, rfl⟩ := Nat.exists_eq_add_of_le' h
  have hsteps : ((List.replicate 10 ({} : BringStep))[k]?).getD {} = {} := by
    rw [List.getElem?_replicate]
    split <;> rfl
  exact congrArg BringStep.state hsteps

end

/-- Settles O43: each clause is one change of a function, of the host link or of PERST#. -/
theorem functionsStopAndReset : Obligations.FunctionsStopAndReset := by
  intro s d
  exact ⟨fun v h => eff_idle (if_neg (ne_true_of_eq_false h)),
    fun hup => (exec_busMasterEnableChange hup).trans (eff_eq_onDev (setBusMaster_off s.dev)),
    fun hup hd h1 hf hm => (exec_busMasterEnableChange hup).trans (eff_eq_onDev (setBusMaster_on hd (cfgUp_answers hup).2 h1 hf hm)),
    fun fn => exec_powerState_idle, exec_d3hotEntry (by decide), exec_d3hotEntry (by decide), fun fn => exec_d0Entry_already,
    fun hup hd h0 h1 => (exec_d0Entry (by decide) hup).trans (eff_eq_onDev (enterD0_pf0 h0 h1 hd)),
    fun hup hd h0 h1 => (exec_d0Entry (by decide) hup).trans (eff_eq_onDev (enterD0_pf1 h0 h1 hd)),
    fun hup hp => eff_eq_onDev ((if_pos hup).trans (requestReset_pends hp)),
    fun h => eff_idle (if_neg (ne_true_of_eq_false h)), fun h => eff_idle (if_neg (ne_true_of_eq_false h)),
    fun hup => ⟨fun h => (exec_flrPf1 hup).trans (eff_eq_onDev (resetPf1_early h)),
      fun h => (exec_flrPf1 hup).trans (eff_eq_onDev (resetPf1_running h))⟩,
    fun ho hh => ⟨_, exec_hostLinkDown ho hh, linkDown_spec d⟩, exec_hostLinkDown_idle, exec_hostLinkUp, exec_hostLinkUp_idle,
    fun h => ⟨_, exec_perstAssert h, rfl, rfl, rfl, rfl, rfl, rfl, rfl, rfl, rfl, clocksRun_perstHeld d, fun n => brgState_perstHeld d⟩,
    fun h => eff_idle (if_pos h), fun id sel hp hw => eff_eq_onDev (if_pos (by rw [hp, hw]; rfl)), exec_perstDeassert_idle⟩

end Sys2Proof.Proofs
end

section
/-! What an access to memory can change (10 R331 to R334): the errors and counters of the sectors, what is stored, and the records; and
which parts of the device the ends of items leave alone. -/
namespace Sys2Proof.Proofs
open Sys2Proof Sys2Proof.Machine Sys2Proof.Laws

/-- The second device is the first after work on sectors: other memory, tensors' bytes, records and signals. -/
def SectorsWork (d e : Dev) : Prop := ∃ m t r p0 p1 y, e = { d with mem := m, tensors := t, ras := r, pf0 := p0, pf1 := p1, out := y }

namespace SectorsWork

variable {d e f : Dev}

theorem refl (d : Dev) : SectorsWork d d := ⟨_, _, _, _, _, _, rfl⟩

theorem trans (h : SectorsWork d e) (h' : SectorsWork e f) : SectorsWork d f := by
  obtain ⟨_, _, _, _, _, _, rfl⟩ := h
  obtain ⟨_, _, _, _, _, _, rfl⟩ := h'
  exact ⟨_, _, _, _, _, _, rfl⟩

theorem foldl {α σ : Type} {f : σ → α → σ} (g : σ → Dev) (h : ∀ x a, SectorsWork (g x) (g (f x a))) (l : List α) (x : σ) :
    SectorsWork (g x) (g (l.foldl f x)) :=
  List.foldlRecOn (motive := fun y => SectorsWork (g x) (g y)) l f (refl (g x)) fun y hy a _ => hy.trans (h y a)

theorem chans (h : SectorsWork d e) : e.chans = d.chans := by obtain ⟨_, _, _, _, _, _, rfl⟩ := h; rfl

theorem lagoon (h : SectorsWork d e) : e.lagoon = d.lagoon := by obtain ⟨_, _, _, _, _, _, rfl⟩ := h; rfl

theorem lnk (h : SectorsWork d e) : e.lnk = d.lnk := by obtain ⟨_, _, _, _, _, _, rfl⟩ := h; rfl

theorem serial (h : SectorsWork d e) : e.serial = d.serial := by obtain ⟨_, _, _, _, _, _, rfl⟩ := h; rfl

/-! ### Reads of sectors -/

theorem ofLog (r : RasRec) (d : Dev) : SectorsWork d (logRec r d) := by
  obtain ⟨_, _, _, _, h⟩ := logRec_frame r d
  exact ⟨_, _, _, _, _, _, h⟩

theorem flipOn (ks : List SectorKey) (d : Dev) : SectorsWork d (flipOn ks d) := by
  obtain ⟨_, h⟩ := flipOn_frame ks d
  exact ⟨_, _, _, _, _, _, h⟩

theorem dropErr (k : SectorKey) (d : Dev) : SectorsWork d (dropErr k d) := ⟨_, _, _, _, _, _, rfl⟩

theorem onStack (k : Nat) (f : Stack → Stack) (d : Dev) : SectorsWork d (onStack k f d) := ⟨_, _, _, _, _, _, rfl⟩

theorem logSector (sev cls kind : Nat) (k : SectorKey) (d : Dev) : SectorsWork d (logSector sev cls kind k d) := ofLog _ d

theorem setErrs (l : List SectorErr) (d : Dev) : SectorsWork d (setErrs l d) := ⟨_, _, _, _, _, _, rfl⟩

theorem eccLog (a : BitVec 64) (d : Dev) : SectorsWork d (eccLog a d) := ⟨_, _, _, _, _, _, rfl⟩

theorem poisonSector (k : SectorKey) (d : Dev) : SectorsWork d (poisonSector k d) :=
  (setErrs _ d).trans ((onStack ..).trans ((eccLog ..).trans (logSector ..)))

theorem correctSector (k : SectorKey) (d : Dev) : SectorsWork d (correctSector k d) := by
  unfold Machine.correctSector
  refine trans ?_ (flipOn ..)
  refine ((dropErr k d).trans (onStack (keyStack d k) (fun s => { s with corrected := satInc 0xFFFFFFFF s.corrected }) _)).trans ?_
  split
  · exact refl _
  · exact (logSector 0 0x301 1 k _).trans ⟨_, _, _, _, _, _, rfl⟩

theorem correctPeers (k : SectorKey) (d : Dev) : SectorsWork d (correctPeers k d) := foldl (fun x => x) (fun d j => correctSector j d) _ d

theorem rebuildSector (k : SectorKey) (d : Dev) : SectorsWork d (rebuildSector k d) :=
  (correctPeers k d).trans ((dropErr ..).trans ((onStack ..).trans ((eccLog ..).trans ((logSector ..).trans (flipOn ..)))))

theorem xorData (k : SectorKey) (x : Bytes) (d : Dev) : SectorsWork d (xorData k x d) := by
  unfold Machine.xorData
  split
  · exact ⟨_, _, _, _, _, _, rfl⟩
  · exact refl d

theorem touchSector (k : SectorKey) (d : Dev) : SectorsWork d (touchSector k d).1 := by
  unfold Machine.touchSector
  split
  · exact refl d
  · exact correctSector k d
  · exact onStack ..
  · split
    · exact correctPeers k d
    · exact poisonSector k d
  · split
    · exact ((xorData k _ d).trans (correctSector k _)).trans ⟨_, _, _, _, _, _, rfl⟩
    · split
      · exact rebuildSector k d
      · exact poisonSector k d

theorem countHits (k : SectorKey) (off len : Nat) (write : Bool) (d : Dev) : SectorsWork d (countHits k off len write d) :=
  foldl (fun x => x) (fun _ _ => ⟨_, _, _, _, _, _, rfl⟩) _ d

/-! ### Writes of bytes -/

theorem writeShare (k : SectorKey) (off len n : Nat) (d : Dev) : SectorsWork d (writeShare k off len n d).1 := by
  unfold Machine.writeShare
  dsimp only
  split
  · exact dropErr ..
  · split
    · exact (touchSector ..).trans (dropErr ..)
    · exact touchSector ..

theorem writeParity (k : SectorKey) (ns : List Nat) (p : Nat × Nat) (d : Dev) : SectorsWork d (writeParity k ns p d) := by
  unfold Machine.writeParity
  dsimp only
  split
  · exact ⟨_, _, _, _, _, _, rfl⟩
  · split
    · exact (touchSector ..).trans (dropErr ..)
    · exact touchSector ..

theorem writeBytes (k : SectorKey) (off len : Nat) (d : Dev) : SectorsWork d (writeBytes k off len d).1 := by
  unfold Machine.writeBytes
  dsimp only
  split
  · refine (countHits k off len true d).trans (trans ?_ ((foldl (fun x => x) (fun d p => writeParity k _ p d) _ _).trans (flipOn ..)))
    refine foldl (fun x : Dev × List Nat × List Nat => x.1) (fun x n => ?_) _ _
    split
    · exact writeShare ..
    · exact writeShare ..
  · exact countHits ..

theorem pokeBuf (idx b off : Nat) (bs : Bytes) (d : Dev) : SectorsWork d (pokeBuf idx b off bs d) := ⟨_, _, _, _, _, _, rfl⟩

theorem storeBuf (idx b off : Nat) (bs : Bytes) (d : Dev) : SectorsWork d (storeBuf idx b off bs d).1 := by
  unfold Machine.storeBuf
  dsimp only
  split
  · exact (writeBytes ..).trans (pokeBuf ..)
  · exact (writeBytes ..).trans (foldl (fun x => x) (fun d n => pokeBuf ..) _ _)

end SectorsWork

end Sys2Proof.Proofs
end

section
/-! The pending reset of PF0 (15 R511 to R515, Table 15-7). -/
namespace Sys2Proof.Proofs
open Sys2Proof Sys2Proof.Machine Sys2Proof.Laws

/-! ### Keyed tables -/

section
variable {α : Type}

theorem aGet_aDel_other {l : Assoc α} {k i : Nat} (h : i ≠ k) : aGet (aDel l k) i = aGet l i := by
  induction l with
  | nil => rfl
  | cons c t ih =>
    by_cases hk : c.1 = k
    · rw [show aDel (c :: t) k = aDel t k by simp [aDel, hk], ih]
      simp [aGet, show k ≠ i from fun e => h e.symm, hk]
    · rw [show aDel (c :: t) k = c :: aDel t k by simp [aDel, hk]]
      simp [aGet, ih]

theorem aDel_of_absent {l : Assoc α} {k : Nat} (h : aGet l k = none) : aDel l k = l := by
  induction l with
  | nil => rfl
  | cons c t ih =>
    by_cases hk : c.1 = k
    · simp [aGet, hk] at h
    · rw [show aDel (c :: t) k = c :: aDel t k by simp [aDel, hk], ih (by simpa [aGet, hk] using h)]

/-- Removing keys one after another leaves what has none of them. -/
theorem foldl_aDel (ks : List Nat) (l : Assoc α) : ks.foldl aDel l = l.filter (fun c => decide (c.1 ∉ ks)) := by
  induction ks generalizing l with
  | nil => simp
  | cons k ks ih =>
    rw [List.foldl_cons, ih, aDel, List.filter_filter]
    refine List.filter_congr fun c _ => ?_
    by_cases h : c.1 = k <;> simp [h]

/-- Removing every key leaves nothing. -/
theorem foldl_aDel_keys (l : Assoc α) : (l.map (·.1)).foldl aDel l = [] := by
  rw [foldl_aDel]
  refine List.filter_eq_nil_iff.mpr fun c hc => ?_
  simp only [decide_not, Bool.not_eq_true', decide_eq_false_iff_not, not_not]
  exact List.mem_map_of_mem hc

theorem mem_keys_of_aGet {l : Assoc α} {k : Nat} {v : α} (h : aGet l k = some v) : k ∈ l.map (·.1) :=
  List.mem_map.mpr ⟨(k, v), mem_of_aGet h, rfl⟩

theorem aGet_foldl_aDel {ks : List Nat} {l : Assoc α} {i : Nat} (h : i ∉ ks) : aGet (ks.foldl aDel l) i = aGet l i := by
  induction ks generalizing l with
  | nil => rfl
  | cons k ks ih =>
    rw [List.foldl_cons, ih (fun hi => h (List.mem_cons_of_mem k hi)), aGet_aDel_other (List.ne_of_not_mem_cons h)]

theorem aGet_foldl_aDel_gone {ks : List Nat} {l : Assoc α} {i : Nat} (h : i ∈ ks) : aGet (ks.foldl aDel l) i = none := by
  cases hg : aGet (ks.foldl aDel l) i with
  | none => rfl
  | some v =>
    have hmem := mem_of_aGet hg
    rw [foldl_aDel] at hmem
    exact absurd h (of_decide_eq_true (List.mem_filter.mp hmem).2)

end

/-! ### The ends of items leave the channels alone -/

section
variable (it : Item) (d : Dev)

theorem solverClose_chans : (solverClose it d).chans = d.chans := by
  have hstored : ∀ e : Dev, (it.probs.foldl (fun d x => (storeVals (recH it 40) (slvFirst it + x.1) [(probWord d it x.2).toNat] d).1) e).chans
      = e.chans := fun e => foldl_keeps Dev.chans (fun d x => (SectorsWork.storeBuf ..).chans) _ e
  have hwarm : ∀ (i : Nat) (l : List (Nat × WarmSlot)) (e : Dev), (warmCommit i l e).chans = e.chans := fun i l e => by
    unfold warmCommit
    split
    · rfl
    · exact foldl_keeps Dev.chans (fun d s => foldl_keeps Dev.chans (fun d b => (SectorsWork.writeBytes ..).chans) _ d) _ e
  unfold solverClose
  dsimp only
  split
  · rw [hwarm, hstored]
    exact foldl_keeps Dev.chans (fun d x => by split <;> rfl) _ d
  · rw [hstored]
    exact foldl_keeps Dev.chans (fun d x => by split <;> rfl) _ d

theorem noteGroup_chans (status detail : Nat) : (noteGroup it status detail d).chans = d.chans := by
  unfold noteGroup
  split <;> rfl

theorem noteFailure_chans (status detail : Nat) : (noteFailure it status detail d).chans = d.chans := by
  unfold noteFailure
  split
  · rfl
  · dsimp only
    split
    · rfl
    · exact logRec_chans ..

theorem endItem_chans (status detail : Nat) : (endItem it status detail d).chans = d.chans := by
  have h1 : ∀ (c : Prop) [Decidable c] (e : Dev), (if c then solverClose it e else e).chans = e.chans := fun c _ e => by
    split
    · exact solverClose_chans it e
    · rfl
  have h2 : ∀ (c : Prop) [Decidable c] (e : Dev), (if c then noteGroup it status detail e else e).chans = e.chans := fun c _ e => by
    split
    · exact noteGroup_chans it e status detail
    · rfl
  have h3 : ∀ (c : Prop) [Decidable c] (b : Bool) (e : Dev), (if c then { e with step := { e.step with sealEnded := b } } else e).chans = e.chans :=
    fun c _ b e => by split <;> rfl
  unfold endItem
  rw [setItem_chans, h3, noteFailure_chans, h2, h1]

theorem collSend_chans (g : Group) (r use : Nat) (h : CollHeader) (bs : Bytes) : (collSend g r use h bs d).chans = d.chans := send_chans ..

theorem endByAbort_chans (cause rank : Nat) : (endByAbort it cause rank d).chans = d.chans := by
  unfold endByAbort
  dsimp only
  split
  · rfl
  · split
    · split
      · exact logRec_chans ..
      · exact logRec_chans ..
    · rfl

theorem leadAbort_chans (op : Nat) (l : Launch) (g : Group) (cause rank : Nat) : (leadAbort it op l g cause rank d).chans = d.chans := by
  unfold leadAbort
  split
  · rfl
  · exact (endByAbort_chans ..).trans (foldl_keeps Dev.chans (fun d r => collSend_chans d ..) _ _)

theorem leaveLaunch_chans (cause : Nat) : (leaveLaunch it cause d).chans = d.chans := by
  unfold leaveLaunch
  split
  · rfl
  · split
    · rfl
    · split
      · rfl
      · dsimp only
        split
        · exact leadAbort_chans ..
        · exact collSend_chans ..

theorem leaveBy_chans (status detail : Nat) : (leaveBy it status detail d).chans = d.chans := by
  unfold leaveBy
  split
  · rfl
  · split
    · exact leaveLaunch_chans ..
    · split
      · exact leaveLaunch_chans ..
      · split
        · exact leaveLaunch_chans ..
        · rfl

end

theorem resetItem_chans (c : Chan) (o : Nat) (d : Dev) : (resetItem c o d).chans = d.chans := by
  unfold resetItem
  split
  · rfl
  · split
    · exact (endItem_chans ..).trans (leaveBy_chans ..)
    · rfl

/-! ### The ferry changes what it keeps for the partner, and what it sends -/

/-- The second device is the first with other packets: sent, on the links, and waiting for their ACK. -/
def Ferries (d e : Dev) : Prop := ∃ n u ls ss y, e = { d with
  pair := { d.pair with fseq := n, unacked := u }, lnk := { d.lnk with links := ls, straits := ss }, out := y }

namespace Ferries

variable {d e f : Dev}

theorem refl (d : Dev) : Ferries d d := ⟨_, _, _, _, _, rfl⟩

theorem trans (h : Ferries d e) (h' : Ferries e f) : Ferries d f := by
  obtain ⟨_, _, _, _, _, rfl⟩ := h
  obtain ⟨_, _, _, _, _, rfl⟩ := h'
  exact ⟨_, _, _, _, _, rfl⟩

theorem foldl {α : Type} {f : Dev → α → Dev} (h : ∀ d a, Ferries d (f d a)) (l : List α) (d : Dev) : Ferries d (l.foldl f d) :=
  List.foldlRecOn (motive := fun e => Ferries d e) l f (refl d) fun e he a _ => he.trans (h e a)

theorem ferryOne (use step obj part off : Nat) (bs : Bytes) (d : Dev) : Ferries d (ferryOne use step obj part off bs d) := by
  unfold Machine.ferryOne
  dsimp only
  obtain ⟨ls, ss, y, h⟩ := Sends.send _ _
  rw [h]
  exact ⟨_, _, _, _, _, rfl⟩

theorem ferry (use step obj part off : Nat) (bs : Bytes) (d : Dev) : Ferries d (ferry use step obj part off bs d) := by
  unfold Machine.ferry
  split
  · exact foldl (fun _ _ => ferryOne ..) _ d
  · exact refl d

theorem ferryEntry (part : Nat) (x : Bytes) (d : Dev) : Ferries d (ferryEntry part x d) := foldl (fun _ _ => ferryOne ..) _ d

theorem ferryChange (h : BitVec 64) (d : Dev) : Ferries d (ferryChange h d) := by
  unfold Machine.ferryChange
  split
  · dsimp only
    split
    · exact (ferryEntry ..).trans (ferry ..)
    · exact ferryEntry ..
  · exact refl d

/-- The changes that are due go to the partner; none is due then. -/
theorem ferryChanges (d : Dev) : ∃ e, Ferries d e ∧ Machine.ferryChanges d = { e with pair := { e.pair with changes := [] } } := by
  unfold Machine.ferryChanges
  dsimp only
  split
  · refine ⟨_, foldl (fun d h => ?_) _ d, rfl⟩
    split
    · split
      · exact ferryEntry ..
      · exact refl d
    · exact ferryChange h d
  · exact ⟨d, refl d, rfl⟩

theorem ferryLedger (it : Item) (mark : Nat) (d : Dev) : Ferries d (ferryLedger it mark d) := by
  unfold Machine.ferryLedger
  split
  · exact ferry ..
  · exact refl d

end Ferries

/-! ### Channels (15 R513, Table 15-8) -/

theorem resetEntry_chans (c : Chan) (flr o : Nat) (d : Dev) : (resetEntry c flr o d).chans = d.chans := by
  unfold resetEntry
  split
  · rfl
  · split
    · rfl
    · obtain ⟨_, _, _, _, _, h⟩ := Ferries.ferryLedger _ 2 _
      rw [h]
      rfl

theorem resetChan_chans (flr slot : Nat) (d : Dev) : (resetChan flr slot d).chans = aDel d.chans slot := by
  unfold resetChan
  split
  case h_1 h => exact (aDel_of_absent h).symm
  case h_2 c h =>
    refine congrArg (aDel · slot) ?_
    exact (foldl_keeps Dev.chans (fun d o => resetEntry_chans c flr o d) _ _).trans (foldl_keeps Dev.chans (fun d o => resetItem_chans c o d) _ d)

/-- Every channel is freed. -/
theorem foldl_resetChan_chans (flr : Nat) (ks : List Nat) (d : Dev) : (ks.foldl (fun d slot => resetChan flr slot d) d).chans = ks.foldl aDel d.chans := by
  induction ks generalizing d with
  | nil => rfl
  | cons k ks ih => rw [List.foldl_cons, List.foldl_cons, ih, resetChan_chans]

/-- The second device is the first with channels freed, and entries at the end of the reset ledger. -/
def ChansFreed (d e : Dev) : Prop := ∃ cs x ix, e = { d with chans := cs, rst := { d.rst with entries := d.rst.entries ++ x }, idx := ix }

namespace ChansFreed

variable {d e f : Dev}

theorem refl (d : Dev) : ChansFreed d d := ⟨d.chans, [], d.idx, by rw [List.append_nil]⟩

theorem trans (h : ChansFreed d e) (h' : ChansFreed e f) : ChansFreed d f := by
  obtain ⟨_, x, _, rfl⟩ := h
  obtain ⟨cs, y, ix, rfl⟩ := h'
  exact ⟨cs, x ++ y, ix, by rw [List.append_assoc]⟩

theorem items (h : ChansFreed d e) : e.items = d.items := by obtain ⟨_, _, _, rfl⟩ := h; rfl

theorem entries (h : ChansFreed d e) : d.rst.entries <+: e.rst.entries := by
  obtain ⟨_, x, _, rfl⟩ := h
  exact List.prefix_append _ x

end ChansFreed

section
variable {d : Dev} (hi : d.items = [])
include hi

/-- With no item left, a channel leaves its summary and is freed. -/
theorem resetChan_empty {slot : Nat} {c : Chan} (flr : Nat) (h : aGet d.chans slot = some c) : resetChan flr slot d =
    freeIdx 1 c.index c.gen { d with
      rst := { d.rst with entries := d.rst.entries ++ [channelSummary slot c (flr % 256) 0] }, chans := aDel d.chans slot } := by
  unfold resetChan
  simp only [h, hi, List.filter_nil, List.map_nil, sortByKey, List.foldr_nil, List.foldl_nil, List.length_nil]

theorem resetChan_freed (flr slot : Nat) : ChansFreed d (resetChan flr slot d) := by
  cases h : aGet d.chans slot with
  | none =>
    rw [show resetChan flr slot d = d by unfold resetChan; simp only [h]]
    exact ChansFreed.refl d
  | some c =>
    rw [resetChan_empty hi flr h]
    exact ⟨_, _, _, rfl⟩

theorem foldl_resetChan_freed (flr : Nat) (ks : List Nat) : ChansFreed d (ks.foldl (fun d slot => resetChan flr slot d) d) := by
  induction ks generalizing d with
  | nil => exact ChansFreed.refl d
  | cons k ks ih =>
    have hk := resetChan_freed hi flr k
    exact hk.trans (ih (hk.items.trans hi))

/-- Each channel of the keys that are freed leaves its summary. -/
theorem foldl_resetChan_summary (flr : Nat) {ks : List Nat} {slot : Nat} {c : Chan} (hk : slot ∈ ks) (h : aGet d.chans slot = some c) :
    channelSummary slot c (flr % 256) 0 ∈ (ks.foldl (fun d slot => resetChan flr slot d) d).rst.entries := by
  induction ks generalizing d with
  | nil => exact absurd hk List.not_mem_nil
  | cons k ks ih =>
    have hfreed := resetChan_freed hi flr k
    have hitems := hfreed.items.trans hi
    by_cases hs : slot = k
    · subst hs
      refine (foldl_resetChan_freed hitems flr ks).entries.subset ?_
      rw [resetChan_empty hi flr h]
      exact List.mem_append_right _ List.mem_cons_self
    · refine ih hitems (List.mem_of_ne_of_mem hs hk) ?_
      rw [resetChan_chans, aGet_aDel_other hs, h]

end

/-! ### Tensors (15 Table 15-7) -/

/-- The second device is the first with tensors, mappings and their rows and indices freed. -/
def TensorsFreed (d e : Dev) : Prop := ∃ p ts ms m ix, e = { d with pair := p, tensors := ts, maps := ms, mem := m, idx := ix }

theorem TensorsFreed.trans {d e f : Dev} (h : TensorsFreed d e) (h' : TensorsFreed e f) : TensorsFreed d f := by
  obtain ⟨_, _, _, _, _, rfl⟩ := h
  obtain ⟨_, _, _, _, _, rfl⟩ := h'
  exact ⟨_, _, _, _, _, rfl⟩

/-- The device without a tensor and its mappings, before its rows and its index are freed. -/
def tensorTaken (i : Nat) (t : Tensor) (d : Dev) : Dev :=
  dropObjErrs 0 i { noteChange (mkHandle 2 t.gen i) d with tensors := aDel d.tensors i, maps := d.maps.filter (fun x => x.tensor != i) }

theorem removeTensor_eq {i : Nat} {t : Tensor} {d : Dev} (h : aGet d.tensors i = some t) :
    removeTensor i d = freeIdx 2 i t.gen (sweepRegions (tensorTaken i t d)) := by
  unfold removeTensor
  simp only [h]
  rfl

/-- A tensor that is removed leaves with its mappings and its rows. -/
theorem removeTensor_freed (i : Nat) (d : Dev) : TensorsFreed d (removeTensor i d) ∧ (removeTensor i d).tensors = aDel d.tensors i ∧
    (d.maps = [] → (removeTensor i d).maps = []) := by
  cases h : aGet d.tensors i with
  | none =>
    rw [show removeTensor i d = d by unfold removeTensor; simp only [h]]
    exact ⟨⟨_, _, _, _, _, rfl⟩, (aDel_of_absent h).symm, id⟩
  | some t =>
    have htaken : TensorsFreed d (tensorTaken i t d) := ⟨_, _, _, _, _, rfl⟩
    have hswept : TensorsFreed (tensorTaken i t d) (sweepRegions (tensorTaken i t d)) := ⟨_, _, _, _, _, rfl⟩
    have hfreed : ∀ e : Dev, TensorsFreed e (freeIdx 2 i t.gen e) := fun e => ⟨_, _, _, _, _, rfl⟩
    rw [removeTensor_eq h]
    exact ⟨htaken.trans (hswept.trans (hfreed _)), rfl, fun hm => congrArg (List.filter _) hm⟩

theorem foldl_removeTensor_freed (ks : List Nat) (d : Dev) (hm : d.maps = []) :
    TensorsFreed d (ks.foldl (fun d i => removeTensor i d) d) ∧ (ks.foldl (fun d i => removeTensor i d) d).tensors = ks.foldl aDel d.tensors ∧
    (ks.foldl (fun d i => removeTensor i d) d).maps = [] := by
  induction ks generalizing d with
  | nil => exact ⟨⟨_, _, _, _, _, rfl⟩, rfl, hm⟩
  | cons k ks ih =>
    obtain ⟨hk, htensors, hmaps⟩ := removeTensor_freed k d
    obtain ⟨hks, htensors', hmaps'⟩ := ih (removeTensor k d) (hmaps hm)
    rw [List.foldl_cons, List.foldl_cons]
    exact ⟨hk.trans hks, htensors'.trans (by rw [htensors]), hmaps'⟩

/-- A tensor that the reset keeps. -/
def KeptByReset (t : Tensor) : Prop := t.retain = true ∨ tSecured t = true

/-- The keys of the tensors that the reset destroys. -/
def tensorsGone (d : Dev) : List Nat :=
  (d.tensors.map (·.1)).filter (fun i => (aGet d.tensors i).any (fun t => !t.retain && !tSecured t))

theorem mem_tensorsGone {d : Dev} {i : Nat} {t : Tensor} (h : aGet d.tensors i = some t) : i ∈ tensorsGone d ↔ ¬ KeptByReset t := by
  simp [tensorsGone, List.mem_filter, h, KeptByReset, mem_keys_of_aGet h]

theorem dropTensors_spec (d : Dev) : TensorsFreed d (dropTensors d) ∧ (dropTensors d).maps = [] ∧
    (∀ i t, aGet (dropTensors d).tensors i = some t ↔ aGet d.tensors i = some t ∧ KeptByReset t) := by
  obtain ⟨⟨p, ts, ms, m, ix, hfreed⟩, htensors, hmaps⟩ := foldl_removeTensor_freed (tensorsGone d) { d with maps := [] } rfl
  have htensors' : (dropTensors d).tensors = (tensorsGone d).foldl aDel d.tensors := htensors
  refine ⟨⟨p, ts, ms, m, ix, hfreed⟩, hmaps, fun i t => ?_⟩
  rw [htensors']
  by_cases hi : i ∈ tensorsGone d
  · rw [aGet_foldl_aDel_gone hi]
    exact ⟨fun h => absurd h (by simp), fun h => absurd h.2 ((mem_tensorsGone h.1).mp hi)⟩
  · rw [aGet_foldl_aDel hi]
    exact ⟨fun h => ⟨h, not_not.mp fun hk => hi ((mem_tensorsGone h).mpr hk)⟩, And.left⟩

/-! ### The rest of the reset -/

/-- A record of information about no unit signals nothing of PF0. -/
theorem logRec_info {r : RasRec} (hs : r.sev = 15) (hf : r.flags.getLsbD 1 = false) (d : Dev) :
    ∃ x p y, logRec r d = { d with ras := x, pf1 := p, out := y } := by
  have he : escalated d r = (15, false) := by simp [escalated, hs]
  unfold logRec
  simp only [he, hf, show (15 == 1 || 15 == 4 || false) = false from rfl, Bool.false_eq_true, if_false, Bool.false_and]
  split
  · obtain ⟨p, y, h⟩ := fire1_frame _ _
    rw [h]
    exact ⟨_, _, _, rfl⟩
  · exact ⟨_, _, _, rfl⟩

theorem logWhenRuns_info {r : RasRec} (hs : r.sev = 15) (hf : r.flags.getLsbD 1 = false) (d : Dev) :
    ∃ x p y, logWhenRuns r d = { d with ras := x, pf1 := p, out := y } := by
  unfold logWhenRuns
  split
  · exact logRec_info hs hf d
  · split
    · exact ⟨_, _, _, rfl⟩
    · exact ⟨_, _, _, rfl⟩

theorem castVote_frame (d : Dev) : ∃ v st x p q y, castVote d = { d with vote := v, step := st, ras := x, pf0 := p, pf1 := q, out := y } := by
  unfold castVote
  split
  · exact ⟨_, _, _, _, _, _, rfl⟩
  · dsimp only
    split
    · obtain ⟨x, p, q, y, h⟩ := logRec_frame (ofModule d d.pair.partner { sev := 3, cls := 0x605, step := d.step.num }) d
      rw [h]
      exact ⟨_, _, _, _, _, _, rfl⟩
    · exact ⟨_, _, _, _, _, _, rfl⟩

/-- The device whose channels are freed. -/
def chansReset (d : Dev) : Dev := (d.chans.map (·.1)).foldl (fun e slot => resetChan d.rst.flrs slot e) (resetMailboxes d)

/-- The module's vote is cast and its changes are ferried, where tides run. -/
def votedAndFerried (d : Dev) : Dev := if d.tide.run then ferryChanges (castVote d) else d

/-- PF0's configuration at reset, with the record of the reset. -/
def pf0Cleared (d : Dev) : Dev := logWhenRuns { sev := 15, cls := 0x0801 } { d with pf0 := {} }

/-- The reset block after the reset; the ledger is complete where no held item owes its entry. -/
def resetEnded (d : Dev) : Dev :=
  let d := { d with rst := { d.rst with inProgress := false, applied := d.tide.run, pending := d.tide.run } }
  if d.items.any (fun i => i.2.resetFlr.isSome) then d else ledgerComplete d

/-- A reset of PF1 that the host link's loss left pending. -/
def pf1Ended (d : Dev) : Dev := if d.rst.pf1Pending then resetPf1 { d with rst := { d.rst with pf1Pending := false } } else d

theorem applyReset_eq (d : Dev) : applyReset d = pf1Ended (resetEnded (pf0Cleared (votedAndFerried (dropTensors (unplan (chansReset d)))))) := by
  unfold applyReset pf1Ended resetEnded pf0Cleared votedAndFerried chansReset
  with_reducible rfl

theorem votedAndFerried_frame (d : Dev) : ∃ v st x p q y pr l,
    votedAndFerried d = { d with vote := v, step := st, ras := x, pf0 := p, pf1 := q, out := y, pair := pr, lnk := l } := by
  unfold votedAndFerried
  split
  · obtain ⟨e, ⟨_, _, _, _, _, he⟩, hf⟩ := Ferries.ferryChanges (castVote d)
    obtain ⟨v, st, x, p, q, y', hv⟩ := castVote_frame d
    rw [hf, he, hv]
    exact ⟨_, _, _, _, _, _, _, _, rfl⟩
  · exact ⟨_, _, _, _, _, _, _, _, rfl⟩

theorem pf0Cleared_frame (d : Dev) : ∃ x q y, pf0Cleared d = { d with pf0 := {}, ras := x, pf1 := q, out := y } := logWhenRuns_info rfl rfl _

theorem resetEnded_frame (d : Dev) : ∃ c q y, resetEnded d = { d with
    rst := { d.rst with inProgress := false, applied := d.tide.run, pending := d.tide.run, complete := c }, pf1 := q, out := y } := by
  unfold resetEnded
  dsimp only
  split
  · exact ⟨_, _, _, rfl⟩
  · unfold ledgerComplete
    dsimp only
    split
    · obtain ⟨q, y, h⟩ := fire1_frame _ _
      rw [h]
      exact ⟨_, _, _, rfl⟩
    · exact ⟨_, _, _, rfl⟩

theorem pf1Ended_frame (d : Dev) : ∃ b e v x q y z m, pf1Ended d = { d with
    rst := { d.rst with pf1Pending := b, enable := e, vector := v }, ras := x, pf1 := q, out := y, frz := z, mem := m } := by
  unfold pf1Ended
  split
  · obtain ⟨x, q, y, h⟩ := logWhenRuns_info (r := { sev := 15, cls := 0x0802 }) rfl rfl
      (pf1Cleared { d with rst := { d.rst with pf1Pending := false } })
    rw [resetPf1_eq, h]
    exact ⟨_, _, _, _, _, _, _, _, rfl⟩
  · exact ⟨_, _, _, _, _, _, _, _, rfl⟩

/-- What follows the freed tensors keeps channels, tensors, mappings, mailboxes and host memory, and adds nothing to the ledger. -/
structure ResetTail (d e : Dev) : Prop where
  chans : e.chans = d.chans
  maps : e.maps = d.maps
  tensors : e.tensors = d.tensors
  mbx : e.mbx = d.mbx
  host : e.host = d.host
  count : e.tide.count = d.tide.count
  programs : e.programs = d.programs
  groups : e.groups = d.groups
  entries : e.rst.entries = d.rst.entries
  pf0 : e.pf0 = {}
  ended : e.rst.inProgress = false

theorem resetTail (d : Dev) : ResetTail d (pf1Ended (resetEnded (pf0Cleared (votedAndFerried d)))) := by
  obtain ⟨_, _, _, _, _, _, _, _, hpf1⟩ := pf1Ended_frame (resetEnded (pf0Cleared (votedAndFerried d)))
  obtain ⟨_, _, _, hend⟩ := resetEnded_frame (pf0Cleared (votedAndFerried d))
  obtain ⟨_, _, _, hpf0⟩ := pf0Cleared_frame (votedAndFerried d)
  obtain ⟨_, _, _, _, _, _, _, _, hvoted⟩ := votedAndFerried_frame d
  rw [hpf1, hend, hpf0, hvoted]
  exact ⟨rfl, rfl, rfl, rfl, rfl, rfl, rfl, rfl, rfl, rfl, rfl⟩

theorem chansReset_chans (d : Dev) : (chansReset d).chans = [] := (foldl_resetChan_chans ..).trans (foldl_aDel_keys d.chans)

/-- Every mailbox is IDLE with an empty response. -/
theorem mbx_resetMailboxes (m : Nat) (d : Dev) : (mbx (resetMailboxes d) m).state = 0 ∧ (mbx (resetMailboxes d) m).rsp = [] := by
  have hbox : mbx (resetMailboxes d) m = ((aGet d.mbx m).map (fun b => { b with state := 0, tag := 0, rsp := [], cmd := [], order := 0 })).getD {} := by
    unfold mbx resetMailboxes
    rw [aGet_aMap]
  rw [hbox]
  cases aGet d.mbx m with
  | none => exact ⟨rfl, rfl⟩
  | some b => exact ⟨rfl, rfl⟩

section
variable {d : Dev} (hi : d.items = [])
include hi

theorem chansReset_freed : ChansFreed (resetMailboxes d) (chansReset d) := foldl_resetChan_freed (d := resetMailboxes d) hi _ _

theorem chansReset_summary {slot : Nat} {c : Chan} (h : aGet d.chans slot = some c) :
    channelSummary slot c (d.rst.flrs % 256) 0 ∈ (chansReset d).rst.entries :=
  foldl_resetChan_summary (d := resetMailboxes d) hi _ (mem_keys_of_aGet h) h

end

/-- The pending reset is due: the first slack after the request, or no tide at all. -/
theorem exec_flrPf0Apply {s : State} (hc : clocksRun s.dev = true) (hp : s.dev.rst.pending = true) (ha : s.dev.rst.applied = false)
    (hd : s.dev.tide.run = false ∨ (s.dev.tide.phase = .slack ∧ s.dev.rst.skipSlack = false)) :
    exec .flrPf0Apply s = .next { s with dev := applyReset s.dev } :=
  eff_eq_dev (if_pos (by rcases hd with hd | ⟨hd, hk⟩ <;> simp [*]))

/-- Settles O44: the channels go one after another, then the tensors that are not kept; what follows touches neither. -/
theorem resetFreesTheHostsObjects : Obligations.ResetFreesTheHostsObjects := by
  intro s hc hp ha hd
  refine ⟨_, exec_flrPf0Apply hc hp ha hd, ?_⟩
  generalize s.dev = d
  rw [applyReset_eq]
  obtain ⟨⟨p, ts, ms, m, ix, hfreed⟩, hmaps, htensors⟩ := dropTensors_spec (unplan (chansReset d))
  have htail := resetTail (dropTensors (unplan (chansReset d)))
  generalize pf1Ended (resetEnded (pf0Cleared (votedAndFerried (dropTensors (unplan (chansReset d)))))) = e at htail
  refine ⟨htail.chans.trans ?chans, htail.maps.trans hmaps, htail.pf0, htail.ended, fun i t h => ?kept, fun hi => ?_⟩
  case chans =>
    rw [hfreed]
    exact chansReset_chans d
  case kept =>
    rw [htail.tensors] at h
    exact ((htensors i t).mp h).2
  obtain ⟨cs, x, ix', hchans⟩ := chansReset_freed hi
  have hentries : e.rst.entries = (chansReset d).rst.entries := by rw [htail.entries, hfreed]; rfl
  refine ⟨fun i t h hk => ?_, fun m => ?_, ?_, ?_, ?_, ?_, ?_, fun slot c h => ?_⟩
  · rw [htail.tensors]
    refine (htensors i t).mpr ⟨?_, hk⟩
    rw [hchans]
    exact h
  · have hm := mbx_resetMailboxes m d
    unfold mbx at hm ⊢
    rwa [htail.mbx, hfreed, hchans]
  · rw [htail.host, hfreed, hchans]
    rfl
  · rw [htail.count, hfreed, hchans]
    rfl
  · rw [htail.programs, hfreed, hchans]
    rfl
  · rw [htail.groups, hfreed, hchans]
    rfl
  · rw [hentries, hchans]
    exact List.prefix_append _ x
  · rw [hentries]
    exact chansReset_summary hi h

end Sys2Proof.Proofs
end

section
/-! The unit commands (14 Table 14-12). -/
namespace Sys2Proof.Proofs
open Sys2Proof Sys2Proof.Machine Sys2Proof.Laws

/-! ### Tickets (14 R486, R489) -/

/-- The device that has issued a ticket. -/
def ticketed (t : Ticket) (d : Dev) : Dev := { d with units := { d.units with
  nextTicket := d.units.nextTicket + 1
  tickets := d.units.tickets.filter (fun x => decide (d.units.nextTicket < x.id + 256)) ++ [{ t with id := d.units.nextTicket }] } }

theorem newTicket_eq (t : Ticket) (d : Dev) : newTicket t d = .ok (ticketed t d) (toLe 4 d.units.nextTicket) := rfl

/-- Fewer than eight tickets run. -/
def TicketRoom (d : Dev) : Prop := (d.units.tickets.filter (fun t => t.state == 0)).length < 8

theorem ticketRoom_iff {d : Dev} : ¬ 8 ≤ runningTickets d ↔ TicketRoom d := Nat.not_le

theorem ticketRoom_full {d : Dev} (h : ¬ TicketRoom d) : 8 ≤ runningTickets d := Nat.le_of_not_lt h

section
variable {s : State} {m : Nat}

theorem kindOk_iff {k : Nat} : kindOk k = true ↔ 1 ≤ k ∧ k ≤ 6 := by simp [kindOk]

/-- The kind and the identity that a unit command names. -/
def unitKindOf (d : Dev) (m : Nat) : Nat := fieldLe (request d m) 16 1
def unitIdOf (d : Dev) (m : Nat) : Nat := fieldLe (request d m) 20 4

theorem unitCommand_badKind (hk : ¬ (1 ≤ unitKindOf s.dev m ∧ unitKindOf s.dev m ≤ 6)) {x : Instr} {op : Nat}
    (hx : (x, op) ∈ [(Instr.unitQuery m, 0x0F01), (.unitTest m, 0x0F03), (.unitRetire m, 0x0F04)]) (ha : Asks s.dev m op) :
    exec x s = .next (s.refused m rBadField 16) := by
  have hbad : (!kindOk (unitKindOf s.dev m)) = true := by
    rw [Bool.not_eq_true', Bool.eq_false_iff]
    exact mt kindOk_iff.mp hk
  simp only [List.mem_cons, Prod.mk.injEq, List.not_mem_nil, or_false] at hx
  rcases hx with ⟨rfl, rfl⟩ | ⟨rfl, rfl⟩ | ⟨rfl, rfl⟩
  · exact eff_mbxRow_no ha (if_pos hbad)
  · exact eff_mbxRow_no ha (if_pos hbad)
  · exact eff_mbxRow_no ha (if_pos hbad)

section
variable (hk : 1 ≤ unitKindOf s.dev m ∧ unitKindOf s.dev m ≤ 6)
include hk

theorem unitKind_known : ¬(!kindOk (unitKindOf s.dev m)) = true := by simp [kindOk_iff.mpr hk]

/-! ### UNIT_QUERY -/

theorem exec_unitQuery_ok (ha : Asks s.dev m 0x0F01) {v : Nat × Nat × Nat × Nat × Bool}
    (h : unitView s.fuses s.dev (unitKindOf s.dev m) (unitIdOf s.dev m) = some v) : exec (.unitQuery m) s = .next (s.answered m
      (toLe 4 v.1 ++ toLe 1 v.2.1 ++ toLe 1 v.2.2.1 ++ toLe 2 v.2.2.2.1 ++ toLe 1 (b2n v.2.2.2.2) ++ zeros 7) s.dev) := by
  refine eff_mbxRow_ok ha ((if_neg (unitKind_known hk)).trans ?_)
  simp only [unitKindOf, unitIdOf] at h
  simp only [h]

theorem exec_unitQuery_unknown (ha : Asks s.dev m 0x0F01) (h : unitView s.fuses s.dev (unitKindOf s.dev m) (unitIdOf s.dev m) = none) :
    exec (.unitQuery m) s = .next (s.refused m rBadField 20) := by
  refine eff_mbxRow_no ha ((if_neg (unitKind_known hk)).trans ?_)
  simp only [unitKindOf, unitIdOf] at h
  simp only [h]

/-! ### UNIT_TEST and UNIT_RETIRE -/

theorem exec_unitTest_badTest (ha : Asks s.dev m 0x0F03) (h : ¬ (1 ≤ fieldLe (request s.dev m) 17 1 ∧ fieldLe (request s.dev m) 17 1 ≤ 3)) :
    exec (.unitTest m) s = .next (s.refused m rBadField 17) :=
  eff_mbxRow_no ha ((if_neg (unitKind_known hk)).trans (if_pos (by omega)))

/-- Both commands come to the row of the unit. -/
theorem unitCommand_row {x : Instr} {op : Nat} {retire : Bool}
    (hx : (x, op, retire) ∈ [(Instr.unitTest m, 0x0F03, false), (.unitRetire m, 0x0F04, true)])
    (ht : retire = false → 1 ≤ fieldLe (request s.dev m) 17 1 ∧ fieldLe (request s.dev m) 17 1 ≤ 3) :
    ∃ f, exec x s = eff (mbxRow m op f) s ∧ f s.dev (request s.dev m) = Machine.unitRow s.dev op (unitKindOf s.dev m) (unitIdOf s.dev m) retire := by
  simp only [List.mem_cons, Prod.mk.injEq, List.not_mem_nil, or_false] at hx
  rcases hx with ⟨rfl, rfl, rfl⟩ | ⟨rfl, rfl, rfl⟩
  · have htest : ¬(fieldLe (request s.dev m) 17 1 = 0 ∨ 3 < fieldLe (request s.dev m) 17 1) := by
      have hrange := ht rfl
      omega
    exact ⟨_, rfl, (if_neg (unitKind_known hk)).trans (if_neg htest)⟩
  · exact ⟨_, rfl, if_neg (unitKind_known hk)⟩

end

section
variable {d : Dev} {op kind phys : Nat} {retire : Bool}

theorem unitTicket_unknown (h : unitUse d kind phys = none) : Machine.unitRow d op kind phys retire =
    if kind = 5 ∧ bitOf phys 8 = true then .no rNotAllowed (Config.noField op rNotAllowed) else .no rBadField 20 := by
  unfold Machine.unitRow
  simp only [h]

section
variable {serving holm : Bool}

theorem unitTicket_out (h : unitUse d kind phys = some (serving, holm, true)) :
    Machine.unitRow d op kind phys retire = .no rNotAllowed (Config.noField op rNotAllowed) := by
  unfold Machine.unitRow
  simp only [h, if_true]

variable (h : unitUse d kind phys = some (serving, holm, false))
include h

theorem unitTicket_busy (hb : isTesting d kind phys = true ∨ (serving = true ∧ holm = false)) :
    Machine.unitRow d op kind phys retire = .no rInUse (Config.noField op rInUse) := by
  have hbusy : (isTesting d kind phys || (serving && !holm)) = true := by simpa using hb
  unfold Machine.unitRow
  simp only [h, Bool.false_eq_true, if_false, hbusy, if_true]

variable (hb : ¬ (isTesting d kind phys = true ∨ (serving = true ∧ holm = false)))
include hb

omit h in
theorem unit_idle : (isTesting d kind phys || (serving && !holm)) = false := by
  rw [Bool.eq_false_iff]
  simpa using hb

theorem unitTicket_full (hr : ¬ TicketRoom d) : Machine.unitRow d op kind phys retire = .no rNoRoom (Config.noField op rNoRoom) := by
  unfold Machine.unitRow
  simp only [h, unit_idle hb, Bool.false_eq_true, if_false, if_pos (ticketRoom_full hr)]

theorem unitTicket_ok (hr : TicketRoom d) : Machine.unitRow d op kind phys retire =
    newTicket { kind := kind, phys := BitVec.ofNat 32 phys, retire := retire }
    { d with units := { d.units with testing := d.units.testing ++ [(kind, BitVec.ofNat 32 phys)] } } := by
  unfold Machine.unitRow
  simp only [h, unit_idle hb, Bool.false_eq_true, if_false, if_neg (ticketRoom_iff.mpr hr)]

end

end

/-! ### MD_TEST, STACK_TEST and STACK_RETURN (14 R487, R488) -/

/-- A stack is lost or tested, or a memory die is tested. -/
def memoryBusy (d : Dev) : Bool := d.mem.hbm.any (fun x => x.lost || x.testing) || mdTesting d

/-- A tensor has no parity to be formed again from. -/
def memoryBare (d : Dev) : Bool := d.tensors.any (fun t => !t.2.parity)

section
variable {d : Dev} {op : Nat}

theorem dieTestBad_busy (h : memoryBusy d = true) : dieTestBad d op = some (.no rInUse (Config.noField op rInUse)) := if_pos h

variable (h : memoryBusy d = false)
include h

theorem dieTestBad_bare (hb : memoryBare d = true) : dieTestBad d op = some (.no rNotAllowed (Config.noField op rNotAllowed)) :=
  (if_neg (ne_true_of_eq_false h)).trans (if_pos hb)

variable (hb : memoryBare d = false)
include hb

theorem dieTestBad_full (hr : ¬ TicketRoom d) : dieTestBad d op = some (.no rNoRoom (Config.noField op rNoRoom)) :=
  (if_neg (ne_true_of_eq_false h)).trans ((if_neg (ne_true_of_eq_false hb)).trans (if_pos (ticketRoom_full hr)))

theorem dieTestBad_none (hr : TicketRoom d) : dieTestBad d op = none :=
  (if_neg (ne_true_of_eq_false h)).trans ((if_neg (ne_true_of_eq_false hb)).trans (if_neg (ticketRoom_iff.mpr hr)))

end

/-- The device whose stack is off for its test, its regions ordered off it. -/
def stackTested (k : Nat) (d : Dev) : Dev :=
  let e := onStack k (fun x => { x with testing := true, state := 1, passed := false }) d
  { e with mem := { e.mem with restripes := restripeOrder e (restripable e k) } }

section
variable {x : Instr} {op count : Nat} (hx : (x, op, count) ∈ [(Instr.mdTest m, 0x0F07, 6), (.stackTest m, 0x0F08, 24)]) (ha : Asks s.dev m op)
include hx ha

theorem exec_dieTest_unknown (h : count ≤ unitKindOf s.dev m) : exec x s = .next (s.refused m rBadField 16) := by
  simp only [List.mem_cons, Prod.mk.injEq, List.not_mem_nil, or_false] at hx
  rcases hx with ⟨rfl, rfl, rfl⟩ | ⟨rfl, rfl, rfl⟩
  · exact eff_mbxRow_no ha (if_pos h)
  · exact eff_mbxRow_no ha (if_pos h)

variable (hk : unitKindOf s.dev m < count)
include hk

theorem exec_dieTest_no {r o : Nat} (h : dieTestBad s.dev op = some (.no r o)) : exec x s = .next (s.refused m r o) := by
  simp only [List.mem_cons, Prod.mk.injEq, List.not_mem_nil, or_false] at hx
  rcases hx with ⟨rfl, rfl, rfl⟩ | ⟨rfl, rfl, rfl⟩
  · exact eff_mbxRow_no ha ((if_neg (Nat.not_le.mpr hk)).trans (by simp only [h]))
  · exact eff_mbxRow_no ha ((if_neg (Nat.not_le.mpr hk)).trans (by simp only [h]))

end

theorem exec_mdTest_ok (ha : Asks s.dev m 0x0F07) (hk : unitKindOf s.dev m < 6) (h : dieTestBad s.dev 0x0F07 = none) :
    exec (.mdTest m) s = .next (s.answered m (toLe 4 s.dev.units.nextTicket)
      (ticketed { kind := 8, phys := BitVec.ofNat 32 (unitKindOf s.dev m), md := some (unitKindOf s.dev m) } s.dev)) :=
  eff_mbxRow_ok ha ((if_neg (Nat.not_le.mpr hk)).trans (by simp only [h]; rfl))

theorem exec_stackTest_ok (ha : Asks s.dev m 0x0F08) (hk : unitKindOf s.dev m < 24) (h : dieTestBad s.dev 0x0F08 = none) :
    exec (.stackTest m) s = .next (s.answered m (toLe 4 s.dev.units.nextTicket)
      (ticketed { kind := 7, phys := BitVec.ofNat 32 (unitKindOf s.dev m), stack := some (unitKindOf s.dev m) }
        (stackTested (unitKindOf s.dev m) s.dev))) :=
  eff_mbxRow_ok ha ((if_neg (Nat.not_le.mpr hk)).trans (by simp only [h]; rfl))

section
variable (ha : Asks s.dev m 0x0F09)
include ha

theorem exec_stackReturn_unknown (h : 24 ≤ unitKindOf s.dev m) : exec (.stackReturn m) s = .next (s.refused m rBadField 16) :=
  eff_mbxRow_no ha (if_pos h)

/-- The stack's test has passed. -/
def StackPassed (d : Dev) (k : Nat) : Prop := (stack d k).testing = true ∧ (stack d k).passed = true

omit ha in
theorem stackPassed_iff {d : Dev} {k : Nat} : ¬(!(stack d k).testing || !(stack d k).passed) = true ↔ StackPassed d k := by simp [StackPassed]

variable (hk : unitKindOf s.dev m < 24)
include hk

theorem exec_stackReturn_untested (h : ¬ StackPassed s.dev (unitKindOf s.dev m)) : exec (.stackReturn m) s = .next (s.refused m rNotAllowed 16) :=
  eff_mbxRow_no ha ((if_neg (Nat.not_le.mpr hk)).trans (if_pos (not_not.mp (mt stackPassed_iff.mp h))))

variable (h : StackPassed s.dev (unitKindOf s.dev m))
include h

theorem exec_stackReturn_full (hr : ¬ TicketRoom s.dev) :
    exec (.stackReturn m) s = .next (s.refused m rNoRoom (Config.noField 0x0F09 rNoRoom)) :=
  eff_mbxRow_no ha ((if_neg (Nat.not_le.mpr hk)).trans ((if_neg (stackPassed_iff.mpr h)).trans (if_pos (ticketRoom_full hr))))

theorem exec_stackReturn_ok (hr : TicketRoom s.dev) : exec (.stackReturn m) s =
    (let k := unitKindOf s.dev m
     .next (s.answered m (toLe 4 s.dev.units.nextTicket) (ticketed { kind := 7, phys := BitVec.ofNat 32 k, stack := some k, retire := true }
      { s.dev with mem := { s.dev.mem with
          returning := addNew s.dev.mem.returning k
          restripes := restripeOrder s.dev ((s.dev.mem.regions.filter (fun r => r.2.parity && !r.2.onStacks.contains k)).map (·.1)) } }))) :=
  eff_mbxRow_ok ha ((if_neg (Nat.not_le.mpr hk)).trans ((if_neg (stackPassed_iff.mpr h)).trans (if_neg (ticketRoom_iff.mpr hr))))

end

/-! ### TEST_QUERY and LANE_MOVE -/

theorem exec_testQuery_ok {t : Ticket} (h : s.dev.units.tickets.find? (fun t => t.id == fieldLe (request s.dev m) 16 4) = some t)
    (ha : Asks s.dev m 0x0F05) : exec (.testQuery m) s = .next (s.answered m
      (toLe 1 t.state ++ zeros 7 ++ toLe 8 t.res.logicAct.toNat ++ toLe 8 t.res.logicExp.toNat ++ toLe 8 t.res.memAct.toNat
        ++ toLe 8 t.res.memExp.toNat ++ toLe 4 t.res.failCount ++ toLe 4 t.res.firstFail) s.dev) :=
  eff_mbxRow_ok ha (by simp only [h])

theorem exec_testQuery_unknown (h : s.dev.units.tickets.find? (fun t => t.id == fieldLe (request s.dev m) 16 4) = none)
    (ha : Asks s.dev m 0x0F05) : exec (.testQuery m) s = .next (s.refused m rBadField 16) := eff_mbxRow_no ha (by simp only [h])

section
variable (ha : Asks s.dev m 0x0F06)
include ha

theorem exec_laneMove_badStrait (h : 6 ≤ fieldLe (request s.dev m) 16 1) : exec (.laneMove m) s = .next (s.refused m rBadField 16) :=
  eff_mbxRow_no ha (if_pos h)

variable (hst : fieldLe (request s.dev m) 16 1 < 6)
include hst

theorem exec_laneMove_badLink (h : 4 ≤ fieldLe (request s.dev m) 17 1) : exec (.laneMove m) s = .next (s.refused m rBadField 17) :=
  eff_mbxRow_no ha ((if_neg (Nat.not_le.mpr hst)).trans (if_pos h))

variable (hln : fieldLe (request s.dev m) 17 1 < 4)
include hln

theorem exec_laneMove_badPosition (h : 16 ≤ fieldLe (request s.dev m) 18 1) : exec (.laneMove m) s = .next (s.refused m rBadField 18) :=
  eff_mbxRow_no ha ((if_neg (Nat.not_le.mpr hst)).trans ((if_neg (Nat.not_le.mpr hln)).trans (if_pos h)))

variable (hpos : fieldLe (request s.dev m) 18 1 < 16)
include hpos

theorem exec_laneMove_notAllowed (h : (linkOf s.dev (fieldLe (request s.dev m) 16 1) (fieldLe (request s.dev m) 17 1)).state ≠ 7 ∨
    holmLanes (linkOf s.dev (fieldLe (request s.dev m) 16 1) (fieldLe (request s.dev m) 17 1)) = []) :
    exec (.laneMove m) s = .next (s.refused m rNotAllowed (Config.noField 0x0F06 rNotAllowed)) :=
  eff_mbxRow_no ha ((if_neg (Nat.not_le.mpr hst)).trans ((if_neg (Nat.not_le.mpr hln)).trans ((if_neg (Nat.not_le.mpr hpos)).trans
    (if_pos (h.imp_right List.isEmpty_iff.mpr)))))

theorem exec_laneMove_ok (h7 : (linkOf s.dev (fieldLe (request s.dev m) 16 1) (fieldLe (request s.dev m) 17 1)).state = 7)
    (hh : holmLanes (linkOf s.dev (fieldLe (request s.dev m) 16 1) (fieldLe (request s.dev m) 17 1)) ≠ []) :
    exec (.laneMove m) s = .next (s.answered m []
      (moveLane (fieldLe (request s.dev m) 16 1) (fieldLe (request s.dev m) 17 1) (fieldLe (request s.dev m) 18 1) s.dev)) :=
  eff_mbxRow_ok ha ((if_neg (Nat.not_le.mpr hst)).trans ((if_neg (Nat.not_le.mpr hln)).trans ((if_neg (Nat.not_le.mpr hpos)).trans
    (if_neg fun h => h.elim (· h7) fun he => hh (List.isEmpty_iff.mp he)))))

end

/-! ### The repair log (14 R477) -/

theorem exec_repairLogClear_ok (ha : Asks s.dev m 0x0F0B) (hd : s.fuses.deployed = false) (hr : s.fuses.returned = false) :
    exec (.repairLogClear m) s = .next (s.answered m [] { s.dev with flash := { s.dev.flash with log := [] } }) :=
  eff_mbxRow_ok ha (if_pos (by rw [manufacturing, hd, hr]; rfl))

theorem exec_repairLogClear_no (ha : Asks s.dev m 0x0F0B) (h : s.fuses.deployed = true ∨ s.fuses.returned = true) :
    exec (.repairLogClear m) s = .next (s.refused m rNotAllowed (Config.noField 0x0F0B rNotAllowed)) :=
  eff_mbxRow_no ha (if_neg (by rcases h with h | h <;> simp [manufacturing, h]))

end

/-- Settles O32: each clause is one case of a unit command; the tests and the retirement share what they come to (`Machine.unitRow`, `dieTestBad`). -/
theorem unitCommandsAnswer : Obligations.UnitCommandsAnswer := by
  intro s m d c f kind phys no free' ticket room known marked
  refine ⟨fun hk x op hx ha => unitCommand_badKind hk hx ha, fun ha hk v h => exec_unitQuery_ok hk ha h,
    fun ha hk h => exec_unitQuery_unknown hk ha h, fun ha h => eff_mbxRow_ok ha (if_neg (Nat.not_le.mpr h)),
    fun ha h => eff_mbxRow_no ha (if_pos h), fun ha hk h => exec_unitTest_badTest hk ha h,
    fun hk x op retire hx ha ht => ?unit, fun t h ha => exec_testQuery_ok h ha, exec_testQuery_unknown,
    fun ha => ⟨exec_laneMove_badStrait ha, exec_laneMove_badLink ha, exec_laneMove_badPosition ha, exec_laneMove_notAllowed ha,
      exec_laneMove_ok ha⟩,
    fun x op count hx ha => ⟨exec_dieTest_unknown hx ha, fun hk h => exec_dieTest_no hx ha hk (dieTestBad_busy h),
      fun hk h hb => exec_dieTest_no hx ha hk (dieTestBad_bare h hb), fun hk h hb hr => exec_dieTest_no hx ha hk (dieTestBad_full h hb hr),
      fun hk h hb hr => ?die⟩,
    fun ha => ⟨exec_stackReturn_unknown ha, exec_stackReturn_untested ha, exec_stackReturn_full ha, exec_stackReturn_ok ha⟩,
    fun ha h => eff_mbxRow_no ha (if_pos h), fun ha h => eff_mbxRow_ok ha (if_neg (Nat.not_lt.mpr h)),
    exec_repairLogClear_ok, exec_repairLogClear_no⟩
  case unit =>
    obtain ⟨g, hexec, hrow⟩ := unitCommand_row hk hx ht
    rw [hexec]
    refine ⟨fun hu => ?unknown, fun serving holm out hu => ⟨fun ho => ?_, fun ho hb => ?_, fun ho hb hr => ?_, fun ho hb hr => ?_⟩⟩
    case unknown =>
      have hbad := hrow.trans (unitTicket_unknown hu)
      split
      case isTrue hc => exact eff_mbxRow_no ha (hbad.trans (if_pos hc))
      case isFalse hc => exact eff_mbxRow_no ha (hbad.trans (if_neg hc))
    all_goals subst ho
    · exact eff_mbxRow_no ha (hrow.trans (unitTicket_out hu))
    · exact eff_mbxRow_no ha (hrow.trans (unitTicket_busy hu hb))
    · exact eff_mbxRow_no ha (hrow.trans (unitTicket_full hu hb hr))
    · exact eff_mbxRow_ok ha (hrow.trans (unitTicket_ok hu hb hr))
  case die =>
    simp only [List.mem_cons, Prod.mk.injEq, List.not_mem_nil, or_false] at hx
    rcases hx with ⟨rfl, rfl, rfl⟩ | ⟨rfl, rfl, rfl⟩
    · exact ⟨fun _ => exec_mdTest_ok ha hk (dieTestBad_none h hb hr), fun hx => Instr.noConfusion hx⟩
    · exact ⟨fun hx => Instr.noConfusion hx, fun _ => exec_stackTest_ok ha hk (dieTestBad_none h hb hr)⟩

end Sys2Proof.Proofs
end

section
/-! Pairing and the ferry packets that arrive (13 R433 to R440). -/
namespace Sys2Proof.Proofs
open Sys2Proof Sys2Proof.Machine Sys2Proof.Laws

/-! ### PAIR and PAIR_REPLY (13 R433, R434) -/

/-- The two modules name each other as partners. -/
def NamesEachOther (d : Dev) (src : Pos) (p : PairPayload) : Prop := d.pair.state = 1 ∧ d.pair.partner = src ∧ p.pos = src

/-- The state that a pairing of modules that name each other settles in. -/
def pairOutcome (d : Dev) (p : PairPayload) : Nat :=
  if p.ownBudget ≠ d.pair.partnerBudget ∨ p.partnerBudget ≠ d.pair.ownBudget then 5
  else if p.feedId ≠ d.tel.feedId then 2 else if p.feedOverride = true ∨ d.pair.feedOverride = true then 3 else 4

section
variable {d : Dev} {src : Pos} {p : PairPayload}

theorem pairVerdict_none (h : d.pair.state ≠ 1 ∨ d.pair.partner ≠ src ∨ p.pos ≠ src) : pairVerdict d src p = none := if_pos h

theorem pairVerdict_some (h : NamesEachOther d src p) : pairVerdict d src p = some (pairOutcome d p) := by
  obtain ⟨h1, h2, h3⟩ := h
  unfold pairVerdict pairOutcome
  rw [if_neg (by simp [h1, h2, h3])]
  split
  · rfl
  · by_cases hf : p.feedId = d.tel.feedId
    · simp only [hf, if_true, not_true_eq_false, if_false, ne_eq, Bool.or_eq_true]
      split <;> rfl
    · simp only [hf, if_false, not_false_eq_true, if_true, ne_eq]

end

section
variable {s : State} {src : Pos} {p : PairPayload}

theorem exec_pairReply_stranger (v : Nat) (h : pairVerdict s.dev src p = none) : exec (.pairReply src p v) s = .next s := by
  refine eff_idle ?_
  unfold pairReplyD
  split
  · rfl
  · simp only [h]

theorem exec_pairReply_zero : exec (.pairReply src p 0) s = .next s := eff_idle (if_pos (Bool.or_true _))

section
variable (hs : serves s.dev = true)
include hs

theorem exec_pair_stranger (h : pairVerdict s.dev src p = none) :
    exec (.pair src p) s = .next (s.onDev (fun d => send (.pairReply src (ownPair d) 0) d)) :=
  eff_eq_onDev ((if_neg (by rw [hs]; decide)).trans (by simp only [h]))

variable {v : Nat} (h : pairVerdict s.dev src p = some v)
include h

theorem exec_pair_settles : exec (.pair src p) s = .next (s.onDev (fun d => pairSettle v p (send (.pairReply src (ownPair d) v) d))) :=
  eff_eq_onDev ((if_neg (by rw [hs]; decide)).trans (by simp only [h]))

theorem exec_pairReply_settles {w : Nat} (hw : w ≠ 0) : exec (.pairReply src p w) s = .next (s.onDev (pairSettle v p)) :=
  eff_eq_onDev ((if_neg (by simp [hs, hw])).trans (by simp only [h]))

end

end

/-- A pairing refused for budgets or feeds frees the lagoon. -/
theorem pairSettle_refused {v : Nat} (h : v = 4 ∨ v = 5) (p : PairPayload) (d : Dev) :
    (pairSettle v p d).pair.state = v ∧ (pairSettle v p d).pair.lagoonRegions = [] ∧ (pairSettle v p d).lagoon = {} := by
  unfold pairSettle
  dsimp only
  rw [if_pos h]
  exact ⟨rfl, rfl, rfl⟩

theorem Ferries.reseedTensor (i : Nat) (t : Tensor) (d : Dev) : Ferries d (reseedTensor i t d) := by
  unfold Machine.reseedTensor
  split
  · dsimp only
    split
    · exact (ferry ..).trans (ferry ..)
    · exact ferry ..
  · exact refl d

/-- A reseed leaves both sides' exposure as it began: this side is exposed, and nothing of its changes is due. -/
theorem Ferries.reseed (d : Dev) : Ferries { d with pair := { d.pair with exposed := true, changes := [] } } (reseed d) :=
  (foldl (fun _ _ => ferryChange ..) _ _).trans ((foldl (fun _ _ => reseedTensor ..) _ _).trans
    ((foldl (fun _ _ => foldl (fun _ _ => ferry ..) _ _) _ _).trans ((foldl (fun _ _ => ferryEntry ..) _ _).trans
      ((foldl (fun _ _ => ferry ..) _ _).trans (ferryEntry ..)))))

/-- A safe pairing begins with a reseed of both sides. -/
theorem pairSettle_safe (p : PairPayload) (d : Dev) :
    (pairSettle 2 p d).pair.state = 2 ∧ (pairSettle 2 p d).pair.exposed = true ∧ (pairSettle 2 p d).pair.partnerExposed = true := by
  unfold pairSettle
  dsimp only
  rw [if_neg (by decide), if_neg (by decide)]
  obtain ⟨n, u, ls, ss, y, h⟩ := Ferries.reseed { d with pair := { d.pair with
    partnerFeed := p.feedId, partnerOverride := p.feedOverride, state := 2, partnerExposed := true
    partnerSerial := serialOf { d with pair := { d.pair with partnerFeed := p.feedId, partnerOverride := p.feedOverride } } d.pair.partner } }
  rw [h]
  exact ⟨rfl, rfl, rfl⟩

/-- What two names of a step's outcome say of the device. -/
theorem next_dev_inj {o : Host.Outcome State Fault Refusal} {s : State} {d e : Dev} (h : o = .next { s with dev := e })
    (h' : o = .next { s with dev := d }) : d = e := by
  injection h'.symm.trans h with h
  injection h

section
variable {s : State} {src : Pos} {p : PairPayload} {d' : Dev} (hs : serves s.dev = true) (hn : NamesEachOther s.dev src p)
  (hd' : exec (.pairReply src p 2) s = .next { s with dev := d' })
include hs hn hd'

theorem pairReply_settled : d' = pairSettle (pairOutcome s.dev p) p s.dev :=
  next_dev_inj (exec_pairReply_settles hs (pairVerdict_some hn) (by decide)) hd'

theorem pairReply_refused (hno : ¬ (p.ownBudget = s.dev.pair.partnerBudget ∧ p.partnerBudget = s.dev.pair.ownBudget)) :
    d'.pair.state = 5 ∧ d'.pair.lagoonRegions = [] ∧ d'.lagoon = {} := by
  have hout : pairOutcome s.dev p = 5 := if_pos (not_and_or.mp hno)
  rw [pairReply_settled hs hn hd', hout]
  exact pairSettle_refused (Or.inr rfl) p s.dev

theorem pairReply_safe (hyes : p.ownBudget = s.dev.pair.partnerBudget ∧ p.partnerBudget = s.dev.pair.ownBudget)
    (hf : p.feedId ≠ s.dev.tel.feedId) : d'.pair.state = 2 ∧ d'.pair.exposed = true ∧ d'.pair.partnerExposed = true := by
  have hout : pairOutcome s.dev p = 2 := (if_neg (not_or.mpr ⟨not_not.mpr hyes.1, not_not.mpr hyes.2⟩)).trans (if_pos hf)
  rw [pairReply_settled hs hn hd', hout]
  exact pairSettle_safe p s.dev

end

/-! ### Ferry packets (13 R437, R440) -/

/-- The module takes ferry packets of `src`. -/
def FerryOpen (d : Dev) (src : Pos) : Prop :=
  clocksRun d = true ∧ src = d.pair.partner ∧ (paired d = true ∨ d.spare.state = 2 ∨ d.spare.state = 3)

section
variable {src : Pos} {h : FerryHeader} {bs : Bytes} {f : Dev → Dev × Bool} {d : Dev}

theorem ferryIn_shut (hd : clocksRun d = false ∨ src ≠ d.pair.partner ∨ (paired d = false ∧ d.spare.state ≠ 2 ∧ d.spare.state ≠ 3)) :
    ferryIn src h bs f d = d := by
  refine if_neg fun hall => ?_
  simp only [Bool.and_eq_true, Bool.or_eq_true, beq_iff_eq] at hall
  obtain ⟨⟨⟨hc, hp⟩, ho⟩, -⟩ := hall
  rcases hd with hd | hd | ⟨h1, h2, h3⟩
  · simp [hc] at hd
  · exact hd hp
  · simp [h1, h2, h3] at ho

theorem ferryIn_bad (hc : h.check ≠ ferryCheck h bs) : ferryIn src h bs f d = d :=
  if_neg (by simp [hc])

section
variable (ho : FerryOpen d src) (hc : h.check = ferryCheck h bs)
include ho hc

theorem ferryIn_open : (clocksRun d && src == d.pair.partner && (paired d || d.spare.state == 2 || d.spare.state == 3)
    && h.check == ferryCheck h bs) = true := by
  obtain ⟨h1, h2, h3⟩ := ho
  have h3' : (paired d || d.spare.state == 2 || d.spare.state == 3) = true := by simpa [or_assoc] using h3
  rw [h3', h1, beq_iff_eq.mpr h2, beq_iff_eq.mpr hc]
  rfl

theorem ferryIn_acked (hf : (f d).2 = true) : ferryIn src h bs f d = send (.ferryAck src h.step h.fseq) (f d).1 :=
  (if_pos (ferryIn_open ho hc)).trans (if_pos hf)

theorem ferryIn_unacked (hf : (f d).2 = false) : ferryIn src h bs f d = (f d).1 :=
  (if_pos (ferryIn_open ho hc)).trans (if_neg (ne_true_of_eq_false hf))

end

/-- A write into the lagoon that is applied whole is the model's write. -/
theorem lagoonStore_whole {committed : Bool} (hw : (lagoonStore committed h bs d).2 = true) :
    (lagoonStore committed h bs d).1.lagoon.objs = lagoonWrite committed h bs d.lagoon.objs := by
  have hkeep := (SectorsWork.writeBytes (lagoonKey h.obj h.part (b2n (committed == (lagoonGet d.lagoon.objs h.obj h.part).sel))) h.off bs.length d).lagoon
  rw [← hkeep]
  exact if_pos hw

end

section
variable {s : State} {src : Pos} {h : FerryHeader} {bs : Bytes}

/-- The four ferry packets go through one gate. -/
theorem ferryPacket_idle (hd : ∀ f, ferryIn src h bs f s.dev = s.dev) {c : Instr}
    (hc : c ∈ [Instr.ferryData src h bs, .reseed src h bs, .record src h bs, .ledger src h bs]) : exec c s = .next s := by
  simp only [List.mem_cons, List.not_mem_nil, or_false] at hc
  rcases hc with rfl | rfl | rfl | rfl
  · exact eff_idle (hd _)
  · exact eff_idle (hd _)
  · exact eff_idle (hd _)
  · exact eff_idle (hd _)

section
variable (ho : FerryOpen s.dev src) (hk : h.check = ferryCheck h bs)
include ho hk

theorem exec_ferryWrite {c : Instr} {committed : Bool} (hc : (c, committed) ∈ [(Instr.ferryData src h bs, false), (.reseed src h bs, true)]) :
    ((lagoonStore committed h bs s.dev).2 = true →
      exec c s = .next { s with dev := send (.ferryAck src h.step h.fseq) (lagoonStore committed h bs s.dev).1 }) ∧
    ((lagoonStore committed h bs s.dev).2 = false → exec c s = .next { s with dev := (lagoonStore committed h bs s.dev).1 }) := by
  simp only [List.mem_cons, Prod.mk.injEq, List.not_mem_nil, or_false] at hc
  rcases hc with ⟨rfl, rfl⟩ | ⟨rfl, rfl⟩
  · exact ⟨fun hw => eff_eq_dev (ferryIn_acked ho hk hw), fun hw => eff_eq_dev (ferryIn_unacked ho hk hw)⟩
  · exact ⟨fun hw => eff_eq_dev (ferryIn_acked ho hk hw), fun hw => eff_eq_dev (ferryIn_unacked ho hk hw)⟩

theorem exec_record_own (hp : h.part ≠ 1) :
    exec (.record src h bs) s = .next (s.onDev (fun d => send (.ferryAck src h.step h.fseq) (recordIn h bs d))) := by
  refine eff_eq_onDev ((ferryIn_acked ho hk rfl).trans ?_)
  simp only [if_neg hp]

theorem exec_record_back (hp : h.part = 1) :
    exec (.record src h bs) s = .next (s.onDev (fun d => send (.ferryAck src h.step h.fseq) (tableIn h bs d))) := by
  refine eff_eq_onDev ((ferryIn_acked ho hk rfl).trans ?_)
  simp only [if_pos hp]

theorem exec_ledger_back (hp : h.part = 1) : exec (.ledger src h bs) s = .next (s.onDev (fun d => send (.ferryAck src h.step h.fseq)
    { d with spare := { d.spare with
      ledger := ((List.range (bs.length / 64)).map (fun i => slice bs (64 * i) 64)).foldl ledgerPut d.spare.ledger } })) := by
  refine eff_eq_onDev ((ferryIn_acked ho hk rfl).trans ?_)
  simp only [if_pos hp]

theorem exec_ledger_own (hp : h.part ≠ 1) :
    exec (.ledger src h bs) s = .next (s.onDev (fun d => send (.ferryAck src h.step h.fseq) (ledgerIn bs d))) := by
  refine eff_eq_onDev ((ferryIn_acked ho hk rfl).trans ?_)
  simp only [if_neg hp]

end

/-! ### FERRY_ACK and the timer (13 R440) -/

theorem exec_ferryAck {step fseq : Nat} (hc : clocksRun s.dev = true) (hp : src = s.dev.pair.partner) :
    exec (.ferryAck src step fseq) s = .next (s.onDev (fun d =>
      let left := d.pair.unacked.filter (fun u => !(u.hdr.fseq == fseq && u.hdr.step == step))
      { d with
        pair := { d.pair with unacked := left, exposed := d.pair.exposed && left.any (fun u => u.hdr.step == 0) }
        items := aMap d.items (fun _ it => if it.ledgerFseq = some fseq then { it with ledgerAck := true } else it) })) :=
  eff_eq_onDev (if_pos (by simp [hc, hp]))

theorem exec_ferryAck_idle {step fseq : Nat} (h : clocksRun s.dev = false ∨ src ≠ s.dev.pair.partner) :
    exec (.ferryAck src step fseq) s = .next s := eff_idle (if_neg (by rcases h with h | h <;> simp [h]))

theorem exec_ferryResendTimer {fseq : Nat} {u : FerryOut} (hu : s.dev.pair.unacked.find? (fun u => u.hdr.fseq == fseq) = some u)
    (hc : clocksRun s.dev = true) (hp : paired s.dev = true) :
    exec (.ferryResendTimer fseq) s = .next (s.onDev (send (.ferry s.dev.pair.partner u.use u.hdr u.bytes))) := by
  refine eff_eq_onDev ?_
  simp only [hu, hc, hp, Bool.and_self, if_true]

theorem exec_ferryResendTimer_idle {fseq : Nat}
    (h : (∀ u ∈ s.dev.pair.unacked, u.hdr.fseq ≠ fseq) ∨ clocksRun s.dev = false ∨ paired s.dev = false) :
    exec (.ferryResendTimer fseq) s = .next s := by
  refine eff_idle ?_
  split
  case h_1 u hu =>
    have hfound : u ∈ s.dev.pair.unacked ∧ u.hdr.fseq = fseq := ⟨List.mem_of_find?_eq_some hu, by simpa using List.find?_some hu⟩
    refine if_neg fun hall => ?_
    rw [Bool.and_eq_true] at hall
    rcases h with h | h | h
    · exact h u hfound.1 hfound.2
    · simp [hall.1] at h
    · simp [hall.2] at h
  case h_2 => rfl

end

/-! ### The lagoon (13 R438) -/

/-- The object found is the one that is asked for. -/
theorem lagoonGet_key (l : List LagoonObj) (obj part : Nat) : (lagoonGet l obj part).obj = obj ∧ (lagoonGet l obj part).part = part := by
  unfold lagoonGet
  cases h : l.find? (fun o => o.obj == obj && o.part == part) with
  | none => exact ⟨rfl, rfl⟩
  | some o => simpa using List.find?_some h

theorem lagoonGet_lagoonPut (l : List LagoonObj) (o : LagoonObj) : lagoonGet (lagoonPut l o) o.obj o.part = o := by
  have hgone : (l.filter (fun x => !(x.obj == o.obj && x.part == o.part))).find? (fun x => x.obj == o.obj && x.part == o.part) = none := by
    refine List.find?_eq_none.mpr fun x hx => ?_
    have hx' := (List.mem_filter.mp hx).2
    rw [Bool.not_eq_true'] at hx'
    exact ne_true_of_eq_false hx'
  unfold lagoonGet lagoonPut
  rw [List.find?_append, hgone]
  simp

/-- The object that a packet writes, before it is stored again: in a step's first write of a warm set the other buffer begins as a copy. -/
def lagoonOther (h : FerryHeader) (o : LagoonObj) : LagoonObj :=
  if (o.mark != some h.step && h.part == 2) = true then (if o.sel then { o with buf0 := o.buf1 } else { o with buf1 := o.buf0 }) else o

section
variable (h : FerryHeader) (bs : Bytes) (o : LagoonObj)

theorem lagoonOther_keeps : (lagoonOther h o).obj = o.obj ∧ (lagoonOther h o).part = o.part ∧ (lagoonOther h o).sel = o.sel ∧
    lagoonCommitted (lagoonOther h o) = lagoonCommitted o := by
  unfold lagoonOther lagoonCommitted
  split
  · cases hs : o.sel <;> simp
  · exact ⟨rfl, rfl, rfl, rfl⟩

/-- An object with bytes in the buffer that a step writes, and the step's mark. -/
def lagoonMarked : LagoonObj :=
  let x := lagoonOther h o
  let y := if (false == x.sel) = true then { x with buf1 := memWrite x.buf1 h.off bs } else { x with buf0 := memWrite x.buf0 h.off bs }
  { y with mark := some h.step }

/-- An object with bytes in its committed buffer. -/
def lagoonReseeded : LagoonObj :=
  if (true == o.sel) = true then { o with buf1 := memWrite o.buf1 h.off bs } else { o with buf0 := memWrite o.buf0 h.off bs }

theorem lagoonMarked_spec : (lagoonMarked h bs o).obj = o.obj ∧ (lagoonMarked h bs o).part = o.part ∧
    memRead (if (lagoonMarked h bs o).sel then (lagoonMarked h bs o).buf0 else (lagoonMarked h bs o).buf1) h.off bs.length = bs ∧
    lagoonCommitted (lagoonMarked h bs o) = lagoonCommitted o ∧ (lagoonMarked h bs o).mark = some h.step := by
  obtain ⟨hobj, hpart, -, hcom⟩ := lagoonOther_keeps h o
  unfold lagoonMarked
  rw [← hobj, ← hpart, ← hcom]
  generalize lagoonOther h o = x
  cases hs : x.sel <;> simp [lagoonCommitted, hs, memRead_memWrite_same]

theorem lagoonReseeded_spec : (lagoonReseeded h bs o).obj = o.obj ∧ (lagoonReseeded h bs o).part = o.part ∧
    memRead (lagoonCommitted (lagoonReseeded h bs o)) h.off bs.length = bs ∧ (lagoonReseeded h bs o).mark = o.mark ∧
    (lagoonReseeded h bs o).sel = o.sel := by
  unfold lagoonReseeded
  cases o.sel <;> simp [lagoonCommitted, memRead_memWrite_same]

end

section
variable (h : FerryHeader) (bs : Bytes) (l : List LagoonObj)

theorem lagoonWrite_step : lagoonWrite false h bs l = lagoonPut l (lagoonMarked h bs (lagoonGet l h.obj h.part)) := by
  unfold lagoonWrite lagoonMarked lagoonOther
  simp only [Bool.not_false, Bool.true_and, Bool.false_eq_true, if_false]

theorem lagoonWrite_reseed : lagoonWrite true h bs l = lagoonPut l (lagoonReseeded h bs (lagoonGet l h.obj h.part)) := by
  unfold lagoonWrite lagoonReseeded
  simp only [Bool.not_true, Bool.false_and, Bool.false_eq_true, if_false, if_true]

/-- What a packet of a step and one of a reseed leave of the object that they write. -/
theorem lagoonWrite_spec :
    let o := lagoonGet l h.obj h.part
    let w := lagoonGet (lagoonWrite false h bs l) h.obj h.part
    let r := lagoonGet (lagoonWrite true h bs l) h.obj h.part
    memRead (if w.sel then w.buf0 else w.buf1) h.off bs.length = bs ∧ lagoonCommitted w = lagoonCommitted o ∧ w.mark = some h.step ∧
    memRead (lagoonCommitted r) h.off bs.length = bs ∧ r.mark = o.mark ∧ r.sel = o.sel := by
  intro o w r
  obtain ⟨hobj, hpart⟩ := lagoonGet_key l h.obj h.part
  obtain ⟨mobj, mpart, mread, mcom, mmark⟩ := lagoonMarked_spec h bs o
  obtain ⟨robj, rpart, rread, rmark, rsel⟩ := lagoonReseeded_spec h bs o
  have hw : w = lagoonMarked h bs o := by
    have hput := lagoonGet_lagoonPut l (lagoonMarked h bs o)
    rw [mobj, mpart, hobj, hpart] at hput
    exact (congrArg (lagoonGet · h.obj h.part) (lagoonWrite_step h bs l)).trans hput
  have hr : r = lagoonReseeded h bs o := by
    have hput := lagoonGet_lagoonPut l (lagoonReseeded h bs o)
    rw [robj, rpart, hobj, hpart] at hput
    exact (congrArg (lagoonGet · h.obj h.part) (lagoonWrite_reseed h bs l)).trans hput
  rw [hw, hr]
  exact ⟨mread, mcom, mmark, rread, rmark, rsel⟩

end

/-- Settles O55: pairing by the verdict of both sides, and the ferry's packets by one gate (`ferryIn`). -/
theorem pairingAndFerryPackets : Obligations.PairingAndFerryPackets := by
  intro s src d
  refine ⟨fun p hs => ⟨fun h => ⟨exec_pair_stranger hs (pairVerdict_none h), fun v => exec_pairReply_stranger v (pairVerdict_none h)⟩,
      exec_pairReply_zero, fun h1 h2 h3 => ?named⟩,
    fun h bs hd c hc => ferryPacket_idle (fun f => ferryIn_shut hd) hc,
    fun h bs h1 h2 h3 => ⟨fun hk c hc => ferryPacket_idle (fun f => ferryIn_bad hk) hc, fun hk => ?ferry⟩, lagoonWrite_spec,
    fun step fseq => exec_ferryAck, fun step fseq => exec_ferryAck_idle, fun fseq => ⟨fun u => exec_ferryResendTimer, exec_ferryResendTimer_idle⟩⟩
  case named =>
    have hv := pairVerdict_some (d := d) ⟨h1, h2, h3⟩
    exact ⟨exec_pair_settles hs hv, fun w hw => exec_pairReply_settles hs hv hw, fun hno d' hd' => pairReply_refused hs ⟨h1, h2, h3⟩ hd' hno,
      fun hyes hf d' hd' => pairReply_safe hs ⟨h1, h2, h3⟩ hd' hyes hf⟩
  case ferry =>
    have ho : FerryOpen d src := ⟨h1, h2, h3⟩
    refine ⟨fun c committed hc => ?_, exec_record_own ho hk, exec_record_back ho hk, exec_ledger_back ho hk, exec_ledger_own ho hk⟩
    obtain ⟨hwhole, hpart⟩ := exec_ferryWrite ho hk hc
    exact ⟨fun hw => ⟨hwhole hw, lagoonStore_whole hw⟩, hpart⟩

end Sys2Proof.Proofs
end

section
/-! Adoption of a position by a spare, the fill, re-entry, and the broadcasts of the management lane (13 R447 to R459, 11 R394, 14 R490). -/
namespace Sys2Proof.Proofs
open Sys2Proof Sys2Proof.Machine Sys2Proof.Laws

/-! ### ADOPT_REQ and ADOPT_REPLY (13 R450, R451) -/

/-- The position that asks is not the partner, or there is no settled pairing with it. -/
def AdoptWrong (d : Dev) (src pos : Pos) : Prop :=
  src ≠ pos ∨ d.pair.partner ≠ pos ∨ d.pair.state = 0 ∨ d.pair.state = 1 ∨ d.pair.state = 4 ∨ d.pair.state = 5

/-- The spare shares this module's feed and neither side overrides that. -/
def AdoptSameFeed (d : Dev) (feed : BitVec 4) : Prop :=
  feed = d.tel.feedId ∧ d.pair.feedOverride = false ∧ d.pair.partnerOverride = false

/-- Another spare holds the position. -/
def AdoptTaken (d : Dev) (serial : BitVec 64) (pos : Pos) : Prop := ∃ a ∈ d.spare.adoptedBy, a.1 = pos ∧ a.2 ≠ serial

theorem unpaired_iff (d : Dev) : unpaired d = true ↔ d.pair.state = 0 ∨ d.pair.state = 4 ∨ d.pair.state = 5 := by
  simp [unpaired, or_assoc]

section
variable {d : Dev} {src pos : Pos} {serial : BitVec 64} {feed : BitVec 4}

theorem adoptAnswer_wrong (h : AdoptWrong d src pos) : adoptAnswer d src serial feed pos = 1 := by
  refine if_pos ?_
  rw [unpaired_iff]
  unfold AdoptWrong at h
  tauto

section
variable (hw : ¬ AdoptWrong d src pos)
include hw

theorem adoptAnswer_asked : ¬ (src ≠ pos ∨ d.pair.partner ≠ pos ∨ unpaired d = true ∨ d.pair.state = 1) := by
  rw [unpaired_iff]
  unfold AdoptWrong at hw
  tauto

theorem adoptAnswer_notLost (hl : pos ∉ d.lnk.lostPos) : adoptAnswer d src serial feed pos = 2 :=
  (if_neg (adoptAnswer_asked hw)).trans (if_pos (by simp [hl]))

variable (hl : pos ∈ d.lnk.lostPos)
include hl

theorem adoptAnswer_sameFeed (hf : AdoptSameFeed d feed) : adoptAnswer d src serial feed pos = 3 :=
  (if_neg (adoptAnswer_asked hw)).trans ((if_neg (by simp [hl])).trans (if_pos hf))

variable (hf : ¬ AdoptSameFeed d feed)
include hf

theorem adoptAnswer_taken (ht : AdoptTaken d serial pos) : adoptAnswer d src serial feed pos = 4 :=
  (if_neg (adoptAnswer_asked hw)).trans ((if_neg (by simp [hl])).trans ((if_neg hf).trans (if_pos (by simpa [AdoptTaken] using ht))))

theorem adoptAnswer_yes (ht : ¬ AdoptTaken d serial pos) : adoptAnswer d src serial feed pos = 0 :=
  (if_neg (adoptAnswer_asked hw)).trans ((if_neg (by simp [hl])).trans ((if_neg hf).trans (if_neg (by simpa [AdoptTaken] using ht))))

end

end

section
variable {s : State} {src pos : Pos} {serial : BitVec 64} {feed : BitVec 4} (hs : serves s.dev = true)
include hs

theorem serves_not : ¬ ((!serves s.dev) = true) := by rw [hs]; decide

theorem exec_adoptReq_no {n : Nat} (h : adoptAnswer s.dev src serial feed pos = n) (hn : n ≠ 0) :
    exec (.adoptReq src serial feed pos) s = .next (s.onDev (send (.adoptReply src n))) := by
  subst h
  exact eff_eq_onDev ((if_neg (serves_not hs)).trans (if_pos hn))

theorem exec_adoptReq_yes (h : adoptAnswer s.dev src serial feed pos = 0) :
    exec (.adoptReq src serial feed pos) s = .next (s.onDev (fun d => giveBack (send (.adoptReply src 0) { d with
      spare := { s.dev.spare with adoptedBy := s.dev.spare.adoptedBy.filter (fun x => x.1 != pos) ++ [(pos, serial)] }
      pair := { s.dev.pair with
        state := if feed = s.dev.tel.feedId then 3 else 2, partnerFeed := feed, partnerSerial := serial
        exposed := true, partnerExposed := true, unacked := [] } }))) :=
  eff_eq_onDev ((if_neg (serves_not hs)).trans (if_neg (not_not.mpr h)))

variable (hp : src = s.dev.pair.partner) (h1 : s.dev.spare.state = 1)
include hp h1

theorem exec_adoptReply_yes :
    exec (.adoptReply src 0) s = .next (s.onDev (fun d => { d with spare := { d.spare with state := 2, cause := 0 } })) :=
  eff_eq_onDev ((if_pos (by simp [hs, hp, h1])).trans (if_pos rfl))

theorem exec_adoptReply_no {n : Nat} (hn : n ≠ 0) : exec (.adoptReply src n) s = .next (s.onDev (adoptFailed n)) :=
  eff_eq_onDev ((if_pos (by simp [hs, hp, h1])).trans (if_neg hn))

end

theorem exec_adoptReply_idle {s : State} {src : Pos} {n : Nat}
    (h : serves s.dev = false ∨ src ≠ s.dev.pair.partner ∨ s.dev.spare.state ≠ 1) : exec (.adoptReply src n) s = .next s :=
  eff_idle (if_neg (by rcases h with h | h | h <;> simp [h]))

/-! ### The fill (13 R450 steps 3 to 5) -/

/-- The buffer of a lagoon's object that a FILL_READ names: the committed one, or the other. -/
def fillSecond (o : LagoonObj) (r : FillRead) : Bool := o.sel != (r.buf != 0)

theorem fillSecond_committed {r : FillRead} (o : LagoonObj) (h : r.buf = 0) :
    (if fillSecond o r then o.buf1 else o.buf0) = lagoonCommitted o := by
  unfold fillSecond lagoonCommitted
  rw [h]
  cases o.sel <;> rfl

section
variable {s : State} {src : Pos} (hs : serves s.dev = true) (hp : src = s.dev.pair.partner)
include hs hp

theorem exec_fillRead {r : FillRead} (hl : r.len ≤ 4032) :
    let h : FerryHeader := { obj := r.obj, part := r.part, off := r.off }
    let o := lagoonGet s.dev.lagoon.objs r.obj r.part
    let bs := memRead (if fillSecond o r then o.buf1 else o.buf0) r.off r.len
    let got := touchBytes (lagoonKey r.obj r.part (b2n (fillSecond o r))) r.off r.len s.dev
    (got.2 = true → exec (.fillRead src r) s = .next { s with dev := send (.fillData src { h with check := ferryCheck h bs } bs) got.1 }) ∧
    (got.2 = false → exec (.fillRead src r) s = .next { s with dev := got.1 }) := by
  intro h o bs got
  have hopen : (serves s.dev && src == s.dev.pair.partner && decide (r.len ≤ 4032)) = true := by simp [hs, hp, hl]
  exact ⟨fun hg => eff_eq_dev ((if_pos hopen).trans (if_pos hg)),
    fun hg => eff_eq_dev ((if_pos hopen).trans (if_neg (ne_true_of_eq_false hg)))⟩

end

/-- A filling spare goes on to the reseed when nothing is left to read. -/
theorem fillDone_filling {sp : Spare} (d : Dev) (h : sp.state = 2) :
    Machine.fillDone { d with spare := sp } = { d with spare := { sp with state := if sp.fillLeft = [] then 3 else 2 } } := by
  by_cases hl : sp.fillLeft = []
  · exact (if_pos (by simp [h, hl])).trans (by rw [if_pos hl])
  · refine (if_neg (by simp [hl])).trans ?_
    rw [if_neg hl, ← h]

/-- A read of the fill that a FILL_DATA answers. -/
def fillAnswers (h : FerryHeader) (bs : Bytes) (r : FillRead) : Bool :=
  r.obj == h.obj && r.part == h.part && r.off == h.off && r.len == bs.length

section
variable {s : State} {src : Pos} {h : FerryHeader} {bs : Bytes}

theorem exec_fillData (hs : serves s.dev = true) (hp : src = s.dev.pair.partner) (h2 : s.dev.spare.state = 2) (hc : h.check = ferryCheck h bs)
    (ha : s.dev.spare.fillLeft.any (fillAnswers h bs) = true) :
    exec (.fillData src h bs) s = .next (s.onDev (fun d =>
      let o := lagoonGet d.spare.objs h.obj h.part
      let left := d.spare.fillLeft.filter (fun r => !fillAnswers h bs r)
      { d with spare := { d.spare with
        objs := lagoonPut d.spare.objs { o with buf0 := memWrite o.buf0 h.off bs }
        fillLeft := left, filled := d.spare.filled + bs.length, state := if left = [] then 3 else 2 } })) := by
  have hopen : (serves s.dev && src == s.dev.pair.partner && s.dev.spare.state == 2 && h.check == ferryCheck h bs &&
      s.dev.spare.fillLeft.any (fillAnswers h bs)) = true := by
    rw [ha, hs, beq_iff_eq.mpr hp, beq_iff_eq.mpr h2, beq_iff_eq.mpr hc]
    rfl
  exact eff_eq_onDev ((if_pos hopen).trans (fillDone_filling _ h2))

theorem exec_fillData_unasked (ha : s.dev.spare.fillLeft.any (fillAnswers h bs) = false) : exec (.fillData src h bs) s = .next s := by
  refine eff_idle (if_neg fun hall => ?_)
  exact ne_true_of_eq_false ha (Bool.and_eq_true_iff.mp hall).2

end

/-! ### The objects that a spare makes again (13 R452) -/

/-- The second device is the same module, in the same position. -/
def SameModule (d e : Dev) : Prop := e.lnk.pos = d.lnk.pos ∧ e.serial = d.serial

namespace SameModule

variable {d e f : Dev}

theorem refl (d : Dev) : SameModule d d := ⟨rfl, rfl⟩

theorem trans (h : SameModule d e) (h' : SameModule e f) : SameModule d f := ⟨h'.1.trans h.1, h'.2.trans h.2⟩

theorem foldl {α : Type} {g : Dev → α → Dev} (h : ∀ d a, SameModule d (g d a)) (l : List α) (d : Dev) : SameModule d (l.foldl g d) :=
  List.foldlRecOn (motive := fun e => SameModule d e) l g (refl d) fun e he a _ => he.trans (h e a)

theorem ofSectors (h : SectorsWork d e) : SameModule d e := ⟨congrArg (·.pos) h.lnk, h.serial⟩

theorem ofSome {α : Type} {p q : α} (h : some (p, e) = some (q, f)) (hd : SameModule d e) : SameModule d f := by
  rw [← (Prod.mk.inj (Option.some.inj h)).2]
  exact hd

theorem newRegion {parity : Bool} {r : Nat} (h : newRegion parity d = some (r, e)) : SameModule d e := by
  unfold Machine.newRegion at h
  dsimp only at h
  split at h
  · exact absurd h (by simp)
  · exact ofSome h ⟨rfl, rfl⟩

theorem takeRegions {parity : Bool} {k left : Nat} {acc l : List (Nat × Nat × Nat)} (h : takeRegions parity k left acc d = some (l, e)) :
    SameModule d e := by
  induction k generalizing left acc d with
  | zero =>
    unfold Machine.takeRegions at h
    split at h
    · exact ofSome h (refl d)
    · exact absurd h (by simp)
  | succ k ih =>
    unfold Machine.takeRegions at h
    split at h
    · exact ofSome h (refl d)
    · cases hn : Machine.newRegion parity d with
      | none => simp [hn] at h
      | some x =>
        rw [hn] at h
        exact (newRegion hn).trans (ih h)

theorem alloc {parity : Bool} {n : Nat} {p : Placement} (h : alloc parity n d = some (p, e)) : SameModule d e := by
  have hfree : SameModule d (takeFree 2 d) := ⟨rfl, rfl⟩
  unfold Machine.alloc at h
  dsimp only at h
  split at h
  · exact ofSome h hfree
  · split at h
    · exact ofSome h hfree
    · split at h
      next hr =>
        exact ofSome h (hfree.trans (takeRegions hr))
      next => exact absurd h (by simp)

theorem withTensors (h : SameModule d e) (t : Assoc Tensor) : SameModule d { e with tensors := t } := h.trans ⟨rfl, rfl⟩

theorem allocWith {parity : Bool} {n : Nat} {p : Placement} {t : Assoc Tensor} (h : Machine.alloc parity n { d with tensors := t } = some (p, e)) :
    SameModule d e := (withTensors (refl d) t).trans (alloc h)

theorem placeTensor {t u : Tensor} (h : placeTensor t d = some (u, e)) : SameModule d e := by
  unfold Machine.placeTensor at h
  split at h
  · exact absurd h (by simp)
  next h0 =>
    split at h
    · split at h
      · exact absurd h (by simp)
      next h1 =>
        exact ofSome h (((alloc h0).trans (allocWith h1)).withTensors _)
    · exact ofSome h (alloc h0)

theorem spareRows (i : Nat) (t : Tensor) (d : Dev) : SameModule d (spareRows i t d).2 := by
  unfold Machine.spareRows
  split
  · exact refl d
  · split
    · exact refl d
    next hp =>
      split
      · split
        · exact placeTensor hp
        next h1 =>
          have hone := (placeTensor hp).trans (allocWith h1)
          dsimp only
          split
          · exact hone
          next h2 => exact hone.trans (allocWith h2)
      · exact placeTensor hp

theorem recreateTensor (gen i : Nat) (b : Bytes) (d : Dev) : SameModule d (recreateTensor gen i b d) :=
  spareRows i _ (dropObjErrs 0 i d)

/-- Rows for a factor set or a warm set: those that it holds, or new ones. -/
theorem heldRows (old : Option Placement) (n : Nat) (d : Dev) :
    SameModule d (match old with
      | some p => (p, d)
      | none => (Machine.alloc true n d).getD (({} : Placement), d)).2 := by
  cases old with
  | some p => exact refl d
  | none =>
    cases h : Machine.alloc true n d with
    | none => exact refl d
    | some x => exact alloc h

/-- The next index of a kind is no part of what a module is. -/
theorem nextIdx (h : SameModule d e) (c : Prop) [Decidable c] (k n : Nat) :
    SameModule d (if c then { e with idx := modAt e.idx k (fun x => { x with next := max x.next n }) } else e) := by
  split
  · exact h.trans ⟨rfl, rfl⟩
  · exact h

theorem recreateObject (b : Bytes) (d : Dev) : SameModule d (recreateObject b d) := by
  unfold Machine.recreateObject
  dsimp only
  refine nextIdx ?_ _ _ _
  split
  · exact recreateTensor ..
  · exact ⟨rfl, rfl⟩
  · exact ⟨rfl, rfl⟩
  · exact ⟨rfl, rfl⟩
  · exact heldRows ..
  · exact heldRows ..
  · split
    · exact refl d
    · exact ⟨rfl, rfl⟩
  · exact refl d

end SameModule

namespace SectorsWork

theorem badSectors (i b off len : Nat) (d : Dev) : SectorsWork d (badSectors i b off len d).1 := by
  unfold Machine.badSectors
  dsimp only
  split
  · refine (countHits ..).trans (foldl (fun x : Dev × List Nat => x.1) (fun x n => ?_) _ _)
    split
    · exact touchSector ..
    · split
      · exact (touchSector ..).trans (logSector ..)
      · exact touchSector ..
  · exact countHits ..

theorem poisonKey (k : SectorKey) (d : Dev) : SectorsWork d (poisonKey k d) := (pokeBuf ..).trans (setErrs ..)

theorem putWorking (w lo : Nat) (bufs : List Nat) (whole : Bool) (vals : List (Option Nat)) (d : Dev) :
    SectorsWork d (putWorking w lo bufs whole vals d) :=
  (foldl (fun x => x) (fun _ _ => storeBuf ..) _ d).trans
    (foldl (fun x => x) (fun d _ => foldl (fun x => x) (fun d _ => poisonKey _ d) _ d) _ _)

theorem regenRange (i lo hi : Nat) (d : Dev) : SectorsWork d (regenRange i lo hi d) := by
  unfold Machine.regenRange
  split
  · exact refl d
  · exact (badSectors ..).trans (putWorking ..)

theorem writeLossTensor (d : Dev) : SectorsWork d (writeLossTensor d) := by
  unfold Machine.writeLossTensor
  split
  · exact storeBuf ..
  · exact refl d

end SectorsWork

/-! ### The end of the fill (13 R450 steps 6 to 8) -/

/-- The spare of a device as it serves after the reseed: the objects of the table, their working copies and the pairing. -/
def spareRefilled (d : Dev) : Dev :=
  let order := fun (k : Nat) => d.spare.table.filter (fun e => (hKind (BitVec.ofNat 64 (fieldLe e 0 8)) == 4) == (k == 0))
  let d := (order 0 ++ order 1).foldl (fun d e => recreateObject e d) d
  let d := d.tensors.foldl (fun d t => if t.2.master = 2 then regenRange t.1 0 (tElems t.2) d else d) d
  writeLossTensor { d with pair := { d.pair with
    state := if d.pair.partnerFeed == d.tel.feedId then 3 else 2, exposed := false, changes := [] } }

theorem SameModule.spareRefilled (d : Dev) : SameModule d (spareRefilled d) := by
  unfold Proofs.spareRefilled
  dsimp only
  refine trans ?_ ((show SameModule _ _ from ⟨rfl, rfl⟩).trans (ofSectors (SectorsWork.writeLossTensor _)))
  refine (foldl (fun d b => recreateObject b d) _ d).trans (foldl (fun d t => ?_) _ _)
  split
  · exact ofSectors (SectorsWork.regenRange ..)
  · exact refl d

/-- A management packet counts, and goes. -/
theorem mgmtSend_sends (f : Nat → Sent) (d : Dev) : ∃ n, Sends { d with lnk := { d.lnk with mgmtSeq := n } } (mgmtSend f d) :=
  ⟨_, Sends.send ..⟩

theorem announceAdopted_spec (d : Dev) : (announceAdopted d).spare.state = 4 ∧ (announceAdopted d).spare.reentry = false ∧
    (announceAdopted d).spare.table = [] ∧ (d.lnk.pos, d.serial) ∈ (announceAdopted d).lnk.adopted := by
  unfold announceAdopted
  dsimp only
  obtain ⟨r, p0, p1, y, hlog⟩ := logRec_frame (ofModule d d.lnk.pos { sev := 15, cls := 0x603 })
    { d with spare := { d.spare with state := 4, reentry := false, objs := [], table := [] }
             lnk := { d.lnk with adopted := d.lnk.adopted ++ [(d.lnk.pos, d.serial)] } }
  rw [hlog]
  obtain ⟨n, ls, ss, y', hsend⟩ := mgmtSend_sends (fun n => .adopted none n d.lnk.pos d.serial d.tide.count)
    { d with spare := { d.spare with state := 4, reentry := false, objs := [], table := [] }
             lnk := { d.lnk with adopted := d.lnk.adopted ++ [(d.lnk.pos, d.serial)] }, ras := r, pf0 := p0, pf1 := p1, out := y }
  rw [hsend]
  exact ⟨rfl, rfl, rfl, List.mem_append_right _ (List.mem_singleton_self _)⟩

theorem exec_spareFillComplete {s : State} (hs : serves s.dev = true) (h3 : s.dev.spare.state = 3) (he : s.dev.pair.partnerExposed = false) :
    exec .spareFillComplete s = .next { s with dev := announceAdopted (spareRefilled s.dev) } :=
  eff_eq_dev (if_pos (by simp [hs, h3, he]))

theorem exec_spareFillComplete_idle {s : State} (h : s.dev.spare.state ≠ 3 ∨ s.dev.pair.partnerExposed = true) :
    exec .spareFillComplete s = .next s := eff_idle (if_neg (by rcases h with h | h <;> simp [h]))

theorem spareFillComplete_adopts {s : State} (hs : serves s.dev = true) (h3 : s.dev.spare.state = 3) (he : s.dev.pair.partnerExposed = false) :
    ∃ d', exec .spareFillComplete s = .next { s with dev := d' } ∧ d'.spare.state = 4 ∧ d'.spare.reentry = false ∧ d'.spare.table = [] ∧
      (s.dev.lnk.pos, s.dev.serial) ∈ d'.lnk.adopted := by
  obtain ⟨hpos, hser⟩ := SameModule.spareRefilled s.dev
  obtain ⟨hst, hre, htab, had⟩ := announceAdopted_spec (spareRefilled s.dev)
  rw [hpos, hser] at had
  exact ⟨_, exec_spareFillComplete hs h3 he, hst, hre, htab, had⟩

/-! ### Re-entry (13 R457) -/

theorem exec_decisionReq {s : State} {src : Pos} {step : Nat} (hc : clocksRun s.dev = true) : exec (.decisionReq src step) s =
    .next (s.onDev (send (.decisionReply src (((s.dev.vote.history.find? (fun x => x.1 == step)).map (·.2)).getD 0)))) :=
  eff_eq_onDev (if_pos hc)

/-- A re-entering module that has asked its partner or settled what serves. -/
def reentryAsked (d : Dev) : Dev := { d with spare := { d.spare with reqSent := true } }

/-- A re-entering module whose own epochs serve, by the decision. -/
def reentryOwn (w : BitVec 32) (d : Dev) : Dev :=
  let e := if w.extractLsb' 0 2 = 1#2 then flipEpochs (reentryAsked d) else reentryAsked d
  announceAdopted { e with step := { state := .none, lastCommitted := d.step.lastCommitted, lastDecision := w } }

section
variable {s : State} {src : Pos} {w : BitVec 32}

/-- A re-entering module waits for the acting master's answer. -/
def ReentryWaits (d : Dev) (src : Pos) : Prop :=
  serves d = true ∧ d.spare.reentry = true ∧ d.spare.state = 1 ∧ d.spare.reqSent = false ∧ src = d.tide.acting

theorem partner_gone (hl : s.dev.pair.state = 6 ∨ s.dev.pair.partner ∈ s.dev.lnk.lostPos) :
    ¬ (s.dev.pair.state ≠ 6 ∧ (!s.dev.lnk.lostPos.contains s.dev.pair.partner) = true) := by
  rintro ⟨h6, hin⟩
  exact hl.elim h6 (by simpa using hin)

section
variable (hr : ReentryWaits s.dev src)
include hr

theorem decisionReply_open :
    (serves s.dev && s.dev.spare.reentry && s.dev.spare.state == 1 && !s.dev.spare.reqSent && src == s.dev.tide.acting) = true := by
  obtain ⟨h1, h2, h3, h4, h5⟩ := hr
  simp [h1, h2, h3, h4, h5]

theorem exec_decisionReply_asks (h6 : s.dev.pair.state ≠ 6) (hl : s.dev.pair.partner ∉ s.dev.lnk.lostPos) :
    exec (.decisionReply src w) s = .next (s.onDev (fun _ =>
      send (.adoptReq s.dev.pair.partner s.dev.serial s.dev.tel.feedId s.dev.lnk.pos) (reentryAsked s.dev))) :=
  eff_eq_onDev ((if_pos (decisionReply_open hr)).trans (if_pos ⟨h6, by simp [hl]⟩))

section
variable (hl : s.dev.pair.state = 6 ∨ s.dev.pair.partner ∈ s.dev.lnk.lostPos)
include hl

theorem exec_decisionReply_lost (hw : s.dev.step.ready = false ∨ w = 0) :
    exec (.decisionReply src w) s = .next (s.onDev (fun _ => stateLost (reentryAsked s.dev))) :=
  eff_eq_onDev ((if_pos (decisionReply_open hr)).trans ((if_neg (partner_gone hl)).trans
    (if_neg (by rcases hw with hw | hw <;> simp [hw]))))

theorem exec_decisionReply_own (hy : s.dev.step.ready = true) (hw : w ≠ 0) :
    exec (.decisionReply src w) s = .next (s.onDev (fun _ => reentryOwn w s.dev)) := by
  refine eff_eq_onDev ((if_pos (decisionReply_open hr)).trans ((if_neg (partner_gone hl)).trans ((if_pos ⟨hy, hw⟩).trans ?_)))
  unfold reentryOwn
  simp only [beq_iff_eq]
  rfl

end

end

theorem exec_decisionReply_idle (h : serves s.dev = false ∨ s.dev.spare.reentry = false ∨ s.dev.spare.state ≠ 1 ∨ s.dev.spare.reqSent = true ∨
    src ≠ s.dev.tide.acting) : exec (.decisionReply src w) s = .next s :=
  eff_idle (if_neg (by rcases h with h | h | h | h | h <;> simp [h]))

end

/-! ### Broadcasts (14 R490) -/

/-- A broadcast of this module, or one that was seen before. -/
def BroadcastKnown (d : Dev) (mseq : Nat) (pos : Pos) : Prop := pos = d.lnk.pos ∨ ∃ x ∈ d.lnk.mgmtSeen, x.1 = pos ∧ mseq ≤ x.2

/-- The device that has passed a broadcast on. -/
def broadcastPassed (mseq : Nat) (pos : Pos) (m : Sent) (d : Dev) : Dev :=
  send m { d with lnk := { d.lnk with mgmtSeen := d.lnk.mgmtSeen.filter (fun x => x.1 != pos) ++ [(pos, mseq)] } }

section
variable {d : Dev} {mseq : Nat} {pos : Pos} {m : Sent} {f : Dev → Dev}

theorem broadcastPassed_keeps : (broadcastPassed mseq pos m d).pair = d.pair ∧ (broadcastPassed mseq pos m d).step = d.step := by
  unfold broadcastPassed
  obtain ⟨ls, ss, y, h⟩ := Sends.send m { d with lnk := { d.lnk with mgmtSeen := d.lnk.mgmtSeen.filter (fun x => x.1 != pos) ++ [(pos, mseq)] } }
  rw [h]
  exact ⟨rfl, rfl⟩

theorem floodIn_known (h : BroadcastKnown d mseq pos) : floodIn mseq pos m f d = d := by
  refine if_pos ?_
  obtain h | ⟨x, hx, hp, hm⟩ := h
  · simp [h]
  · have hany : d.lnk.mgmtSeen.any (fun x => x.1 == pos && decide (mseq ≤ x.2)) = true :=
      List.any_eq_true.mpr ⟨x, hx, by simp [hp, hm]⟩
    rw [hany, Bool.or_true]

theorem floodIn_new (hc : clocksRun d = true) (h : ¬ BroadcastKnown d mseq pos) :
    floodIn mseq pos m f d = f (broadcastPassed mseq pos m d) := by
  refine if_neg fun hall => h ?_
  simp only [hc, Bool.not_true, Bool.false_or, Bool.or_eq_true, beq_iff_eq, List.any_eq_true, Bool.and_eq_true, decide_eq_true_eq] at hall
  exact hall

end

/-- The strait record of a broadcast, kept. -/
def straitNoted (pos : Pos) (lost : BitVec 6) (act : BitVec 24) (tide : Nat) (e : Dev) : Dev :=
  noteChange (BitVec.ofNat 64 (0xFE * 2 ^ 56 + posIndex e pos)) { e with
    lnk := { e.lnk with recs := e.lnk.recs.filter (fun x => x.pos != pos) ++ [{ pos := pos, lost := lost, active := act, tide := tide }] }
    tide := { e.tide with treeStale := true } }

/-- The failed position of a broadcast, noted; a lost lagoon of the partner of `d` fails the ferry of its running step. -/
def failureNoted (pos : Pos) (cls : BitVec 16) (d e : Dev) : Dev :=
  { e with
    lnk := { e.lnk with announced := addNew e.lnk.announced pos }
    spare := { e.spare with adoptedBy := e.spare.adoptedBy.filter (fun a => a.1 != pos) }
    step := if cls = 0x305 ∧ pos = d.pair.partner ∧ d.step.state = .running then { e.step with ferryFail := true } else e.step }

/-- The ferry of a step that a condition fails. -/
theorem ferryFails_if (c : Prop) [Decidable c] (d : Dev) :
    (if c then ferryFails d else d) = { d with step := if c ∧ d.step.state = .running then { d.step with ferryFail := true } else d.step } := by
  unfold ferryFails
  by_cases hc : c
  · by_cases hr : d.step.state = .running
    · simp [hc, hr]
    · simp [hc, hr]
  · simp [hc]

theorem failureNoted_of {pos : Pos} {cls : BitVec 16} {d e : Dev} (hp : e.pair = d.pair) (hs : e.step = d.step) :
    failureNoted pos cls e e = failureNoted pos cls d e := by
  unfold failureNoted
  rw [hp, hs]

section
variable {s : State} {arr mseq : Nat} {pos : Pos} {lost : BitVec 6} {act : BitVec 24} {cls : BitVec 16} {serial : BitVec 64} {tide : Nat}

theorem exec_broadcast_known (h : BroadcastKnown s.dev mseq pos) {c : Instr}
    (hc : c ∈ [Instr.straitState arr mseq pos lost act tide, .deviceFailed arr mseq pos cls tide, .adopted arr mseq pos serial tide]) :
    exec c s = .next s := by
  simp only [List.mem_cons, List.not_mem_nil, or_false] at hc
  rcases hc with rfl | rfl | rfl
  · exact eff_idle (floodIn_known h)
  · exact eff_idle (floodIn_known h)
  · exact eff_idle (floodIn_known h)

variable (hc : clocksRun s.dev = true) (h : ¬ BroadcastKnown s.dev mseq pos)
include hc h

theorem exec_straitState_new : exec (.straitState arr mseq pos lost act tide) s = .next (s.onDev (fun _ =>
    straitNoted pos lost act tide (broadcastPassed mseq pos (.straitState (some arr) mseq pos lost act tide) s.dev))) :=
  eff_eq_onDev (floodIn_new hc h)

theorem exec_deviceFailed_new : exec (.deviceFailed arr mseq pos cls tide) s = .next (s.onDev (fun _ =>
    failureNoted pos cls s.dev (broadcastPassed mseq pos (.deviceFailed (some arr) mseq pos cls tide) s.dev))) := by
  refine eff_eq_onDev ((floodIn_new hc h).trans ((ferryFails_if ..).trans (Eq.trans ?_
    (failureNoted_of broadcastPassed_keeps.1 broadcastPassed_keeps.2))))
  simp only [and_assoc]
  rfl

theorem exec_adopted_new : exec (.adopted arr mseq pos serial tide) s = .next (s.onDev (fun _ =>
    let e := broadcastPassed mseq pos (.adopted (some arr) mseq pos serial tide) s.dev
    { e with lnk := { e.lnk with adopted := e.lnk.adopted ++ [(pos, serial)] } })) :=
  eff_eq_onDev (floodIn_new hc h)

end

/-- Settles O56: the answers of a partner (`adoptAnswer`), the fill, the recreated objects, re-entry, and broadcasts (`floodIn`). -/
theorem adoptionAndManagementPackets : Obligations.AdoptionAndManagementPackets := by
  intro s src d
  refine ⟨fun serial feed pos hs => ?req, fun hs hp h1 => ⟨exec_adoptReply_yes hs hp h1, fun n => exec_adoptReply_no hs hp h1⟩,
    fun n => exec_adoptReply_idle, fun r hs hp hl => ⟨fun h0 => fillSecond_committed _ h0, exec_fillRead hs hp hl⟩,
    fun h bs hs hp h2 hc => ⟨exec_fillData hs hp h2 hc, exec_fillData_unasked⟩, spareFillComplete_adopts, exec_spareFillComplete_idle,
    fun step => exec_decisionReq, fun w h1 h2 h3 h4 h5 => ?reentry, fun w => exec_decisionReply_idle,
    fun arr mseq pos hc lost act cls serial tide => ⟨fun hk c => exec_broadcast_known hk, fun hn => ?new⟩⟩
  case req =>
    exact ⟨fun hw => exec_adoptReq_no hs (adoptAnswer_wrong hw) (by decide), fun hw hl => exec_adoptReq_no hs (adoptAnswer_notLost hw hl) (by decide),
      fun hw hl hf => exec_adoptReq_no hs (adoptAnswer_sameFeed hw hl hf) (by decide),
      fun hw hl hf ht => exec_adoptReq_no hs (adoptAnswer_taken hw hl hf ht) (by decide),
      fun hw hl hf ht => exec_adoptReq_yes hs (adoptAnswer_yes hw hl hf ht)⟩
  case reentry =>
    have hr : ReentryWaits d src := ⟨h1, h2, h3, h4, h5⟩
    exact ⟨exec_decisionReply_asks hr, exec_decisionReply_lost hr, exec_decisionReply_own hr⟩
  case new => exact ⟨exec_straitState_new hc hn, exec_deviceFailed_new hc hn, exec_adopted_new hc hn⟩

end Sys2Proof.Proofs
end
